-- ==== Sys2Proof/Word.lean ====
section
/-! DEFINITION. The word types of the module: what the spec treats as bits. -/

namespace Sys2Proof

/-- A byte of memory or of a record. -/
abbrev Byte := BitVec 8

/-- A register of BAR0: 32 bits (R7). -/
abbrev Word := BitVec 32

/-- A Datum time, a host address or a key half: 64 bits. -/
abbrev DWord := BitVec 64

/-- A printed chainage as software sees it: 48 bits, in links (R6). -/
abbrev Chainage := BitVec 48

end Sys2Proof
end

