-- ==== Sys2Proof/Descriptors.lean ====
section
/-! DEFINITION. The fields that host descriptors carry (R121 to R127), as the module reads them, and the other
compound operands of commands. -/

namespace Sys2Proof

/-- What a host-written descriptor carries for its completion: its ring, index, tag, opcode, the phase, irq and quiet
flags (R121), and the completion target its ring named when it was fetched (R119). -/
structure DescRef where
  ring : Nat := 0
  index : Nat := 0
  tag : Nat := 0
  opcode : Nat := 0
  irq : Bool := false
  quiet : Bool := false
  target : Nat := 20
  phase : Bool := false
  deriving DecidableEq, Repr

/-- A descriptor as fetched: byte 0, byte 1 and the tag (R121). -/
structure DescHead where
  opcode : Nat
  phase : Bool
  irq : Bool
  quiet : Bool
  tag : Nat
  deriving DecidableEq, Repr

/-- JOB_OPEN (R123). -/
structure JobOpenF where
  jobTag : Nat
  streamed : Nat
  layers : Nat
  depth : Nat
  planes : Nat
  along : Nat
  across : Nat
  width : Nat
  repeatLen : Nat
  reserve : Nat
  deriving DecidableEq, Repr

/-- JOB_IMAGE (R123). -/
structure JobImageF where
  jobTag : Nat
  layer : Nat
  plane : Nat
  format : Nat
  firstLine : Nat
  lineCount : Nat
  firstPixel : Nat
  pixelCount : Nat
  byteLen : Nat
  addr : Nat
  last : Bool
  flush : Bool
  deriving DecidableEq, Repr

/-- JOB_ARM (R123). -/
structure JobArmF where
  jobTag : Nat
  start : Nat
  repeats : Nat
  origin : Nat
  deriving DecidableEq, Repr

/-- BLOCK_DATA (R123). -/
structure BlockDataF where
  jobTag : Nat
  layer : Nat
  plane : Nat
  block : Nat
  byteLen : Nat
  request : Nat
  addr : Nat
  deriving DecidableEq, Repr

/-- REVOKE (R124). -/
structure RevokeF where
  layer : Nat
  now : Bool
  first : Word
  last : Word
  effect : Nat
  deriving DecidableEq, Repr

/-- STN_COMMIT (R124): the slot and its five fields. -/
structure StnCommitF where
  slot : Nat
  tgt : Nat
  act : Nat
  arg : Nat
  ivl : Nat
  count : Nat
  deriving DecidableEq, Repr

/-- ITEM (R125). -/
structure ItemF where
  item : Word
  fence : Word
  format : Nat
  channels : Nat
  width : Nat
  height : Nat
  byteLen : Nat
  addr : Nat
  xOff : Nat
  yOff : Nat
  last : Bool
  deriving DecidableEq, Repr

/-- TABLE_COMMIT (R126). -/
structure TableF where
  table : Nat
  plane : Nat
  isPartial : Bool
  now : Bool
  first : Nat
  count : Nat
  byteLen : Nat
  addr : Nat
  effect : Nat
  deriving DecidableEq, Repr

/-- BUFFER (R127). -/
structure BufferF where
  len : Nat
  addr : Nat
  deriving DecidableEq, Repr

/-- How the reads of one stored block came out when an engine took it (R175, R200): the block of a stream
(`item` none) or of an item, whose first read failed its check, and whether the reread failed too. -/
structure BlockRead where
  job : Nat
  layer : Nat
  plane : Nat
  item : Option Word
  block : Nat
  rereadBad : Bool
  deriving DecidableEq, Repr

/-- How the load of a table version into an engine's scratch came out (R395): its table code and plane or layer, of
which the first copy failed its check, and whether the second failed too. -/
structure TableLoad where
  table : Nat
  idx : Nat
  both : Bool
  deriving DecidableEq, Repr

end Sys2Proof
end

