-- ==== Sys2Proof/Machine/Bits.lean ====
section
/-! DEFINITION. Bit fields, sign extension, byte order and the chainage comparison of R6. -/

namespace Sys2Proof.Machine

/-- Bits `hi` to `lo` of a number. -/
def bitsOf (n hi lo : Nat) : Nat := (n >>> lo) % 2 ^ (hi + 1 - lo)

/-- `n` with its bits `hi` to `lo` replaced by the low bits of `v`. -/
def withBits (n hi lo v : Nat) : Nat :=
  n - bitsOf n hi lo * 2 ^ lo + (v % 2 ^ (hi + 1 - lo)) * 2 ^ lo

/-- Bit `i` of a number. -/
def bitAt (n i : Nat) : Bool := n.testBit i

/-- A Bool as a bit. -/
def ofBool (b : Bool) : Nat := if b then 1 else 0

/-- The `w`-bit two's complement value of `n`. -/
def signed (w n : Nat) : Int :=
  if n % 2 ^ w < 2 ^ (w - 1) then (n % 2 ^ w : Nat) else ((n % 2 ^ w : Nat) : Int) - (2 ^ w : Nat)

/-- The low `w` bits of an integer, in two's complement. -/
def unsigned (w : Nat) (i : Int) : Nat := (i % ((2 ^ w : Nat) : Int)).toNat

/-- `i` held within `lo` to `hi`. -/
def clampInt (lo hi i : Int) : Int := if i < lo then lo else if hi < i then hi else i

/-- `n` held within `lo` to `hi`. -/
def clampNat (lo hi n : Nat) : Nat := if n < lo then lo else if hi < n then hi else n

/-- The 32-bit word of a number. -/
def word (n : Nat) : Word := BitVec.ofNat 32 n

/-- The signed 48-bit difference `b - a` of two chainages: how far `b` lies ahead of `a` (R6). -/
def chnDiff (b a : Chainage) : Int := (b - a).toInt

/-- `b` lies at or ahead of `a` (R6). -/
def chnAtOrAhead (b a : Chainage) : Bool := decide (0 ≤ chnDiff b a)

/-- The signed 32-bit difference of two epochs (R21). -/
def epochDiff (b a : Word) : Int := (b - a).toInt

/-- Epoch `b` is newer than epoch `a`: ahead by 1 to 2^31 - 1 (R21). -/
def epochNewer (b a : Word) : Bool := decide (0 < epochDiff b a)

/-- The number that a little-endian list of bytes spells. -/
def leNat : List Byte → Nat
  | [] => 0
  | b :: r => b.toNat + 256 * leNat r

/-- The `n` bytes of a number, little-endian. -/
def leBytes : Nat → Nat → List Byte
  | 0, _ => []
  | n + 1, v => BitVec.ofNat 8 v :: leBytes n (v / 256)

/-- The `len` bytes of a record from byte `off`, as a little-endian number. -/
def leField (r : List Byte) (off len : Nat) : Nat := leNat ((r.drop off).take len)

/-- Apply `f` to each index below `n` in turn. -/
def forRange {α : Type} (n : Nat) (f : Nat → α → α) (a : α) : α :=
  (List.range n).foldl (fun x i => f i x) a

/-- The number of ones among the low `w` bits of a number. -/
def popCount : Nat → Nat → Nat
  | 0, _ => 0
  | w + 1, n => n % 2 + popCount w (n / 2)

/-- Ceiling division. -/
def ceilDiv (a b : Nat) : Nat := (a + b - 1) / b

end Sys2Proof.Machine
end

