-- ==== Sys2Proof/Machine/Tab.lean ====
section
/-! DEFINITION. Tables: plain data keyed by number, in one canonical form. Keys rise strictly and no entry
equals what an unlisted key reads as, so that equal tables are equal lists. -/

namespace Sys2Proof.Machine

/-- A table from numbers to values: (key, value) pairs, keys strictly rising, no entry at its default. -/
abbrev Tab (α : Type) := List (Nat × α)

/-- The entry at key `i`, or the default of that key. -/
def Tab.getD {α : Type} (d : Nat → α) : Tab α → Nat → α
  | [], i => d i
  | (k, v) :: r, i => if k = i then v else Tab.getD d r i

/-- The table without an entry for key `i`, given rising keys. -/
def Tab.erase {α : Type} : Tab α → Nat → Tab α
  | [], _ => []
  | (k, v) :: r, i => if k = i then r else if i < k then (k, v) :: r else (k, v) :: Tab.erase r i

/-- The table with `v` listed at key `i`, given rising keys. -/
def Tab.insert {α : Type} : Tab α → Nat → α → Tab α
  | [], i, v => [(i, v)]
  | (k, w) :: r, i, v =>
    if k = i then (i, v) :: r else if i < k then (i, v) :: (k, w) :: r else (k, w) :: Tab.insert r i v

/-- The table with key `i` reading `v`: writing the default removes the entry. -/
def Tab.setD {α : Type} [DecidableEq α] (d : Nat → α) (t : Tab α) (i : Nat) (v : α) : Tab α :=
  if v = d i then Tab.erase t i else Tab.insert t i v

/-- Keys from `b` up rise strictly and no entry is at its default. -/
def Tab.wfFrom {α : Type} [DecidableEq α] (d : Nat → α) : Nat → Tab α → Bool
  | _, [] => true
  | b, (k, v) :: r => decide (b ≤ k) && decide (v ≠ d k) && Tab.wfFrom d (k + 1) r

/-- The canonical form of a table. -/
def Tab.wf {α : Type} [DecidableEq α] (d : Nat → α) (t : Tab α) : Bool := Tab.wfFrom d 0 t

/-- A table whose keys all default to one value. -/
def Tab.get {α : Type} (d : α) (t : Tab α) (i : Nat) : α := Tab.getD (fun _ => d) t i

/-- Writing such a table. -/
def Tab.set {α : Type} [DecidableEq α] (d : α) (t : Tab α) (i : Nat) (v : α) : Tab α :=
  Tab.setD (fun _ => d) t i v

/-- Change one entry of such a table by a function. -/
def Tab.upd {α : Type} [DecidableEq α] (d : α) (t : Tab α) (i : Nat) (f : α → α) : Tab α :=
  Tab.set d t i (f (Tab.get d t i))

end Sys2Proof.Machine
end

