-- ==== Sys2Proof/Machine/Blocks/Host.lean ====
section
/-! DEFINITION. The state of the HST block: rings, completions, held writes and the stop. -/

namespace Sys2Proof.Machine

/-- The kinds of a completion entry (R128). -/
inductive CplKind where
  | completion | request | effect | jobEnd
  deriving DecidableEq, Repr

def CplKind.code : CplKind → Nat
  | .completion => 0 | .request => 1 | .effect => 2 | .jobEnd => 3

/-- The status codes of R130. -/
inductive Status where
  | ok | late | caughtUp | alreadyActed | badParam | noChainage | noEffect | badOpcode | badState | window
  | dmaError | failedSpace | versionsFull | check | aborted | stopped | fellBack
  deriving DecidableEq, Repr

def Status.code : Status → Nat
  | .ok => 0 | .late => 1 | .caughtUp => 2 | .alreadyActed => 3 | .badParam => 4 | .noChainage => 5
  | .noEffect => 6 | .badOpcode => 7 | .badState => 8 | .window => 9 | .dmaError => 10 | .failedSpace => 11
  | .versionsFull => 12 | .check => 13 | .aborted => 14 | .stopped => 15 | .fellBack => 16

/-- A completion entry (R128). `chn` is none where its chainage is not valid. -/
structure Cpl where
  status : Status
  kind : CplKind
  tag : Nat
  ring : Nat
  opcode : Nat
  index : Nat
  chn : Option Chainage := none
  moved : Bool := false
  continued : Bool := false
  short : Bool := false
  long : Bool := false
  crcErr : Bool := false
  epoch : Word := 0
  value : Nat := 0
  time : DWord := 0
  irq : Bool := false
  deriving DecidableEq, Repr

/-- A write held inside the module while it is stopped (R136). Camera data stays in its spill (R355); `camo` marks how
many bytes of it were to be written to CAMO ring n then. -/
inductive HeldWrite where
  | cpl (target : Nat) (c : Cpl)
  | tlm (entry : List Byte)
  | camo (n bytes : Nat)
  deriving DecidableEq, Repr

/-- One ring beside its registers (R116 to R120). `got` is the descriptor fetched and not yet acted on, with the
completion target captured at its fetch (R119). -/
structure Ring where
  active : Bool := false
  err : Bool := false
  stalled : Bool := false
  cause : Nat := 0
  head : Nat := 0
  tail : Nat := 0
  phase : Bool := true
  count : Word := 0
  got : Option DescRef := none
  deriving DecidableEq, Repr

/-- The sources of a stop (R135). -/
inductive StopSrc where
  | page | land | ring | pm | link
  deriving DecidableEq, Repr

/-- The bit of a stop source within stop_src, as in EV_HST_STOP arg0 (R143). -/
def StopSrc.bit : StopSrc → Nat
  | .page => 0 | .land => 1 | .ring => 2 | .pm => 3 | .link => 4

/-- A camera buffer offered by a BUFFER descriptor (R127), with how much of it is filled; or the status that refused the
descriptor, while it waits to complete in ring order (R118). -/
structure CamBuffer where
  desc : DescRef := {}
  addr : Nat := 0
  len : Nat := 0
  filled : Nat := 0
  refused : Option Status := none
  deriving DecidableEq, Repr

/-- The HST block beside its registers. -/
structure Hst where
  linkSpeed : Nat := 0
  linkWidth : Nat := 0
  stopped : Bool := false
  stopSrc : BitVec 5 := 0
  stopN : Bool := true
  rings : Tab Ring := []
  cplWait : Tab (List Cpl) := []
  held : List HeldWrite := []
  tlmSeq : Word := 0
  camBufs : Tab (List CamBuffer) := []
  deriving DecidableEq, Repr

end Sys2Proof.Machine
end

