-- ==== Sys2Proof/Machine/Blocks/Camera.lean ====
section
/-! DEFINITION. The state of the CAM block: CoaXPress devices, contexts, frames, spill areas, and closure. -/

namespace Sys2Proof.Machine

/-- The states of a device, CAM_D<d>_STATUS.state (R359). -/
inductive DevState where
  | off | discovery | up | down | failed
  deriving DecidableEq, Repr

def DevState.code : DevState → Nat
  | .off => 0 | .discovery => 1 | .up => 2 | .down => 3 | .failed => 4

/-- A line trigger crossed and not yet answered (R344): its number in the schedule, its chainage and the tick
and Datum time of its crossing. `gone` tells that its schedule has stopped, so that no frame takes its line. -/
structure Trig where
  k : Nat
  chn : Chainage
  tick : Nat
  time : DWord
  gone : Bool := false
  deriving DecidableEq, Repr

/-- The LINE-mode schedule of a device (R344): trigger k lies at `origin` + k x pitch. -/
structure Sched where
  origin : Chainage
  pitch : Nat
  next : Nat
  deriving DecidableEq, Repr

/-- One CoaXPress device: its state and cause, the connections it lost, its trigger schedule, the triggers not yet
answered, oldest first, the tick of its last trigger, and the tick of its last change of state (R338, R344, R345). -/
structure Device where
  state : DevState := .off
  cause : Nat := 0
  lost : List Nat := []
  sched : Option Sched := none
  trigs : List Trig := []
  lastTrig : Option Nat := none
  since : Nat := 0
  deriving DecidableEq, Repr

/-- A parameter generation of a context (R356): its number, the staged words by BAR0 offset, and both tables. -/
structure Gen where
  num : Word := 0
  words : Tab Word := []
  darkFlat : Tab Nat := []
  matrix : Tab Nat := []
  deriving DecidableEq, Repr

/-- A line that a frame took: its index in the frame, its web chainage, whether it is good, and its pixels in
measurement space (R349), three channels a pixel. -/
structure TakenLine where
  index : Nat
  web : Chainage
  good : Bool
  px : List (List Nat)
  deriving DecidableEq, Repr

/-- A row of a control strip (R360): its plane (none for the paper row), and the line chainages of its first and last
lines. -/
structure StripRow where
  row : Nat
  plane : Option Nat
  first : Chainage
  last : Chainage
  deriving DecidableEq, Repr

/-- A control strip as its frames see it: the job's slot, tag and run, the strip number, its rows, the line pitch, the row,
group and loop settings in force, and whether closure started the frame (R362). -/
structure StripAt where
  job : Nat
  tag : Nat
  num : Nat
  rows : List StripRow
  pitch : Nat
  guard : Nat
  guardCols : Nat
  gFirst : Nat
  gLast : Nat
  tint : Nat
  cfg : Word
  loop : Word
  ours : Bool
  run : Nat := 0
  deriving DecidableEq, Repr

/-- How a frame closes (R347): its triggers or its image are complete, TIMEOUT, the device goes DOWN, or HALT. -/
inductive FrameEnd where
  | ended | timeout | down | halted
  deriving DecidableEq, Repr

/-- An open frame of a context (R343 to R347). `firstK` is its first trigger in LINE mode; `crossed`, `answered` and
`unsent` count its triggers; `taken` counts the camera lines of an image; `lastTick` is the tick of its last trigger,
or of its last line in FRAME mode; `boxes` counts the box rows written by output; `forward` is the CAMO ring that
takes its closure outputs under owner HOST (R370). -/
structure Frame where
  num : Word
  gen : Gen
  start : Chainage
  line : Bool
  firstK : Nat := 0
  crossed : Nat := 0
  answered : Nat := 0
  unsent : Nat := 0
  overflow : Nat := 0
  excess : Nat := 0
  bad : Nat := 0
  lines : List TakenLine := []
  firstTime : DWord := 0
  lastTick : Nat := 0
  startTime : DWord := 0
  epoch : Word := 0
  jobLine : Word := 0xFFFFFFFF
  item : Word := 0xFFFFFFFF
  strip : Option StripAt := none
  forward : Option Nat := none
  boxes : Tab Nat := []
  deriving DecidableEq, Repr

/-- One context: its generations, the staged tables, and its open frame. `copying` holds the set being copied
(R356); `pendingAt` is the chainage C recorded at the end of the copy. -/
structure Ctx where
  active : Gen := {}
  pending : Option Gen := none
  pendingAt : Chainage := 0
  copying : Option Gen := none
  result : Nat := 0
  stageDf : Tab Nat := []
  stageMx : Tab Nat := []
  frameNum : Word := 0
  frame : Option Frame := none
  deriving DecidableEq, Repr

/-- An output unit on its way to a CAMO ring (R353 to R355): where the bytes that wait stand in the spill area, as
offsets and lengths in their order, and what its trailer and completions carry. `headed` tells that its header has been
produced. -/
structure OutUnit where
  ctx : Nat
  out : Nat
  frame : Word
  web : Chainage := 0
  segs : List (Nat × Nat) := []
  headed : Bool := false
  records : Nat := 0
  payload : Nat := 0
  closed : Bool := false
  truncated : Bool := false
  short : Bool := false
  long : Bool := false
  crcErr : Bool := false
  deriving DecidableEq, Repr

/-- A mailbox access in progress (R339). -/
structure Mailbox where
  device : Nat
  write : Bool
  deriving DecidableEq, Repr

/-- The CAM block beside its registers. `connUp` holds the connections in lock, `pixels` what the pipeline processed in
the present 10 ms, `loads` the load of the last second, newest first, `store` the lines that wait for the pipeline, each
with its bytes in the line store and the work left on it in fifths of a pixel (R342, R387), and `posted` the writes to the
spill areas that DRAM has not accepted yet, oldest first (R385). -/
structure Cam where
  dev : Tab Device := []
  ctx : Tab Ctx := []
  spill : Tab (List OutUnit) := []
  connUp : Nat := 0
  mbx : Option Mailbox := none
  pixels : Nat := 0
  loads : List Nat := []
  store : List (Nat × Nat) := []
  posted : List (Nat × List Byte) := []
  deriving DecidableEq, Repr

/-- One cell of a STATS section (R364). -/
structure Cell where
  n : Nat
  sum : Nat
  sum2 : Nat
  deriving DecidableEq, Repr

/-- One section of a STATS unit (R364); `plane` is none for the paper row, whose cells stand by channel; `first` is
the line chainage of its first line. -/
structure StatRow where
  row : Nat
  plane : Option Nat
  lines : Nat
  first : Chainage
  cells : List (List Cell)
  profiles : List (List Nat)
  deriving DecidableEq, Repr

/-- A unit on its way to closure (R353): its context, output and frame, the strip it measured, the first column and
the map of its crop, its sections, and, under owner HOST, the ring and the payload and trailer it is forwarded with. -/
structure StatUnit where
  ctx : Nat
  out : Nat
  frame : Word
  strip : Option StripAt
  first : Nat
  base : Int
  k : Nat
  stats : Bool
  rows : List StatRow
  ring : Option Nat := none
  header : List Byte := []
  payload : List Byte := []
  trailer : List Byte := []
  unit : OutUnit
  deriving DecidableEq, Repr

/-- What closure knows of a commit of its own: its epoch and, once known, its actual effect chainage (R368). -/
structure GainWait where
  epoch : Word
  actual : Option Chainage
  deriving DecidableEq, Repr

/-- A column whose nozzle a NOZZLE_MAP commit changed: closure takes no flags around it until it examines a row at or
beyond the commit's actual effect chainage (R374). -/
structure NozzleWait where
  plane : Nat
  col : Nat
  wait : GainWait
  deriving DecidableEq, Repr

/-- The flags of a plane's pixel over its last five examined rows, newest first, each with its centroid column
(R372, R373). -/
structure Streak where
  flags : List (Option Int) := []
  suspect : Bool := false
  deriving DecidableEq, Repr

/-- One measure of a seam (R377): the plane, the seam, the candidate S, and the difference as a fraction. -/
structure SeamMeasure where
  plane : Nat
  seam : Nat
  s : Nat
  num : Nat
  den : Nat
  deriving DecidableEq, Repr

/-- The steps of a calibration run (R377). -/
inductive BenchStep where
  | stitch | settle | gain
  deriving DecidableEq, Repr

/-- A calibration run (R377): what is left to do, the candidate under test with its commits, the measures so far, the
STITCH entries at the start, and the gain updates made by plane. -/
structure Bench where
  what : Nat
  ramp : Nat
  iter : Nat
  job : Nat
  step : BenchStep
  candidate : Nat := 0
  waits : List (Nat × GainWait) := []
  measures : List SeamMeasure := []
  before : List (Nat × Nat × Nat) := []
  updates : Tab Nat := []
  deriving DecidableEq, Repr

/-- Closure beside its registers. `units` wait for closure; `strips` are those whose frames have started, with the contexts still to report, and `arrived` their units;
`nextStrip` the next strip to start by run and context, and `since` the chainage from which a context starts strips;
`rowHits` the plane rows, by run, strip and plane, in whose fire a hub counted a blank or thinned line (R365). -/
structure Cls where
  keep : List (Nat × Nat) := []
  ovrResult : Nat := 0
  benchStatus : Nat := 0
  bench : Option Bench := none
  units : List StatUnit := []
  strips : List (StripAt × List Nat) := []
  arrived : List StatUnit := []
  nextStrip : Tab Nat := []
  since : Tab (Option Chainage) := []
  gain : Tab (Option GainWait) := []
  nozzles : List NozzleWait := []
  streak : Tab Streak := []
  rowHits : List (Nat × Nat × Nat) := []
  deriving DecidableEq, Repr

end Sys2Proof.Machine
end

