-- ==== Sys2Proof/Machine/Blocks/Motion.lean ====
section
/-! DEFINITION. The state of the MOT block: twelve stepper axes, their planners, gearing and compare units. -/

namespace Sys2Proof.Machine

/-- The states of an axis, MOT_A<a>_STATUS.state (R457). -/
inductive AxState where
  | off | hold | moving | geared | homing | cal | fault
  deriving DecidableEq, Repr

def AxState.code : AxState → Nat
  | .off => 0 | .hold => 1 | .moving => 2 | .geared => 3 | .homing => 4 | .cal => 5 | .fault => 6

/-- The states in which an axis is not at rest for R427 and R428. -/
def AxState.busy : AxState → Bool
  | .moving => true | .geared => true | .homing => true | .cal => true | _ => false

/-- The limits of R436. -/
structure Limits where
  vmax : Nat := 100000
  amax : Nat := 10000000
  dmax : Nat := 10000000
  jmax : Nat := 1000000
  deriving DecidableEq, Repr

/-- Where a move comes from (R437): a register command, a MOVE or a BAR_LIFT action of a slot, or a compare unit. -/
inductive MoveFrom where
  | command
  | station (slot : Nat)
  | lift (slot : Nat)
  | compare (axis unit : Nat)
  deriving DecidableEq, Repr

/-- The place of a move among those that reach one axis on one planner tick (R440): station actions by slot, then
compare units by axis and unit. -/
def MoveFrom.rank : MoveFrom → Nat
  | .command => 0
  | .station n => 1 + n
  | .lift n => 1 + n
  | .compare a u => 1000 + 2 * a + u

/-- What a move asks for (R437): its target or distance in microsteps, its limits and its flags. -/
structure MoveReq where
  target : Int
  rel : Bool
  lim : Limits
  notify : Bool
  cls : Nat
  src : MoveFrom := .command
  deriving DecidableEq, Repr

/-- The operations of MOT_A<a>_CMD (R457). -/
inductive AxOp where
  | move | preset | stop | limits | home | setPos | gearOn | gearOff | clear | off
  deriving DecidableEq, Repr

/-- The states of a compare unit (R457). -/
inductive CmpState where
  | idle | armed | done | late | skipped | cancelled
  deriving DecidableEq, Repr

def CmpState.code : CmpState → Nat
  | .idle => 0 | .armed => 1 | .done => 2 | .late => 3 | .skipped => 4 | .cancelled => 5

/-- One compare unit; `arming` waits for the next planner tick (R452). -/
structure CmpUnit where
  state : CmpState := .idle
  arming : Bool := false
  deriving DecidableEq, Repr

/-- One coil of an axis: its duty in 2^-16 and the integral term of it in 2^-32 (R442), its measured current in mA,
the end that the chopper switches to the motor supply, 1 or 2, or 0 for none, the quarter microseconds since a gate
edge, the offset of the chopper's band, and over the present full step how far the samples lay below the set current,
with their number (R443), and the quarter microseconds in it, those for which the chopper drove the coil, and the sum
in 2^-16 of the fractions needed at zero load (R444). -/
structure Coil where
  duty : Int := 0
  integral : Int := 0
  meas : Int := 0
  high : Nat := 0
  edge : Nat := 16
  band : Int := 0
  short : Int := 0
  count : Nat := 0
  ticks : Nat := 0
  on : Nat := 0
  need : Nat := 0
  deriving DecidableEq, Repr

/-- One axis. `pos` is the commanded position in 2^-16 microstep, within the signed 32 bits of R435, and `vel` the
velocity in 2^-16 microstep/s (R436). `posLow` in 10^-15 and `velLow` in 10^-9 of those units are what the ticks so far
have left over below them, carried to the next, and `acc` is the acceleration in 2^-16 x 10^-3 microsteps/s². `next` is
a target that waits for standstill (R438), `past` the cause of an overshoot to report at standstill, `cmd` the register
command not yet taken (R440), `req` the station and compare moves that wait for the tick, `within` that the position lay
in the print window at the last tick (R457), `atCeil` the full steps
for which the set current has stood at the ceiling (R445). `gPrev` is the gearing's source distance at the last tick
(R450), and `byMode` marks a stop that a mode ordered (R449). `phase` is the place in the PWM period in 1/4 000 of it, `peak` the
largest current measured in it, and `above` the periods in a row in which that was above 5/4 of the ceiling (R446). -/
structure Axis where
  state : AxState := .off
  posValid : Bool := false
  pos : Int := 0
  posLow : Int := 0
  vel : Int := 0
  velLow : Int := 0
  acc : Int := 0
  target : Int := 0
  live : Limits := {}
  lim : Limits := {}
  notify : Bool := false
  fast : Bool := false
  stopping : Bool := false
  byMode : Bool := false
  next : Option MoveReq := none
  past : Option Nat := none
  returning : Bool := false
  s0 : Chainage := 0
  g0 : Int := 0
  gPrev : Int := 0
  lagOver : Nat := 0
  lagRaised : Bool := false
  faultCause : Nat := 0
  load : Nat := 0
  homeDir : Bool := false
  calOff : Bool := false
  cmd : Option AxOp := none
  req : List MoveReq := []
  atCeil : Nat := 0
  inhibit : Bool := false
  within : Bool := false
  cmp0 : CmpUnit := {}
  cmp1 : CmpUnit := {}
  coilA : Coil := {}
  coilB : Coil := {}
  phase : Nat := 0
  peak : Nat := 0
  above : Nat := 0
  deriving DecidableEq, Repr

/-- An axis as the mirror or a monument records it (R449): its state, pos_valid and commanded position. -/
structure AxShadow where
  state : Nat := 0
  posValid : Bool := false
  pos : Int := 0
  deriving DecidableEq, Repr

/-- The MOT block beside its registers. `planes` inhibits firing by plane (R454); `shadow` is what a standby holds of
the active module's axes. -/
structure Mot where
  axis : Tab Axis := []
  planes : Nat := 0
  shadow : Tab AxShadow := []
  deriving DecidableEq, Repr

end Sys2Proof.Machine
end

