-- ==== Sys2Proof/Machine/Blocks/Station.lean ====
section
/-! DEFINITION. The state of the STN block: 256 slots, 16 outputs and 4 lift groups. -/

namespace Sys2Proof.Machine

/-- The states of a slot, STN_STATE.state (R72). -/
inductive SlotState where
  | free | armed | waitStake | waitChain | done | late | cancelled | skipped
  deriving DecidableEq, Repr

def SlotState.code : SlotState → Nat
  | .free => 0 | .armed => 1 | .waitStake => 2 | .waitChain => 3 | .done => 4 | .late => 5
  | .cancelled => 6 | .skipped => 7

/-- A slot in states 1 to 3 waits. -/
def SlotState.waiting : SlotState → Bool
  | .armed => true | .waitStake => true | .waitChain => true | _ => false

/-- A slot in states 4 to 7 is retired. -/
def SlotState.retired : SlotState → Bool
  | .done => true | .late => true | .cancelled => true | .skipped => true | _ => false

/-- What a commit puts into a slot: STN_TGT, STN_ACT, STN_ARG, STN_IVL and STN_COUNT (R86). -/
structure SlotFields where
  tgt : Nat := 0
  act : Nat := 0
  arg : Nat := 0
  ivl : Nat := 0
  count : Nat := 0
  deriving DecidableEq, Repr

/-- One station slot. `first` is the target formed at arming, `target` the next one to be crossed, `taken` the occurrences taken so far, and
`lastTick` the DTM tick of the last occurrence. -/
structure Slot where
  state : SlotState := .free
  f : SlotFields := {}
  target : Chainage := 0
  first : Chainage := 0
  formed : Bool := false
  taken : Nat := 0
  skips : Nat := 0
  actual : Chainage := 0
  stakeAfter : Nat := 0
  lastTick : Option Nat := none
  deriving DecidableEq, Repr

/-- A commit or cancel on its way to DTM (R70): from STN_CMD, or from a CTRL descriptor. -/
inductive StnCmd where
  | commit (slot : Nat) (f : SlotFields) (desc : Option DescRef)
  | cancel (slot : Nat) (desc : Option DescRef)
  deriving DecidableEq, Repr

/-- A compare unit has pulsed an output: on which DTM tick, which unit, and how the output stood before (R453). -/
structure CmpPulse where
  tick : Nat
  axis : Nat
  unit : Nat
  driven : Bool
  active : Bool
  deriving DecidableEq, Repr

/-- A station output (R81). Until its first action, and in the states of R68, it stands at its safe level. `pulse` and
`gap` are the ticks on which its pulse and its min_gap end, while they run. `byCmp` is the last pulse of a compare unit
on it, and `byStn` the DTM tick on which a station last acted on it (R453). -/
structure StnOut where
  driven : Bool := false
  active : Bool := false
  pulse : Option Nat := none
  gap : Option Nat := none
  byCmp : Option CmpPulse := none
  byStn : Option Nat := none
  deriving DecidableEq, Repr

/-- A lift group (R84): the up target while lifted, and the chainage at which the inhibit ends once lowered. -/
structure Lift where
  up : Option Chainage := none
  ends : Option Chainage := none
  deriving DecidableEq, Repr

/-- The STN block beside its registers. -/
structure Stn where
  busy : Bool := false
  result : Nat := 0
  cmds : List StnCmd := []
  slot : Tab Slot := []
  out : Tab StnOut := []
  lift : Tab Lift := []
  deriving DecidableEq, Repr

end Sys2Proof.Machine
end

