-- ==== Sys2Proof/Machine/Blocks/Store.lean ====
section
/-! DEFINITION. The state of the VGP and CMP blocks: jobs, streams, blocks, items, layer slots and the proof output. -/

namespace Sys2Proof.Machine

/-- The states of a job slot (R150). -/
inductive JobState where
  | free | opened | stored | armed | printing
  deriving DecidableEq, Repr

def JobState.code : JobState → Nat
  | .free => 0 | .opened => 1 | .stored => 2 | .armed => 3 | .printing => 4

/-- A Vangop block of the store (R164): its place in the stream's grid, the bytes it takes in the store, and
the pixels it decodes to. `code` holds its bytes where the host sent it coded, `repair` marks one held by the repair
pool (R177). -/
structure Block where
  row : Nat
  col : Nat
  first : Nat
  lines : Nat
  width : Nat
  size : Nat
  pixels : List Byte
  code : List Byte := []
  repair : Bool := false
  deriving DecidableEq, Repr

/-- The stream of one layer and plane (R153 to R156). `part` holds the lines of the band row in progress,
`partBlocks` its Vangop blocks by block row, `pending` complete lines not yet coded. -/
structure Stream where
  expLine : Nat := 0
  expPixel : Nat := 0
  rowLines : Nat := 0
  rowFormat : Nat := 0
  part : List (List Byte) := []
  partBlocks : List (List Block) := []
  pending : List (List Byte) := []
  rows : Nat := 0
  coded : Nat := 0
  blocks : List Block := []
  deriving DecidableEq, Repr

/-- One job slot (R150). `run` numbers the times that lines of a job begin (R170, R171); `latch` holds the CMP, TRV and FGD words read at JOB_OPEN and JOB_ARM (R182, R183, R230,
R262), by BAR0 offset; `stop` is the stop chainage of R173, `startAt` the
printed chainage at its commit, `pool` its extents in the repair pool (R177), `flips`
the station slots opened by layer (R198). -/
structure Job where
  state : JobState := .free
  tag : Nat := 0
  streamed : Bool := false
  layers : Nat := 0
  depth : Nat := 2
  planes : Nat := 0
  along : Nat := 0
  across : Nat := 0
  width : Nat := 0
  repeatLen : Nat := 0
  reserve : Nat := 0
  closed : Bool := false
  itemSrc : Nat := 0
  streams : Tab Stream := []
  byStation : Bool := false
  started : Bool := false
  startAt : Chainage := 0
  offset : Nat := 0
  origin : Chainage := 0
  effect : Chainage := 0
  epoch : Word := 0
  repeats : Nat := 0
  stop : Option Chainage := none
  takenBy : Option Nat := none
  lead : Nat := 0
  pitch : Nat := 0
  latch : Tab Word := []
  desc : DescRef := {}
  pool : Nat := 0
  flips : Tab Nat := []
  starved : Nat := 0
  blanked : Nat := 0
  run : Nat := 0
  deriving DecidableEq, Repr

/-- A block whose two reads failed (R176, R178): its place, the request id where one is outstanding, its fire
horizon, whether its lines have been blanked there, whether it has been repaired before, and the swath rows whose
lines a late re-render under that repair has blanked (R247). -/
structure BadBlock where
  job : Nat
  layer : Nat
  plane : Nat
  block : Nat
  request : Option Nat
  horizon : Chainage
  blank : Bool := false
  repaired : Bool := false
  rows : List Nat := []
  deriving DecidableEq, Repr

/-- A bound slot of an item layer (R191, R196, R198): its first job line and length, the scheduled item and the item
it shows, the planes of a flip, and the epochs and effect chainages of the revocations from which on it covers no dot
(R202). -/
structure LSlot where
  job : Nat
  k : Nat
  first : Nat
  len : Nat
  item : Word
  shown : Option Word
  planes : Nat
  revoked : List (Word × Chainage) := []
  deriving DecidableEq, Repr

/-- A job whose web still passes the cameras (R346, R353, R362): its slot, the job as it ended, without its streams, and
the slots bound in the layer of R197. -/
structure PastJob where
  slot : Nat
  job : Job
  slots : List LSlot
  deriving DecidableEq, Repr

/-- The VGP block beside its registers. `ended` maps a job_tag to the chainage at which its job last ended, until a
job of that tag is opened or armed (R134); `endTick` is the tick on which the job controller last took an ABORT or a
job end, and `abortWait` an ABORT that waits for the next (R133); `runs` is the number of the last run, and `past` holds
the jobs that have ended and whose web a camera may still see, newest first. -/
structure Vgp where
  job : Tab Job := []
  nextRequest : Nat := 1
  bad : List BadBlock := []
  imageWait : Option (DescRef × JobImageF × List Byte) := none
  lowRaised : Bool := false
  ended : Tab (Option Chainage) := []
  endTick : Option Nat := none
  abortWait : Option (DescRef × Nat) := none
  runs : Nat := 0
  past : List PastJob := []
  deriving DecidableEq, Repr

/-- One rectangular part of an item (R192): its pixels are channel-planar, and `grid` holds the line
counts of the block rows of each channel. `code` holds its blocks where they came coded; a part recorded in a monument
has no pixels until its blocks have come (R416). -/
structure Part where
  channels : Nat
  width : Nat
  height : Nat
  xOff : Nat
  yOff : Nat
  fence : Word
  size : Nat
  data : List Byte
  code : List Byte := []
  grid : List (List Nat) := []
  deriving DecidableEq, Repr

/-- An item of a layer (R193). `revoked` marks one that a REVOKE names and lines before its effect still show (R201). -/
structure Item where
  number : Word
  complete : Bool
  parts : List Part
  revoked : Bool := false
  deriving DecidableEq, Repr

/-- A revoked range of item numbers (R201): from its effect chainage on, the items cover no dot. -/
structure Revoked where
  first : Word
  last : Word
  epoch : Word
  effect : Chainage
  deriving DecidableEq, Repr

/-- One layer beside its registers. `wait` is an ITEM that waits for room (R194), `failed` names the blocks of
items whose two reads failed (R200), and `incoming` is the mirrored ITEM whose blocks are coming, with those so far
(R414). -/
structure Layer where
  fence : Word := 0
  items : List Item := []
  revoked : List Revoked := []
  slots : List LSlot := []
  wait : Option (DescRef × ItemF × List Byte) := none
  failed : List (Word × Nat) := []
  incoming : Option (ItemF × List Byte) := none
  deriving DecidableEq, Repr

/-- A proof cell row in progress (R203): the sums of its cells by plane, its record flags, and how many hub-lines of
it have come to their end. -/
structure ProofRow where
  job : Nat
  first : Nat
  sums : Tab Nat := []
  blanked : Bool := false
  thinned : Bool := false
  done : Nat := 0
  deriving DecidableEq, Repr

/-- A record of the proof ring (R204): its slot's address and bytes, and the length of its cell row in 2^-16 links. -/
structure ProofRec where
  addr : Nat
  size : Nat
  span : Nat
  deriving DecidableEq, Repr

/-- The CMP block beside its registers. `recs` holds the proof records that no later one has overwritten, newest
first (R352). -/
structure Cmp where
  layer : Tab Layer := []
  proof : List ProofRow := []
  recs : List ProofRec := []
  deriving DecidableEq, Repr

end Sys2Proof.Machine
end

