-- ==== Sys2Proof/Machine/Blocks/Traverse.lean ====
section
/-! DEFINITION. The state of the commit point (R20 to R29) and of the Traverse engines, swaths and tiles. -/

namespace Sys2Proof.Machine

/-- One committed version of a table (R22): its epoch, its effect chainage (none for the version in force since
reset or import), and the entries that differ from the table's reset entries. `closed` names the nozzles that closure has
disabled in it (R376). -/
structure Version where
  epoch : Word := 0
  effect : Option Chainage := none
  cells : Tab Nat := []
  closed : List Nat := []
  deriving DecidableEq, Repr

/-- A commit whose actual effect chainage is not yet known (R29, R246). `kind` is its table code (R126), or 7 REPEAT,
8 LAYER content, 9 REVOKE; `actual` is the lowest line chainage of its scope from the effect chainage on that had not
fired at the commit point, `rows` counts by swath row the lines that fell back or were blanked on account of it, and
`past` holds by swath the line chainage past the last line that fires under an older epoch. -/
structure Commit where
  epoch : Word
  effect : Chainage
  content : Bool
  kind : Nat
  planes : Nat
  layer : Nat
  desc : Option DescRef
  moved : Bool := false
  actual : Chainage
  rows : Tab Nat := []
  past : Tab (Option Chainage) := []
  blanked : Bool := false
  flip : Option Word := none
  held : Bool := false
  deriving DecidableEq, Repr

/-- The commit point: the epoch counter (R21), the versions of every table, oldest first, by table number, and
the commits still open. -/
structure Epo where
  counter : Word := 0
  versions : Tab (List Version) := []
  commits : List Commit := []
  deriving DecidableEq, Repr

/-- A rendered swath (R241), whose bytes stand in the tile region of DRAM from unit `slot` on. `drops` names the lines
on which a failed block dropped a dot. -/
structure Tile where
  epoch : Word
  depth3 : Bool
  drops : List Nat
  blankSlot : Bool
  repair : Bool
  slot : Nat
  crc : Word
  units : Nat
  deriving DecidableEq, Repr

/-- How a swath came to its deadline (R243, R245). -/
inductive Decision where
  | undecided | missed | tile | fallback
  deriving DecidableEq, Repr

/-- A commit pending on a requeued swath (R244). -/
structure Pend where
  epoch : Word
  effect : Chainage
  content : Bool
  deriving DecidableEq, Repr

/-- A swath of a job (R231), once something has happened to it. `fails` names the blocks whose reads failed for its
render (R175, R200), `slot` the tile slot that its render takes, `spent` the slots and units of replaced tiles, held
until its deadline (R242). `eligible` stays once set (R235), `whole` says that it fell back at its deadline, so that
every line of it counts, and `again` that a block was repaired while it was rendered (R247). -/
structure Swath where
  claimed : Option Nat := none
  rendering : Bool := false
  urgent : Bool := false
  requeue : Bool := false
  repair : Bool := false
  waiting : Bool := false
  tile : Option Tile := none
  fallback : Option Tile := none
  pend : List Pend := []
  fails : List (Nat × Option Word × Nat) := []
  decided : Decision := .undecided
  released : Bool := false
  slot : Nat := 0
  spent : List (Nat × Nat) := []
  eligible : Bool := false
  whole : Bool := false
  again : Bool := false
  deriving DecidableEq, Repr

/-- The states of an engine, TRV_E<e>_STATUS.state (R256). -/
inductive EngState where
  | parked | idle | busy | waking
  deriving DecidableEq, Repr

def EngState.code : EngState → Nat
  | .parked => 0 | .idle => 1 | .busy => 2 | .waking => 3

/-- One engine: the swath it holds with the epoch at which its render began, the swath selected next, and
whether it stalls for that swath's inputs since the tick its last swath ended (R239, R240). -/
structure Engine where
  state : EngState := .parked
  cur : Option Nat := none
  epoch : Word := 0
  next : Option Nat := none
  stalled : Bool := false
  ended : Nat := 0
  parking : Bool := false
  deriving DecidableEq, Repr

/-- The TRV block beside its registers. `active` is the engine count last reported; `thermalSteps` and
`supplySteps` are the steps those sources ask for (R249). `loadAct` and `loadBusy` count the engine ticks active and
holding a swath in the present 10 ms, `loads` the load_pct of the last second, newest first, and `slackMin` the least
slack at completion in the present 10 ms (R252). -/
structure Trv where
  eng : Tab Engine := []
  swath : Tab Swath := []
  thermalSteps : Nat := 0
  supplySteps : Nat := 0
  steps : Nat := 0
  src : Nat := 0
  capped : Bool := false
  active : Nat := 0
  loadAct : Nat := 0
  loadBusy : Nat := 0
  loads : List Nat := []
  slackMin : Option Int := none
  deriving DecidableEq, Repr

end Sys2Proof.Machine
end

