-- ==== Sys2Proof/Machine/Blocks/Partner.lean ====
section
/-! DEFINITION. The state of the PTN block: the pair's state machine, the mirror, monuments and reverts. -/

namespace Sys2Proof.Machine

/-- PTN_STATUS.state (R401). -/
inductive PtnState where
  | solo | pairing | foresight | syncing | backsight | claiming | detached | reverting
  deriving DecidableEq, Repr

def PtnState.code : PtnState → Nat
  | .solo => 0 | .pairing => 1 | .foresight => 2 | .syncing => 3 | .backsight => 4 | .claiming => 5
  | .detached => 6 | .reverting => 7

/-- A host descriptor as a DESC record carries it (R411). Data is read from DATA records. -/
inductive DescBody where
  | jobOpen (f : JobOpenF)
  | jobImage (f : JobImageF)
  | jobClose (tag : Nat)
  | jobArm (f : JobArmF)
  | jobDelete (tag : Nat)
  | blockData (f : BlockDataF)
  | nop
  | abort (tag : Nat)
  | stop
  | revoke (f : RevokeF)
  | mode (target : Nat)
  | stnCommit (f : StnCommitF)
  | stnCancel (slot : Nat)
  | item (f : ItemF)
  | fence (layer : Nat) (v : Word)
  | tableCommit (f : TableF) (entries : List Nat)
  | buffer (ring : Nat) (f : BufferF)
  deriving DecidableEq, Repr

/-- The records of R411. A DATA record carries one block: of a job's stream, or of an item by its bytes. -/
inductive MirrorRec where
  | desc (h : DescRef) (body : DescBody) (epoch : Word) (effect : Chainage)
  | data (layer plane : Nat) (jobTag : Nat) (block : Nat) (b : Block)
  | itemData (layer channel : Nat) (item : Word) (block : Nat) (code : List Byte)
  | commit (source table plane cls : Nat) (epoch : Word) (effect : Chainage) (first : Nat) (entries : List Nat)
  | decision (typ : Nat) (chn : Chainage) (v1 v2 : Word)
  | echoRef (hub tag : Nat) (lineCrc hdrCrc : Word)
  | proofRef (plane job idx row : Nat) (epoch crc : Word)
  deriving DecidableEq, Repr

/-- A record in the staging buffer or on the link: its sequence, its commit flag, and its body (R410, R411). -/
structure MirrorItem where
  seq : Word
  isCommit : Bool
  body : MirrorRec
  deriving DecidableEq, Repr

/-- What a commit changes: a host or closure table version, a revocation, a job's lines, or a layer's slot. -/
inductive Change where
  | table (h : DescRef) (f : TableF) (entries : List Nat)
  | revoke (h : DescRef) (f : RevokeF)
  | arm (h : DescRef) (f : JobArmF)
  | station (job : Nat) (origin : Chainage)
  | flip (layer planes : Nat) (start : Chainage)
  | closure (f : TableF) (entries : List Nat) (strip : Nat)
  deriving DecidableEq, Repr

/-- The ring of the descriptor that a change came in, if it came in one. -/
def Change.ring : Change → Option Nat
  | .table h _ _ => some h.ring
  | .revoke h _ => some h.ring
  | .arm h _ => some h.ring
  | .station _ _ => none
  | .flip _ _ _ => none
  | .closure _ _ _ => none

/-- A commit that waits for the partner's ACK (R413): the sequence of its record, the effect chainage fixed for
it, whether R25 moved it, and the change. -/
structure Held where
  seq : Word
  effect : Chainage
  moved : Bool
  change : Change
  deriving DecidableEq, Repr

/-- A monument's sections (R417), as data: `hubs` are the states of the hubs, `gain` and `nozzles` the update waits. The
versions name the nozzles that closure disabled, whose counts are mirrored (R375). -/
structure Monument where
  num : Nat := 0
  printed : Chainage := 0
  lead : Int := 0
  slew : Int := 0
  vote : Nat := 0
  time : DWord := 0
  counter : Word := 0
  versions : Tab (List Version) := []
  jobs : Tab Job := []
  layers : Tab Layer := []
  slots : Tab Slot := []
  counters : Tab Word := []
  held : Nat := 0
  hubs : List Nat := []
  claim : Nat := 0
  gain : Tab (Option GainWait) := []
  nozzles : List NozzleWait := []
  keep : List (Nat × Nat) := []
  logPtr : Nat := 0
  mirrorSeq : Word := 0
  axes : List (Nat × Bool × Int) := []
  shutdownCh : Option Nat := none
  deriving DecidableEq, Repr

/-- The final monuments in NAND (R462, R463), newest first: two slots, the write in progress, and what came of the
write of the last power-fail that no BOOT has reported yet (1 written, 2 not completed). -/
structure Finals where
  slots : List Monument := []
  writing : Option Monument := none
  last : Nat := 0
  deriving DecidableEq, Repr

/-- A heartbeat from the partner as R408 lays it out. -/
structure Heartbeat where
  state : Nat
  inStep : Bool
  stopped : Bool
  majority : Bool
  held : Nat
  chn : Chainage
  time : DWord
  epoch : Word
  seq : Word
  monument : Nat
  deriving DecidableEq, Repr

/-- A HELLO from the partner (R407). -/
structure Hello where
  deviceId : DWord
  straps : Nat
  state : Nat
  level : Nat
  geometry : Word
  storeSize : Word
  claim : Nat
  majority : Bool
  deriving DecidableEq, Repr

/-- The PTN block beside its registers. `straps` holds ROLE_A and ROLE_B in bits 0 and 1; `partner` is the state
the partner's last HEARTBEAT named, `partnerSrc` the sources of its stop. `monParts` is the monument being received and the parts of it that passed,
`after` the records applied that it does not reflect yet, `resync` that a standby has not yet applied its resynchronisation, `lagSince` since when it has been behind,
`unmirrored` that the partner is lost and commits go unmirrored (R418), `reclaim` that hubs released for a revert are to
be claimed again (R429), `lackEcho` that a majority of hubs lacked matching echoes in the last whole millisecond (R424),
`revertTick` the tick of RELEASED, `switched` the switch chainage of a revert just made (R428), `pairTick` that of the last pairing attempt (R406), `waitTick` that from which a module strapped B waits
50 ms more (R405), `beatTick` that of the partner's last HEARTBEAT (R409), and `holdTick` that of the loss that holds commits (R418). -/
structure Ptn where
  state : PtnState := .solo
  straps : Nat := 0
  inStep : Bool := false
  stale : Bool := false
  commitHold : Bool := false
  paired : Bool := false
  partner : Nat := 0
  partnerStopped : Bool := false
  partnerSrc : Nat := 0
  attemptDone : Bool := false
  waitB : Bool := false
  failRaised : Bool := false
  unmirrored : Bool := false
  reclaim : Bool := false
  claim : Nat := 0
  claimSeen : Nat := 0
  majority : Bool := false
  noMajSince : Option Nat := none
  sent : Word := 0
  acked : Word := 0
  applied : Word := 0
  staging : List MirrorItem := []
  stagedAt : List Nat := []
  held : List Held := []
  first : Bool := true
  badBeats : Nat := 0
  lagSince : Option Nat := none
  monument : Option Monument := none
  monParts : Option (Nat × Nat) := none
  after : List MirrorItem := []
  monNum : Nat := 0
  resync : Bool := false
  lossTick : Option Nat := none
  restored : Bool := true
  handover : Bool := false
  cSw : Option Chainage := none
  switched : Option Chainage := none
  revertTick : Option Nat := none
  oldActive : Bool := false
  stepTick : Option Nat := none
  echoRefs : List (Nat × Nat × Word × Word) := []
  echoSeen : List (Nat × Nat) := []
  echoWait : Bool := false
  lackEcho : Bool := false
  proofPhase : Nat := 0
  hbSeq : Nat := 0
  pairTick : Option Nat := none
  waitTick : Nat := 0
  beatTick : Nat := 0
  holdTick : Nat := 0
  deriving DecidableEq, Repr

end Sys2Proof.Machine
end

