-- ==== Sys2Proof/Machine/Blocks/Inputs.lean ====
section
/-! DEFINITION. The compound operands of commands: what the links, sensors and transfers bring in; and what leaves the
module. -/

namespace Sys2Proof.Machine

/-- A read of BAR0: its offset, and its size in bytes (R7). -/
structure BarRead where
  addr : Nat
  size : Nat := 4
  deriving DecidableEq, Repr

/-- A digital input pair of a channel: its level, and for how many ticks it has been stable (R40). -/
structure PairIn where
  level : Bool
  stable : Nat := 0
  deriving DecidableEq, Repr

/-- A received Ethernet frame (R100): whether its check held, its kind (1 a PTP message, 2 an ARP request, 3 an ICMP
echo request, 4 a PAUSE frame, 0 anything else), what a reply returns, its length in bytes and how many IEEE 802.1Q
tags it has. -/
structure EthFrame where
  crcOk : Bool
  kind : Nat
  data : List Byte
  len : Nat := 64
  tags : Nat := 0
  deriving DecidableEq, Repr

/-- A lane as an ordered set comes up it, and whether the set fails its check (R309). -/
structure LaneSet where
  lane : Nat
  bad : Bool := false
  deriving DecidableEq, Repr

/-- A lane that reaches CDR lock, and whether three good /A/ sets in turn have come as well (R322). -/
structure LaneLock where
  lane : Nat
  aligned : Bool := true
  deriving DecidableEq, Repr

/-- What a lane's receiver reports of one millisecond: the FOM (R307), the invalid symbols (R309), and the /S/ that it
inserted or deleted (R311). -/
structure LaneMs where
  fom : Nat
  invalid : Nat := 0
  skips : Nat := 0
  deriving DecidableEq, Repr

/-- An ECHO packet of a hub (R314): tag, status, port and the two CRCs; `bad` where the packet is to be discarded (R313). -/
structure EchoF where
  tag : Nat
  status : Nat
  port : Nat
  lineCrc : Word
  hdrCrc : Word
  bad : Bool := false
  deriving DecidableEq, Repr

/-- What a TLM packet says of one slot (R316). -/
structure SlotTlm where
  temp : Int
  vhead : Nat
  valid : Bool
  present : Bool
  weak : Nat
  deriving DecidableEq, Repr

/-- A TLM packet of a hub (R316). -/
structure HubTlmF where
  seq : Word
  fom : Nat
  master : Bool
  inLock : Bool
  noline : Nat
  fireBad : Nat
  refused : Nat
  slots : List SlotTlm
  bad : Bool := false
  deriving DecidableEq, Repr

/-- A GRANT packet of a hub (R314): claim number, result, master port (255 for none), its own port, and the
master's silence in µs. -/
structure GrantF where
  claim : Word
  result : Nat
  masterPort : Nat
  port : Nat
  silence : Nat
  bad : Bool := false
  deriving DecidableEq, Repr

/-- A CTRL reply (R314): of a hub, or on a lane that serves no enabled hub. -/
structure CtrlReplyF where
  id : Nat
  status : Nat
  space : Nat
  slot : Nat
  data : List Byte
  lane : Option Nat := none
  bad : Bool := false
  deriving DecidableEq, Repr

/-- A T2 set (R317); on Farsil, where training goes in both directions, also a T1 or a LOOP of the partner (R406), with
its sequence or loop number in `seq`: `what` is the type of the set, and `bad` that it fails its check. -/
structure T2F where
  rate : Nat
  port : Nat
  seq : Nat
  hash : Nat
  what : Nat := 2
  bad : Bool := false
  deriving DecidableEq, Repr

/-- A camera line as received (R340): the connections of its failing packets, the stream packets it took, the
width and format its image header names, its raw samples, and whether the image ends with it. -/
structure CamLine where
  failed : List Nat
  packets : List Nat
  width : Nat
  bits : Nat
  rgb : Bool
  px : List (List Nat)
  last : Bool
  deriving DecidableEq, Repr

/-- What the controller knows of a request (R384 to R389): the MEM cycle that accepts it, the channel and row-hit of each
512-byte piece, the channels that issue a piece meanwhile, and its latency in ns. -/
structure DramTiming where
  cycle : Nat := 0
  chans : List (Nat × Bool)
  issues : List Nat
  ns : Nat
  deriving DecidableEq, Repr

/-- The readings of a housekeeping round (R464): 32 values, the sensors that report open or fail the self-test,
the hold-up store's state, and what the AON copy of the Fire Guard limits has come to hold at some registers by an upset
(R303). -/
structure Readings where
  ch : List Int
  opens : List Nat
  stuck : List Nat
  holdupOk : Bool
  upset : List (Nat × Word) := []
  deriving DecidableEq, Repr

/-- An input's voltage as its comparators judge it (R458), in mV. -/
structure InputLevel where
  mv : Nat
  deriving DecidableEq, Repr

/-- What a BOOT stage finds (R489, R490): whether the block it checks passes, and the time since BOOT began. -/
structure BootResult where
  ok : Bool
  ms : Nat
  deriving DecidableEq, Repr

/-- A calibration export (R504), as read from the host: whether its CRC holds, its header, its tables, the
contexts' camera tables, the Fire Guard limits and ceilings by register offset, and the closure state. -/
structure CalExport where
  crcOk : Bool
  deviceId : DWord
  level : Nat
  geometry : Word
  length : Nat
  tables : Tab (Tab Nat)
  cams : List (Nat × Tab Nat × Tab Nat)
  limits : Tab Word
  ceilings : Tab Word
  gain : Tab (Option GainWait)
  nozzles : List NozzleWait
  keep : List (Nat × Nat)
  logPtr : Nat
  deriving DecidableEq, Repr

/-- What a transfer on SEC_XFER does once it is complete (R503). -/
inductive XferWork where
  | refused
  | calOut (addr : Nat) (e : CalExport)
  | monOut (addr : Nat) (p : Monument)
  | calIn (e : CalExport)
  | monIn (p : Monument) (crcOk : Bool)
  | fwIn (header image : List Byte)
  deriving DecidableEq, Repr

/-- The transfer in progress on SEC_XFER (R503): its operation, what it ends with, and the bytes it moves. -/
structure Xfer where
  op : Nat
  result : Nat := 0
  bytes : Nat := 0
  work : XferWork := .refused
  deriving DecidableEq, Repr

/-- What an axis's sense inputs bring during one planner tick: the codes of the 10-bit converter for coils A and B at
each quarter microsecond (R434). -/
structure AxisSense where
  codes : List (Int × Int) := []
  deriving DecidableEq, Repr

/-- The codes are those of a 10-bit converter. -/
def AxisSense.ok (x : AxisSense) : Bool :=
  x.codes.all (fun c => decide (-512 ≤ c.1) && decide (c.1 < 512) && decide (-512 ≤ c.2) && decide (c.2 < 512))

/-- What leaves the module, newest first in the list that holds it: writes to host memory, what a read returns,
interrupt messages, what the links and lands carry (the bytes of a read of DRAM; the level of the PGOOD outputs; a
station output with its level at the land; the four gates of an axis with their levels, GA1 in bit 0; and for one PWM
period of an axis the duties of its coils in 2^-16, each centred in the period, a negative one on the second end), and
the transfer whose bytes the spec does not lay out in full, a calibration export. -/
inductive Output where
  | hostWrite (addr : Nat) (bytes : List Byte)
  | hostRead (bytes : List Byte)
  | msix (vector : Nat) (addr : DWord) (data : Word)
  | laneSymbols (lane : Nat) (what : Nat) (data : List Byte)
  | lanePacket (lane : Nat) (kind : Nat) (data : List Byte)
  | trigger (connection : Nat) (line : Nat)
  | mailbox (device : Nat) (write : Bool) (addr data : Word)
  | frame (port : Nat) (data : List Byte)
  | beacon (port vlan dscp srcIp dstIp udp : Nat) (data : List Byte)
  | ptp (port kind seq : Nat) (data : List Byte)
  | calExport (addr : Nat) (e : CalExport)
  | dramRead (addr : Nat) (bytes : List Byte)
  | pgood (high : Bool)
  | station (out : Nat) (high : Bool)
  | gates (axis : Nat) (level : Nat)
  | pwm (axis : Nat) (dutyA dutyB : Int)
  deriving DecidableEq, Repr

/-- A write to host memory. -/
def Output.toHost : Output → Bool
  | .hostWrite _ _ => true | _ => false

end Sys2Proof.Machine
end

