-- ==== Sys2Proof/Syntax.lean ====
section
/-! DEFINITION. The commands and events of the module: one constructor for each row of the opcode table, with the
operands each carries. What the outside world supplies (received packets, readings, data read from the host) are
operands. -/

namespace Sys2Proof

open Sys2Proof.Machine in
/-- The commands and events that the block takes, in the order of the opcode table. -/
inductive Instr where
  /-- REGISTER_WRITE (R9): A BAR0 write to a register with no row of its own updates its fields as their access
  codes allow; misaligned, reserved, locked or out-of-mode writes are discarded. -/
  | registerWrite (addr size val : Nat)
  /-- LO_READ_LATCH (R11): A read of a _LO register latches the matching _HI half for the next _HI read. -/
  | loReadLatch (acc : BarRead)
  /-- PIN_LEVEL_WRITE (R4): A write to GLB_COMPAT.pin_level pins the charter level, or is discarded when above
  max_level. -/
  | pinLevelWrite (val : Nat)
  /-- DTM_TICK (R46): Each 2 ns DTM tick advances the Datum clock and tick count, votes the channel increments, and
  updates the voted and printed chainage, debt and slew. -/
  | dtmTick (residual : List Int)
  /-- SINCOS_SAMPLE (R37): A 20 ns ADC sample of a SINCOS channel is interpolated and tested against the amplitude
  window. -/
  | sincosSample (ch : Nat) (sin cos : Int) (mark : Bool)
  /-- AMPLITUDE_FAULT (R38): More than 16 consecutive samples outside the amplitude window fault the channel with
  cause AMPLITUDE. -/
  | amplitudeFault (ch : Nat)
  /-- QUAD_EDGE (R40): An edge on A, B or Z of a QUAD channel is counted, or is counted as an illegal transition. -/
  | quadEdge (ch : Nat) (a b z : PairIn)
  /-- TRANSITIONS_FAULT (R40): Sixteen illegal transitions within 65 536 counted edges, or four bad tooth intervals
  in a row, fault the channel with cause TRANSITIONS. -/
  | transitionsFault (ch : Nat)
  /-- TOOTH_EDGE (R41): A rising tooth edge is classified against the running median as a tooth, gap, extra tooth or
  bad interval. -/
  | toothEdge (ch stable : Nat)
  /-- SSI_REQUEST (R43): Every req_period the ABS channel clocks out an SSI word request. -/
  | ssiRequest (ch : Nat) (dataHigh : Bool)
  /-- SSI_WORD (R44): A received SSI word is checked and either accepted as the channel increment or discarded as
  bad. -/
  | ssiWord (ch word : Nat) (parity : Bool)
  /-- WORDS_FAULT (R44): Three request periods without a good word fault the ABS channel with cause WORDS. -/
  | wordsFault (ch : Nat)
  /-- DISAGREE_FAULT (R47): A deviation beyond threshold on more than 64 consecutive ticks makes the channel FAULTY
  with cause DISAGREE. -/
  | disagreeFault (ch : Nat)
  /-- PAIR_DISAGREEMENT (R48): In two-channel mode the pair sum beyond the larger threshold for more than 64 ticks
  loses the vote. -/
  | pairDisagreement
  /-- PROBATION_PASSED (R51): A channel in PROBATION clean for 8 deviation windows becomes VOTING and raises
  EV_CH_READMIT. -/
  | probationPassed (ch : Nat)
  /-- INDEX_PULSE (R58): An index arrives and is checked against the expected count, possibly reporting a mismatch
  and adding a re-home slew. -/
  | indexPulse (ch : Nat)
  /-- INDEX_MISSING (R58): The net count passes the expected index by half a pitch without an index, raising
  EV_CH_INDEX_MISSING. -/
  | indexMissing (ch : Nat)
  /-- ARM (R529): CHN_CTRL.arm arms the vote from CHN_PRESET or is refused with arm_cause. -/
  | arm
  /-- DISARM (R529): CHN_CTRL.disarm in SETUP sets vote_state to DISARMED. -/
  | disarm
  /-- READMIT (R51): CHN_CTRL.readmit puts a FAULTY voted channel into PROBATION, or back to HEALTHY while the vote
  is disarmed or lost. -/
  | readmit (ch : Nat)
  /-- AUX_CLEAR (R52): CHN_CTRL.aux_clear clears the fault of a FAULTY AUX channel and returns it to HEALTHY. -/
  | auxClear (ch : Nat)
  /-- SLEW_CANCEL (R59): CHN_CTRL.slew_cancel sets slew_pending to 0. -/
  | slewCancel
  /-- BACKSTEP_RELEASE (R56): CHN_CTRL.backstep_release clears backstep_hold when the debt is 0, raising
  EV_CH_BACKSTEP_END. -/
  | backstepRelease
  /-- SPEED_WINDOW_END (R60): At the end of each speed window the speed registers, run-ahead, fire rate, overspeed
  warning and speed limit are recomputed. -/
  | speedWindowEnd
  /-- PROBE_EDGE (R61): A filtered edge on an enabled probe input latches a stake, queues or discards it, and arms
  waiting STAKE slots. -/
  | probeEdge (n : Nat) (rising : Bool)
  /-- STAKE_POP (R63): A write to CHN_PRB<n>_POP removes the oldest stake. -/
  | stakePop (n : Nat)
  /-- STN_CMD_COMMIT (R70): STN_CMD op COMMIT submits the staging registers to a slot. -/
  | stnCmdCommit (slot : Nat)
  /-- STN_CMD_CANCEL (R73): STN_CMD op CANCEL submits a cancel of a slot. -/
  | stnCmdCancel (slot : Nat)
  /-- STN_CMD_READ (R86): STN_CMD op READ fills the staging registers from a slot. -/
  | stnCmdRead (slot : Nat)
  /-- STN_COMMAND_TAKEN (R70): A station commit or cancel reaches DTM and takes effect on one tick, arming, retiring
  or refusing the slot. -/
  | stnCommandTaken
  /-- STATION_CROSSING (R66): A DTM tick crosses ARMED slots, which act, skip or retire, chain further slots and
  pass actions to other blocks. -/
  | stationCrossing
  /-- PULSE_END (R81): An OUT_PULSE width expires, the output goes inactive and min_gap starts. -/
  | pulseEnd (out : Nat)
  /-- MIN_GAP_END (R81): An output's min_gap expires and it accepts pulses again. -/
  | minGapEnd (out : Nat)
  /-- LIFT_INHIBIT_END (R84): The printed chainage passes down target + settle and the lift group's plane inhibit
  ends. -/
  | liftInhibitEnd (group : Nat)
  /-- RATE_LIMITED_RECORD (R528): 10 ms after a source's last record with occurrences pending, the module raises one
  record carrying the count. -/
  | rateLimitedRecord (code source : Nat)
  /-- DTM_INCR_WRITE (R89): A write to DTM_INCR_HI from the servo owner sets the clock increment, limited to
  1.99–2.01 ns. -/
  | dtmIncrWrite (lo : Option Nat) (hi : Nat) (firmware : Bool)
  /-- DTM_OFFSET_WRITE (R90): A write to DTM_OFFSET_HI from the owner queues an offset, or is refused while one is
  pending. -/
  | dtmOffsetWrite (lo : Option Nat) (hi : Nat) (firmware : Bool)
  /-- DTM_OFFSET_APPLIED (R90): The pending offset is added to the Datum clock on one tick, step_count increments
  and EV_DTM_STEP is raised. -/
  | dtmOffsetApplied
  /-- DTM_EPOCH_WRITE (R94): A write to DTM_EPOCH_HI from the owner sets the PTP epoch on one tick and raises
  EV_DTM_EPOCH. -/
  | dtmEpochWrite (lo : Option Nat) (hi : Nat) (firmware : Bool)
  /-- SNAP (R93): DTM_CTRL.snap latches Datum time, ticks, printed chainage and vote_state from one tick. -/
  | snap
  /-- PTP_FRAME_RX (R95): A received PTP event message is timestamped at the land and passed to the firmware. -/
  | ptpFrameRx (port kind seq : Nat)
  /-- PTP_FRAME_TX (R96): A PTP event message leaves with its egress stamp queued or inserted one-step. -/
  | ptpFrameTx (port kind seq : Nat) (twoStep : Bool) (frame : List Byte) (taken : Nat)
  /-- PTP_SAMPLE_POST (R98): With servo_owner HOST the firmware posts a PTP_SAMPLE record to TLM for each completed
  measurement. -/
  | ptpSamplePost (payload : List Byte)
  /-- PTP_PORT_STATE_CHANGE (R99): The PTP port changes state; leaving SLAVE puts the servo in HOLDOVER, and
  EV_PTP_STATE is raised. -/
  | ptpPortStateChange (state servo : Nat) (offset : Int)
  /-- ETH_LINK_CHANGE (R101): An Ethernet port's link goes down or up, raising EV_ETH_LINK. -/
  | ethLinkChange (port : Nat) (up : Bool)
  /-- PTP_FAILOVER (R101): After the active PTP port loses link with fo_en set, the firmware moves PTP to the other
  port. -/
  | ptpFailover
  /-- ETH_FRAME_RX (R100): A received Ethernet frame is handled as PTP, ARP or ICMP echo, or counted and discarded.
  -/
  | ethFrameRx (port : Nat) (f : EthFrame)
  /-- BEACON_SAMPLE (R102): Each beacon period a chainage–PTP pair is sampled and a beacon datagram is sent on each
  selected port or counted dropped. -/
  | beaconSample (resolved : Nat)
  /-- DIAG_READ (R110): A BAR4 read returns module DRAM at the diagnostic base, or 0 in the state region while
  locked. -/
  | diagRead (off len : Nat)
  /-- DIAG_WRITE (R110): A BAR4 write is performed while the survey lock is open, or discarded and counted. -/
  | diagWrite (off : Nat) (data : List Byte)
  /-- FUNCTION_LEVEL_RESET (R111): A Function Level Reset stops the module, disables every ring and resets the MSI-X
  table. -/
  | functionLevelReset
  /-- D3HOT_ENTRY (R111): Entry to D3hot acts as a stop with source PM. -/
  | d3hotEntry
  /-- PCIE_LINK_DOWN (R111): The PCIe link goes down, raising EV_HST_LINK and stopping the module when stop_on_link
  is 1. -/
  | pcieLinkDown
  /-- PCIE_LINK_UP (R143): The PCIe link trains up and EV_HST_LINK reports speed and width. -/
  | pcieLinkUp (speed width : Nat)
  /-- RING_ENABLE (R115): Setting HST_RING<r>_CFG.en enables the ring or refuses it with a cause. -/
  | ringEnable (r : Nat)
  /-- RING_DISABLE (R119): Clearing en stops the ring at the next descriptor boundary. -/
  | ringDisable (r : Nat)
  /-- DOORBELL (R117): A BAR2 doorbell write sets a ring's tail or head, or is discarded with a cause. -/
  | doorbell (page off val : Nat)
  /-- DESCRIPTOR_FETCHED (R118): A fetched descriptor is checked for phase and opcode and dispatched, or the ring
  stops with cause PHASE. -/
  | descriptorFetched (r : Nat) (d : DescHead)
  /-- HOST_DMA_ERROR (R130): The host returns an error or poisoned completion; the descriptor completes DMA_ERROR
  and EV_HST_DMA_ERROR is raised. -/
  | hostDmaError (h : DescRef) (status : Nat)
  /-- COMPLETION_QUEUED (R120): A completion waiting for room is written once its target has a free entry, and
  stalled rings resume. -/
  | completionQueued (target : Nat)
  /-- FIELDBOOK_DRAIN (R140): Queued records are written to FIELDBOOK once it has room, with EV_HST_FB_LOST if
  records were lost. -/
  | fieldbookDrain
  /-- TLM_SNAPSHOT (R144): Every tlm_period_ms a snapshot telemetry record is written or counted dropped. -/
  | tlmSnapshot
  /-- VECTOR_HOLDOFF_EXPIRY (R146): A vector's holdoff since its first pending entry passes and the MSI-X message is
  raised. -/
  | vectorHoldoffExpiry (v : Nat)
  /-- STOP_PAGE_WRITE (R135): Any write to BAR2 page 0 stops the module with source PAGE. -/
  | stopPageWrite
  /-- STOP_N_FALL (R530): STOP_n going low stops the module with source LAND and drops HEAD_PWR_EN. -/
  | stopNFall
  /-- STOP_N_RISE (R301): STOP_n returning high lets a LAND stop be released and HEAD_PWR_EN conditions be re-
  evaluated. -/
  | stopNRise
  /-- HST_STOP (R135): HST_STOP.stop stops the module with source RING. -/
  | hstStop
  /-- STOP_RELEASE (R137): HST_STOP.release clears the stop unless STOP_n is low, sends held writes and resumes
  fetching. -/
  | stopRelease
  /-- JOB_OPEN (R151): JOB_OPEN opens a job in a free slot and takes its reservation. -/
  | jobOpen (h : DescRef) (f : JobOpenF)
  /-- JOB_IMAGE (R153): JOB_IMAGE checks, codes and stores one band of a stream. -/
  | jobImage (h : DescRef) (f : JobImageF) (data : List Byte)
  /-- STREAM_SPACE_RESUME (R162): A waiting streamed JOB_IMAGE proceeds once firing has released extents. -/
  | streamSpaceResume
  /-- JOB_CLOSE (R151): JOB_CLOSE closes a job's streams and reports extents held. -/
  | jobClose (h : DescRef) (tag : Nat)
  /-- JOB_ARM (R170): JOB_ARM arms a job at its origin as a CONTENT commit, or waits for its start station. -/
  | jobArm (h : DescRef) (f : JobArmF)
  /-- JOB_DELETE (R151): JOB_DELETE frees an OPEN or STORED job and its extents. -/
  | jobDelete (h : DescRef) (tag : Nat)
  /-- BLOCK_DATA (R177): BLOCK_DATA checks a supplied Vangop block and writes it to the repair pool. -/
  | blockData (h : DescRef) (f : BlockDataF) (data : List Byte)
  /-- JOB_EFFECT_CROSSED (R170): The printed chainage first crosses an armed job's effect chainage and the job
  becomes PRINTING. -/
  | jobEffectCrossed (tag : Nat)
  /-- NOP (R124): CTRL NOP completes OK. -/
  | nop (h : DescRef)
  /-- ABORT (R134): CTRL ABORT ends a job before its commit point, blanking unfired rows. -/
  | abort (h : DescRef) (tag : Nat)
  /-- STOP (R124): CTRL STOP stops the module with source RING. -/
  | stop (h : DescRef)
  /-- REVOKE (R201): CTRL REVOKE commits a revocation of an item range as a CONTENT commit. -/
  | revoke (h : DescRef) (f : RevokeF)
  /-- MODE (R494): CTRL MODE requests a mode transition. -/
  | mode (h : DescRef) (target : Nat)
  /-- STN_COMMIT (R124): CTRL STN_COMMIT commits a station slot as op COMMIT does. -/
  | stnCommit (h : DescRef) (f : StnCommitF)
  /-- STN_CANCEL (R124): CTRL STN_CANCEL cancels a station slot as op CANCEL does. -/
  | stnCancel (h : DescRef) (slot : Nat)
  /-- ITEM (R192): An ITEM descriptor checks and stores one part of an item, or waits for room. -/
  | item (h : DescRef) (f : ItemF) (data : List Byte)
  /-- ITEM_WAIT_RESUME (R194): A waiting ITEM proceeds once an extent or an item place is free. -/
  | itemWaitResume (layer : Nat)
  /-- FENCE (R195): FENCE advances fence_reached of a layer when its value is ahead. -/
  | fence (h : DescRef) (layer : Nat) (v : Word)
  /-- TABLE_COMMIT (R126): TABLE_COMMIT commits a COSMETIC table version through the commit point, taking an epoch
  and requeuing swaths. -/
  | tableCommit (h : DescRef) (f : TableF) (entries : List Nat)
  /-- EFFECT_KNOWN (R246): When every requeued swath of a commit is rendered or reached its deadline, the EFFECT
  entry is queued. -/
  | effectKnown (epoch : Word)
  /-- BUFFER (R127): A CAMO BUFFER descriptor offers host memory, into which spilled output units are written. -/
  | buffer (h : DescRef) (f : BufferF)
  /-- SLOT_BIND (R196): A PITCH slot reaches its binding lead and is bound to its item or to the late policy. -/
  | slotBind (layer : Nat)
  /-- ENGINE_SELECT (R239): An engine starting a swath selects its next swath by urgency, home and stealing order.
  -/
  | engineSelect (e : Nat) (reads : List BlockRead) (loads : List TableLoad)
  /-- SWATH_RENDER_DONE (R240): An engine finishes a swath after 8 512 cycles and writes its tile and CRC. -/
  | swathRenderDone (e : Nat)
  /-- SWATH_DEADLINE (R243): A swath reaches its deadline: it is missed if never rendered, or its fallback tile or
  blanks are used if a re-render is unfinished. -/
  | swathDeadline (job plane row : Nat)
  /-- BLOCK_HORIZON_REACHED (R178): An unrepaired block reaches its fire horizon and its dots print no drop. -/
  | blockHorizonReached (job layer plane block : Nat)
  /-- TILE_WAIT_RESUME (R242): An URGENT render waiting for a tile slot starts once one is free. -/
  | tileWaitResume (e : Nat)
  /-- PARK_ORDER_WRITE (R249): A write to TRV_PARK_ORDER is taken, or discarded whole if invalid. -/
  | parkOrderWrite (val : Nat)
  /-- PARK_STEP_CHANGE (R249): The steps asked by host, thermal, supply or mode change and clusters are ordered to
  park or run. -/
  | parkStepChange
  /-- CLUSTER_PARKED (R250): A cluster finishes its swaths and is parked, and the ceiling is recomputed. -/
  | clusterParked (c : Nat)
  /-- CLUSTER_WOKEN (R250): A cluster ordered to run becomes ready and its engines choose work. -/
  | clusterWoken (c : Nat)
  /-- FIRE_FETCH_START (R264): The printed chainage reaches a line's fetch point for a hub and the fire DMA reads
  and remaps its codes. -/
  | fireFetchStart (job line hub : Nat)
  /-- FIRE_FETCH_DONE (R264): A line's fetch completes with codes thinned, and HDR and LINE packets are queued for
  the lane. -/
  | fireFetchDone (job line hub : Nat)
  /-- LINE_PACKET_SENT (R264): A LINE packet has left the lane and its line-buffer slot is released. -/
  | linePacketSent (job line hub : Nat)
  /-- FIRE_COMMIT (R270): A due row-line's /F/ is committed 40 ns before its symbol slot, or the line is not fired
  for lateness, overspeed or inhibit. -/
  | fireCommit (job line hub rows : Nat)
  /-- DOWNSHIFT_BOUNDARY (R282): A pending downshift or return reaches its boundary and alternate-line firing starts
  or ends. -/
  | downshiftBoundary
  /-- TLM_STALE (R275): A head's telemetry ages beyond 100 ms and it falls back to def_band with EV_FIRE_WAVE. -/
  | tlmStale (head : Nat)
  /-- USAGE_RECORD_WRITE (R288): Every period, job end or stop, a usage record is written to each head's memory. -/
  | usageRecordWrite
  /-- USAGE_WRITE_RETRY (R288): An unacknowledged usage write is retried after 10 ms, failing after two retries. -/
  | usageWriteRetry (head : Nat)
  /-- TABLE_WINDOW_WRITE (R261): A write to a remap or waveform table window is accepted in SETUP before the lock,
  or discarded. -/
  | tableWindowWrite (addr val : Nat)
  /-- WATCHDOG_REFRESH (R302): A write to FGD_G_WDG refreshes the watchdog or is discarded and counted. -/
  | watchdogRefresh (val : Nat) (firmware : Bool)
  /-- WATCHDOG_EXPIRY (R302): The watchdog period passes without refresh, dropping HEAD_PWR_EN and entering HALT. -/
  | watchdogExpiry
  /-- CEILING_SAVE (R293): FGD_G_SAVE.save stores the ceiling record in NAND under the survey lock. -/
  | ceilingSave
  /-- HEAD_PWR_CHANGE (R301): HEAD_PWR_EN changes as its conditions fail or all hold, raising EV_GUARD_PWR. -/
  | headPwrChange
  /-- ECHO_RX (R326): A hub ECHO is compared with the sent CRCs; a mismatch resends or withholds the line. -/
  | echoRx (hub : Nat) (e : EchoF)
  /-- ECHO_TIMEOUT (R326): No ECHO arrives within 50 µs and the line is counted as echo missing. -/
  | echoTimeout (job line hub : Nat)
  /-- HUB_TLM_RX (R316): A hub TLM packet updates head temperatures, supplies and counters. -/
  | hubTlmRx (hub : Nat) (t : HubTlmF)
  /-- GRANT_RX (R331): A GRANT from a hub updates which port it names master and the majority held. -/
  | grantRx (hub : Nat) (g : GrantF)
  /-- CTRL_REPLY_RX (R314): A hub CTRL reply completes a capability, serial or usage read or write. -/
  | ctrlReplyRx (hub : Nat) (r : CtrlReplyF)
  /-- RXLOST_RX (R327): An RXLOST /C/ from a hub makes the lane lose lock with cause RXLOST. -/
  | rxlostRx (x : LaneSet)
  /-- ALIGN_MARKER_DUE (R310): Every 4 096 symbols an /A/ set is sent on each lane of a group. -/
  | alignMarkerDue
  /-- SKIP_DUE (R311): After 1 024 symbols an /S/ is sent in the next gap. -/
  | skipDue (lane : Nat)
  /-- HEARTBEAT_DUE (R318): Every 100 µs a HEARTBEAT /C/ is sent on each driven lane. -/
  | heartbeatDue
  /-- LANE_LOCK_LOST (R327): A lane loses lock; the hub goes DOWN, DEGRADED or BLANK and the lane retrains. -/
  | laneLockLost (lane cause : Nat)
  /-- LANE_RETRAIN (R322): Enabling a lane or writing SKX_L<n>_CTRL.retrain starts a full training. -/
  | laneRetrain (lane : Nat)
  /-- TRAIN_STEP_TIMEOUT (R322): A training step's time limit passes and training moves to the next rate or fails.
  -/
  | trainStepTimeout (lane : Nat)
  /-- LANE_UP (R325): Training completes with the capability block checked, the lane UP and EV_LANE_UP raised. -/
  | laneUp (lane : Nat)
  /-- RETRAIN_RETRY (R322): A failed retrain after loss of lock is repeated every 10 ms. -/
  | retrainRetry (lane : Nat)
  /-- LOOP_MEASURE (R323): Every 10 ms a LOOP set measures the round trip and updates lane_lat. -/
  | loopMeasure
  /-- FOM_WINDOW (R307): Each 1 ms the eye monitor reports FOM and raises EV_LANE_FOM on threshold crossings. -/
  | fomWindow (lane : Nat) (w : LaneMs)
  /-- HUB_DARK_TIMEOUT (R329): A hub stays dark beyond dark_ms and the dark policy applies. -/
  | hubDarkTimeout (hub : Nat)
  /-- CHK_SELFTEST (R333): CHK_CTRL.selftest makes every check unit verify the standard check value. -/
  | chkSelftest (bad : Nat)
  /-- CAM_DEVICE_ENABLE (R338): Setting CAM_D<d>_CFG.en brings the device up through discovery, rate setting and
  test. -/
  | camDeviceEnable (d : Nat)
  /-- CAM_BRINGUP_RETRY (R338): A FAILED device is retried every 1 s. -/
  | camBringupRetry (d : Nat)
  /-- CXP_LOCK_LOST (R338): A connection of an UP device loses lock; the device becomes DOWN and its open frames
  close short. -/
  | cxpLockLost (conn : Nat)
  /-- CXP_CONNECTION_RETURN (R338): A lost connection returns and the device is brought up again. -/
  | cxpConnectionReturn (conn : Nat)
  /-- MAILBOX_READ (R339): CAM_MBX_CMD op READ reads 4 bytes of device register space. -/
  | mailboxRead
  /-- MAILBOX_WRITE (R339): CAM_MBX_CMD op WRITE writes 4 bytes of device register space. -/
  | mailboxWrite
  /-- MAILBOX_DONE (R339): A mailbox access completes with OK, TIMEOUT, DEVICE_ERROR or NO_LINK. -/
  | mailboxDone (result : Nat) (data : Word)
  /-- CAMERA_LINE_RX (R340): A camera line arrives, is stored raw, answers a trigger and is taken by contexts or
  dropped or orphaned. -/
  | cameraLineRx (d : Nat) (l : CamLine)
  /-- CXP_EVENT_PACKET (R337): A CoaXPress event packet is received, counted and discarded. -/
  | cxpEventPacket (conn : Nat)
  /-- LINE_TRIGGER (R344): The printed chainage crosses a LINE-mode trigger and a trigger packet is sent or counted
  not sent. -/
  | lineTrigger (d : Nat)
  /-- FRAME_TIMEOUT (R347): TIMEOUT passes with a frame's trigger unanswered and the frame closes SHORT. -/
  | frameTimeout (ctx : Nat)
  /-- CAM_TBL_DATA_ACCESS (R350): An access to CAM_TBL_DATA reads or writes a staged table entry and advances
  CAM_TBL_IDX. -/
  | camTblDataAccess (write : Bool) (val : Nat)
  /-- GEN_COMMIT (R356): CAM_C<c>_GEN.commit starts copying the staged set into a pending generation, or is refused.
  -/
  | genCommit (ctx : Nat)
  /-- GEN_COPY_DONE (R356): The generation copy ends and the printed chainage C is recorded for its effect. -/
  | genCopyDone (ctx : Nat)
  /-- STRIP_FRAME_START (R362): A control strip reaches its start target and closure starts a frame on each
  measuring context. -/
  | stripFrameStart (job : Nat)
  /-- STATS_UNIT (R365): A STATS unit reaches closure, which accepts cells, updates gains and examines streaks, or
  forwards it to the host. -/
  | statsUnit
  /-- KEEP (R375): CAM_CLS_OVR op KEEP adds a nozzle to the keep list and re-enables it if closure disabled it. -/
  | keep
  /-- RELEASE (R375): CAM_CLS_OVR op RELEASE takes a nozzle off the keep list. -/
  | release
  /-- BENCH_START (R377): CAM_CLS_BENCH.start starts a print calibration in BENCHMARK. -/
  | benchStart
  /-- BENCH_ABORT (R377): CAM_CLS_BENCH.abort ends a calibration run after its last commit. -/
  | benchAbort
  /-- DRAM_REQUEST_ACCEPT (R385): A port request is accepted, split into pieces and scheduled by class and panic. -/
  | dramRequestAccept (port : Nat) (write : Bool) (addr len : Nat) (data : List Byte) (t : DramTiming)
  /-- REFRESH_DUE (R391): A per-bank refresh falls due and is issued, postponed as owed, or forced. -/
  | refreshDue (ch : Nat)
  /-- CODE_PAGE_CHECK (R396): Once a second firmware pages are checked and a failing page is reloaded. -/
  | codePageCheck (bad lost : List Nat)
  /-- PAIRING_ATTEMPT (R406): A Farsil pairing attempt trains the link and exchanges HELLO. -/
  | pairingAttempt
  /-- PAIRING_TIMEOUT (R406): Pairing not complete within 10 ms is abandoned and retried after 1 s. -/
  | pairingTimeout
  /-- HELLO_RX (R407): A HELLO is checked and the pairing accepted or refused, deciding FORESIGHT. -/
  | helloRx (p : Hello)
  /-- PARTNER_HEARTBEAT_RX (R415): A partner HEARTBEAT updates the standby's chainage slew and in-step state. -/
  | partnerHeartbeatRx (b : Heartbeat)
  /-- MIRROR_RX (R414): A MIRROR packet's records are applied in sequence by the standby, or NAKed. -/
  | mirrorRx (rs : List MirrorItem) (crcOk : Bool)
  /-- ACK_RX (R413): An ACK frees staged records and fixes the commit point of commits it covers. -/
  | ackRx (seq : Word)
  /-- NAK_RX (R410): A NAK makes the active module resend from the named sequence. -/
  | nakRx (seq : Word)
  /-- MONUMENT_RX (R417): A monument part is received and the newest whole monument kept. -/
  | monumentRx (p : Monument) (part parts : Nat) (crcOk : Bool)
  /-- MONUMENT_DUE (R417): Every 10 ms while paired the active module sends a monument. -/
  | monumentDue
  /-- PARTNER_LOST (R409): No partner HEARTBEAT for 500 µs or a Farsil lane loses lock; the partner is lost. -/
  | partnerLost (lane : Option Nat)
  /-- COMMIT_HOLD_EXPIRY (R418): The 6 ms commit hold after losing a BACKSIGHT partner ends and the module becomes
  SOLO. -/
  | commitHoldExpiry
  /-- CLAIM_ROUND (R403): On each claim round the module sends CLAIM to hubs it may claim. -/
  | claimRound
  /-- CLAIM_HOLDOFF_EXPIRY (R405): The B-strapped module's extra 50 ms wait ends and it may claim. -/
  | claimHoldoffExpiry
  /-- CLAIM_WINDOW_EXPIRY (R419): A CLAIMING standby without the majority 5 ms after the loss releases, parks and
  becomes DETACHED. -/
  | claimWindowExpiry
  /-- STATE_RESTORED (R421): Restoring state from the monument and records ends and rendering resumes. -/
  | stateRestored
  /-- MAJORITY_LOSS_TIMEOUT (R423): An active module without the majority for 2 ms hands over to its standby. -/
  | majorityLossTimeout
  /-- HANDOVER_RX (R423): A CONTROL HANDOVER tells the standby a handover is under way. -/
  | handoverRx
  /-- RELEASED_RX (R423): A CONTROL RELEASED makes the receiver claim every hub. -/
  | releasedRx
  /-- ECHO_WINDOW (R424): Each 1 ms the standby judges whether a majority of hubs lacked matching echoes and may
  raise ECHO_ALARM. -/
  | echoWindow
  /-- ECHO_ALARM_RX (R424): The active module answers an ECHO_ALARM with ALARM_REPLY and hands over if it agrees. -/
  | echoAlarmRx
  /-- ALARM_REPLY_RX (R424): The standby receives ALARM_REPLY and falls out of step when result is 0. -/
  | alarmReplyRx (result : Nat)
  /-- HALT_RESET_TIMER (R425): 1 ms after a paired module enters HALT with halt_reset set it resets itself. -/
  | haltResetTimer
  /-- REVERT_HOLD_EXPIRY (R427): A standby strapped A in step for revert_hold_s plans a revert and sends REVERT_REQ.
  -/
  | revertHoldExpiry
  /-- REVERT_NOW (R427): PTN_CTRL.revert_now plans a revert at once. -/
  | revertNow
  /-- REVERT_REQ_RX (R427): The active module accepts a revert with REVERT_ACK or refuses it. -/
  | revertReqRx (c : Chainage)
  /-- REVERT_ACK_RX (R427): On REVERT_ACK both modules enter REVERTING and the standby unparks. -/
  | revertAckRx (c : Chainage)
  /-- REVERT_SWITCH (R428): The printed chainage passes c_sw + 10 µs and the active module releases its hubs or
  aborts the revert. -/
  | revertSwitch
  /-- REVERT_ABORT_RX (R428): A REVERT_ABORT returns the reverting module to BACKSIGHT. -/
  | revertAbortRx
  /-- REVERT_MAJORITY_TIMEOUT (R429): Without the majority 5 ms after RELEASED the reverting module releases and
  aborts. -/
  | revertMajorityTimeout
  /-- RESYNC (R416): PTN_CTRL.resync starts a full resynchronisation on the standby. -/
  | resync
  /-- PROOF_PHASE_ADVANCE (R430): Each second the proof traverse sample phase advances by one. -/
  | proofPhaseAdvance
  /-- MOVE (R437): MOT op MOVE starts or retargets a move from the staging registers. -/
  | move (a : Nat)
  /-- PRESET (R437): MOT op PRESET starts or retargets a move from a preset. -/
  | preset (a : Nat)
  /-- STOP_AXIS (R447): MOT op STOP decelerates the axis to standstill. -/
  | stopAxis (a : Nat)
  /-- LIMITS (R439): MOT op LIMITS copies the staging limits, replanning the move when immediate is set. -/
  | limits (a : Nat)
  /-- HOME (R447): MOT op HOME moves the axis at homing current until it stalls. -/
  | home (a : Nat)
  /-- SET_POS (R447): MOT op SET_POS sets the position and pos_valid. -/
  | setPos (a : Nat)
  /-- GEAR_ON (R450): MOT op GEAR_ON gears the axis target to chainage or an AUX channel. -/
  | gearOn (a : Nat)
  /-- GEAR_OFF (R450): MOT op GEAR_OFF ends gearing and stops the axis. -/
  | gearOff (a : Nat)
  /-- CLEAR (R447): MOT op CLEAR takes a FAULT axis to OFF. -/
  | clear (a : Nat)
  /-- OFF (R447): MOT op OFF turns a HOLD axis OFF. -/
  | off (a : Nat)
  /-- AXIS_ENABLE (R447): Setting MOT_A<a>_CFG.en puts the axis in HOLD with pos_valid 0. -/
  | axisEnable (a : Nat)
  /-- PLANNER_TICK (R436): Each 1 µs planner tick takes commands, advances the profile, acts compare units and
  updates the print window. -/
  | plannerTick (senses : List AxisSense)
  /-- STALL (R445): Current at the ceiling for 8 full steps raises EV_MOT_STALL and stops, warns or homes the axis.
  -/
  | stall (a : Nat)
  /-- OVERCURRENT (R446): Coil current above 5/4 of the ceiling for 2 periods drives the gates low and faults the
  axis. -/
  | overcurrent (a : Nat) (coilA coilB : Int)
  /-- GEAR_LAG (R451): Gear lag beyond lag_max for 1 ms raises EV_MOT_GEAR_LAG. -/
  | gearLag (a : Nat)
  /-- CMP_ARM (R452): CMP<m>_CFG.arm arms a compare unit, or makes it LATE or CAUGHT_UP. -/
  | cmpArm (a m : Nat)
  /-- CMP_CANCEL (R452): CMP<m>_CFG.cancel takes an ARMED compare unit to CANCELLED. -/
  | cmpCancel (a m : Nat)
  /-- SUPPLY_GOOD_CHANGE (R458): An input crosses its good window, raising EV_SUPPLY_GOOD and switching the load to
  VBACK if VMAIN went bad. -/
  | supplyGoodChange (input : Nat) (level : Machine.InputLevel) (otherMv : Nat)
  /-- SUPPLY_RETURN (R459): VMAIN good for return_ms takes the load back from VBACK. -/
  | supplyReturn (otherMv : Nat)
  /-- POWER_FAIL (R461): Both inputs bad for 100 µs declares power-fail, silences links, parks engines and starts
  the final monument. -/
  | powerFail (vmainMv vbackMv : Nat)
  /-- FINAL_MONUMENT_DONE (R462): The final monument is written to NAND, after which a returned input resets the
  module. -/
  | finalMonumentDone
  /-- HOUSEKEEPING_ROUND (R464): Every 1.024 ms the 32 channels are read and current limit, thermal steps, sensor
  health, bands and Fire Guard copies are judged. -/
  | housekeepingRound (r : Readings)
  /-- THERMAL_SHUTDOWN (R468): A reading or AON trip at 125 °C latches thermal shutdown, dropping head power and
  regulators. -/
  | thermalShutdown (ch : Nat) (reading : Int)
  /-- SHUTDOWN_RECORD_DONE (R468): The shutdown record is written and every regulator except AON switches off. -/
  | shutdownRecordDone
  /-- CAL_REQUEST (R472): CAL_REQ.go starts one calibration or completes with BUSY, STATE or BAD_TARGET. -/
  | calRequest
  /-- CALIBRATION_DONE (R472): A calibration ends with a new trim or FAILED, and EV_CAL_DONE is raised. -/
  | calibrationDone (words : List Word) (ok : Bool)
  /-- TRIM_WORD_WRITE (R471): A trim word write is taken, or discarded whole when it selects the wrong number of
  elements. -/
  | trimWordWrite (addr val : Nat)
  /-- CLOCK_FAILURE (R479): SYS_REFCLK or a core PLL fails and every domain but AON is held in reset. -/
  | clockFailure
  /-- CLOCK_STABLE (R479): The reference and PLLs stable for 1 ms start BOOT. -/
  | clockStable
  /-- LANE_PLL_UNLOCK (R479): The LTX or NET PLL unlocks and every transceiver stops sending. -/
  | lanePllUnlock (net : Bool)
  /-- LANE_PLL_RELOCK (R479): The lane PLL locked for 100 µs lets lanes retrain. -/
  | lanePllRelock (net : Bool)
  /-- POWER_ON (R488): AON powers up from both inputs below 3 V and BOOT starts with cause POWER. -/
  | powerOn (straps : Nat)
  /-- RESET_PIN (R488): RESET_n held low for 1 µs resets the module. -/
  | resetPin (straps : Nat)
  /-- SOFTWARE_RESET (R488): A write of 0x5A17 to GLB_RESET.key resets the module. -/
  | softwareReset (key straps : Nat)
  /-- BOOT_STAGE_DONE (R489): A BOOT stage completes and the next starts, or BOOT stops on a failed check or ends in
  SETUP or HALT. -/
  | bootStageDone (b : BootResult)
  /-- MODE_REQUEST (R494): A write of GLB_MODE_REQ.target requests a mode transition, accepted or refused with a
  cause. -/
  | modeRequest (target : Nat)
  /-- LOCK (R496): GLB_LOCK.lock in SETUP starts the lock checks. -/
  | lock
  /-- LOCK_CHECKS_DONE (R497): The lock checks end, locking the press description or refusing with a result. -/
  | lockChecksDone
  /-- NONCE (R500): SEC_CTRL.nonce issues a fresh challenge, or is refused during back-off. -/
  | nonce (value : List Byte)
  /-- NONCE_EXPIRY (R500): A nonce becomes invalid 60 s after issue. -/
  | nonceExpiry
  /-- SUBMIT (R500): SEC_CTRL.submit checks the reply under the vendor and OEM keys and opens the scope or counts a
  failure. -/
  | submit
  /-- CLOSE (R501): SEC_CTRL.close closes every open scope. -/
  | close
  /-- BACKOFF_END (R501): The survey-lock back-off of at least 600 s ends. -/
  | backoffEnd
  /-- KEY_STORE (R502): SEC_KEY_CTRL.store stores a usage key and re-verifies head usage records for slot 0. -/
  | keyStore
  /-- KEY_ERASE (R502): SEC_KEY_CTRL.erase removes a key slot. -/
  | keyErase
  /-- CONFIRM (R493): SEC_FW.confirm marks the running image confirmed and raises the rollback counter. -/
  | confirm
  /-- EXPORT_CAL (R504): SEC_XFER op EXPORT_CAL writes a calibration export to host memory. -/
  | exportCal
  /-- EXPORT_MON (R503): SEC_XFER op EXPORT_MON writes a monument to host memory. -/
  | exportMon
  /-- IMPORT_CAL (R505): SEC_XFER op IMPORT_CAL installs tables, closure state and limits from an export. -/
  | importCal (p : CalExport)
  /-- IMPORT_MON (R505): SEC_XFER op IMPORT_MON takes the epoch, accumulators and closure state from a monument. -/
  | importMon (p : Monument) (length : Nat) (crcOk : Bool)
  /-- FW_LOAD (R503): SEC_XFER op FW_LOAD writes an image to the non-running slot and verifies it. -/
  | fwLoad (header image : List Byte)
  /-- XFER_DONE (R503): A transfer completes with result and bytes moved, raising EV_XFER. -/
  | xferDone
  /-- PREFETCH_STALL_END (R240): The inputs of an engine's selected swath arrive in scratch after its previous swath
  ended, and the engine starts the swath, ending the prefetch stall. -/
  | prefetchStallEnd (e : Nat)
  /-- ZQ_LATCH (R393): Every 64 ms each channel issues a ZQ latch command and pauses for 30 ns. -/
  | zqLatch
  /-- LANE_LOCK_ACQUIRED (R322): During training a head or Farsil lane reaches CDR lock and receives three good /A/
  sets in turn, so training can move on to T1/T2. -/
  | laneLockAcquired (x : LaneLock)
  /-- T2_RX (R322): A T2 /C/ set echoing the sequence arrives from the hub or partner, accepting or refusing the
  rate and carrying the capability hash. -/
  | t2Rx (lane : Nat) (t : T2F)
  /-- LOOP_RET_RX (R323): A LOOP_RET /C/ set reaches the HRX land, its round trip is measured and lane_lat is
  updated from the mean of the last 64. -/
  | loopRetRx (x : LaneSet) (num rt : Nat)
  /-- DEVICE_BRINGUP_DONE (R338): Discovery, rate setting and connection test of a CoaXPress device end, leaving it
  UP or FAILED with a cause and raising EV_CAM_LINK. -/
  | deviceBringupDone (d : Nat) (cause : Nat)
  /-- POWER_DOWN (R463): The inputs fall below what the module can run on and it goes down; a final monument not yet
  finished leaves its slot failing the check. -/
  | powerDown
  deriving DecidableEq, Repr

end Sys2Proof
end

