-- ==== Sys2Proof/Decode.lean ====
section
/-! DEFINITION. The commands that a word spells by the opcode table's bits. The table gives no row any bits: a
command of this block is an event, or an access or descriptor whose fields its own chapter lays out. -/

namespace Sys2Proof

/-- No row of the opcode table has an encoding, so no word spells a command. DEDUCED (log entry 16). -/
def decodeTableWord (_nbits _w : Nat) : Option Instr := none

end Sys2Proof
end

