-- ==== Sys2Proof/Machine/Events.lean ====
section
/-! DEFINITION. The event codes (R142) with the block that raises each (R138 byte 2). -/

namespace Sys2Proof.Machine

/-- An event: its code, and its raising block as BAR0 offset [23:16] (R138). -/
structure Ev where
  code : Nat
  block : Nat
  deriving DecidableEq, Repr

def Ev.boot : Ev := ⟨0x00, 0⟩
def Ev.supplyGood : Ev := ⟨0x01, 20⟩
def Ev.supplySwitch : Ev := ⟨0x02, 20⟩
def Ev.supplyLimit : Ev := ⟨0x03, 20⟩
def Ev.powerFail : Ev := ⟨0x04, 20⟩
def Ev.thermThrottle : Ev := ⟨0x05, 17⟩
def Ev.thermSensorBad : Ev := ⟨0x06, 17⟩
def Ev.thermShutdown : Ev := ⟨0x07, 17⟩
def Ev.calDone : Ev := ⟨0x08, 18⟩
def Ev.prevShutdown : Ev := ⟨0x09, 20⟩
def Ev.mode : Ev := ⟨0x0A, 0⟩
def Ev.halt : Ev := ⟨0x0B, 0⟩
def Ev.lockRefused : Ev := ⟨0x0C, 0⟩
def Ev.locked : Ev := ⟨0x0D, 0⟩
def Ev.xingOvf : Ev := ⟨0x0E, 0⟩
def Ev.dtmStep : Ev := ⟨0x10, 4⟩
def Ev.dtmEpoch : Ev := ⟨0x11, 4⟩
def Ev.dtmAdjRefused : Ev := ⟨0x12, 4⟩
def Ev.ethLink : Ev := ⟨0x13, 5⟩
def Ev.ptpState : Ev := ⟨0x14, 4⟩
def Ev.bcnDrop : Ev := ⟨0x15, 5⟩
def Ev.chArmed : Ev := ⟨0x20, 2⟩
def Ev.chBackstep : Ev := ⟨0x21, 2⟩
def Ev.chIndexMismatch : Ev := ⟨0x22, 2⟩
def Ev.chChannelFault : Ev := ⟨0x23, 2⟩
def Ev.chVoteLost : Ev := ⟨0x24, 2⟩
def Ev.chBackstepEnd : Ev := ⟨0x25, 2⟩
def Ev.chIndexMissing : Ev := ⟨0x26, 2⟩
def Ev.chReadmit : Ev := ⟨0x27, 2⟩
def Ev.chStake : Ev := ⟨0x28, 2⟩
def Ev.chStakeOverflow : Ev := ⟨0x29, 2⟩
def Ev.chSpeedLimit : Ev := ⟨0x2A, 2⟩
def Ev.stnLate : Ev := ⟨0x30, 3⟩
def Ev.stnSkipped : Ev := ⟨0x31, 3⟩
def Ev.stnCaughtUp : Ev := ⟨0x32, 3⟩
def Ev.stnMark : Ev := ⟨0x33, 3⟩
def Ev.stnPulseClipped : Ev := ⟨0x34, 3⟩
def Ev.stnActed : Ev := ⟨0x35, 3⟩
def Ev.stnState : Ev := ⟨0x36, 3⟩
def Ev.jobState : Ev := ⟨0x40, 8⟩
def Ev.jobFailedSpace : Ev := ⟨0x41, 8⟩
def Ev.blockCheck : Ev := ⟨0x42, 8⟩
def Ev.blockReread : Ev := ⟨0x43, 8⟩
def Ev.blockRequest : Ev := ⟨0x44, 8⟩
def Ev.blockRepaired : Ev := ⟨0x45, 8⟩
def Ev.jobStarved : Ev := ⟨0x46, 8⟩
def Ev.storeLow : Ev := ⟨0x47, 8⟩
def Ev.layerLate : Ev := ⟨0x48, 7⟩
def Ev.layerFlip : Ev := ⟨0x49, 7⟩
def Ev.itemDiscarded : Ev := ⟨0x4A, 7⟩
def Ev.itemCut : Ev := ⟨0x4B, 7⟩
def Ev.itemCheck : Ev := ⟨0x4C, 7⟩
def Ev.itemWait : Ev := ⟨0x4D, 7⟩
def Ev.proofDrop : Ev := ⟨0x4E, 7⟩
def Ev.trvCeiling : Ev := ⟨0x60, 6⟩
def Ev.trvEpochLate : Ev := ⟨0x61, 6⟩
def Ev.trvMiss : Ev := ⟨0x62, 6⟩
def Ev.trvRunaheadCapped : Ev := ⟨0x63, 6⟩
def Ev.trvRepairRequeue : Ev := ⟨0x64, 6⟩
def Ev.tileWait : Ev := ⟨0x65, 6⟩
def Ev.scrGap : Ev := ⟨0x78, 6⟩
def Ev.scrNoutLost : Ev := ⟨0x79, 6⟩
def Ev.scrSaturated : Ev := ⟨0x7A, 6⟩
def Ev.fireGeometry : Ev := ⟨0x80, 9⟩
def Ev.fireLateBlank : Ev := ⟨0x81, 9⟩
def Ev.fireOverspeed : Ev := ⟨0x82, 9⟩
def Ev.fireOverspeedWarn : Ev := ⟨0x83, 9⟩
def Ev.fireDownshift : Ev := ⟨0x84, 9⟩
def Ev.firePlacement : Ev := ⟨0x85, 9⟩
def Ev.fireWave : Ev := ⟨0x86, 9⟩
def Ev.fireUsage : Ev := ⟨0x87, 9⟩
def Ev.guardThin : Ev := ⟨0x88, 9⟩
def Ev.guardPulse : Ev := ⟨0x89, 9⟩
def Ev.guardGainLimited : Ev := ⟨0x8A, 9⟩
def Ev.guardWrite : Ev := ⟨0x8B, 9⟩
def Ev.guardWatchdog : Ev := ⟨0x8C, 9⟩
def Ev.guardFatal : Ev := ⟨0x8D, 9⟩
def Ev.guardPwr : Ev := ⟨0x8E, 9⟩
def Ev.laneUp : Ev := ⟨0xA0, 10⟩
def Ev.laneLockLost : Ev := ⟨0xA1, 10⟩
def Ev.laneDegraded : Ev := ⟨0xA2, 10⟩
def Ev.laneRestored : Ev := ⟨0xA3, 10⟩
def Ev.laneTrainFail : Ev := ⟨0xA4, 10⟩
def Ev.echoMismatch : Ev := ⟨0xA5, 10⟩
def Ev.echoMissing : Ev := ⟨0xA6, 10⟩
def Ev.laneFom : Ev := ⟨0xA7, 10⟩
def Ev.hubDarkHalt : Ev := ⟨0xA8, 10⟩
def Ev.chkSelftest : Ev := ⟨0xA9, 15⟩
def Ev.camLink : Ev := ⟨0xC0, 12⟩
def Ev.camFrameShort : Ev := ⟨0xC1, 12⟩
def Ev.camFrameLong : Ev := ⟨0xC2, 12⟩
def Ev.camCrc : Ev := ⟨0xC3, 12⟩
def Ev.camOutDrop : Ev := ⟨0xC4, 12⟩
def Ev.camTrigSkip : Ev := ⟨0xC5, 12⟩
def Ev.camGen : Ev := ⟨0xC6, 12⟩
def Ev.camOrphan : Ev := ⟨0xC7, 12⟩
def Ev.closureLimited : Ev := ⟨0xC8, 12⟩
def Ev.nozzleDisabled : Ev := ⟨0xC9, 12⟩
def Ev.streakSuspect : Ev := ⟨0xCA, 12⟩
def Ev.closureRefused : Ev := ⟨0xCB, 12⟩
def Ev.closureRowReject : Ev := ⟨0xCC, 12⟩
def Ev.nozzleLimit : Ev := ⟨0xCD, 12⟩
def Ev.benchDone : Ev := ⟨0xCE, 12⟩
def Ev.closureMissed : Ev := ⟨0xCF, 12⟩
def Ev.ptnState : Ev := ⟨0xE0, 19⟩
def Ev.partnerLinkLost : Ev := ⟨0xE1, 19⟩
def Ev.takeover : Ev := ⟨0xE2, 19⟩
def Ev.revert : Ev := ⟨0xE3, 19⟩
def Ev.drmTempBand : Ev := ⟨0xE4, 14⟩
def Ev.drmRefreshForced : Ev := ⟨0xE5, 14⟩
def Ev.drmTargetMiss : Ev := ⟨0xE6, 14⟩
def Ev.drmCheck : Ev := ⟨0xE7, 14⟩
def Ev.motStall : Ev := ⟨0xE8, 16⟩
def Ev.motOvershoot : Ev := ⟨0xE9, 16⟩
def Ev.motDone : Ev := ⟨0xEA, 16⟩
def Ev.motCmp : Ev := ⟨0xEB, 16⟩
def Ev.motOvercurrent : Ev := ⟨0xEC, 16⟩
def Ev.motGearLag : Ev := ⟨0xED, 16⟩
def Ev.motWindow : Ev := ⟨0xEE, 16⟩
def Ev.motState : Ev := ⟨0xEF, 16⟩
def Ev.lockFail : Ev := ⟨0xF0, 21⟩
def Ev.lockOpen : Ev := ⟨0xF1, 21⟩
def Ev.lockClose : Ev := ⟨0xF2, 21⟩
def Ev.fwSlot : Ev := ⟨0xF3, 21⟩
def Ev.key : Ev := ⟨0xF4, 21⟩
def Ev.xfer : Ev := ⟨0xF5, 21⟩
def Ev.hstCpl : Ev := ⟨0xF8, 1⟩
def Ev.hstStop : Ev := ⟨0xF9, 1⟩
def Ev.hstRelease : Ev := ⟨0xFA, 1⟩
def Ev.hstRing : Ev := ⟨0xFB, 1⟩
def Ev.hstWindow : Ev := ⟨0xFC, 1⟩
def Ev.hstFbLost : Ev := ⟨0xFD, 1⟩
def Ev.hstLink : Ev := ⟨0xFE, 1⟩
def Ev.hstDmaError : Ev := ⟨0xFF, 1⟩

end Sys2Proof.Machine
end

