-- ==== Sys2Proof/Machine/Check.lean ====
section
/-! DEFINITION. Check values: CRC-32C (R168), the CRC-8 of the ordered sets (R317), SHA-256 and HMAC-SHA-256
(R288, R499), and the Vangop block format (R164 to R167). -/

namespace Sys2Proof.Machine

open Sys2Proof

/-! ### CRC -/

/-- `n` shifts of a reflected CRC register. -/
def crcShift (poly : BitVec 32) : Nat → BitVec 32 → BitVec 32
  | 0, c => c
  | n + 1, c => crcShift poly n (if c.getLsbD 0 then (c >>> 1) ^^^ poly else c >>> 1)

/-- One byte into CRC-32C; 0x82F63B78 is 0x1EDC6F41 reflected (R168). -/
def crc32cByte (c : BitVec 32) (b : Byte) : BitVec 32 := crcShift 0x82F63B78 8 (c ^^^ b.setWidth 32)

/-- CRC-32C of a byte string (R168). -/
def crc32c (d : List Byte) : BitVec 32 := (d.foldl crc32cByte 0xFFFFFFFF) ^^^ 0xFFFFFFFF

/-- The frame check sequence of an Ethernet frame: CRC-32 of IEEE 802.3. PRESUMED (log entry 185). -/
def ethFcs (d : List Byte) : BitVec 32 :=
  (d.foldl (fun c (b : Byte) => crcShift 0xEDB88320 8 (c ^^^ b.setWidth 32)) 0xFFFFFFFF) ^^^ 0xFFFFFFFF

/-- `n` shifts of the CRC-8 register with polynomial 0x07, most significant bit first. -/
def crc8Shift : Nat → BitVec 8 → BitVec 8
  | 0, c => c
  | n + 1, c => crc8Shift n (if c.getLsbD 7 then (c <<< 1) ^^^ 0x07 else c <<< 1)

/-- CRC-8 with polynomial 0x07 from 0x00 (R308). -/
def crc8 (d : List Byte) : BitVec 8 := d.foldl (fun c b => crc8Shift 8 (c ^^^ b)) 0

/-! ### SHA-256 and HMAC -/

/-- The largest number with a `k`-th power of at most `n`, bit by bit from 2^`b` down on top of `r`. -/
def rootFrom (k n : Nat) : Nat → Nat → Nat
  | 0, r => if (r + 1) ^ k ≤ n then r + 1 else r
  | b + 1, r => rootFrom k n b (if (r + 2 ^ (b + 1)) ^ k ≤ n then r + 2 ^ (b + 1) else r)

/-- The first 32 bits of the fraction of the `k`-th root of a number. -/
def rootFraction (k p : Nat) : Word := BitVec.ofNat 32 (rootFrom k (p * 2 ^ (32 * k)) 36 0)

/-- The primes below 312, which number the rounds of SHA-256. -/
def shaPrimes : List Nat :=
  (List.range 312).filter (fun p => decide (2 ≤ p) && (List.range 16).all (fun d => decide (d + 2 ≥ p) || p % (d + 2) ≠ 0))

/-- The round constants of SHA-256 (FIPS 180-4): cube roots of the primes. -/
def shaK : List Word := shaPrimes.map (rootFraction 3)

/-- The chaining value of SHA-256, from the square roots of the first eight primes. -/
structure Sha where
  a : Word := rootFraction 2 2
  b : Word := rootFraction 2 3
  c : Word := rootFraction 2 5
  d : Word := rootFraction 2 7
  e : Word := rootFraction 2 11
  f : Word := rootFraction 2 13
  g : Word := rootFraction 2 17
  h : Word := rootFraction 2 19
  deriving DecidableEq, Repr

/-- The exclusive or of a word turned right by two amounts with a third form of it. -/
def twist (x : Word) (i j : Nat) (y : Word) : Word := x.rotateRight i ^^^ x.rotateRight j ^^^ y

/-- One round with its constant and schedule word. -/
def shaRound (s : Sha) (kw : Word × Word) : Sha :=
  let pick := s.g ^^^ (s.e &&& (s.f ^^^ s.g))
  let most := (s.a &&& (s.b ||| s.c)) ||| (s.b &&& s.c)
  let t := s.h + twist s.e 6 11 (s.e.rotateRight 25) + pick + kw.1 + kw.2
  { a := t + twist s.a 2 13 (s.a.rotateRight 22) + most, b := s.a, c := s.b, d := s.c
    e := s.d + t, f := s.e, g := s.f, h := s.g }

/-- `n` more schedule words; the list holds the words so far, newest first. -/
def shaExtend : Nat → List Word → List Word
  | 0, w => w
  | n + 1, w =>
    let x := w.getD 14 0
    let y := w.getD 1 0
    shaExtend n ((w.getD 15 0 + twist x 7 18 (x >>> 3) + w.getD 6 0 + twist y 17 19 (y >>> 10)) :: w)

/-- The big-endian words of a byte string. -/
def beWords : List Byte → List Word
  | a :: b :: c :: d :: r =>
    (a.setWidth 32 <<< 24 ||| b.setWidth 32 <<< 16 ||| c.setWidth 32 <<< 8 ||| d.setWidth 32) :: beWords r
  | _ => []

/-- The `n` bytes of a number, big-endian. -/
def beBytes (n v : Nat) : List Byte := (leBytes n v).reverse

/-- One 64-byte block. -/
def shaBlock (s : Sha) (blk : List Byte) : Sha :=
  let w := (shaExtend 48 (beWords blk).reverse).reverse
  let t := (shaK.zip w).foldl shaRound s
  { a := s.a + t.a, b := s.b + t.b, c := s.c + t.c, d := s.d + t.d
    e := s.e + t.e, f := s.f + t.f, g := s.g + t.g, h := s.h + t.h }

/-- `n` blocks of a byte string. -/
def shaBlocks : Nat → List Byte → Sha → Sha
  | 0, _, s => s
  | n + 1, d, s => shaBlocks n (d.drop 64) (shaBlock s (d.take 64))

/-- SHA-256 of a byte string, 32 bytes. -/
def sha256 (d : List Byte) : List Byte :=
  let z := (119 - d.length % 64) % 64
  let p := d ++ [0x80] ++ List.replicate z 0 ++ beBytes 8 (8 * d.length)
  let s := shaBlocks (p.length / 64) p {}
  [s.a, s.b, s.c, s.d, s.e, s.f, s.g, s.h].flatMap (fun x => beBytes 4 x.toNat)

/-- HMAC-SHA-256. -/
def hmac (key d : List Byte) : List Byte :=
  let k := (if 64 < key.length then sha256 key else key)
  let k := k ++ List.replicate (64 - k.length) 0
  sha256 (k.map (· ^^^ 0x5c) ++ sha256 (k.map (· ^^^ 0x36) ++ d))

/-! ### The Vangop block -/

/-- The tokens of a payload to the residuals they code, newest first; `need` residuals are still to come. The
first argument bounds the tokens: no payload has more tokens than bytes. -/
def vangopTokens : Nat → List Byte → Nat → List Byte → Option (List Byte)
  | 0, p, need, out => if p.isEmpty && need = 0 then some out else none
  | fuel + 1, p, need, out =>
    match p with
    | [] => if need = 0 then some out else none
    | c :: r =>
      if need = 0 then none
      else
        let n := c.toNat
        if n < 0x80 then
          if r.length < n + 1 || need < n + 1 then none
          else vangopTokens fuel (r.drop (n + 1)) (need - (n + 1)) ((r.take (n + 1)).reverse ++ out)
        else if n < 0xC0 then
          let long := n = 0xBF
          let len := if long then 66 + (r.getD 0 0).toNat else n - 0x80 + 3
          let r := if long then r.drop 1 else r
          if r.isEmpty || need < len then none
          else vangopTokens fuel (r.drop 1) (need - len) (List.replicate len (r.getD 0 0) ++ out)
        else
          let long := n = 0xFF
          let len := if long then 67 + (r.getD 0 0).toNat else n - 0xC0 + 4
          let r := if long then r.drop 1 else r
          let field := leNat (r.take 2)
          let dist := field % 4096 + 1
          if r.length < 2 || 4096 ≤ field || out.length < dist || need < len then none
          else
            let out := forRange len (fun _ o => o.getD (dist - 1) 0 :: o) out
            vangopTokens fuel (r.drop 2) (need - len) out

/-- Undo the prediction of one row: `left` is the pixel to the left, and ABOVE takes the row above where there
is one (R165). -/
def vangopRow (above : Option (List Byte)) : List Byte → Byte → Nat → List Byte
  | [], _, _ => []
  | r :: rs, left, x =>
    let pred := match above with
      | some a => a.getD x 0
      | none => left
    (r + pred) :: vangopRow above rs (r + pred) (x + 1)

/-- Undo the prediction of rows of `w` residuals, given the row before. -/
def vangopRows (pred w : Nat) : Nat → List Byte → Option (List Byte) → List Byte
  | 0, _, _ => []
  | n + 1, d, prev =>
    let r := d.take w
    let row := match prev with
      | none => vangopRow none r 0 0
      | some p => if pred = 1 then vangopRow (some p) r 0 0 else vangopRow none r (p.getD 0 0) 0
    row ++ vangopRows pred w n (d.drop w) (some row)

/-- A Vangop block taken from a byte string: its line count, width and pixels, with the string after it; none
on a format fault or a CRC mismatch (R156, R164, R167). -/
def vangopBlock (d : List Byte) : Option ((Nat × Nat × List Byte) × List Byte) :=
  let mode := leField d 2 1
  let lines := leField d 3 1
  let w := leField d 4 2
  let raw := leField d 8 4
  let coded := leField d 12 4
  let stored := bitAt mode 2
  let pred := mode % 4
  let size := (20 + coded + 7) / 8 * 8
  let body := (d.drop 16).take coded
  if d.length < size || leField d 0 1 ≠ 0xB5 || leField d 1 1 ≠ 1 || 8 ≤ mode || 2 ≤ pred ||
     (stored && pred ≠ 0) || lines = 0 || 64 < lines || w = 0 || 256 < w || leField d 6 2 ≠ 0 ||
     raw ≠ w * lines || (stored && coded ≠ raw)
  then none
  else
    let px : Option (List Byte) :=
      if stored then some body
      else (vangopTokens body.length body raw []).map (fun (out : List Byte) => vangopRows pred w lines out.reverse none)
    match px with
    | none => none
    | some p =>
      if (crc32c p).toNat = leField d (16 + coded) 4 then some ((lines, w, p), d.drop size) else none

end Sys2Proof.Machine
end

