-- ==== Sys2Proof/Machine/Blocks/Chainage.lean ====
section
/-! DEFINITION. The state of the CHN block: the voter, the five channels and the eight probe inputs. Positions are
kept exactly, in 2^-17 links (2^-16 of the scale, R35, with one bit more for the halving of R46). -/

namespace Sys2Proof.Machine

/-- CHN_STATUS.vote_state (R65). -/
inductive Vote where
  | disarmed | three | two | lost
  deriving DecidableEq, Repr

def Vote.code : Vote → Nat
  | .disarmed => 0 | .three => 1 | .two => 2 | .lost => 3

/-- The vote is THREE or TWO. -/
def Vote.valid : Vote → Bool
  | .three => true | .two => true | _ => false

/-- The states of an enabled channel, CHN_<ch>_STATUS.state; OFF is type 0 of its CFG (R65). -/
inductive ChState where
  | healthy | voting | probation | cal | faulty
  deriving DecidableEq, Repr

def ChState.code : ChState → Nat
  | .healthy => 1 | .voting => 2 | .probation => 3 | .cal => 4 | .faulty => 5

/-- The fault causes of R64. -/
inductive ChFault where
  | none | amplitude | disagree | transitions | words
  deriving DecidableEq, Repr

def ChFault.code : ChFault → Nat
  | .none => 0 | .amplitude => 1 | .disagree => 2 | .transitions => 3 | .words => 4

/-- One encoder channel. `net` is the net count, `adj` the adjustment of R51, `pos` the position presented at the last
tick. `step` and `span` are the counts and the ticks between its last two native samples, which give its measured
speed (R36), `sampled` tells that one has come, and `ticksSince` counts the ticks since it; `latency` is its input
latency in ticks with the residual error of its compensation (R517). `noted` tells of a bad transition that TRANSITIONS
has not been judged on yet (R40), `reqFrom` is the tick of the first word request since the last good word (R44), `mark`
the net count of an index that the channel has recognised and INDEX_PULSE not yet taken (R40, R41), and `armed` tells
that an arm has been accepted since reset (R58). -/
structure Channel where
  state : ChState := .healthy
  cause : ChFault := .none
  net : Int := 0
  adj : Int := 0
  step : Int := 0
  span : Nat := 0
  sampled : Bool := false
  latency : Nat := 0
  pos : Int := 0
  amp : Nat := 0
  ampBad : Bool := false
  ampRun : Nat := 0
  phase : Option Nat := none
  levelA : Bool := false
  levelB : Bool := false
  levelZ : Bool := false
  edges : Nat := 0
  illegal : List Nat := []
  noted : Bool := false
  intervals : List Nat := []
  badTeeth : Nat := 0
  reqLow : Bool := false
  lastWord : Option Nat := none
  wordBad : Bool := false
  reqFrom : Option Nat := none
  ticksSince : Nat := 0
  devHist : List Int := []
  devOver : Nat := 0
  cleanTicks : Nat := 0
  mark : Option Int := none
  indexNext : Option Int := none
  indexSeen : Bool := false
  armed : Bool := false
  deriving DecidableEq, Repr

/-- A stake (R61): its full number, the edge, the flags, and the chainage and Datum time it is dated to. -/
structure Stake where
  num : Nat
  rising : Bool
  held : Bool
  invalid : Bool
  chn : Chainage
  time : DWord
  deriving DecidableEq, Repr

/-- One probe input (R61 to R63). `lockLeft` is the links of its lockout that the printed chainage has still to
advance. -/
structure Probe where
  issued : Nat := 0
  ovf : Nat := 0
  queue : List Stake := []
  lockLeft : Nat := 0
  deriving DecidableEq, Repr

/-- What a past DTM tick read, kept to date stakes back by their filter length (R61). -/
structure TickStamp where
  chn : Chainage
  time : DWord
  held : Bool
  deriving DecidableEq, Repr

/-- The CHN block beside its registers. `lead` is voted minus printed chainage, in 2^-17 links: the debt is its
negative part (R46, R54). `speedWindow` is the length in µs of the last whole speed window, `speedNext` that of the
present one, `speedStart` the tick it began on, and `speedPrinted` and `speedVoted` the printed chainage and the lead
at its start (R60). `pairAB`, `pairBC` and `pairAC` hold the pair sums' ticks (R48). -/
structure Chn where
  vote : Vote := .disarmed
  armCause : Nat := 0
  printed : Chainage := 0
  lead : Int := 0
  slew : Int := 0
  hold : Bool := false
  holdFrom : Chainage := 0
  peakDebt : Nat := 0
  overReserve : Bool := false
  overrun : Bool := false
  speedLimit : Bool := false
  speedWindow : Nat := 100
  speedNext : Nat := 100
  speedStart : Nat := 0
  speedPrinted : Chainage := 0
  speedVoted : Int := 0
  pairAB : List Int := []
  pairBC : List Int := []
  pairAC : List Int := []
  pairOver : Nat := 0
  ch : Tab Channel := []
  probe : Tab Probe := []
  recent : List TickStamp := []
  deriving DecidableEq, Repr

end Sys2Proof.Machine
end

