-- ==== Sys2Proof/Machine/Blocks/Datum.lean ====
section
/-! DEFINITION. The state of the DTM and ETH blocks: the Datum clock, snapshot, PTP and the chainage beacon. -/

namespace Sys2Proof.Machine

/-- The DTM block beside its registers. `clock` is the 96-bit Datum clock (R87), `incr` the increment in use,
`pendingOff` an offset waiting for its tick (R90). -/
structure Dtm where
  clock : BitVec 96 := 0
  ticks : DWord := 0
  incr : BitVec 40 := 0x200000000
  pendingOff : Option DWord := none
  epoch : DWord := 0
  stepCount : Nat := 0
  adjRefused : Bool := false
  epochNeg : Bool := false
  snapTime : DWord := 0
  snapChn : Chainage := 0
  snapVote : Nat := 0
  snapTicks : DWord := 0
  deriving DecidableEq, Repr

/-- A beacon pair (R103): the PTP time and chainage of one beacon tick. -/
structure BeaconPair where
  ptp : DWord
  chn : Chainage
  deriving DecidableEq, Repr

/-- One Ethernet port: its link, the transmit stamps that firmware has not taken yet, oldest first, and the stamp of the
newest message received (R95). `syncs` holds the stamps of the last Sync messages received with the step_count at each,
newest first (R98). -/
structure EthPort where
  link : Bool := false
  anDone : Bool := false
  txStamps : List DWord := []
  rxStamp : Option DWord := none
  syncs : List (DWord × Nat) := []
  deriving DecidableEq, Repr

/-- The ETH block beside its registers. `portState` is the IEEE 1588 portState (1 INITIALIZING); `moved` tells that
PTP has left its initial port (R101); `bcnDue` is the tick of the next beacon sample (R102); `lastStep` is step_count
at the last PTP_SAMPLE. -/
structure Eth where
  portState : Nat := 1
  servoState : Nat := 0
  moved : Bool := false
  lastStep : Nat := 0
  bcnSeq : Word := 0
  bcnDue : Nat := 0
  bcnPairs : List BeaconPair := []
  port : Tab EthPort := []
  deriving DecidableEq, Repr

end Sys2Proof.Machine
end

