-- ==== Sys2Proof/Machine/Blocks/Fire.lean ====
section
/-! DEFINITION. The state of the FGD block: the fire path, the consumables and Fire Guard. -/

namespace Sys2Proof.Machine

/-- How far a hub-line has come (R264): fetch started, packets queued, LINE packet sent. -/
inductive LineStage where
  | fetching | queued | sent | late
  deriving DecidableEq, Repr

/-- One job line of one hub in the fire path. `codes` holds each head's codes by nozzle k after R266, `widths` its
pulse widths, `line` and `hdr` the CRCs of the LINE and HDR payloads, `rows` the rows whose fate is settled (bit
4 x slot + row), `fired` those whose /F/ left, `cause` the order of the first blanking cause (R277), `counted` that
every row is settled and the hub-line accounted for, `sentAt` the tick its LINE left, `echoCode` why its ECHO failed
(R326), `lanes` the lanes of its hub that carry its packets (R319, R328), `lead` the L_H of its first commit, by which all its
rows are timed (R323), `epoch` the epoch counter when its codes were read, `dropped` the heads of which a failed block dropped a dot, and
`fast` the head type of its first row above its rate (R280). -/
structure FireLine where
  stage : LineStage := .fetching
  codes : List (Nat × List Nat) := []
  widths : List (Nat × List Nat) := []
  line : Word := 0
  hdr : Word := 0
  rows : Nat := 0
  fired : Nat := 0
  cause : Option Nat := none
  lanes : List Nat := []
  lead : Option Nat := none
  epoch : Word := 0
  dropped : List Nat := []
  fast : Option Nat := none
  epochBlank : Bool := false
  missBlank : Bool := false
  thinned : Bool := false
  resent : Bool := false
  echoed : Bool := false
  echoCode : Nat := 0
  counted : Bool := false
  sentAt : Nat := 0
  deriving DecidableEq, Repr

/-- One job line in a head's guard window (R294): its line chainage in 2^-16 links, the nozzles with non-zero codes
and the volume placed. -/
structure WinLine where
  job : Nat
  at16 : Nat
  fired : List Nat
  vol : Nat
  deriving DecidableEq, Repr

/-- A usage record written to a head and not acknowledged (R288): how often it has been tried again, the tick of the
last try, and the ids of the requests that carried it. -/
structure UsageWrite where
  data : List Byte
  tries : Nat := 0
  tick : Nat := 0
  ids : List Nat := []
  deriving DecidableEq, Repr

/-- A boundary at which a downshift begins or ends (R282, R283): the job slot and line it was named by (64 once that job
has ended), and its line chainage. -/
structure Shift where
  job : Nat
  line : Nat
  chn : Chainage
  down : Bool
  deriving DecidableEq, Repr

/-- A head's live telemetry and usage beside its registers (R275, R286, R288): `usagePend` holds the usage records not
acknowledged, oldest first. -/
structure Head where
  tlmTick : Option Nat := none
  tlmValid : Bool := false
  temp : Int := 0
  vhead : Nat := 0
  band : Option Nat := none
  stale : Bool := true
  staleRaised : Bool := false
  sinceAct : Nat := 0
  sinceVol : Nat := 0
  window : List WinLine := []
  usagePend : List UsageWrite := []
  deriving DecidableEq, Repr

/-- The last predicted instant of a row, in 2^-16 DTM ticks (R280), and of a hub's last /F/ set (R271). -/
structure Placed where
  c16 : Nat
  at16 : Int
  rate : Nat
  deriving DecidableEq, Repr

/-- The FGD block beside its registers. `next` is the next line to fetch of a job on a hub, `ext` the history of the
extended printed chainage in 2^-16 links modulo 2^64, newest first (R269), and `shifts` the
boundaries of downshifts and returns, newest first, the newest still ahead while it waits (R282, R283). `placeErr` holds the placement errors of the last second that
no later one exceeds, with their ticks, oldest first (R273). `usageOwed` counts the usage records due at a stop or a JOB_END, and
`usageTick` is the tick of the last periodic one (R288); `wdgTick` is the tick of the lock or of the watchdog's last refresh (R302), and
`guardCopy` the second copy of the limits and ceilings, by register, in AON (R303). -/
structure Fgd where
  line : Tab FireLine := []
  head : Tab Head := []
  remap : Tab Nat := []
  wave : Tab Nat := []
  next : Tab Nat := []
  ext : List Nat := []
  lastPred : Tab (Option Int) := []
  lastSet : Tab (Option (Nat × Int)) := []
  placed : List Placed := []
  placeErr : List (Nat × Nat) := []
  geoOk : Bool := false
  warn : Bool := false
  downPending : Bool := false
  downActive : Bool := false
  shifts : List Shift := []
  quietWindows : Nat := 0
  noKeyRaised : Bool := false
  usageOwed : Nat := 0
  usageTick : Nat := 0
  locked : Bool := false
  headPwr : Bool := false
  fatalCause : Nat := 0
  lockCause : Nat := 0
  wdgRefreshed : Bool := false
  wdgTick : Nat := 0
  wdgExpired : Bool := false
  guardCopy : Tab Word := []
  copyBad : Bool := false
  deriving DecidableEq, Repr

end Sys2Proof.Machine
end

