-- ==== Sys2Proof/Config.lean ====
section
/-! DEFINITION. What a module fixes and what the spec leaves open: constants without a body, so that no proof
can see their values. -/

namespace Sys2Proof.Config

/-- The 32-bit word the fuses load into the register at a BAR0 offset during BOOT stage C: the MAC addresses, the
transceiver latencies, the DRAM delays and the analog trims. DESIGN CHOICE (log entry 166). -/
opaque fuseWord : Nat → Word

/-- The 64-bit device ID of the fuses (R507). -/
opaque deviceId : DWord

/-- The vendor's HMAC key in OTP (R499). -/
opaque vendorKey : List Byte

/-- The module's output latency of R269 and its receive latency of R323, in 1/16 ns, from the Benchmark block.
PRESUMED (log entry 36). -/
opaque outputLatency : Nat
opaque receiveLatency : Nat

/-- The coded size of a block of raw pixels of a given width, as this revision's entry codec codes it (R169). -/
opaque codedSize : Nat → List Byte → Nat

/-- The predictor (0) and the payload bytes (from 1) of that coded block (R164, R169). -/
opaque codedByte : Nat → List Byte → Nat → Byte

/-- Whether the ECDSA P-256 signature of a firmware header, bytes 192 to 255, holds over its bytes 0 to 191 under a key
that the identity fuses name and do not revoke (R491). -/
opaque fwSignatureOk : List Byte → List Byte → Bool

/-- Where the newest usage record stands in a head's memory, and where its serial number does (R286): the spec gives
neither address. DESIGN CHOICE (log entry 165). -/
opaque usageAddress : Nat
opaque serialAddress : Nat

/-- A value that the spec does not state, by the number of the log entry that declares it and what it depends on. -/
opaque openValue : Nat → Nat → Nat

end Sys2Proof.Config
end

