-- ==== Sys2Proof/Machine/Blocks/Global.lean ====
section
/-! DEFINITION. The state of the GLB and SEC blocks, the OTP fuses, the NAND, and the field-book records. -/

namespace Sys2Proof.Machine

/-- The modes of R31. -/
inductive Mode where
  | boot | setup | ready | run | benchmark | backsight | halt
  deriving DecidableEq, Repr

/-- The encoding of GLB_MODE (R31). -/
def Mode.code : Mode → Nat
  | .boot => 0 | .setup => 1 | .ready => 2 | .run => 3 | .benchmark => 4 | .backsight => 5 | .halt => 6

/-- The causes of the last reset, GLB_RESET.cause (R488). -/
inductive ResetCause where
  | power | pin | clock | software | haltReset | powerReturn
  deriving DecidableEq, Repr

def ResetCause.code : ResetCause → Nat
  | .power => 1 | .pin => 2 | .clock => 3 | .software => 4 | .haltReset => 5 | .powerReturn => 6

/-- The causes of HALT (R498). -/
inductive HaltCause where
  | vote | backstep | guard | watchdog | host
  deriving DecidableEq, Repr

def HaltCause.code : HaltCause → Nat
  | .vote => 1 | .backstep => 2 | .guard => 3 | .watchdog => 4 | .host => 6

/-- The severities of R139. -/
inductive Sev where
  | info | warning | error | fatal
  deriving DecidableEq, Repr

def Sev.code : Sev → Nat
  | .info => 0 | .warning => 1 | .error => 2 | .fatal => 3

/-- A field-book record waiting in the internal queue (R138); `flags` and `chn` are those of the event tick. -/
structure Rec where
  code : Nat
  sev : Sev
  block : Nat
  flags : Nat
  seq : Word
  chn : Chainage
  time : DWord
  arg0 : Word
  arg1 : Word
  cplRing : Option Nat := none
  deriving DecidableEq, Repr

/-- A source whose records are limited to one per 10 ms (R528): the code's record was raised at `last` (DTM ticks) and
`count` occurrences are not yet reported. `a0` and `a1` hold the arguments, and `chn` the printed chainage of the
latest. -/
structure RateSrc where
  last : Option Nat := none
  count : Nat := 0
  sev : Sev := .info
  a0 : Nat := 0
  a1 : Nat := 0
  chn : Chainage := 0
  deriving DecidableEq, Repr

/-- The EVT block beside its registers (R140, R146): `lost` counts the records lost that EV_HST_FB_LOST has not reported yet,
`lostAll` all of them; `vecSince` is the tick of a vector's first pending
entry. -/
structure Evt where
  seq : Word := 0
  queue : List Rec := []
  lost : Nat := 0
  lostAll : Nat := 0
  firstLost : Word := 0
  barred : Bool := false
  rate : Tab RateSrc := []
  vecPending : Tab Nat := []
  vecSince : Tab Nat := []
  pba : Tab Bool := []
  deriving DecidableEq, Repr

/-- What the module does at a fixed period: LOOP (R323), HEARTBEAT (R318, R408), CLAIM (R403, R419), monuments to the
partner (R417), the standby's echo window (R424), the phase of the proof sample (R430), the planner (R436), the
housekeeping round (R464), the ZQ latch (R393), the check of the code pages (R396) and telemetry snapshots (R144). -/
inductive Beat where
  | loop | heart | claim | monument | echoes | phase | plan | round | zq | pages | snapshot
  deriving DecidableEq, Repr

/-- The GLB block beside its registers. `beats` holds the tick on which each periodic action was last taken. `haltTick` is the tick of the entry to HALT (R498). `stage` is GLB_BOOT.stage (1 to 7 while BOOT runs, 0 after);
`held` is true while a failed clock or regulator keeps every domain but AON in reset (R479, R468). -/
structure Glb where
  mode : Mode := .boot
  previous : Mode := .boot
  stage : Nat := 1
  bootFail : Nat := 0
  haltTick : Option Nat := none
  timeMs : Nat := 0
  locked : Bool := false
  lockBusy : Bool := false
  lockResult : Nat := 0
  wdisc : Nat := 0
  clockHeld : Bool := false
  powerOff : Bool := false
  beats : List (Beat × Nat) := []
  deriving DecidableEq, Repr

/-- A firmware slot of the NAND (R491): its header and image as loaded, and the record kept beside it. -/
structure FwSlot where
  header : List Byte := []
  image : List Byte := []
  confirmed : Bool := false
  starts : Nat := 0
  deriving DecidableEq, Repr

/-- The Fire Guard ceiling record of the NAND (R293), one copy: the words saved by FGD_G_SAVE, by register
offset, and the CRC-32C that closes the copy. -/
structure CeilingRecord where
  words : Tab Word := []
  crc : Word := 0
  deriving DecidableEq, Repr

/-- What the OTP fuses hold (R492, R499, R507). -/
structure Otp where
  deviceId : DWord
  vendorKey : List Byte
  oemKey : Option (List Byte)
  rollback : Nat
  deriving DecidableEq, Repr

/-- What the NAND holds beside the final monuments: firmware slots, ceiling record, failure count (R501), usage keys
(R502), and the channel and reading of a shutdown record not yet reported (R468). -/
structure Nand where
  slotA : FwSlot := {}
  slotB : FwSlot := {}
  ceilA : CeilingRecord := {}
  ceilB : CeilingRecord := {}
  fails : Nat := 0
  keys : Tab (List Byte) := []
  shutdown : Option (Nat × Nat) := none
  deriving DecidableEq, Repr

/-- The SEC block beside its registers. `fails` is AON's count and `backoffSince` the tick on which the back-off that
runs began (R501); `nonceTick` that of the nonce (R500); `aOk` and `bOk` tell which slots passed R491 in this BOOT or
as they were loaded. -/
structure Sec where
  opened : BitVec 5 := 0
  result : Nat := 0
  fails : Nat := 0
  backoff : Bool := false
  backoffSince : Nat := 0
  nonceValid : Bool := false
  nonceTick : Nat := 0
  running : Nat := 0
  confirmTaken : Bool := false
  aOk : Bool := false
  bOk : Bool := false
  deriving DecidableEq, Repr

end Sys2Proof.Machine
end

