-- ==== Sys2Proof/Machine/Blocks/Memory.lean ====
section
/-! DEFINITION. The state of the DRM block: refresh, panic, bands, broken table versions and code pages. -/

namespace Sys2Proof.Machine

/-- A piece of a request in its channel's queue (R384): its port, the tick it was accepted on, whether it hits an
open row, whether it writes, the bytes it covers, and the MEM cycle of its acceptance. -/
structure Piece where
  port : Nat
  tick : Nat
  hit : Bool
  write : Bool := false
  addr : Nat := 0
  len : Nat := 0
  cycle : Nat := 0
  deriving DecidableEq, Repr

/-- One DRAM channel: its owed refreshes, the tick from which the next is paid and the tick on which the next falls
due (R390, R391), the pieces waiting, oldest first, and the pieces issued since one of class BULK or BE (R386). -/
structure DramCh where
  owed : Nat := 0
  paid : Nat := 0
  due : Nat := 0
  queue : List Piece := []
  sinceLow : Nat := 0
  deriving DecidableEq, Repr

/-- One DRAM package (R392): its band, the lower band last reported, and the consecutive rounds that reported it. -/
structure Package where
  band : Nat := 0
  lower : Nat := 0
  report : Nat := 0
  deriving DecidableEq, Repr

/-- A table of which both copies of a version failed (R395): that version and those committed over part of it are
broken. -/
structure Broken where
  table : Nat
  epoch : Word
  deriving DecidableEq, Repr

/-- The DRM block beside its registers. `panic` holds FIRE, CAMW and MIRROR in bits 0 to 2, and `panicTicks` their
ticks short of a microsecond; `misses` counts by port since the last EV_DRM_TARGET_MISS (R389); `lats` holds the
latencies of a port in the last second that no later one exceeds, with their ticks, oldest first (R399); `bytes` and
`loads` serve DRM_LOAD (R399); `coresHeld` the Surveyor cores in reset (R396); `cycle` is the MEM cycle of the last request
accepted, with the bytes that writes accepted on it have replaced, by address, each with the port that wrote it (R385). -/
structure Drm where
  ch : Tab DramCh := []
  pkg : Tab Package := []
  panic : Nat := 0
  panicTicks : Tab Nat := []
  misses : Tab Nat := []
  lats : Tab (List (Nat × Nat)) := []
  bytes : Nat := 0
  loads : List Nat := []
  lockCause : Nat := 0
  broken : List Broken := []
  coresHeld : Bool := false
  cycle : Option Nat := none
  replaced : Tab (Option (Byte × Nat)) := []
  deriving DecidableEq, Repr

end Sys2Proof.Machine
end

