-- ==== Sys2Proof/Machine/Blocks/Power.lean ====
section
/-! DEFINITION. The state of the PWR, THM and CAL blocks. -/

namespace Sys2Proof.Machine

/-- The PWR block beside its registers. An input that is not good lies above its window where `vmainHigh` or
`vbackHigh` says so, and below it otherwise (R458); `mainMv` and `backMv` are the voltages they were last judged at;
`onBack` says that VBACK carries the load; `mainTick` is the tick on which VMAIN became good and `badTick`
that on which the second input became bad (R459, R461); `below` counts the rounds of R460 below the limit. -/
structure Pwr where
  vmainGood : Bool := false
  vbackGood : Bool := false
  vmainHigh : Bool := false
  vbackHigh : Bool := false
  mainMv : Nat := 0
  backMv : Nat := 0
  mainTick : Nat := 0
  badTick : Nat := 0
  onBack : Bool := false
  powerFail : Bool := false
  holdupOk : Bool := false
  below : Nat := 0
  deriving DecidableEq, Repr

/-- One temperature channel (R466): whether it is bad, and its rounds without fault since. -/
structure ThmCh where
  bad : Bool := false
  okRounds : Nat := 0
  deriving DecidableEq, Repr

/-- The THM block beside its registers. `below` counts the rounds for which T has stayed below the giving-up
threshold of the highest step (R467). `latch` is AON's shutdown latch, with its channel and reading (R468). -/
structure Thm where
  below : Nat := 0
  ch : Tab ThmCh := []
  latch : Option (Nat × Nat) := none
  deriving DecidableEq, Repr

/-- The calibration in progress (R472): its kind and index. -/
structure Cal where
  running : Option (Nat × Nat) := none
  deriving DecidableEq, Repr

end Sys2Proof.Machine
end

