-- ==== Sys2Proof/Machine/Blocks/Skovex.lean ====
section
/-! DEFINITION. The state of the SKX and CHK blocks: lanes, hubs, and requests to hubs. -/

namespace Sys2Proof.Machine

/-- The states of a lane, SKX_L<n>_STATUS.state (R335). -/
inductive LaneState where
  | off | lock | align | handshake | measure | caps | up | failed | cal
  deriving DecidableEq, Repr

def LaneState.code : LaneState → Nat
  | .off => 0 | .lock => 1 | .align => 2 | .handshake => 3 | .measure => 4 | .caps => 5 | .up => 6
  | .failed => 7 | .cal => 8

/-- The causes of a loss of lock (R327). -/
inductive LossCause where
  | cdr | symbols | align | rxlost | cal
  deriving DecidableEq, Repr

def LossCause.code : LossCause → Nat
  | .cdr => 1 | .symbols => 2 | .align => 3 | .rxlost => 4 | .cal => 5

/-- One lane. `full` tells a full training from a retrain at the rate in use (R322); `loops` holds the last 64
round trips in 1/16 ns, newest first (R323); `since` the tick of its last change of state; `foms` the FOMs of the last second that no later
one is below, with their ticks, oldest first, `fomTick` the tick of the last and `fomLow` the FOM threshold last reported (R307, R335); `aSeq`,
`tSeq`, `hbSeq` and `loopNum` number what it sends; `t1At` is the tick of its last T1 (R322), `hbAt` that of its last HEARTBEAT (R318, R404), and `trained` the mean round trip that its training
measured (R415); `aDue` and `sDue` are the instants, in fifths of a DTM tick, from which its next /A/ set
and its next /S/ are due (R310, R311). -/
structure Lane where
  state : LaneState := .off
  rate : Nat := 0
  full : Bool := true
  port : Nat := 0
  trainCause : Nat := 0
  since : Nat := 0
  fom : Nat := 0
  foms : List (Nat × Nat) := []
  fomTick : Option Nat := none
  fomLow : Nat := 0
  aDue : Nat := 0
  sDue : Nat := 0
  aSeq : Nat := 0
  tSeq : Nat := 0
  t1At : Nat := 0
  hash : Nat := 0
  t2Hash : Nat := 0
  loopNum : Nat := 0
  loops : List Nat := []
  hbSeq : Nat := 0
  hbAt : Option Nat := none
  trained : Nat := 0
  deriving DecidableEq, Repr

/-- The states of a hub, SKX_HUB<n>_STATUS.state (R335). -/
inductive HubState where
  | unused | down | up | degraded | blank
  deriving DecidableEq, Repr

def HubState.code : HubState → Nat
  | .unused => 0 | .down => 1 | .up => 2 | .degraded => 3 | .blank => 4

/-- Why a CTRL request was sent to a hub (R322, R286, R288). -/
inductive CtrlUse where
  | caps | serial | usageRead | usageAgain | usageWrite
  deriving DecidableEq, Repr

/-- A CTRL request that waits for its reply (R314). -/
structure CtrlReq where
  id : Nat
  use : CtrlUse
  lane : Nat
  slot : Nat
  deriving DecidableEq, Repr

/-- One hub: its capability block (R324), the GRANTs it sent (R331), what it waits for, and since when it is dark
(R329). `claimNo` is the number of the last CLAIM sent to it (R403), `seen` tells that it has sent a GRANT, `wasUp` that it has been UP since it was enabled (R334), `readAgain`
that its heads' usage records are to be read under a new key once it is UP (R286). -/
structure Hub where
  state : HubState := .unused
  wasUp : Bool := false
  seen : Bool := false
  caps : List Byte := []
  hash : Nat := 0
  masterPort : Option Nat := none
  claimNo : Nat := 0
  master : Bool := false
  held : Bool := false
  silence : Nat := 0
  tlmTick : Option Nat := none
  darkSince : Option Nat := none
  darkDone : Bool := false
  readAgain : Bool := false
  reqs : List CtrlReq := []
  nextReq : Nat := 0
  deriving DecidableEq, Repr

/-- The SKX and CHK blocks beside their registers. `silent` is true while nothing is sent: the LTX or NET PLL,
bits 0 and 1 of `pllDown`, is unlocked (R479), or in power-fail (R461). -/
structure Skx where
  lane : Tab Lane := []
  hub : Tab Hub := []
  silent : Bool := false
  pllDown : Nat := 0
  deriving DecidableEq, Repr

end Sys2Proof.Machine
end

