-- ==== Sys2Proof/Machine/RegMap.lean ====
section
/-! DEFINITION. The register map of BAR0 (R13) as data: one row per register table of the spec, with each
field's bits, access code (R8) and reset value, and a name for every register and field.
Offsets are BAR0 offsets (block base plus offset in the block). -/

namespace Sys2Proof.Machine

/-- The access codes of R8. `rwlFactory` and `rwlCeilings` are RWL with the survey-lock scope that opens
the field (R499). -/
inductive Acc where
  | rw | ro | wo | w1c | w1s | rws | rwlFactory | rwlCeilings
  deriving DecidableEq, Repr

/-- Where a field's reset value comes from: a number in the register table, the fuses, the shipped motion
ceiling record, or the register's own index. -/
inductive Rst where
  | val (n : Nat) | fuse | motCeil | index
  deriving DecidableEq, Repr

/-- One field of a register: bits `hi` to `lo`, access code and reset value. -/
structure FieldRow where
  hi : Nat
  lo : Nat
  acc : Acc
  rst : Rst
  deriving DecidableEq, Repr

/-- One register, or an array of `n1` by `n2` registers `s1` and `s2` bytes apart. -/
structure RegRow where
  off : Nat
  n1 : Nat
  s1 : Nat
  n2 : Nat
  s2 : Nat
  fields : List FieldRow
  deriving DecidableEq, Repr

/-- A named field: the register's BAR0 offset and the bits `hi` to `lo`. -/
structure Fld where
  off : Nat
  hi : Nat
  lo : Nat
  deriving DecidableEq, Repr

/-- GLB block, R507 (spec/20_modes_boot_lock.md). -/
def rowsGLB : List RegRow := [
  /- GLB_ID_LO -/ ⟨0x0, 1, 0x0, 1, 0x0, [⟨31, 0, .ro, .fuse⟩]⟩,
  /- GLB_ID_HI -/ ⟨0x4, 1, 0x0, 1, 0x0, [⟨31, 0, .ro, .fuse⟩]⟩,
  /- GLB_COMPAT -/ ⟨0x8, 1, 0x0, 1, 0x0, [⟨31, 16, .rws, (.val 0)⟩, ⟨15, 0, .ro, (.val 1)⟩]⟩,
  /- GLB_REV -/ ⟨0xC, 1, 0x0, 1, 0x0, [⟨31, 16, .ro, (.val 0x8120)⟩, ⟨15, 8, .ro, (.val 1)⟩, ⟨0, 0, .ro, (.val 1)⟩]⟩,
  /- GLB_MODE -/ ⟨0x10, 1, 0x0, 1, 0x0, [⟨6, 4, .ro, (.val 0)⟩, ⟨2, 0, .ro, (.val 0)⟩]⟩,
  /- GLB_MODE_REQ -/ ⟨0x14, 1, 0x0, 1, 0x0, [⟨31, 31, .ro, (.val 0)⟩, ⟨30, 28, .ro, (.val 0)⟩, ⟨27, 24, .ro, (.val 0)⟩, ⟨2, 0, .wo, (.val 0)⟩]⟩,
  /- GLB_LOCK -/ ⟨0x18, 1, 0x0, 1, 0x0, [⟨31, 31, .ro, (.val 0)⟩, ⟨30, 30, .ro, (.val 0)⟩, ⟨29, 27, .ro, (.val 0)⟩, ⟨26, 1, .ro, (.val 0)⟩, ⟨0, 0, .w1s, (.val 0)⟩]⟩,
  /- GLB_HALT -/ ⟨0x1C, 1, 0x0, 1, 0x0, [⟨15, 8, .ro, (.val 0)⟩, ⟨2, 0, .ro, (.val 0)⟩]⟩,
  /- GLB_RESET -/ ⟨0x20, 1, 0x0, 1, 0x0, [⟨18, 16, .ro, (.val 1)⟩, ⟨15, 0, .wo, (.val 0)⟩]⟩,
  /- GLB_BOOT -/ ⟨0x24, 1, 0x0, 1, 0x0, [⟨21, 20, .ro, (.val 0)⟩, ⟨19, 16, .ro, (.val 1)⟩, ⟨15, 0, .ro, (.val 0)⟩]⟩,
  /- GLB_XING_OVF -/ ⟨0x28, 1, 0x0, 1, 0x0, [⟨31, 0, .ro, (.val 0)⟩]⟩]

/-- HST block, R148 (spec/05_host_rings.md). -/
def rowsHST : List RegRow := [
  /- HST_CFG -/ ⟨0x10000, 1, 0x0, 1, 0x0, [⟨31, 16, .rw, (.val 0)⟩, ⟨1, 1, .rws, (.val 1)⟩]⟩,
  /- HST_STATUS -/ ⟨0x10004, 1, 0x0, 1, 0x0, [⟨23, 20, .ro, (.val 0)⟩, ⟨19, 16, .ro, (.val 0)⟩, ⟨8, 4, .ro, (.val 0)⟩, ⟨1, 1, .ro, (.val 1)⟩, ⟨0, 0, .ro, (.val 0)⟩]⟩,
  /- HST_STOP -/ ⟨0x10008, 1, 0x0, 1, 0x0, [⟨1, 1, .w1s, (.val 0)⟩, ⟨0, 0, .w1s, (.val 0)⟩]⟩,
  /- HST_DIAG -/ ⟨0x1000C, 1, 0x0, 1, 0x0, [⟨6, 0, .rw, (.val 0)⟩]⟩,
  /- HST_DIAG_WDISC -/ ⟨0x10010, 1, 0x0, 1, 0x0, [⟨31, 0, .ro, (.val 0)⟩]⟩,
  /- HST_FB_STATUS -/ ⟨0x10014, 1, 0x0, 1, 0x0, [⟨31, 16, .ro, (.val 0)⟩, ⟨9, 0, .ro, (.val 0)⟩]⟩,
  /- HST_TLM_DROP -/ ⟨0x10018, 1, 0x0, 1, 0x0, [⟨31, 0, .ro, (.val 0)⟩]⟩,
  /- HST_STOP_CNT -/ ⟨0x1001C, 1, 0x0, 1, 0x0, [⟨31, 0, .ro, (.val 0)⟩]⟩,
  /- HST_WIN_BASE_LO -/ ⟨0x10400, 16, 0x20, 1, 0x0, [⟨31, 12, .rws, (.val 0)⟩]⟩,
  /- HST_WIN_BASE_HI -/ ⟨0x10404, 16, 0x20, 1, 0x0, [⟨31, 0, .rws, (.val 0)⟩]⟩,
  /- HST_WIN_LIMIT_LO -/ ⟨0x10408, 16, 0x20, 1, 0x0, [⟨31, 12, .rws, (.val 0)⟩, ⟨11, 0, .ro, (.val 0xFFF)⟩]⟩,
  /- HST_WIN_LIMIT_HI -/ ⟨0x1040C, 16, 0x20, 1, 0x0, [⟨31, 0, .rws, (.val 0)⟩]⟩,
  /- HST_WIN_PERM -/ ⟨0x10410, 16, 0x20, 1, 0x0, [⟨1, 1, .rws, (.val 0)⟩, ⟨0, 0, .rws, (.val 0)⟩]⟩,
  /- HST_RING_BASE_LO -/ ⟨0x11000, 64, 0x20, 1, 0x0, [⟨31, 6, .rw, (.val 0)⟩]⟩,
  /- HST_RING_BASE_HI -/ ⟨0x11004, 64, 0x20, 1, 0x0, [⟨31, 0, .rw, (.val 0)⟩]⟩,
  /- HST_RING_CFG -/ ⟨0x11008, 64, 0x20, 1, 0x0, [⟨31, 31, .rw, (.val 0)⟩, ⟨28, 24, .rw, (.val 0)⟩, ⟨23, 22, .rw, (.val 0)⟩, ⟨19, 16, .rw, (.val 0)⟩, ⟨13, 8, .rw, (.val 20)⟩]⟩,
  /- HST_RING_HEAD -/ ⟨0x1100C, 64, 0x20, 1, 0x0, [⟨15, 0, .ro, (.val 0)⟩]⟩,
  /- HST_RING_TAIL -/ ⟨0x11010, 64, 0x20, 1, 0x0, [⟨15, 0, .ro, (.val 0)⟩]⟩,
  /- HST_RING_STATUS -/ ⟨0x11014, 64, 0x20, 1, 0x0, [⟨10, 8, .ro, (.val 0)⟩, ⟨2, 2, .ro, (.val 0)⟩, ⟨1, 1, .ro, (.val 0)⟩, ⟨0, 0, .ro, (.val 0)⟩]⟩,
  /- HST_RING_COUNT -/ ⟨0x11018, 64, 0x20, 1, 0x0, [⟨31, 0, .ro, (.val 0)⟩]⟩,
  /- HST_MSIX_ADDR_LO -/ ⟨0x18000, 32, 0x10, 1, 0x0, [⟨31, 2, .rw, (.val 0)⟩]⟩,
  /- HST_MSIX_ADDR_HI -/ ⟨0x18004, 32, 0x10, 1, 0x0, [⟨31, 0, .rw, (.val 0)⟩]⟩,
  /- HST_MSIX_DATA -/ ⟨0x18008, 32, 0x10, 1, 0x0, [⟨31, 0, .rw, (.val 0)⟩]⟩,
  /- HST_MSIX_CTRL -/ ⟨0x1800C, 32, 0x10, 1, 0x0, [⟨0, 0, .rw, (.val 1)⟩]⟩,
  /- HST_PBA -/ ⟨0x19000, 1, 0x0, 1, 0x0, [⟨31, 0, .ro, (.val 0)⟩]⟩]

/-- CHN block, R65 (spec/02_chainage.md). -/
def rowsCHN : List RegRow := [
  /- CHN_CTRL -/ ⟨0x20000, 1, 0x0, 1, 0x0, [⟨10, 8, .w1s, (.val 0)⟩, ⟨5, 4, .w1s, (.val 0)⟩, ⟨3, 3, .w1s, (.val 0)⟩, ⟨2, 2, .w1s, (.val 0)⟩, ⟨1, 1, .w1s, (.val 0)⟩, ⟨0, 0, .w1s, (.val 0)⟩]⟩,
  /- CHN_STATUS -/ ⟨0x20004, 1, 0x0, 1, 0x0, [⟨20, 20, .ro, (.val 0)⟩, ⟨19, 19, .ro, (.val 0)⟩, ⟨18, 18, .ro, (.val 0)⟩, ⟨17, 17, .ro, (.val 0)⟩, ⟨16, 15, .ro, (.val 0)⟩, ⟨14, 12, .ro, (.val 0)⟩, ⟨11, 9, .ro, (.val 0)⟩, ⟨7, 4, .ro, (.val 0)⟩, ⟨2, 0, .ro, (.val 0)⟩]⟩,
  /- CHN_VOTE_CFG -/ ⟨0x20008, 1, 0x0, 1, 0x0, [⟨9, 0, .rws, (.val 100)⟩]⟩,
  /- CHN_PRESET_LO -/ ⟨0x20010, 1, 0x0, 1, 0x0, [⟨31, 0, .rw, (.val 0)⟩]⟩,
  /- CHN_PRESET_HI -/ ⟨0x20014, 1, 0x0, 1, 0x0, [⟨15, 0, .rw, (.val 0)⟩]⟩,
  /- CHN_NOW_LO -/ ⟨0x20018, 1, 0x0, 1, 0x0, [⟨31, 0, .ro, (.val 0)⟩]⟩,
  /- CHN_NOW_HI -/ ⟨0x2001C, 1, 0x0, 1, 0x0, [⟨15, 0, .ro, (.val 0)⟩]⟩,
  /- CHN_VOTED_LO -/ ⟨0x20020, 1, 0x0, 1, 0x0, [⟨31, 0, .ro, (.val 0)⟩]⟩,
  /- CHN_VOTED_HI -/ ⟨0x20024, 1, 0x0, 1, 0x0, [⟨15, 0, .ro, (.val 0)⟩]⟩,
  /- CHN_DEBT -/ ⟨0x20028, 1, 0x0, 1, 0x0, [⟨31, 0, .ro, (.val 0)⟩]⟩,
  /- CHN_BACKSTEP_CFG -/ ⟨0x2002C, 1, 0x0, 1, 0x0, [⟨24, 24, .rw, (.val 0)⟩, ⟨20, 0, .rw, (.val 0x4000)⟩]⟩,
  /- CHN_SPEED_CFG -/ ⟨0x20030, 1, 0x0, 1, 0x0, [⟨13, 0, .rw, (.val 100)⟩]⟩,
  /- CHN_SPEED_LINKS -/ ⟨0x20034, 1, 0x0, 1, 0x0, [⟨31, 0, .ro, (.val 0)⟩]⟩,
  /- CHN_SPEED_UMS -/ ⟨0x20038, 1, 0x0, 1, 0x0, [⟨31, 0, .ro, (.val 0)⟩]⟩,
  /- CHN_SPEED_RAW -/ ⟨0x2003C, 1, 0x0, 1, 0x0, [⟨31, 0, .ro, (.val 0)⟩]⟩,
  /- CHN_REHOME_CFG -/ ⟨0x20040, 1, 0x0, 1, 0x0, [⟨26, 24, .rw, (.val 0)⟩, ⟨23, 0, .rw, (.val 0x1000)⟩]⟩,
  /- CHN_SLEW_PENDING -/ ⟨0x20044, 1, 0x0, 1, 0x0, [⟨31, 0, .ro, (.val 0)⟩]⟩,
  /- CHN_CFG -/ ⟨0x20100, 5, 0x100, 1, 0x0, [⟨19, 16, .rws, (.val 0)⟩, ⟨13, 8, .rws, (.val 25)⟩, ⟨7, 7, .rws, (.val 0)⟩, ⟨6, 6, .rws, (.val 0)⟩, ⟨5, 4, .rws, (.val 0)⟩, ⟨3, 3, .rws, (.val 0)⟩, ⟨2, 2, .rws, (.val 0)⟩, ⟨1, 0, .rws, (.val 0)⟩]⟩,
  /- CHN_SCALE_LO -/ ⟨0x20104, 5, 0x100, 1, 0x0, [⟨31, 0, .rws, (.val 0x10000)⟩]⟩,
  /- CHN_SCALE_HI -/ ⟨0x20108, 5, 0x100, 1, 0x0, [⟨15, 0, .rws, (.val 0)⟩]⟩,
  /- CHN_OFFSET -/ ⟨0x2010C, 5, 0x100, 1, 0x0, [⟨31, 0, .rws, (.val 0)⟩]⟩,
  /- CHN_THRESH -/ ⟨0x20110, 5, 0x100, 1, 0x0, [⟨23, 0, .rws, (.val 2048)⟩]⟩,
  /- CHN_SINCOS -/ ⟨0x20114, 5, 0x100, 1, 0x0, [⟨15, 8, .rws, (.val 144)⟩, ⟨7, 0, .rws, (.val 25)⟩]⟩,
  /- CHN_TOOTH -/ ⟨0x20118, 5, 0x100, 1, 0x0, [⟨15, 8, .rws, (.val 28)⟩, ⟨7, 0, .rws, (.val 10)⟩]⟩,
  /- CHN_SSI -/ ⟨0x2011C, 5, 0x100, 1, 0x0, [⟨27, 20, .rws, (.val 8)⟩, ⟨18, 12, .rws, (.val 16)⟩, ⟨11, 0, .rws, (.val 124)⟩]⟩,
  /- CHN_INDEX_PITCH -/ ⟨0x20120, 5, 0x100, 1, 0x0, [⟨31, 0, .rws, (.val 0)⟩]⟩,
  /- CHN_INDEX_TOL -/ ⟨0x20124, 5, 0x100, 1, 0x0, [⟨15, 0, .rws, (.val 1024)⟩]⟩,
  /- CHN_CH_STATUS -/ ⟨0x20128, 5, 0x100, 1, 0x0, [⟨16, 16, .ro, (.val 0)⟩, ⟨15, 8, .ro, (.val 0)⟩, ⟨7, 4, .ro, (.val 0)⟩, ⟨2, 0, .ro, (.val 0)⟩]⟩,
  /- CHN_POS_LO -/ ⟨0x2012C, 5, 0x100, 1, 0x0, [⟨31, 0, .ro, (.val 0)⟩]⟩,
  /- CHN_POS_HI -/ ⟨0x20130, 5, 0x100, 1, 0x0, [⟨15, 0, .ro, (.val 0)⟩]⟩,
  /- CHN_DEV -/ ⟨0x20134, 5, 0x100, 1, 0x0, [⟨31, 0, .ro, (.val 0)⟩]⟩,
  /- CHN_INDEX_ERR -/ ⟨0x20138, 5, 0x100, 1, 0x0, [⟨31, 0, .ro, (.val 0)⟩]⟩,
  /- CHN_ERR_CNT -/ ⟨0x2013C, 5, 0x100, 1, 0x0, [⟨31, 16, .ro, (.val 0)⟩, ⟨15, 0, .ro, (.val 0)⟩]⟩,
  /- CHN_PRB_CFG -/ ⟨0x20800, 8, 0x40, 1, 0x0, [⟨11, 4, .rw, (.val 0)⟩, ⟨3, 3, .rw, (.val 0)⟩, ⟨2, 1, .rw, (.val 0)⟩, ⟨0, 0, .rw, (.val 0)⟩]⟩,
  /- CHN_PRB_LOCKOUT -/ ⟨0x20804, 8, 0x40, 1, 0x0, [⟨31, 0, .rw, (.val 0)⟩]⟩,
  /- CHN_PRB_STATUS -/ ⟨0x20808, 8, 0x40, 1, 0x0, [⟨15, 8, .ro, (.val 0)⟩, ⟨4, 0, .ro, (.val 0)⟩]⟩,
  /- CHN_PRB_POP -/ ⟨0x2080C, 8, 0x40, 1, 0x0, [⟨0, 0, .wo, (.val 0)⟩]⟩,
  /- CHN_PRB_STAKE_CHN_LO -/ ⟨0x20810, 8, 0x40, 1, 0x0, [⟨31, 0, .ro, (.val 0)⟩]⟩,
  /- CHN_PRB_STAKE_CHN_HI -/ ⟨0x20814, 8, 0x40, 1, 0x0, [⟨31, 24, .ro, (.val 0)⟩, ⟨18, 18, .ro, (.val 0)⟩, ⟨17, 17, .ro, (.val 0)⟩, ⟨16, 16, .ro, (.val 0)⟩, ⟨15, 0, .ro, (.val 0)⟩]⟩,
  /- CHN_PRB_STAKE_TIME_LO -/ ⟨0x20818, 8, 0x40, 1, 0x0, [⟨31, 0, .ro, (.val 0)⟩]⟩,
  /- CHN_PRB_STAKE_TIME_HI -/ ⟨0x2081C, 8, 0x40, 1, 0x0, [⟨31, 0, .ro, (.val 0)⟩]⟩]

/-- STN block, R86 (spec/03_stations.md). -/
def rowsSTN : List RegRow := [
  /- STN_CMD -/ ⟨0x30000, 1, 0x0, 1, 0x0, [⟨31, 31, .ro, (.val 0)⟩, ⟨30, 28, .ro, (.val 0)⟩, ⟨15, 8, .rw, (.val 0)⟩, ⟨1, 0, .wo, (.val 0)⟩]⟩,
  /- STN_STATUS -/ ⟨0x30004, 1, 0x0, 1, 0x0, [⟨24, 16, .ro, (.val 0)⟩, ⟨8, 0, .ro, (.val 0)⟩]⟩,
  /- STN_LATE_CNT -/ ⟨0x30008, 1, 0x0, 1, 0x0, [⟨31, 0, .ro, (.val 0)⟩]⟩,
  /- STN_SKIP_CNT -/ ⟨0x3000C, 1, 0x0, 1, 0x0, [⟨31, 0, .ro, (.val 0)⟩]⟩,
  /- STN_OUT_STATE -/ ⟨0x30010, 1, 0x0, 1, 0x0, [⟨15, 0, .ro, (.val 0)⟩]⟩,
  /- STN_TGT_LO -/ ⟨0x30100, 1, 0x0, 1, 0x0, [⟨31, 0, .rw, (.val 0)⟩]⟩,
  /- STN_TGT_HI -/ ⟨0x30104, 1, 0x0, 1, 0x0, [⟨15, 0, .rw, (.val 0)⟩]⟩,
  /- STN_ACT -/ ⟨0x30108, 1, 0x0, 1, 0x0, [⟨31, 24, .rw, (.val 0)⟩, ⟨23, 23, .rw, (.val 0)⟩, ⟨22, 22, .rw, (.val 0)⟩, ⟨21, 21, .rw, (.val 0)⟩, ⟨20, 18, .rw, (.val 0)⟩, ⟨17, 16, .rw, (.val 0)⟩, ⟨15, 8, .rw, (.val 0)⟩, ⟨7, 7, .rw, (.val 0)⟩, ⟨3, 0, .rw, (.val 0)⟩]⟩,
  /- STN_ARG -/ ⟨0x3010C, 1, 0x0, 1, 0x0, [⟨31, 0, .rw, (.val 0)⟩]⟩,
  /- STN_IVL_LO -/ ⟨0x30110, 1, 0x0, 1, 0x0, [⟨31, 0, .rw, (.val 0)⟩]⟩,
  /- STN_IVL_HI -/ ⟨0x30114, 1, 0x0, 1, 0x0, [⟨7, 0, .rw, (.val 0)⟩]⟩,
  /- STN_COUNT -/ ⟨0x30118, 1, 0x0, 1, 0x0, [⟨31, 0, .rw, (.val 0)⟩]⟩,
  /- STN_STATE -/ ⟨0x3011C, 1, 0x0, 1, 0x0, [⟨31, 28, .ro, (.val 0)⟩, ⟨23, 0, .ro, (.val 0)⟩]⟩,
  /- STN_ACTUAL_LO -/ ⟨0x30120, 1, 0x0, 1, 0x0, [⟨31, 0, .ro, (.val 0)⟩]⟩,
  /- STN_ACTUAL_HI -/ ⟨0x30124, 1, 0x0, 1, 0x0, [⟨15, 0, .ro, (.val 0)⟩]⟩,
  /- STN_OUT_CFG -/ ⟨0x30400, 16, 0x8, 1, 0x0, [⟨1, 1, .rws, (.val 0)⟩, ⟨0, 0, .rws, (.val 0)⟩]⟩,
  /- STN_OUT_LIM -/ ⟨0x30404, 16, 0x8, 1, 0x0, [⟨31, 24, .rws, (.val 10)⟩, ⟨23, 0, .rws, (.val 0xC350)⟩]⟩,
  /- STN_LIFT_CFG -/ ⟨0x30500, 4, 0x10, 1, 0x0, [⟨23, 12, .rws, (.val 0)⟩, ⟨11, 8, .rws, (.val 0)⟩, ⟨7, 4, .rws, (.val 0)⟩]⟩,
  /- STN_LIFT_PLANES -/ ⟨0x30504, 4, 0x10, 1, 0x0, [⟨9, 0, .rws, (.val 0)⟩]⟩,
  /- STN_LIFT_SETTLE -/ ⟨0x30508, 4, 0x10, 1, 0x0, [⟨31, 0, .rw, (.val 0)⟩]⟩]

/-- DTM block, R106 (spec/04_datum_time.md). -/
def rowsDTM : List RegRow := [
  /- DTM_CTRL -/ ⟨0x40000, 1, 0x0, 1, 0x0, [⟨8, 8, .rws, (.val 0)⟩, ⟨0, 0, .w1s, (.val 0)⟩]⟩,
  /- DTM_STATUS -/ ⟨0x40004, 1, 0x0, 1, 0x0, [⟨15, 8, .ro, (.val 0)⟩, ⟨3, 3, .w1c, (.val 0)⟩, ⟨2, 2, .w1c, (.val 0)⟩, ⟨1, 1, .ro, (.val 0)⟩, ⟨0, 0, .ro, (.val 0)⟩]⟩,
  /- DTM_TIME_LO -/ ⟨0x40008, 1, 0x0, 1, 0x0, [⟨31, 0, .ro, (.val 0)⟩]⟩,
  /- DTM_TIME_HI -/ ⟨0x4000C, 1, 0x0, 1, 0x0, [⟨31, 0, .ro, (.val 0)⟩]⟩,
  /- DTM_TIME_FRAC -/ ⟨0x40010, 1, 0x0, 1, 0x0, [⟨31, 0, .ro, (.val 0)⟩]⟩,
  /- DTM_INCR_LO -/ ⟨0x40014, 1, 0x0, 1, 0x0, [⟨31, 0, .rw, (.val 0)⟩]⟩,
  /- DTM_INCR_HI -/ ⟨0x40018, 1, 0x0, 1, 0x0, [⟨7, 0, .rw, (.val 2)⟩]⟩,
  /- DTM_OFFSET_LO -/ ⟨0x4001C, 1, 0x0, 1, 0x0, [⟨31, 0, .rw, (.val 0)⟩]⟩,
  /- DTM_OFFSET_HI -/ ⟨0x40020, 1, 0x0, 1, 0x0, [⟨31, 0, .rw, (.val 0)⟩]⟩,
  /- DTM_EPOCH_LO -/ ⟨0x40024, 1, 0x0, 1, 0x0, [⟨31, 0, .rw, (.val 0)⟩]⟩,
  /- DTM_EPOCH_HI -/ ⟨0x40028, 1, 0x0, 1, 0x0, [⟨31, 0, .rw, (.val 0)⟩]⟩,
  /- DTM_TICKS_LO -/ ⟨0x4002C, 1, 0x0, 1, 0x0, [⟨31, 0, .ro, (.val 0)⟩]⟩,
  /- DTM_TICKS_HI -/ ⟨0x40030, 1, 0x0, 1, 0x0, [⟨31, 0, .ro, (.val 0)⟩]⟩,
  /- DTM_SNAP_TIME_LO -/ ⟨0x40034, 1, 0x0, 1, 0x0, [⟨31, 0, .ro, (.val 0)⟩]⟩,
  /- DTM_SNAP_TIME_HI -/ ⟨0x40038, 1, 0x0, 1, 0x0, [⟨31, 0, .ro, (.val 0)⟩]⟩,
  /- DTM_SNAP_CHN_LO -/ ⟨0x4003C, 1, 0x0, 1, 0x0, [⟨31, 0, .ro, (.val 0)⟩]⟩,
  /- DTM_SNAP_CHN_HI -/ ⟨0x40040, 1, 0x0, 1, 0x0, [⟨18, 16, .ro, (.val 0)⟩, ⟨15, 0, .ro, (.val 0)⟩]⟩,
  /- DTM_SNAP_TICKS_LO -/ ⟨0x40044, 1, 0x0, 1, 0x0, [⟨31, 0, .ro, (.val 0)⟩]⟩,
  /- DTM_SNAP_TICKS_HI -/ ⟨0x40048, 1, 0x0, 1, 0x0, [⟨31, 0, .ro, (.val 0)⟩]⟩]

/-- ETH block, R107 (spec/04_datum_time.md). -/
def rowsETH : List RegRow := [
  /- ETH_PTP_CFG -/ ⟨0x50000, 1, 0x0, 1, 0x0, [⟨31, 24, .rws, (.val 0)⟩, ⟨23, 16, .rws, (.val 128)⟩, ⟨15, 8, .rws, (.val 128)⟩, ⟨7, 7, .rws, (.val 0)⟩, ⟨6, 6, .rws, (.val 1)⟩, ⟨5, 5, .rws, (.val 0)⟩, ⟨4, 4, .rws, (.val 0)⟩, ⟨3, 2, .rws, (.val 0)⟩, ⟨0, 0, .rws, (.val 0)⟩]⟩,
  /- ETH_PTP_INTV -/ ⟨0x50004, 1, 0x0, 1, 0x0, [⟨23, 16, .rws, (.val 1)⟩, ⟨15, 8, .rws, (.val 0)⟩, ⟨7, 0, .rws, (.val 0)⟩]⟩,
  /- ETH_PTP_STATUS -/ ⟨0x50008, 1, 0x0, 1, 0x0, [⟨31, 28, .ro, (.val 1)⟩, ⟨27, 26, .ro, (.val 0)⟩, ⟨25, 25, .ro, (.val 0)⟩]⟩,
  /- ETH_PTP_OFFSET -/ ⟨0x5000C, 1, 0x0, 1, 0x0, [⟨31, 0, .ro, (.val 0)⟩]⟩,
  /- ETH_BCN_CFG -/ ⟨0x50020, 1, 0x0, 1, 0x0, [⟨31, 31, .rw, (.val 0)⟩, ⟨30, 30, .rw, (.val 0)⟩, ⟨29, 28, .rw, (.val 0)⟩, ⟨26, 24, .rw, (.val 1)⟩, ⟨21, 16, .rw, (.val 0)⟩, ⟨15, 0, .rw, (.val 1000)⟩]⟩,
  /- ETH_BCN_DST_IP -/ ⟨0x50024, 1, 0x0, 1, 0x0, [⟨31, 0, .rw, (.val 0)⟩]⟩,
  /- ETH_BCN_UDP -/ ⟨0x50028, 1, 0x0, 1, 0x0, [⟨31, 16, .rw, (.val 47812)⟩, ⟨15, 0, .rw, (.val 47812)⟩]⟩,
  /- ETH_BCN_SENT -/ ⟨0x5002C, 1, 0x0, 1, 0x0, [⟨31, 0, .ro, (.val 0)⟩]⟩,
  /- ETH_BCN_DROP -/ ⟨0x50030, 1, 0x0, 1, 0x0, [⟨31, 0, .ro, (.val 0)⟩]⟩,
  /- ETH_P_CFG -/ ⟨0x50100, 2, 0x100, 1, 0x0, [⟨27, 16, .rws, (.val 0)⟩, ⟨15, 13, .rws, (.val 0)⟩, ⟨12, 12, .rws, (.val 0)⟩, ⟨1, 1, .rws, (.val 1)⟩, ⟨0, 0, .rws, (.val 0)⟩]⟩,
  /- ETH_P_STATUS -/ ⟨0x50104, 2, 0x100, 1, 0x0, [⟨31, 16, .ro, (.val 0)⟩, ⟨1, 1, .ro, (.val 0)⟩, ⟨0, 0, .ro, (.val 0)⟩]⟩,
  /- ETH_P_MAC_LO -/ ⟨0x50108, 2, 0x100, 1, 0x0, [⟨31, 0, .rws, .fuse⟩]⟩,
  /- ETH_P_MAC_HI -/ ⟨0x5010C, 2, 0x100, 1, 0x0, [⟨15, 0, .rws, .fuse⟩]⟩,
  /- ETH_P_IP -/ ⟨0x50110, 2, 0x100, 1, 0x0, [⟨31, 0, .rws, (.val 0)⟩]⟩,
  /- ETH_P_MASK -/ ⟨0x50114, 2, 0x100, 1, 0x0, [⟨31, 0, .rws, (.val 0)⟩]⟩,
  /- ETH_P_GW -/ ⟨0x50118, 2, 0x100, 1, 0x0, [⟨31, 0, .rws, (.val 0)⟩]⟩,
  /- ETH_P_TS_LAT -/ ⟨0x5011C, 2, 0x100, 1, 0x0, [⟨31, 16, .rwlFactory, .fuse⟩, ⟨15, 0, .rwlFactory, .fuse⟩]⟩,
  /- ETH_P_RX_DISCARD -/ ⟨0x50120, 2, 0x100, 1, 0x0, [⟨31, 0, .ro, (.val 0)⟩]⟩]

/-- TRV block, R256 (spec/09_traverse.md). -/
def rowsTRV : List RegRow := [
  /- TRV_CFG -/ ⟨0x60000, 1, 0x0, 1, 0x0, [⟨23, 16, .rws, (.val 90)⟩]⟩,
  /- TRV_RUNAHEAD -/ ⟨0x60004, 1, 0x0, 1, 0x0, [⟨17, 0, .rw, (.val 48000)⟩]⟩,
  /- TRV_RUN_MIN -/ ⟨0x60008, 1, 0x0, 1, 0x0, [⟨31, 0, .rw, (.val 0x01000000)⟩]⟩,
  /- TRV_FIRE_LEAD -/ ⟨0x6000C, 1, 0x0, 1, 0x0, [⟨31, 0, .rws, (.val 0x00040000)⟩]⟩,
  /- TRV_URGENT_LEAD -/ ⟨0x60010, 1, 0x0, 1, 0x0, [⟨31, 0, .rw, (.val 0x00800000)⟩]⟩,
  /- TRV_PARK_ORDER -/ ⟨0x60014, 1, 0x0, 1, 0x0, [⟨31, 0, .rws, (.val 0x16273849)⟩]⟩,
  /- TRV_PARK_REQ -/ ⟨0x60018, 1, 0x0, 1, 0x0, [⟨3, 0, .rw, (.val 0)⟩]⟩,
  /- TRV_STATUS -/ ⟨0x6001C, 1, 0x0, 1, 0x0, [⟨30, 24, .ro, (.val 0)⟩, ⟨23, 20, .ro, (.val 0)⟩, ⟨19, 16, .ro, (.val 0)⟩, ⟨1, 1, .ro, (.val 0)⟩]⟩,
  /- TRV_CEILING -/ ⟨0x60020, 1, 0x0, 1, 0x0, [⟨31, 30, .ro, (.val 0)⟩, ⟨19, 0, .ro, (.val 0)⟩]⟩,
  /- TRV_RUNAHEAD_EFF -/ ⟨0x60024, 1, 0x0, 1, 0x0, [⟨31, 0, .ro, (.val 0)⟩]⟩,
  /- TRV_RUNAHEAD_EFF_US -/ ⟨0x60028, 1, 0x0, 1, 0x0, [⟨31, 0, .ro, (.val 0)⟩]⟩,
  /- TRV_FIRE_LEAD_EFF -/ ⟨0x6002C, 1, 0x0, 1, 0x0, [⟨31, 0, .ro, (.val 0)⟩]⟩,
  /- TRV_TILE_CAP -/ ⟨0x60030, 1, 0x0, 1, 0x0, [⟨31, 0, .ro, (.val 0)⟩]⟩,
  /- TRV_TILE_FREE -/ ⟨0x60034, 1, 0x0, 1, 0x0, [⟨31, 0, .ro, (.val 0)⟩]⟩,
  /- TRV_QUEUE_NORMAL -/ ⟨0x60038, 1, 0x0, 1, 0x0, [⟨31, 0, .ro, (.val 0)⟩]⟩,
  /- TRV_QUEUE_URGENT -/ ⟨0x6003C, 1, 0x0, 1, 0x0, [⟨31, 0, .ro, (.val 0)⟩]⟩,
  /- TRV_LOAD -/ ⟨0x60040, 1, 0x0, 1, 0x0, [⟨15, 8, .ro, (.val 0)⟩, ⟨7, 0, .ro, (.val 0)⟩]⟩,
  /- TRV_SLACK_MIN -/ ⟨0x60044, 1, 0x0, 1, 0x0, [⟨31, 0, .ro, (.val 0)⟩]⟩,
  /- TRV_RENDERED -/ ⟨0x60080, 1, 0x0, 1, 0x0, [⟨31, 0, .ro, (.val 0)⟩]⟩,
  /- TRV_STEAL_CLUSTER -/ ⟨0x60084, 1, 0x0, 1, 0x0, [⟨31, 0, .ro, (.val 0)⟩]⟩,
  /- TRV_STEAL_RING -/ ⟨0x60088, 1, 0x0, 1, 0x0, [⟨31, 0, .ro, (.val 0)⟩]⟩,
  /- TRV_REQUEUED -/ ⟨0x6008C, 1, 0x0, 1, 0x0, [⟨31, 0, .ro, (.val 0)⟩]⟩,
  /- TRV_MISS -/ ⟨0x60090, 1, 0x0, 1, 0x0, [⟨31, 0, .ro, (.val 0)⟩]⟩,
  /- TRV_FELL_BACK -/ ⟨0x60094, 1, 0x0, 1, 0x0, [⟨31, 0, .ro, (.val 0)⟩]⟩,
  /- TRV_BLANKED -/ ⟨0x60098, 1, 0x0, 1, 0x0, [⟨31, 0, .ro, (.val 0)⟩]⟩,
  /- TRV_ABANDONED -/ ⟨0x6009C, 1, 0x0, 1, 0x0, [⟨31, 0, .ro, (.val 0)⟩]⟩,
  /- TRV_TILE_WAIT -/ ⟨0x600A0, 1, 0x0, 1, 0x0, [⟨31, 0, .ro, (.val 0)⟩]⟩,
  /- TRV_STALL_LO -/ ⟨0x600A4, 1, 0x0, 1, 0x0, [⟨31, 0, .ro, (.val 0)⟩]⟩,
  /- TRV_STALL_HI -/ ⟨0x600A8, 1, 0x0, 1, 0x0, [⟨31, 0, .ro, (.val 0)⟩]⟩,
  /- TRV_E_STATUS -/ ⟨0x61000, 80, 0x10, 1, 0x0, [⟨31, 30, .ro, (.val 0)⟩, ⟨19, 16, .ro, (.val 0)⟩, ⟨15, 0, .ro, (.val 0)⟩]⟩,
  /- TRV_E_COUNT -/ ⟨0x61004, 80, 0x10, 1, 0x0, [⟨31, 0, .ro, (.val 0)⟩]⟩,
  /- TRV_E_STOLEN -/ ⟨0x61008, 80, 0x10, 1, 0x0, [⟨31, 0, .ro, (.val 0)⟩]⟩]

/-- TRV block, R230 (spec/08_screening.md). -/
def rowsTRV2 : List RegRow := [
  /- TRV_SCR_TBL_SEL -/ ⟨0x68000, 1, 0x0, 1, 0x0, [⟨19, 16, .rw, (.val 0)⟩, ⟨13, 12, .rw, (.val 0)⟩, ⟨10, 8, .rw, (.val 0)⟩, ⟨3, 0, .rw, (.val 0)⟩]⟩,
  /- TRV_SCR_TBL_EPOCH -/ ⟨0x68004, 1, 0x0, 1, 0x0, [⟨31, 0, .ro, (.val 0xFFFFFFFF)⟩]⟩,
  /- TRV_SCR_TBL_SIZE -/ ⟨0x68008, 1, 0x0, 1, 0x0, [⟨20, 0, .ro, (.val 0)⟩]⟩,
  /- TRV_SCR_STATUS -/ ⟨0x6800C, 1, 0x0, 1, 0x0, [⟨9, 0, .ro, (.val 0)⟩]⟩,
  /- TRV_SCR_P_CFG -/ ⟨0x68100, 10, 0x10, 1, 0x0, [⟨16, 16, .rw, (.val 1)⟩, ⟨15, 8, .rw, (.val 0)⟩, ⟨7, 0, .rw, (.val 0)⟩]⟩,
  /- TRV_SCR_P_NOUT_DEF -/ ⟨0x68104, 10, 0x10, 1, 0x0, [⟨27, 21, .rw, (.val 0)⟩, ⟨20, 14, .rw, (.val 32)⟩, ⟨13, 7, .rw, (.val 32)⟩, ⟨6, 0, .rw, (.val 0)⟩]⟩,
  /- TRV_SCR_P_GAPS -/ ⟨0x68108, 10, 0x10, 1, 0x0, [⟨19, 0, .ro, (.val 0)⟩]⟩,
  /- TRV_SCR_P_LOST -/ ⟨0x6810C, 10, 0x10, 1, 0x0, [⟨19, 0, .ro, (.val 0)⟩]⟩,
  /- TRV_SCR_P_SAT -/ ⟨0x68200, 10, 0x4, 1, 0x0, [⟨31, 0, .ro, (.val 0)⟩]⟩]

/-- CMP block, R206 (spec/07_layers.md). -/
def rowsCMP : List RegRow := [
  /- CMP_STATUS -/ ⟨0x70000, 1, 0x0, 1, 0x0, [⟨7, 0, .ro, (.val 0)⟩]⟩,
  /- CMP_TBL_SEL -/ ⟨0x70004, 1, 0x0, 1, 0x0, [⟨18, 16, .rw, (.val 0)⟩, ⟨13, 12, .rw, (.val 0)⟩, ⟨9, 8, .rw, (.val 0)⟩, ⟨3, 0, .rw, (.val 0)⟩]⟩,
  /- CMP_TBL_EPOCH -/ ⟨0x70008, 1, 0x0, 1, 0x0, [⟨31, 0, .ro, (.val 0xFFFFFFFF)⟩]⟩,
  /- CMP_TBL_DATA -/ ⟨0x70400, 256, 0x4, 1, 0x0, [⟨31, 0, .ro, (.val 0)⟩]⟩,
  /- CMP_L0_CFG -/ ⟨0x70100, 1, 0x0, 1, 0x0, [⟨21, 12, .rw, (.val 0x3FF)⟩, ⟨11, 11, .rw, (.val 0)⟩, ⟨10, 10, .rw, (.val 0)⟩, ⟨9, 8, .rw, (.val 0)⟩, ⟨7, 6, .rw, (.val 0)⟩, ⟨3, 2, .rw, (.val 0)⟩, ⟨1, 0, .rw, (.val 0)⟩]⟩,
  /- CMP_LI_CFG -/ ⟨0x70140, 5, 0x40, 1, 0x0, [⟨21, 12, .rw, (.val 0x3FF)⟩, ⟨11, 11, .rw, (.val 0)⟩, ⟨10, 10, .rw, (.val 0)⟩, ⟨9, 8, .rw, (.val 1)⟩, ⟨7, 6, .rw, (.val 0)⟩, ⟨3, 2, .rw, (.val 0)⟩, ⟨1, 0, .ro, (.val 1)⟩]⟩,
  /- CMP_L6_CFG -/ ⟨0x70280, 1, 0x0, 1, 0x0, [⟨21, 12, .rw, (.val 0x3FF)⟩, ⟨11, 11, .rw, (.val 1)⟩, ⟨10, 10, .rw, (.val 0)⟩, ⟨9, 8, .rw, (.val 0)⟩, ⟨7, 6, .rw, (.val 0)⟩, ⟨3, 2, .rw, (.val 0)⟩, ⟨1, 0, .rw, (.val 0)⟩]⟩,
  /- CMP_L7_CFG -/ ⟨0x702C0, 1, 0x0, 1, 0x0, [⟨21, 12, .rw, (.val 0x3FF)⟩, ⟨11, 11, .rw, (.val 0)⟩, ⟨10, 10, .rw, (.val 0)⟩, ⟨9, 8, .rw, (.val 0)⟩, ⟨7, 6, .rw, (.val 0)⟩, ⟨3, 2, .rw, (.val 0)⟩, ⟨1, 0, .ro, (.val 2)⟩]⟩,
  /- CMP_L_SCALE -/ ⟨0x70104, 8, 0x40, 1, 0x0, [⟨7, 4, .rw, (.val 1)⟩, ⟨3, 0, .rw, (.val 1)⟩]⟩,
  /- CMP_L_ITEM_PITCH -/ ⟨0x70108, 8, 0x40, 1, 0x0, [⟨31, 0, .rw, (.val 0)⟩]⟩,
  /- CMP_L_ITEM_OFFSET -/ ⟨0x7010C, 8, 0x40, 1, 0x0, [⟨31, 0, .rw, (.val 0)⟩]⟩,
  /- CMP_L_ITEM_BASE -/ ⟨0x70110, 8, 0x40, 1, 0x0, [⟨31, 0, .rw, (.val 0)⟩]⟩,
  /- CMP_L_BIND_LEAD -/ ⟨0x70114, 8, 0x40, 1, 0x0, [⟨31, 0, .rw, (.val 0x0186A000)⟩]⟩,
  /- CMP_L_FLIP_LEAD -/ ⟨0x70118, 8, 0x40, 1, 0x0, [⟨31, 0, .rw, (.val 0x02000000)⟩]⟩,
  /- CMP_L_FENCE -/ ⟨0x7011C, 8, 0x40, 1, 0x0, [⟨31, 0, .ro, (.val 0)⟩]⟩,
  /- CMP_L_ITEM_NOW -/ ⟨0x70120, 8, 0x40, 1, 0x0, [⟨31, 0, .ro, (.val 0xFFFFFFFF)⟩]⟩,
  /- CMP_L_SHOWN -/ ⟨0x70124, 8, 0x40, 1, 0x0, [⟨31, 0, .ro, (.val 0xFFFFFFFF)⟩]⟩,
  /- CMP_L_HELD -/ ⟨0x70128, 8, 0x40, 1, 0x0, [⟨20, 16, .ro, (.val 0)⟩, ⟨8, 0, .ro, (.val 0)⟩]⟩,
  /- CMP_L_LATE_CNT -/ ⟨0x7012C, 8, 0x40, 1, 0x0, [⟨31, 0, .ro, (.val 0)⟩]⟩,
  /- CMP_L_DISCARD_CNT -/ ⟨0x70130, 8, 0x40, 1, 0x0, [⟨31, 0, .ro, (.val 0)⟩]⟩,
  /- CMP_PROOF_CFG -/ ⟨0x70800, 1, 0x0, 1, 0x0, [⟨31, 31, .rw, (.val 0)⟩, ⟨25, 16, .rw, (.val 0x3FF)⟩, ⟨13, 8, .rw, (.val 0)⟩, ⟨5, 0, .rw, (.val 0)⟩]⟩,
  /- CMP_PROOF_FIRST -/ ⟨0x70804, 1, 0x0, 1, 0x0, [⟨19, 0, .rw, (.val 0)⟩]⟩,
  /- CMP_PROOF_CELLS -/ ⟨0x70808, 1, 0x0, 1, 0x0, [⟨12, 0, .rw, (.val 1)⟩]⟩,
  /- CMP_PROOF_WT_LO -/ ⟨0x7080C, 1, 0x0, 1, 0x0, [⟨31, 24, .rw, (.val 0)⟩, ⟨23, 16, .rw, (.val 0)⟩, ⟨15, 8, .rw, (.val 0)⟩, ⟨7, 0, .rw, (.val 0)⟩]⟩,
  /- CMP_PROOF_WT_HI -/ ⟨0x70810, 1, 0x0, 1, 0x0, [⟨23, 16, .rw, (.val 0)⟩, ⟨15, 8, .rw, (.val 0)⟩, ⟨7, 0, .rw, (.val 0)⟩]⟩,
  /- CMP_PROOF_BASE -/ ⟨0x70814, 1, 0x0, 1, 0x0, [⟨31, 0, .rw, (.val 0)⟩]⟩,
  /- CMP_PROOF_DEPTH -/ ⟨0x70818, 1, 0x0, 1, 0x0, [⟨15, 0, .rw, (.val 1024)⟩]⟩,
  /- CMP_PROOF_ROWS -/ ⟨0x7081C, 1, 0x0, 1, 0x0, [⟨31, 0, .ro, (.val 0)⟩]⟩,
  /- CMP_PROOF_DROP -/ ⟨0x70820, 1, 0x0, 1, 0x0, [⟨31, 0, .ro, (.val 0)⟩]⟩]

/-- VGP block, R180 (spec/06_job_store.md). -/
def rowsVGP : List RegRow := [
  /- VGP_CFG -/ ⟨0x80000, 1, 0x0, 1, 0x0, [⟨0, 0, .rw, (.val 1)⟩]⟩,
  /- VGP_STATUS -/ ⟨0x80004, 1, 0x0, 1, 0x0, [⟨31, 20, .ro, (.val 2048)⟩, ⟨19, 16, .ro, (.val 0)⟩, ⟨8, 8, .ro, (.val 0)⟩, ⟨6, 0, .ro, (.val 0)⟩]⟩,
  /- VGP_STORE_SIZE -/ ⟨0x80008, 1, 0x0, 1, 0x0, [⟨31, 0, .ro, (.val 0)⟩]⟩,
  /- VGP_STORE_FREE -/ ⟨0x8000C, 1, 0x0, 1, 0x0, [⟨31, 0, .ro, (.val 0)⟩]⟩,
  /- VGP_STORE_LOW -/ ⟨0x80010, 1, 0x0, 1, 0x0, [⟨31, 0, .rw, (.val 0)⟩]⟩,
  /- VGP_CHK_FIRST -/ ⟨0x80014, 1, 0x0, 1, 0x0, [⟨31, 0, .ro, (.val 0)⟩]⟩,
  /- VGP_CHK_REREAD_OK -/ ⟨0x80018, 1, 0x0, 1, 0x0, [⟨31, 0, .ro, (.val 0)⟩]⟩,
  /- VGP_REQ_CNT -/ ⟨0x8001C, 1, 0x0, 1, 0x0, [⟨31, 0, .ro, (.val 0)⟩]⟩,
  /- VGP_BLANK_LINES -/ ⟨0x80020, 1, 0x0, 1, 0x0, [⟨31, 0, .ro, (.val 0)⟩]⟩,
  /- VGP_JOB_STATE -/ ⟨0x80100, 8, 0x20, 1, 0x0, [⟨17, 17, .ro, (.val 0)⟩, ⟨16, 16, .ro, (.val 0)⟩, ⟨15, 8, .ro, (.val 0)⟩, ⟨2, 0, .ro, (.val 0)⟩]⟩,
  /- VGP_JOB_EXTENTS -/ ⟨0x80104, 8, 0x20, 1, 0x0, [⟨31, 0, .ro, (.val 0)⟩]⟩,
  /- VGP_JOB_RESERVED -/ ⟨0x80108, 8, 0x20, 1, 0x0, [⟨31, 0, .ro, (.val 0)⟩]⟩,
  /- VGP_JOB_REPEATS -/ ⟨0x8010C, 8, 0x20, 1, 0x0, [⟨31, 0, .ro, (.val 0)⟩]⟩,
  /- VGP_JOB_STARVED -/ ⟨0x80110, 8, 0x20, 1, 0x0, [⟨31, 0, .ro, (.val 0)⟩]⟩,
  /- VGP_JOB_BLANKED -/ ⟨0x80114, 8, 0x20, 1, 0x0, [⟨31, 0, .ro, (.val 0)⟩]⟩]

/-- FGD block, R290 (spec/10_fire_path.md). -/
def rowsFGD : List RegRow := [
  /- FGD_CFG -/ ⟨0x90000, 1, 0x0, 1, 0x0, [⟨9, 9, .rw, (.val 0)⟩, ⟨8, 8, .rw, (.val 0)⟩]⟩,
  /- FGD_STATUS -/ ⟨0x90004, 1, 0x0, 1, 0x0, [⟨3, 3, .ro, (.val 0)⟩, ⟨2, 2, .ro, (.val 0)⟩, ⟨1, 1, .ro, (.val 0)⟩, ⟨0, 0, .ro, (.val 0)⟩]⟩,
  /- FGD_PITCH_LO -/ ⟨0x90008, 1, 0x0, 1, 0x0, [⟨31, 0, .rw, (.val 0x152AAAAB)⟩]⟩,
  /- FGD_PITCH_HI -/ ⟨0x9000C, 1, 0x0, 1, 0x0, [⟨15, 0, .rw, (.val 0)⟩]⟩,
  /- FGD_PITCH_EFF_LO -/ ⟨0x90010, 1, 0x0, 1, 0x0, [⟨31, 0, .ro, (.val 0)⟩]⟩,
  /- FGD_PITCH_EFF_HI -/ ⟨0x90014, 1, 0x0, 1, 0x0, [⟨15, 0, .ro, (.val 0)⟩]⟩,
  /- FGD_GEO_STATUS -/ ⟨0x90018, 1, 0x0, 1, 0x0, [⟨31, 28, .ro, (.val 0)⟩, ⟨8, 0, .ro, (.val 0)⟩]⟩,
  /- FGD_RATE -/ ⟨0x9001C, 1, 0x0, 1, 0x0, [⟨19, 0, .ro, (.val 0)⟩]⟩,
  /- FGD_HEAD_LIMIT -/ ⟨0x90020, 1, 0x0, 1, 0x0, [⟨17, 0, .ro, (.val 0)⟩]⟩,
  /- FGD_TBL_SEL -/ ⟨0x90024, 1, 0x0, 1, 0x0, [⟨8, 0, .rw, (.val 0)⟩]⟩,
  /- FGD_PLACE_MAX -/ ⟨0x90028, 1, 0x0, 1, 0x0, [⟨15, 0, .ro, (.val 0)⟩]⟩,
  /- FGD_PLACE_OVER -/ ⟨0x9002C, 1, 0x0, 1, 0x0, [⟨31, 0, .ro, (.val 0)⟩]⟩,
  /- FGD_DOWN_SKIPPED -/ ⟨0x90030, 1, 0x0, 1, 0x0, [⟨31, 0, .ro, (.val 0)⟩]⟩,
  /- FGD_BLANK_TOTAL_LO -/ ⟨0x90034, 1, 0x0, 1, 0x0, [⟨31, 0, .ro, (.val 0)⟩]⟩,
  /- FGD_BLANK_TOTAL_HI -/ ⟨0x90038, 1, 0x0, 1, 0x0, [⟨31, 0, .ro, (.val 0)⟩]⟩,
  /- FGD_USAGE_CFG -/ ⟨0x90040, 1, 0x0, 1, 0x0, [⟨31, 31, .rw, (.val 1)⟩, ⟨15, 0, .rw, (.val 600)⟩]⟩,
  /- FGD_USAGE_STATUS -/ ⟨0x90044, 1, 0x0, 1, 0x0, [⟨31, 31, .ro, (.val 0)⟩, ⟨15, 0, .ro, (.val 0)⟩]⟩,
  /- FGD_P_DOWN_REMAP -/ ⟨0x90100, 10, 0x4, 1, 0x0, [⟨20, 0, .rw, (.val 0x1FEB1A)⟩]⟩,
  /- FGD_P_VOL_LO -/ ⟨0x90200, 10, 0x8, 1, 0x0, [⟨31, 0, .ro, (.val 0)⟩]⟩,
  /- FGD_P_VOL_HI -/ ⟨0x90204, 10, 0x8, 1, 0x0, [⟨31, 0, .ro, (.val 0)⟩]⟩,
  /- FGD_HB_BLANK -/ ⟨0x90400, 40, 0x40, 11, 0x4, [⟨31, 0, .ro, (.val 0)⟩]⟩,
  /- FGD_HB_LAT -/ ⟨0x9042C, 40, 0x40, 1, 0x0, [⟨31, 16, .ro, (.val 0)⟩, ⟨15, 0, .ro, (.val 0)⟩]⟩,
  /- FGD_HB_DEPTH -/ ⟨0x90430, 40, 0x40, 1, 0x0, [⟨7, 0, .ro, (.val 0)⟩]⟩,
  /- FGD_HB_COLLIDE -/ ⟨0x90434, 40, 0x40, 1, 0x0, [⟨31, 0, .ro, (.val 0)⟩]⟩,
  /- FGD_HD_CFG -/ ⟨0x91000, 400, 0x20, 1, 0x0, [⟨31, 31, .rws, (.val 0)⟩, ⟨27, 24, .rws, (.val 0)⟩, ⟨21, 16, .rws, (.val 0)⟩, ⟨15, 12, .rws, (.val 0)⟩, ⟨11, 8, .rws, (.val 0)⟩, ⟨1, 0, .rws, (.val 0)⟩]⟩,
  /- FGD_HD_GEOM -/ ⟨0x91004, 400, 0x20, 1, 0x0, [⟨31, 12, .rws, (.val 0)⟩, ⟨11, 0, .rws, (.val 0)⟩]⟩,
  /- FGD_HD_ROW -/ ⟨0x91008, 400, 0x20, 4, 0x4, [⟨31, 0, .rws, (.val 0)⟩]⟩,
  /- FGD_HD_TLM -/ ⟨0x91018, 400, 0x20, 1, 0x0, [⟨31, 28, .ro, (.val 0)⟩, ⟨27, 16, .ro, (.val 0)⟩, ⟨15, 0, .ro, (.val 0)⟩]⟩,
  /- FGD_HD_USTAT -/ ⟨0x9101C, 400, 0x20, 1, 0x0, [⟨2, 2, .ro, (.val 0)⟩, ⟨1, 1, .ro, (.val 0)⟩, ⟨0, 0, .ro, (.val 0)⟩]⟩,
  /- FGD_HD_ACT_LO -/ ⟨0x94200, 400, 0x20, 1, 0x0, [⟨31, 0, .ro, (.val 0)⟩]⟩,
  /- FGD_HD_ACT_HI -/ ⟨0x94204, 400, 0x20, 1, 0x0, [⟨31, 0, .ro, (.val 0)⟩]⟩,
  /- FGD_HD_VOL_LO -/ ⟨0x94208, 400, 0x20, 1, 0x0, [⟨31, 0, .ro, (.val 0)⟩]⟩,
  /- FGD_HD_VOL_HI -/ ⟨0x9420C, 400, 0x20, 1, 0x0, [⟨31, 0, .ro, (.val 0)⟩]⟩,
  /- FGD_HD_SER_LO -/ ⟨0x94210, 400, 0x20, 1, 0x0, [⟨31, 0, .ro, (.val 0)⟩]⟩,
  /- FGD_HD_SER_HI -/ ⟨0x94214, 400, 0x20, 1, 0x0, [⟨31, 0, .ro, (.val 0)⟩]⟩,
  /- FGD_HD_USEQ -/ ⟨0x94218, 400, 0x20, 1, 0x0, [⟨31, 0, .ro, (.val 0)⟩]⟩,
  /- FGD_HT_RATE -/ ⟨0x97400, 16, 0x40, 1, 0x0, [⟨17, 0, .rws, (.val 0)⟩]⟩,
  /- FGD_HT_VOLT -/ ⟨0x97404, 16, 0x40, 1, 0x0, [⟨31, 16, .rws, (.val 0)⟩, ⟨15, 0, .rws, (.val 0)⟩]⟩,
  /- FGD_HT_BAND -/ ⟨0x97408, 16, 0x40, 1, 0x0, [⟨11, 8, .rws, (.val 4)⟩, ⟨7, 0, .rws, (.val 20)⟩]⟩,
  /- FGD_HT_VOL_A -/ ⟨0x9740C, 16, 0x40, 1, 0x0, [⟨31, 16, .rws, (.val 0)⟩, ⟨15, 0, .rws, (.val 0)⟩]⟩,
  /- FGD_HT_VOL_B -/ ⟨0x97410, 16, 0x40, 1, 0x0, [⟨31, 16, .rws, (.val 0)⟩, ⟨15, 0, .rws, (.val 0)⟩]⟩,
  /- FGD_HT_VOL_C -/ ⟨0x97414, 16, 0x40, 1, 0x0, [⟨31, 16, .rws, (.val 0)⟩, ⟨15, 0, .rws, (.val 0)⟩]⟩,
  /- FGD_HT_VOL_D -/ ⟨0x97418, 16, 0x40, 1, 0x0, [⟨15, 0, .rws, (.val 0)⟩]⟩]

/-- FGD block, R305 (spec/11_fire_guard.md). -/
def rowsFGD2 : List RegRow := [
  /- FGD_G_STATUS -/ ⟨0x98000, 1, 0x0, 1, 0x0, [⟨31, 31, .ro, (.val 0)⟩, ⟨30, 30, .ro, (.val 0)⟩, ⟨23, 20, .ro, (.val 0)⟩, ⟨19, 16, .ro, (.val 0)⟩, ⟨11, 8, .ro, (.val 0)⟩]⟩,
  /- FGD_G_CFG -/ ⟨0x98004, 1, 0x0, 1, 0x0, [⟨31, 31, .rws, (.val 0)⟩, ⟨25, 16, .rws, (.val 100)⟩]⟩,
  /- FGD_G_WDG -/ ⟨0x98008, 1, 0x0, 1, 0x0, [⟨15, 0, .wo, (.val 0)⟩]⟩,
  /- FGD_G_NOZ -/ ⟨0x9800C, 1, 0x0, 1, 0x0, [⟨12, 0, .rws, (.val 3900)⟩]⟩,
  /- FGD_G_NOZ_CEIL -/ ⟨0x98010, 1, 0x0, 1, 0x0, [⟨12, 0, .rwlCeilings, (.val 4096)⟩]⟩,
  /- FGD_G_GAIN -/ ⟨0x98014, 1, 0x0, 1, 0x0, [⟨28, 16, .rws, (.val 0x1800)⟩, ⟨12, 0, .rws, (.val 0x0800)⟩]⟩,
  /- FGD_G_GAIN_CEIL -/ ⟨0x98018, 1, 0x0, 1, 0x0, [⟨28, 16, .rwlCeilings, (.val 0x1800)⟩, ⟨12, 0, .rwlCeilings, (.val 0x0800)⟩]⟩,
  /- FGD_G_GAIN_RATE -/ ⟨0x9801C, 1, 0x0, 1, 0x0, [⟨31, 16, .rwlCeilings, (.val 4096)⟩, ⟨15, 0, .rws, (.val 205)⟩]⟩,
  /- FGD_G_WDISC -/ ⟨0x98020, 1, 0x0, 1, 0x0, [⟨31, 0, .ro, (.val 0)⟩]⟩,
  /- FGD_G_SAVE -/ ⟨0x98024, 1, 0x0, 1, 0x0, [⟨0, 0, .w1s, (.val 0)⟩]⟩,
  /- FGD_G_THIN_TOTAL_LO -/ ⟨0x98028, 1, 0x0, 1, 0x0, [⟨31, 0, .ro, (.val 0)⟩]⟩,
  /- FGD_G_THIN_TOTAL_HI -/ ⟨0x9802C, 1, 0x0, 1, 0x0, [⟨31, 0, .ro, (.val 0)⟩]⟩,
  /- FGD_G_WDG_BAD -/ ⟨0x98030, 1, 0x0, 1, 0x0, [⟨31, 0, .ro, (.val 0)⟩]⟩,
  /- FGD_G_T_PW -/ ⟨0x98100, 16, 0x10, 1, 0x0, [⟨31, 16, .rwlCeilings, (.val 2000)⟩, ⟨15, 0, .rws, (.val 2000)⟩]⟩,
  /- FGD_G_T_VOL -/ ⟨0x98104, 16, 0x10, 1, 0x0, [⟨31, 0, .rws, (.val 0xFFFFFFFF)⟩]⟩,
  /- FGD_G_T_VOL_CEIL -/ ⟨0x98108, 16, 0x10, 1, 0x0, [⟨31, 0, .rwlCeilings, (.val 0xFFFFFFFF)⟩]⟩,
  /- FGD_G_HB_THIN_NOZ -/ ⟨0x98400, 40, 0x10, 1, 0x0, [⟨31, 0, .ro, (.val 0)⟩]⟩,
  /- FGD_G_HB_THIN_VOL -/ ⟨0x98404, 40, 0x10, 1, 0x0, [⟨31, 0, .ro, (.val 0)⟩]⟩,
  /- FGD_G_HB_PW_CLIP -/ ⟨0x98408, 40, 0x10, 1, 0x0, [⟨31, 0, .ro, (.val 0)⟩]⟩]

/-- SKX block, R335 (spec/12_skovex.md). -/
def rowsSKX : List RegRow := [
  /- SKX_L_CFG -/ ⟨0xA0000, 40, 0x800, 1, 0x0, [⟨31, 31, .rw, (.val 0)⟩, ⟨25, 24, .rw, (.val 2)⟩, ⟨19, 16, .rw, (.val 4)⟩]⟩,
  /- SKX_L_CTRL -/ ⟨0xA0004, 40, 0x800, 1, 0x0, [⟨0, 0, .w1s, (.val 0)⟩]⟩,
  /- SKX_L_STATUS -/ ⟨0xA0008, 40, 0x800, 1, 0x0, [⟨31, 28, .ro, (.val 0)⟩, ⟨27, 26, .ro, (.val 0)⟩, ⟨25, 25, .ro, (.val 0)⟩, ⟨24, 24, .ro, (.val 0)⟩, ⟨23, 23, .ro, (.val 0)⟩, ⟨19, 16, .ro, (.val 0)⟩, ⟨15, 8, .ro, (.val 0)⟩, ⟨7, 0, .ro, (.val 0)⟩]⟩,
  /- SKX_L_EQ -/ ⟨0xA000C, 40, 0x800, 1, 0x0, [⟨31, 28, .ro, (.val 0)⟩, ⟨24, 20, .ro, (.val 0)⟩, ⟨19, 15, .ro, (.val 0)⟩, ⟨14, 10, .ro, (.val 0)⟩, ⟨9, 5, .ro, (.val 0)⟩, ⟨4, 0, .ro, (.val 0)⟩]⟩,
  /- SKX_L_RT -/ ⟨0xA0010, 40, 0x800, 1, 0x0, [⟨19, 0, .ro, (.val 0)⟩]⟩,
  /- SKX_L_LOSS -/ ⟨0xA0014, 40, 0x800, 1, 0x0, [⟨31, 16, .ro, (.val 0)⟩, ⟨3, 0, .ro, (.val 0)⟩]⟩,
  /- SKX_L_INVALID -/ ⟨0xA0018, 40, 0x800, 1, 0x0, [⟨31, 0, .ro, (.val 0)⟩]⟩,
  /- SKX_L_BADPKT -/ ⟨0xA001C, 40, 0x800, 1, 0x0, [⟨31, 0, .ro, (.val 0)⟩]⟩,
  /- SKX_L_SKIP -/ ⟨0xA0020, 40, 0x800, 1, 0x0, [⟨31, 0, .ro, (.val 0)⟩]⟩,
  /- SKX_CFG -/ ⟨0xB4000, 1, 0x0, 1, 0x0, [⟨15, 8, .rw, (.val 0)⟩, ⟨0, 0, .rw, (.val 0)⟩]⟩,
  /- SKX_UP_LO -/ ⟨0xB4004, 1, 0x0, 1, 0x0, [⟨31, 0, .ro, (.val 0)⟩]⟩,
  /- SKX_UP_HI -/ ⟨0xB4008, 1, 0x0, 1, 0x0, [⟨7, 0, .ro, (.val 0)⟩]⟩,
  /- SKX_HUB_CFG -/ ⟨0xB5000, 40, 0x40, 1, 0x0, [⟨31, 31, .rws, (.val 0)⟩, ⟨30, 30, .rws, (.val 0)⟩, ⟨13, 8, .rws, (.val 0)⟩, ⟨5, 0, .rws, .index⟩]⟩,
  /- SKX_HUB_STATUS -/ ⟨0xB5004, 40, 0x40, 1, 0x0, [⟨31, 29, .ro, (.val 0)⟩, ⟨28, 28, .ro, (.val 0)⟩, ⟨27, 26, .ro, (.val 3)⟩, ⟨25, 16, .ro, (.val 0)⟩, ⟨15, 8, .ro, (.val 0)⟩, ⟨7, 0, .ro, (.val 255)⟩]⟩,
  /- SKX_HUB_NEED -/ ⟨0xB5008, 40, 0x40, 1, 0x0, [⟨31, 16, .ro, (.val 0)⟩, ⟨15, 0, .ro, (.val 0)⟩]⟩,
  /- SKX_HUB_ECHO_BAD -/ ⟨0xB500C, 40, 0x40, 1, 0x0, [⟨31, 0, .ro, (.val 0)⟩]⟩,
  /- SKX_HUB_ECHO_MISSING -/ ⟨0xB5010, 40, 0x40, 1, 0x0, [⟨31, 0, .ro, (.val 0)⟩]⟩,
  /- SKX_HUB_RESENT -/ ⟨0xB5014, 40, 0x40, 1, 0x0, [⟨31, 0, .ro, (.val 0)⟩]⟩,
  /- SKX_HUB_WITHHELD -/ ⟨0xB5018, 40, 0x40, 1, 0x0, [⟨31, 0, .ro, (.val 0)⟩]⟩,
  /- SKX_HUB_HUBCNT -/ ⟨0xB501C, 40, 0x40, 1, 0x0, [⟨31, 16, .ro, (.val 0)⟩, ⟨15, 0, .ro, (.val 0)⟩]⟩,
  /- SKX_HUB_REFUSED -/ ⟨0xB5020, 40, 0x40, 1, 0x0, [⟨15, 0, .ro, (.val 0)⟩]⟩]

/-- CAM block, R359 (spec/13_camera.md). -/
def rowsCAM : List RegRow := [
  /- CAM_STATUS -/ ⟨0xC0000, 1, 0x0, 1, 0x0, [⟨23, 16, .ro, (.val 0)⟩, ⟨11, 8, .ro, (.val 0)⟩, ⟨7, 0, .ro, (.val 0)⟩]⟩,
  /- CAM_LOAD -/ ⟨0xC0004, 1, 0x0, 1, 0x0, [⟨15, 8, .ro, (.val 0)⟩, ⟨7, 0, .ro, (.val 0)⟩]⟩,
  /- CAM_MBX_ADDR -/ ⟨0xC0010, 1, 0x0, 1, 0x0, [⟨31, 0, .rw, (.val 0)⟩]⟩,
  /- CAM_MBX_DATA -/ ⟨0xC0014, 1, 0x0, 1, 0x0, [⟨31, 0, .rw, (.val 0)⟩]⟩,
  /- CAM_MBX_CMD -/ ⟨0xC0018, 1, 0x0, 1, 0x0, [⟨31, 31, .ro, (.val 0)⟩, ⟨30, 28, .ro, (.val 0)⟩, ⟨9, 8, .rw, (.val 0)⟩, ⟨1, 0, .wo, (.val 0)⟩]⟩,
  /- CAM_TBL_SEL -/ ⟨0xC0020, 1, 0x0, 1, 0x0, [⟨18, 16, .rw, (.val 0)⟩, ⟨1, 0, .rw, (.val 0)⟩]⟩,
  /- CAM_TBL_IDX -/ ⟨0xC0024, 1, 0x0, 1, 0x0, [⟨15, 0, .rw, (.val 0)⟩]⟩,
  /- CAM_TBL_DATA -/ ⟨0xC0028, 1, 0x0, 1, 0x0, [⟨31, 0, .ro, (.val 0)⟩]⟩,
  /- CAM_X_STATUS -/ ⟨0xC0100, 8, 0x10, 1, 0x0, [⟨31, 28, .ro, (.val 0)⟩, ⟨27, 24, .ro, (.val 0)⟩, ⟨23, 22, .ro, (.val 0)⟩]⟩,
  /- CAM_X_CRC -/ ⟨0xC0104, 8, 0x10, 1, 0x0, [⟨31, 0, .ro, (.val 0)⟩]⟩,
  /- CAM_X_PKT -/ ⟨0xC0108, 8, 0x10, 1, 0x0, [⟨31, 0, .ro, (.val 0)⟩]⟩,
  /- CAM_X_EVPKT -/ ⟨0xC010C, 8, 0x10, 1, 0x0, [⟨31, 0, .ro, (.val 0)⟩]⟩,
  /- CAM_D_CFG -/ ⟨0xC0200, 4, 0x40, 1, 0x0, [⟨31, 31, .rws, (.val 0)⟩, ⟨26, 24, .rws, (.val 6)⟩, ⟨21, 20, .rws, (.val 0)⟩, ⟨18, 16, .rws, (.val 0)⟩, ⟨5, 4, .rws, (.val 0)⟩, ⟨3, 3, .rws, (.val 1)⟩]⟩,
  /- CAM_D_WIDTH -/ ⟨0xC0204, 4, 0x40, 1, 0x0, [⟨23, 16, .rws, (.val 0)⟩, ⟨14, 0, .rws, (.val 7680)⟩]⟩,
  /- CAM_D_TRIG -/ ⟨0xC0208, 4, 0x40, 1, 0x0, [⟨15, 0, .rws, (.val 4000)⟩]⟩,
  /- CAM_D_STATUS -/ ⟨0xC020C, 4, 0x40, 1, 0x0, [⟨31, 28, .ro, (.val 0)⟩, ⟨27, 24, .ro, (.val 0)⟩]⟩,
  /- CAM_D_RAW_BASE -/ ⟨0xC0210, 4, 0x40, 1, 0x0, [⟨31, 0, .rws, (.val 0)⟩]⟩,
  /- CAM_D_RAW_SIZE -/ ⟨0xC0214, 4, 0x40, 1, 0x0, [⟨31, 0, .rws, (.val 0)⟩]⟩,
  /- CAM_D_LINES -/ ⟨0xC0218, 4, 0x40, 1, 0x0, [⟨31, 0, .ro, (.val 0)⟩]⟩,
  /- CAM_D_ORPHAN -/ ⟨0xC021C, 4, 0x40, 1, 0x0, [⟨31, 0, .ro, (.val 0)⟩]⟩,
  /- CAM_D_OVF -/ ⟨0xC0220, 4, 0x40, 1, 0x0, [⟨31, 0, .ro, (.val 0)⟩]⟩,
  /- CAM_D_TRIG_SKIP -/ ⟨0xC0224, 4, 0x40, 1, 0x0, [⟨31, 0, .ro, (.val 0)⟩]⟩,
  /- CAM_D_BAD_LINES -/ ⟨0xC0228, 4, 0x40, 1, 0x0, [⟨31, 0, .ro, (.val 0)⟩]⟩,
  /- CAM_SPILL_BASE -/ ⟨0xC0400, 8, 0x10, 1, 0x0, [⟨31, 0, .rws, (.val 0)⟩]⟩,
  /- CAM_SPILL_SIZE -/ ⟨0xC0404, 8, 0x10, 1, 0x0, [⟨31, 0, .rws, (.val 4096)⟩]⟩,
  /- CAM_SPILL_FILL -/ ⟨0xC0408, 8, 0x10, 1, 0x0, [⟨31, 0, .ro, (.val 0)⟩]⟩,
  /- CAM_SPILL_DROP -/ ⟨0xC040C, 8, 0x10, 1, 0x0, [⟨31, 0, .ro, (.val 0)⟩]⟩,
  /- CAM_C_CFG -/ ⟨0xC1000, 8, 0x100, 1, 0x0, [⟨31, 31, .rws, (.val 0)⟩, ⟨17, 16, .rws, (.val 0)⟩, ⟨9, 8, .rws, (.val 0)⟩]⟩,
  /- CAM_C_LEN -/ ⟨0xC1004, 8, 0x100, 1, 0x0, [⟨16, 0, .rw, (.val 1024)⟩]⟩,
  /- CAM_C_PITCH_LO -/ ⟨0xC1008, 8, 0x100, 1, 0x0, [⟨31, 0, .rw, (.val 0x152AAAAB)⟩]⟩,
  /- CAM_C_PITCH_HI -/ ⟨0xC100C, 8, 0x100, 1, 0x0, [⟨15, 0, .rw, (.val 0)⟩]⟩,
  /- CAM_C_DIST -/ ⟨0xC1010, 8, 0x100, 1, 0x0, [⟨31, 0, .rw, (.val 0)⟩]⟩,
  /- CAM_C_TIMEOUT -/ ⟨0xC1014, 8, 0x100, 1, 0x0, [⟨15, 0, .rw, (.val 10000)⟩]⟩,
  /- CAM_C_GEN -/ ⟨0xC1018, 8, 0x100, 1, 0x0, [⟨31, 31, .w1s, (.val 0)⟩, ⟨30, 30, .ro, (.val 0)⟩, ⟨29, 28, .ro, (.val 0)⟩, ⟨27, 27, .ro, (.val 0)⟩]⟩,
  /- CAM_C_ACTIVE_GEN -/ ⟨0xC101C, 8, 0x100, 1, 0x0, [⟨31, 0, .ro, (.val 0)⟩]⟩,
  /- CAM_C_PENDING_GEN -/ ⟨0xC1020, 8, 0x100, 1, 0x0, [⟨31, 0, .ro, (.val 0)⟩]⟩,
  /- CAM_C_FRAME -/ ⟨0xC1024, 8, 0x100, 1, 0x0, [⟨31, 0, .ro, (.val 0)⟩]⟩,
  /- CAM_C_STATUS -/ ⟨0xC1028, 8, 0x100, 1, 0x0, [⟨31, 31, .ro, (.val 0)⟩, ⟨16, 0, .ro, (.val 0)⟩]⟩,
  /- CAM_C_OUT_CFG -/ ⟨0xC1040, 8, 0x100, 4, 0x10, [⟨31, 31, .rw, (.val 0)⟩, ⟨30, 28, .rw, (.val 0)⟩, ⟨27, 24, .rw, (.val 8)⟩, ⟨23, 23, .rw, (.val 0)⟩, ⟨7, 4, .rw, (.val 0)⟩, ⟨3, 0, .rw, (.val 0)⟩]⟩,
  /- CAM_C_OUT_COLS -/ ⟨0xC1044, 8, 0x100, 4, 0x10, [⟨30, 16, .rw, (.val 1)⟩, ⟨13, 0, .rw, (.val 0)⟩]⟩,
  /- CAM_C_OUT_LINES -/ ⟨0xC1048, 8, 0x100, 4, 0x10, [⟨31, 16, .rw, (.val 0)⟩, ⟨15, 0, .rw, (.val 0)⟩]⟩,
  /- CAM_C_OUT_GOLD -/ ⟨0xC104C, 8, 0x100, 4, 0x10, [⟨28, 16, .rw, (.val 1)⟩, ⟨11, 0, .rw, (.val 0)⟩]⟩]

/-- CAM block, R379 (spec/14_closure.md). -/
def rowsCAM2 : List RegRow := [
  /- CAM_CLS_CFG -/ ⟨0xD0000, 1, 0x0, 1, 0x0, [⟨31, 31, .rw, (.val 0)⟩, ⟨30, 30, .rw, (.val 0)⟩, ⟨29, 29, .rw, (.val 1)⟩, ⟨28, 28, .rw, (.val 1)⟩, ⟨26, 24, .rw, (.val 0)⟩, ⟨23, 16, .rw, (.val 1)⟩, ⟨13, 8, .rw, (.val 0)⟩]⟩,
  /- CAM_CLS_STATUS -/ ⟨0xD0004, 1, 0x0, 1, 0x0, [⟨29, 28, .ro, (.val 0)⟩]⟩,
  /- CAM_CLS_STRIP -/ ⟨0xD0008, 1, 0x0, 1, 0x0, [⟨31, 0, .rw, (.val 0)⟩]⟩,
  /- CAM_CLS_STRIP_OFFSET -/ ⟨0xD000C, 1, 0x0, 1, 0x0, [⟨31, 0, .rw, (.val 0)⟩]⟩,
  /- CAM_CLS_ROW -/ ⟨0xD0010, 1, 0x0, 1, 0x0, [⟨31, 24, .rw, (.val 8)⟩, ⟨23, 16, .rw, (.val 0)⟩, ⟨15, 12, .rw, (.val 4)⟩, ⟨11, 0, .rw, (.val 64)⟩]⟩,
  /- CAM_CLS_GROUPS -/ ⟨0xD0014, 1, 0x0, 1, 0x0, [⟨30, 16, .rw, (.val 0x7FFF)⟩, ⟨14, 0, .rw, (.val 0)⟩]⟩,
  /- CAM_CLS_LOOP -/ ⟨0xD0018, 1, 0x0, 1, 0x0, [⟨31, 28, .rw, (.val 1)⟩, ⟨27, 26, .rw, (.val 0)⟩, ⟨23, 16, .rw, (.val 100)⟩, ⟨15, 8, .rw, (.val 30)⟩, ⟨7, 0, .rw, (.val 128)⟩]⟩,
  /- CAM_CLS_LAG -/ ⟨0xD001C, 1, 0x0, 1, 0x0, [⟨31, 0, .rw, (.val 0x01000000)⟩]⟩,
  /- CAM_CLS_STREAK -/ ⟨0xD0020, 1, 0x0, 1, 0x0, [⟨31, 24, .rw, (.val 64)⟩, ⟨23, 16, .rw, (.val 20)⟩, ⟨7, 0, .rw, (.val 150)⟩]⟩,
  /- CAM_CLS_OVR -/ ⟨0xD0024, 1, 0x0, 1, 0x0, [⟨31, 30, .wo, (.val 0)⟩, ⟨23, 20, .rw, (.val 0)⟩, ⟨19, 0, .rw, (.val 0)⟩]⟩,
  /- CAM_CLS_OVR_STATUS -/ ⟨0xD0028, 1, 0x0, 1, 0x0, [⟨31, 31, .ro, (.val 0)⟩, ⟨30, 28, .ro, (.val 0)⟩, ⟨8, 0, .ro, (.val 0)⟩]⟩,
  /- CAM_CLS_BENCH -/ ⟨0xD002C, 1, 0x0, 1, 0x0, [⟨31, 31, .w1s, (.val 0)⟩, ⟨30, 30, .w1s, (.val 0)⟩, ⟨23, 20, .rw, (.val 4)⟩, ⟨15, 8, .rw, (.val 16)⟩, ⟨1, 0, .rw, (.val 3)⟩]⟩,
  /- CAM_CLS_STRIPS -/ ⟨0xD0030, 1, 0x0, 1, 0x0, [⟨31, 0, .ro, (.val 0)⟩]⟩,
  /- CAM_CLS_UPDATES -/ ⟨0xD0034, 1, 0x0, 1, 0x0, [⟨31, 0, .ro, (.val 0)⟩]⟩,
  /- CAM_CLS_REJECTED -/ ⟨0xD0038, 1, 0x0, 1, 0x0, [⟨31, 0, .ro, (.val 0)⟩]⟩,
  /- CAM_CLS_WAITED -/ ⟨0xD003C, 1, 0x0, 1, 0x0, [⟨31, 0, .ro, (.val 0)⟩]⟩,
  /- CAM_CLS_LOG_PTR -/ ⟨0xD0040, 1, 0x0, 1, 0x0, [⟨7, 0, .ro, (.val 0)⟩]⟩,
  /- CAM_CLS_C_BASE_LO -/ ⟨0xD0100, 8, 0x10, 1, 0x0, [⟨31, 0, .rw, (.val 0)⟩]⟩,
  /- CAM_CLS_C_BASE_HI -/ ⟨0xD0104, 8, 0x10, 1, 0x0, [⟨31, 0, .rw, (.val 0)⟩]⟩,
  /- CAM_CLS_C_K -/ ⟨0xD0108, 8, 0x10, 1, 0x0, [⟨31, 0, .rw, (.val 0x10000)⟩]⟩,
  /- CAM_CLS_P_CFG -/ ⟨0xD0200, 10, 0x20, 1, 0x0, [⟨31, 31, .rw, (.val 1)⟩, ⟨1, 0, .rw, (.val 0)⟩]⟩,
  /- CAM_CLS_P_TINT_A -/ ⟨0xD0204, 10, 0x20, 1, 0x0, [⟨31, 16, .rw, (.val 0x8000)⟩, ⟨15, 0, .rw, (.val 0x8000)⟩]⟩,
  /- CAM_CLS_P_TINT_B -/ ⟨0xD0208, 10, 0x20, 1, 0x0, [⟨31, 16, .rw, (.val 0x8000)⟩, ⟨15, 0, .rw, (.val 0x8000)⟩]⟩,
  /- CAM_CLS_P_TGT_A -/ ⟨0xD020C, 10, 0x20, 1, 0x0, [⟨31, 16, .rw, (.val 0)⟩, ⟨15, 0, .rw, (.val 0)⟩]⟩,
  /- CAM_CLS_P_TGT_B -/ ⟨0xD0210, 10, 0x20, 1, 0x0, [⟨31, 16, .rw, (.val 0)⟩, ⟨15, 0, .rw, (.val 0)⟩]⟩,
  /- CAM_CLS_P_ERR -/ ⟨0xD0214, 10, 0x20, 1, 0x0, [⟨15, 0, .ro, (.val 0)⟩]⟩,
  /- CAM_CLS_P_ERR_MAX -/ ⟨0xD0218, 10, 0x20, 1, 0x0, [⟨15, 0, .ro, (.val 0)⟩]⟩,
  /- CAM_CLS_P_ND -/ ⟨0xD021C, 10, 0x20, 1, 0x0, [⟨15, 0, .ro, (.val 0)⟩]⟩,
  /- CAM_CLS_LOG_A -/ ⟨0xD1000, 256, 0x8, 1, 0x0, [⟨31, 28, .ro, (.val 0)⟩, ⟨27, 24, .ro, (.val 0)⟩, ⟨19, 0, .ro, (.val 0)⟩]⟩,
  /- CAM_CLS_LOG_B -/ ⟨0xD1004, 256, 0x8, 1, 0x0, [⟨31, 0, .ro, (.val 0)⟩]⟩]

/-- DRM block, R399 (spec/15_dram.md). -/
def rowsDRM : List RegRow := [
  /- DRM_CFG -/ ⟨0xE0000, 1, 0x0, 1, 0x0, [⟨0, 0, .rws, (.val 0)⟩]⟩,
  /- DRM_STATUS -/ ⟨0xE0004, 1, 0x0, 1, 0x0, [⟨31, 28, .ro, (.val 0)⟩, ⟨14, 12, .ro, (.val 0)⟩, ⟨7, 0, .ro, (.val 0)⟩]⟩,
  /- DRM_REGION -/ ⟨0xE0008, 1, 0x0, 1, 0x0, [⟨13, 8, .rws, (.val 8)⟩, ⟨6, 0, .rws, (.val 16)⟩]⟩,
  /- DRM_MAP -/ ⟨0xE000C, 1, 0x0, 1, 0x0, [⟨22, 16, .ro, (.val 0)⟩, ⟨14, 8, .ro, (.val 0)⟩, ⟨6, 0, .ro, (.val 0)⟩]⟩,
  /- DRM_LOAD -/ ⟨0xE0010, 1, 0x0, 1, 0x0, [⟨15, 8, .ro, (.val 0)⟩, ⟨7, 0, .ro, (.val 0)⟩]⟩,
  /- DRM_FWD -/ ⟨0xE0014, 1, 0x0, 1, 0x0, [⟨31, 0, .ro, (.val 0)⟩]⟩,
  /- DRM_CHECK_CNT -/ ⟨0xE0018, 1, 0x0, 1, 0x0, [⟨31, 0, .ro, (.val 0)⟩]⟩,
  /- DRM_P0_CFG -/ ⟨0xE0100, 1, 0x0, 1, 0x0, [⟨31, 16, .rw, (.val 0)⟩, ⟨15, 8, .rw, (.val 24)⟩, ⟨7, 0, .rw, (.val 16)⟩]⟩,
  /- DRM_P12_CFG -/ ⟨0xE0120, 2, 0x20, 1, 0x0, [⟨31, 16, .rw, (.val 0)⟩, ⟨15, 8, .rw, (.val 50)⟩, ⟨7, 0, .rw, (.val 75)⟩]⟩,
  /- DRM_PB_CFG -/ ⟨0xE0160, 9, 0x20, 1, 0x0, [⟨31, 16, .rw, (.val 0)⟩]⟩,
  /- DRM_P_BYTES_LO -/ ⟨0xE0104, 12, 0x20, 1, 0x0, [⟨31, 0, .ro, (.val 0)⟩]⟩,
  /- DRM_P_BYTES_HI -/ ⟨0xE0108, 12, 0x20, 1, 0x0, [⟨31, 0, .ro, (.val 0)⟩]⟩,
  /- DRM_P_LAT_MAX -/ ⟨0xE010C, 12, 0x20, 1, 0x0, [⟨15, 0, .ro, (.val 0)⟩]⟩,
  /- DRM_P_PANIC_TIME -/ ⟨0xE0110, 12, 0x20, 1, 0x0, [⟨31, 0, .ro, (.val 0)⟩]⟩,
  /- DRM_P_MISS -/ ⟨0xE0114, 12, 0x20, 1, 0x0, [⟨31, 0, .ro, (.val 0)⟩]⟩,
  /- DRM_CH_REF -/ ⟨0xE0400, 16, 0x20, 1, 0x0, [⟨3, 0, .ro, (.val 0)⟩]⟩,
  /- DRM_CH_FORCED -/ ⟨0xE0404, 16, 0x20, 1, 0x0, [⟨31, 0, .ro, (.val 0)⟩]⟩,
  /- DRM_CH_DLY_CA -/ ⟨0xE0408, 16, 0x20, 1, 0x0, [⟨31, 24, .rwlFactory, .fuse⟩, ⟨23, 16, .rwlFactory, .fuse⟩, ⟨15, 8, .rwlFactory, .fuse⟩, ⟨7, 0, .rwlFactory, .fuse⟩]⟩,
  /- DRM_CH_DLY_RD -/ ⟨0xE040C, 16, 0x20, 1, 0x0, [⟨31, 24, .rwlFactory, .fuse⟩, ⟨23, 16, .rwlFactory, .fuse⟩, ⟨15, 8, .rwlFactory, .fuse⟩, ⟨7, 0, .rwlFactory, .fuse⟩]⟩,
  /- DRM_CH_DLY_WR -/ ⟨0xE0410, 16, 0x20, 1, 0x0, [⟨31, 24, .rwlFactory, .fuse⟩, ⟨23, 16, .rwlFactory, .fuse⟩, ⟨15, 8, .rwlFactory, .fuse⟩, ⟨7, 0, .rwlFactory, .fuse⟩]⟩]

/-- CHK block, R336 (spec/12_skovex.md). -/
def rowsCHK : List RegRow := [
  /- CHK_CTRL -/ ⟨0xF0000, 1, 0x0, 1, 0x0, [⟨0, 0, .w1s, (.val 0)⟩]⟩,
  /- CHK_STATUS -/ ⟨0xF0004, 1, 0x0, 1, 0x0, [⟨31, 31, .ro, (.val 0)⟩, ⟨23, 0, .ro, (.val 0)⟩]⟩,
  /- CHK_U_PARAM -/ ⟨0xF0100, 24, 0x20, 1, 0x0, [⟨31, 24, .ro, (.val 32)⟩, ⟨1, 1, .ro, (.val 1)⟩, ⟨0, 0, .ro, (.val 1)⟩]⟩,
  /- CHK_U_POLY -/ ⟨0xF0104, 24, 0x20, 1, 0x0, [⟨31, 0, .ro, (.val 0x1EDC6F41)⟩]⟩,
  /- CHK_U_INIT -/ ⟨0xF0108, 24, 0x20, 1, 0x0, [⟨31, 0, .ro, (.val 0xFFFFFFFF)⟩]⟩,
  /- CHK_U_XOROUT -/ ⟨0xF010C, 24, 0x20, 1, 0x0, [⟨31, 0, .ro, (.val 0xFFFFFFFF)⟩]⟩,
  /- CHK_U_COUNT -/ ⟨0xF0110, 24, 0x20, 1, 0x0, [⟨31, 0, .ro, (.val 0)⟩]⟩,
  /- CHK_U_MISMATCH -/ ⟨0xF0114, 24, 0x20, 1, 0x0, [⟨31, 0, .ro, (.val 0)⟩]⟩]

/-- MOT block, R457 (spec/17_motion.md). -/
def rowsMOT : List RegRow := [
  /- MOT_CFG -/ ⟨0x100000, 1, 0x0, 1, 0x0, [⟨27, 16, .rw, (.val 0)⟩, ⟨7, 0, .rws, (.val 40)⟩]⟩,
  /- MOT_STATUS -/ ⟨0x100004, 1, 0x0, 1, 0x0, [⟨27, 16, .ro, (.val 0)⟩, ⟨11, 0, .ro, (.val 0)⟩]⟩,
  /- MOT_A_CFG -/ ⟨0x100100, 12, 0x100, 1, 0x0, [⟨31, 31, .rw, (.val 0)⟩, ⟨27, 26, .rw, (.val 0)⟩, ⟨25, 25, .rws, (.val 0)⟩, ⟨24, 24, .rw, (.val 0)⟩, ⟨23, 22, .rw, (.val 0)⟩, ⟨15, 0, .rw, (.val 1024)⟩]⟩,
  /- MOT_A_CMD -/ ⟨0x100104, 12, 0x100, 1, 0x0, [⟨31, 31, .ro, (.val 0)⟩, ⟨30, 28, .ro, (.val 0)⟩, ⟨16, 16, .rw, (.val 0)⟩, ⟨11, 8, .rw, (.val 0)⟩, ⟨3, 0, .wo, (.val 0)⟩]⟩,
  /- MOT_A_STATUS -/ ⟨0x100108, 12, 0x100, 1, 0x0, [⟨31, 28, .ro, (.val 0)⟩, ⟨27, 27, .ro, (.val 0)⟩, ⟨26, 26, .ro, (.val 0)⟩, ⟨25, 25, .ro, (.val 0)⟩, ⟨24, 24, .ro, (.val 0)⟩, ⟨23, 20, .ro, (.val 0)⟩, ⟨7, 0, .ro, (.val 0)⟩]⟩,
  /- MOT_A_POS -/ ⟨0x10010C, 12, 0x100, 1, 0x0, [⟨31, 0, .ro, (.val 0)⟩]⟩,
  /- MOT_A_VEL -/ ⟨0x100110, 12, 0x100, 1, 0x0, [⟨31, 0, .ro, (.val 0)⟩]⟩,
  /- MOT_A_STG_TARGET -/ ⟨0x100114, 12, 0x100, 1, 0x0, [⟨31, 0, .rw, (.val 0)⟩]⟩,
  /- MOT_A_STG_VMAX -/ ⟨0x100118, 12, 0x100, 1, 0x0, [⟨18, 0, .rw, (.val 100000)⟩]⟩,
  /- MOT_A_STG_AMAX -/ ⟨0x10011C, 12, 0x100, 1, 0x0, [⟨31, 0, .rw, (.val 10000000)⟩]⟩,
  /- MOT_A_STG_DMAX -/ ⟨0x100120, 12, 0x100, 1, 0x0, [⟨31, 0, .rw, (.val 10000000)⟩]⟩,
  /- MOT_A_STG_JMAX -/ ⟨0x100124, 12, 0x100, 1, 0x0, [⟨31, 0, .rw, (.val 1000000)⟩]⟩,
  /- MOT_A_STG_CFG -/ ⟨0x100128, 12, 0x100, 1, 0x0, [⟨31, 31, .rw, (.val 0)⟩, ⟨30, 30, .rw, (.val 0)⟩, ⟨29, 28, .rw, (.val 0)⟩]⟩,
  /- MOT_A_CUR -/ ⟨0x10012C, 12, 0x100, 1, 0x0, [⟨31, 16, .rw, (.val 0)⟩, ⟨15, 0, .rw, (.val 0)⟩]⟩,
  /- MOT_A_CEIL -/ ⟨0x100130, 12, 0x100, 1, 0x0, [⟨31, 16, .rwlCeilings, .motCeil⟩, ⟨15, 0, .rws, (.val 0)⟩]⟩,
  /- MOT_A_SENSE -/ ⟨0x100134, 12, 0x100, 1, 0x0, [⟨31, 16, .rws, (.val 4000)⟩, ⟨3, 0, .rw, (.val 2)⟩]⟩,
  /- MOT_A_DRIVE -/ ⟨0x100138, 12, 0x100, 1, 0x0, [⟨31, 16, .rw, (.val 1000)⟩, ⟨15, 0, .rw, (.val 0)⟩]⟩,
  /- MOT_A_CHOP -/ ⟨0x10013C, 12, 0x100, 1, 0x0, [⟨15, 0, .rw, (.val 100)⟩]⟩,
  /- MOT_A_GEAR_RATIO -/ ⟨0x100140, 12, 0x100, 1, 0x0, [⟨31, 0, .rw, (.val 0)⟩]⟩,
  /- MOT_A_WIN_LO -/ ⟨0x100144, 12, 0x100, 1, 0x0, [⟨31, 0, .rw, (.val 0)⟩]⟩,
  /- MOT_A_WIN_HI -/ ⟨0x100148, 12, 0x100, 1, 0x0, [⟨31, 0, .rw, (.val 0)⟩]⟩,
  /- MOT_A_WIN_PLANES -/ ⟨0x10014C, 12, 0x100, 1, 0x0, [⟨9, 0, .rws, (.val 0)⟩]⟩,
  /- MOT_A_HOME_POS -/ ⟨0x100150, 12, 0x100, 1, 0x0, [⟨31, 0, .rw, (.val 0)⟩]⟩,
  /- MOT_A_HOME_CFG -/ ⟨0x100154, 12, 0x100, 1, 0x0, [⟨31, 31, .rw, (.val 0)⟩, ⟨18, 0, .rw, (.val 20000)⟩]⟩,
  /- MOT_A_HOME_CUR -/ ⟨0x100158, 12, 0x100, 1, 0x0, [⟨15, 0, .rw, (.val 0)⟩]⟩,
  /- MOT_A_CUR_NOW -/ ⟨0x10015C, 12, 0x100, 1, 0x0, [⟨31, 16, .ro, (.val 0)⟩, ⟨15, 0, .ro, (.val 0)⟩]⟩,
  /- MOT_A_STALLS -/ ⟨0x100160, 12, 0x100, 1, 0x0, [⟨31, 0, .ro, (.val 0)⟩]⟩,
  /- MOT_A_OVERSHOOTS -/ ⟨0x100164, 12, 0x100, 1, 0x0, [⟨31, 0, .ro, (.val 0)⟩]⟩,
  /- MOT_A_REVERSALS -/ ⟨0x100168, 12, 0x100, 1, 0x0, [⟨31, 0, .ro, (.val 0)⟩]⟩,
  /- MOT_A_CMP_VAL -/ ⟨0x100180, 12, 0x100, 2, 0x10, [⟨31, 0, .rw, (.val 0)⟩]⟩,
  /- MOT_A_CMP_CFG -/ ⟨0x100184, 12, 0x100, 2, 0x10, [⟨31, 31, .w1s, (.val 0)⟩, ⟨30, 28, .ro, (.val 0)⟩, ⟨27, 27, .w1s, (.val 0)⟩, ⟨26, 26, .rw, (.val 0)⟩, ⟨25, 25, .rw, (.val 0)⟩, ⟨23, 16, .rw, (.val 0)⟩, ⟨3, 0, .rw, (.val 0)⟩]⟩,
  /- MOT_A_CMP_ARG -/ ⟨0x100188, 12, 0x100, 2, 0x10, [⟨31, 0, .rw, (.val 0)⟩]⟩,
  /- MOT_A_CMP_ACT -/ ⟨0x10018C, 12, 0x100, 2, 0x10, [⟨31, 0, .ro, (.val 0)⟩]⟩,
  /- MOT_PRE_TARGET -/ ⟨0x102000, 12, 0x200, 16, 0x20, [⟨31, 0, .rw, (.val 0)⟩]⟩,
  /- MOT_PRE_VMAX -/ ⟨0x102004, 12, 0x200, 16, 0x20, [⟨18, 0, .rw, (.val 100000)⟩]⟩,
  /- MOT_PRE_AMAX -/ ⟨0x102008, 12, 0x200, 16, 0x20, [⟨31, 0, .rw, (.val 10000000)⟩]⟩,
  /- MOT_PRE_DMAX -/ ⟨0x10200C, 12, 0x200, 16, 0x20, [⟨31, 0, .rw, (.val 10000000)⟩]⟩,
  /- MOT_PRE_JMAX -/ ⟨0x102010, 12, 0x200, 16, 0x20, [⟨31, 0, .rw, (.val 1000000)⟩]⟩,
  /- MOT_PRE_CFG -/ ⟨0x102014, 12, 0x200, 16, 0x20, [⟨31, 31, .rw, (.val 0)⟩, ⟨30, 30, .rw, (.val 0)⟩, ⟨29, 28, .rw, (.val 0)⟩]⟩]

/-- THM block, R475 (spec/18_power_thermal_cal.md). -/
def rowsTHM : List RegRow := [
  /- THM_STATUS -/ ⟨0x110000, 1, 0x0, 1, 0x0, [⟨31, 28, .ro, (.val 0)⟩, ⟨20, 0, .ro, (.val 0)⟩]⟩,
  /- THM_MAX -/ ⟨0x110004, 1, 0x0, 1, 0x0, [⟨29, 24, .ro, (.val 0)⟩, ⟨15, 0, .ro, (.val 0)⟩]⟩,
  /- THM_MASK -/ ⟨0x110008, 1, 0x0, 1, 0x0, [⟨20, 0, .rwlFactory, (.val 0)⟩]⟩,
  /- THM_LANE_BAND -/ ⟨0x11000C, 1, 0x0, 1, 0x0, [⟨5, 4, .ro, (.val 0)⟩, ⟨3, 2, .ro, (.val 0)⟩, ⟨1, 0, .ro, (.val 0)⟩]⟩,
  /- THM_LAST -/ ⟨0x110010, 1, 0x0, 1, 0x0, [⟨31, 30, .ro, (.val 0)⟩, ⟨29, 24, .ro, (.val 0)⟩, ⟨15, 0, .ro, (.val 0)⟩]⟩,
  /- THM_CH -/ ⟨0x110100, 32, 0x4, 1, 0x0, [⟨31, 31, .ro, (.val 0)⟩, ⟨15, 0, .ro, (.val 0)⟩]⟩]

/-- CAL block, R476 (spec/18_power_thermal_cal.md). -/
def rowsCAL : List RegRow := [
  /- CAL_REQ -/ ⟨0x120000, 1, 0x0, 1, 0x0, [⟨31, 31, .w1s, (.val 0)⟩, ⟨19, 16, .rw, (.val 0)⟩, ⟨5, 0, .rw, (.val 0)⟩]⟩,
  /- CAL_STATUS -/ ⟨0x120004, 1, 0x0, 1, 0x0, [⟨31, 31, .ro, (.val 0)⟩, ⟨30, 28, .ro, (.val 0)⟩, ⟨27, 24, .ro, (.val 0)⟩, ⟨23, 18, .ro, (.val 0)⟩, ⟨15, 0, .ro, (.val 0)⟩]⟩,
  /- CAL_ENC_IN -/ ⟨0x120100, 5, 0x8, 2, 0x4, [⟨18, 16, .rws, .fuse⟩, ⟨15, 8, .rws, .fuse⟩, ⟨7, 0, .rws, .fuse⟩]⟩,
  /- CAL_SNS_COIL -/ ⟨0x120200, 12, 0x8, 2, 0x4, [⟨21, 16, .rws, .fuse⟩, ⟨7, 0, .rws, .fuse⟩]⟩,
  /- CAL_XCVR -/ ⟨0x120400, 52, 0x4, 1, 0x0, [⟨27, 16, .rws, .fuse⟩, ⟨11, 0, .rws, .fuse⟩]⟩,
  /- CAL_THM -/ ⟨0x120600, 16, 0x4, 1, 0x0, [⟨8, 8, .rws, .fuse⟩, ⟨5, 0, .rws, .fuse⟩]⟩]

/-- PTN block, R433 (spec/16_redundancy.md). -/
def rowsPTN : List RegRow := [
  /- PTN_CFG -/ ⟨0x130000, 1, 0x0, 1, 0x0, [⟨31, 31, .rws, (.val 1)⟩, ⟨30, 30, .rw, (.val 1)⟩, ⟨29, 29, .rws, (.val 0)⟩, ⟨28, 28, .rws, (.val 1)⟩, ⟨27, 27, .rw, (.val 0)⟩, ⟨26, 26, .rw, (.val 0)⟩, ⟨19, 16, .rws, (.val 0)⟩, ⟨15, 0, .rw, (.val 60)⟩]⟩,
  /- PTN_STATUS -/ ⟨0x130004, 1, 0x0, 1, 0x0, [⟨31, 29, .ro, (.val 0)⟩, ⟨28, 27, .ro, (.val 0)⟩, ⟨26, 25, .ro, (.val 0)⟩, ⟨24, 24, .ro, (.val 0)⟩, ⟨23, 23, .ro, (.val 0)⟩, ⟨22, 22, .ro, (.val 0)⟩, ⟨21, 21, .ro, (.val 0)⟩, ⟨20, 20, .ro, (.val 0)⟩, ⟨13, 8, .ro, (.val 0)⟩, ⟨5, 0, .ro, (.val 0)⟩]⟩,
  /- PTN_CTRL -/ ⟨0x130008, 1, 0x0, 1, 0x0, [⟨1, 1, .w1s, (.val 0)⟩, ⟨0, 0, .w1s, (.val 0)⟩]⟩,
  /- PTN_PARTNER_ID_LO -/ ⟨0x13000C, 1, 0x0, 1, 0x0, [⟨31, 0, .ro, (.val 0)⟩]⟩,
  /- PTN_PARTNER_ID_HI -/ ⟨0x130010, 1, 0x0, 1, 0x0, [⟨31, 0, .ro, (.val 0)⟩]⟩,
  /- PTN_SYNC -/ ⟨0x130014, 1, 0x0, 1, 0x0, [⟨7, 0, .ro, (.val 0)⟩]⟩,
  /- PTN_LAG -/ ⟨0x130018, 1, 0x0, 1, 0x0, [⟨31, 0, .ro, (.val 0)⟩]⟩,
  /- PTN_CHN_DEV -/ ⟨0x13001C, 1, 0x0, 1, 0x0, [⟨31, 0, .ro, (.val 0)⟩]⟩,
  /- PTN_SEQ -/ ⟨0x130020, 1, 0x0, 1, 0x0, [⟨31, 0, .ro, (.val 0)⟩]⟩,
  /- PTN_CLAIM -/ ⟨0x130024, 1, 0x0, 1, 0x0, [⟨31, 0, .ro, (.val 0)⟩]⟩,
  /- PTN_HELD_LO -/ ⟨0x130028, 1, 0x0, 1, 0x0, [⟨31, 0, .ro, (.val 0)⟩]⟩,
  /- PTN_HELD_HI -/ ⟨0x13002C, 1, 0x0, 1, 0x0, [⟨7, 0, .ro, (.val 0)⟩]⟩,
  /- PTN_TAKEOVER_US -/ ⟨0x130030, 1, 0x0, 1, 0x0, [⟨31, 0, .ro, (.val 0)⟩]⟩,
  /- PTN_UNMIRRORED -/ ⟨0x130034, 1, 0x0, 1, 0x0, [⟨31, 0, .ro, (.val 0)⟩]⟩,
  /- PTN_ECHO_BAD -/ ⟨0x130038, 1, 0x0, 1, 0x0, [⟨31, 0, .ro, (.val 0)⟩]⟩,
  /- PTN_PROOF_CMP -/ ⟨0x13003C, 1, 0x0, 1, 0x0, [⟨31, 0, .ro, (.val 0)⟩]⟩,
  /- PTN_PROOF_MISMATCH -/ ⟨0x130040, 1, 0x0, 1, 0x0, [⟨31, 0, .ro, (.val 0)⟩]⟩,
  /- PTN_LAST -/ ⟨0x130100, 12, 0x4, 1, 0x0, [⟨31, 16, .ro, (.val 0)⟩, ⟨15, 0, .ro, (.val 0)⟩]⟩,
  /- PTN_L_STATUS -/ ⟨0x130200, 2, 0x10, 1, 0x0, [⟨31, 28, .ro, (.val 0)⟩, ⟨15, 8, .ro, (.val 0)⟩, ⟨7, 0, .ro, (.val 0)⟩]⟩]

/-- PWR block, R474 (spec/18_power_thermal_cal.md). -/
def rowsPWR : List RegRow := [
  /- PWR_STATUS -/ ⟨0x140000, 1, 0x0, 1, 0x0, [⟨31, 31, .ro, (.val 0)⟩, ⟨30, 30, .ro, (.val 0)⟩, ⟨11, 8, .ro, (.val 0)⟩, ⟨3, 3, .ro, (.val 0)⟩, ⟨2, 2, .ro, (.val 0)⟩, ⟨0, 0, .ro, (.val 0)⟩]⟩,
  /- PWR_CFG -/ ⟨0x140004, 1, 0x0, 1, 0x0, [⟨31, 16, .rws, (.val 12000)⟩, ⟨15, 0, .rw, (.val 100)⟩]⟩,
  /- PWR_VMAIN -/ ⟨0x140008, 1, 0x0, 1, 0x0, [⟨15, 0, .ro, (.val 0)⟩]⟩,
  /- PWR_VBACK -/ ⟨0x14000C, 1, 0x0, 1, 0x0, [⟨15, 0, .ro, (.val 0)⟩]⟩,
  /- PWR_IMAIN -/ ⟨0x140010, 1, 0x0, 1, 0x0, [⟨15, 0, .ro, (.val 0)⟩]⟩,
  /- PWR_IBACK -/ ⟨0x140014, 1, 0x0, 1, 0x0, [⟨15, 0, .ro, (.val 0)⟩]⟩,
  /- PWR_PIN -/ ⟨0x140018, 1, 0x0, 1, 0x0, [⟨15, 0, .ro, (.val 0)⟩]⟩,
  /- PWR_VMOT -/ ⟨0x14001C, 1, 0x0, 1, 0x0, [⟨15, 0, .ro, (.val 0)⟩]⟩,
  /- PWR_HOLDUP -/ ⟨0x140020, 1, 0x0, 1, 0x0, [⟨15, 0, .ro, (.val 0)⟩]⟩,
  /- PWR_SWITCH_CNT -/ ⟨0x140024, 1, 0x0, 1, 0x0, [⟨31, 0, .ro, (.val 0)⟩]⟩,
  /- PWR_LAST_FAIL -/ ⟨0x140028, 1, 0x0, 1, 0x0, [⟨31, 30, .ro, (.val 0)⟩, ⟨15, 0, .ro, (.val 0)⟩]⟩]

/-- SEC block, R508 (spec/20_modes_boot_lock.md). -/
def rowsSEC : List RegRow := [
  /- SEC_STATUS -/ ⟨0x150000, 1, 0x0, 1, 0x0, [⟨31, 16, .ro, (.val 0)⟩, ⟨14, 12, .ro, (.val 0)⟩, ⟨11, 8, .ro, (.val 0)⟩, ⟨4, 0, .ro, (.val 0)⟩]⟩,
  /- SEC_CTRL -/ ⟨0x150004, 1, 0x0, 1, 0x0, [⟨12, 8, .rw, (.val 0)⟩, ⟨2, 2, .w1s, (.val 0)⟩, ⟨1, 1, .w1s, (.val 0)⟩, ⟨0, 0, .w1s, (.val 0)⟩]⟩,
  /- SEC_NONCE -/ ⟨0x150010, 4, 0x4, 1, 0x0, [⟨31, 0, .ro, (.val 0)⟩]⟩,
  /- SEC_RESP -/ ⟨0x150020, 8, 0x4, 1, 0x0, [⟨31, 0, .wo, (.val 0)⟩]⟩,
  /- SEC_FW -/ ⟨0x150040, 1, 0x0, 1, 0x0, [⟨31, 31, .w1s, (.val 0)⟩, ⟨30, 24, .ro, (.val 0)⟩, ⟨23, 23, .ro, (.val 0)⟩, ⟨22, 22, .ro, (.val 0)⟩, ⟨21, 21, .ro, (.val 0)⟩, ⟨20, 18, .ro, (.val 0)⟩, ⟨17, 15, .ro, (.val 0)⟩]⟩,
  /- SEC_FW_VER_A -/ ⟨0x150044, 1, 0x0, 1, 0x0, [⟨31, 0, .ro, (.val 0)⟩]⟩,
  /- SEC_FW_VER_B -/ ⟨0x150048, 1, 0x0, 1, 0x0, [⟨31, 0, .ro, (.val 0)⟩]⟩,
  /- SEC_KEY_CTRL -/ ⟨0x150050, 1, 0x0, 1, 0x0, [⟨11, 8, .ro, (.val 0)⟩, ⟨3, 3, .w1s, (.val 0)⟩, ⟨2, 2, .w1s, (.val 0)⟩, ⟨1, 0, .rw, (.val 0)⟩]⟩,
  /- SEC_KEY_DATA -/ ⟨0x150060, 8, 0x4, 1, 0x0, [⟨31, 0, .wo, (.val 0)⟩]⟩,
  /- SEC_KEY_KCV -/ ⟨0x150080, 4, 0x4, 1, 0x0, [⟨31, 0, .ro, (.val 0)⟩]⟩,
  /- SEC_XFER_ADDR_LO -/ ⟨0x150100, 1, 0x0, 1, 0x0, [⟨31, 6, .rw, (.val 0)⟩]⟩,
  /- SEC_XFER_ADDR_HI -/ ⟨0x150104, 1, 0x0, 1, 0x0, [⟨31, 0, .rw, (.val 0)⟩]⟩,
  /- SEC_XFER_LEN -/ ⟨0x150108, 1, 0x0, 1, 0x0, [⟨31, 0, .rw, (.val 0)⟩]⟩,
  /- SEC_XFER -/ ⟨0x15010C, 1, 0x0, 1, 0x0, [⟨31, 31, .ro, (.val 0)⟩, ⟨30, 28, .ro, (.val 0)⟩, ⟨2, 0, .wo, (.val 0)⟩]⟩,
  /- SEC_XFER_DONE -/ ⟨0x150110, 1, 0x0, 1, 0x0, [⟨31, 0, .ro, (.val 0)⟩]⟩]

/-- EVT block, R149 (spec/05_host_rings.md). -/
def rowsEVT : List RegRow := [
  /- EVT_CFG -/ ⟨0x160000, 1, 0x0, 1, 0x0, [⟨0, 0, .rw, (.val 1)⟩]⟩,
  /- EVT_SEQ -/ ⟨0x160004, 1, 0x0, 1, 0x0, [⟨31, 0, .ro, (.val 0)⟩]⟩,
  /- EVT_VEC_CFG -/ ⟨0x160100, 32, 0x4, 1, 0x0, [⟨23, 16, .rw, (.val 1)⟩, ⟨15, 0, .rw, (.val 0)⟩]⟩,
  /- EVT_CODE -/ ⟨0x160400, 256, 0x4, 1, 0x0, [⟨8, 8, .rw, (.val 0)⟩, ⟨4, 0, .rw, (.val 0)⟩]⟩,
  /- EVT_CNT -/ ⟨0x160800, 256, 0x4, 1, 0x0, [⟨31, 0, .ro, (.val 0)⟩]⟩]

/-- The rows of the block a BAR0 offset falls in (64 KB blocks, SKX and CAM 128 KB: R13). -/
def blockRows (off : Nat) : List RegRow :=
  match off / 0x10000 with
  | 0 => rowsGLB
  | 1 => rowsHST
  | 2 => rowsCHN
  | 3 => rowsSTN
  | 4 => rowsDTM
  | 5 => rowsETH
  | 6 => rowsTRV ++ rowsTRV2
  | 7 => rowsCMP
  | 8 => rowsVGP
  | 9 => rowsFGD ++ rowsFGD2
  | 10 => rowsSKX
  | 11 => rowsSKX
  | 12 => rowsCAM ++ rowsCAM2
  | 13 => rowsCAM ++ rowsCAM2
  | 14 => rowsDRM
  | 15 => rowsCHK
  | 16 => rowsMOT
  | 17 => rowsTHM
  | 18 => rowsCAL
  | 19 => rowsPTN
  | 20 => rowsPWR
  | 21 => rowsSEC
  | 22 => rowsEVT
  | _ => []

/-- The _LO registers that form a 64-bit value with the _HI register four bytes on (R11): offset and arrays,
with whether software writes the pair. -/
def pairRows : List (Nat × Nat × Nat × Nat × Nat × Bool) := [
  /- GLB_ID_LO -/ (0x0, 1, 0x0, 1, 0x0, false),
  /- HST_WIN_BASE_LO -/ (0x10400, 16, 0x20, 1, 0x0, true),
  /- HST_WIN_LIMIT_LO -/ (0x10408, 16, 0x20, 1, 0x0, true),
  /- HST_RING_BASE_LO -/ (0x11000, 64, 0x20, 1, 0x0, true),
  /- HST_MSIX_ADDR_LO -/ (0x18000, 32, 0x10, 1, 0x0, true),
  /- CHN_PRESET_LO -/ (0x20010, 1, 0x0, 1, 0x0, true),
  /- CHN_NOW_LO -/ (0x20018, 1, 0x0, 1, 0x0, false),
  /- CHN_VOTED_LO -/ (0x20020, 1, 0x0, 1, 0x0, false),
  /- CHN_SCALE_LO -/ (0x20104, 5, 0x100, 1, 0x0, true),
  /- CHN_POS_LO -/ (0x2012C, 5, 0x100, 1, 0x0, false),
  /- CHN_PRB_STAKE_CHN_LO -/ (0x20810, 8, 0x40, 1, 0x0, false),
  /- CHN_PRB_STAKE_TIME_LO -/ (0x20818, 8, 0x40, 1, 0x0, false),
  /- STN_TGT_LO -/ (0x30100, 1, 0x0, 1, 0x0, true),
  /- STN_IVL_LO -/ (0x30110, 1, 0x0, 1, 0x0, true),
  /- STN_ACTUAL_LO -/ (0x30120, 1, 0x0, 1, 0x0, false),
  /- DTM_TIME_LO -/ (0x40008, 1, 0x0, 1, 0x0, false),
  /- DTM_INCR_LO -/ (0x40014, 1, 0x0, 1, 0x0, true),
  /- DTM_OFFSET_LO -/ (0x4001C, 1, 0x0, 1, 0x0, true),
  /- DTM_EPOCH_LO -/ (0x40024, 1, 0x0, 1, 0x0, true),
  /- DTM_TICKS_LO -/ (0x4002C, 1, 0x0, 1, 0x0, false),
  /- DTM_SNAP_TIME_LO -/ (0x40034, 1, 0x0, 1, 0x0, false),
  /- DTM_SNAP_CHN_LO -/ (0x4003C, 1, 0x0, 1, 0x0, false),
  /- DTM_SNAP_TICKS_LO -/ (0x40044, 1, 0x0, 1, 0x0, false),
  /- ETH_P_MAC_LO -/ (0x50108, 2, 0x100, 1, 0x0, true),
  /- TRV_STALL_LO -/ (0x600A4, 1, 0x0, 1, 0x0, false),
  /- FGD_PITCH_LO -/ (0x90008, 1, 0x0, 1, 0x0, true),
  /- FGD_PITCH_EFF_LO -/ (0x90010, 1, 0x0, 1, 0x0, false),
  /- FGD_BLANK_TOTAL_LO -/ (0x90034, 1, 0x0, 1, 0x0, false),
  /- FGD_P_VOL_LO -/ (0x90200, 10, 0x8, 1, 0x0, false),
  /- FGD_HD_ACT_LO -/ (0x94200, 400, 0x20, 1, 0x0, false),
  /- FGD_HD_VOL_LO -/ (0x94208, 400, 0x20, 1, 0x0, false),
  /- FGD_HD_SER_LO -/ (0x94210, 400, 0x20, 1, 0x0, false),
  /- FGD_G_THIN_TOTAL_LO -/ (0x98028, 1, 0x0, 1, 0x0, false),
  /- SKX_UP_LO -/ (0xB4004, 1, 0x0, 1, 0x0, false),
  /- CAM_C_PITCH_LO -/ (0xC1008, 8, 0x100, 1, 0x0, true),
  /- CAM_CLS_C_BASE_LO -/ (0xD0100, 8, 0x10, 1, 0x0, true),
  /- DRM_P_BYTES_LO -/ (0xE0104, 12, 0x20, 1, 0x0, false),
  /- PTN_PARTNER_ID_LO -/ (0x13000C, 1, 0x0, 1, 0x0, false),
  /- PTN_HELD_LO -/ (0x130028, 1, 0x0, 1, 0x0, false),
  /- SEC_XFER_ADDR_LO -/ (0x150100, 1, 0x0, 1, 0x0, true)]

end Sys2Proof.Machine
end

