-- ==== Sys2Proof/Machine/State.lean ====
section
/-! DEFINITION. The state of the module as plain data, what can stop it, and the state after reset. -/

namespace Sys2Proof.Machine

/-- The fuses of a module of this part (R492, R499, R507): constants of the module that nothing can see. -/
def Otp.shipped : Otp where
  deviceId := Config.deviceId
  vendorKey := Config.vendorKey
  oemKey := none
  rollback := 0

/-- Everything the spec gives the module but the queue of waiting commands. `regs` holds the registers of BAR0
that are not read from another field, by BAR0 offset; `loStage` the _LO halves written and not yet in effect and
`hiLatch` the _HI halves latched by a read of _LO (R11); `dram` the module's DRAM, where an unlisted byte reads 0;
`out` what has left the module, newest first. -/
structure Mach where
  glb : Glb := {}
  sec : Sec := {}
  xfer : Option Xfer := none
  otp : Otp := Otp.shipped
  nand : Nand := {}
  finals : Finals := {}
  evt : Evt := {}
  hst : Hst := {}
  chn : Chn := {}
  stn : Stn := {}
  dtm : Dtm := {}
  eth : Eth := {}
  vgp : Vgp := {}
  cmp : Cmp := {}
  epo : Epo := {}
  trv : Trv := {}
  fgd : Fgd := {}
  skx : Skx := {}
  cam : Cam := {}
  cls : Cls := {}
  drm : Drm := {}
  mot : Mot := {}
  thm : Thm := {}
  pwr : Pwr := {}
  cal : Cal := {}
  ptn : Ptn := {}
  regs : Tab Word := []
  loStage : Tab (Option Word) := []
  hiLatch : Tab (Option Word) := []
  dram : List Host.Cell := []
  out : List Output := []
  deriving DecidableEq, Repr

/-- The machine: the module, and the commands that wait, first in first out. -/
structure State where
  m : Mach := {}
  pending : List Instr := []
  deriving DecidableEq, Repr

/-- Why a command would fault. The spec gives every command of the module an effect, so there is no such reason:
no constructor, nothing raises it, and leaving it empty is safe. -/
inductive Fault where
  deriving DecidableEq, Repr

/-- Why a command is refused. -/
inductive Refusal where
  /-- Raised by the dispatch for a row of the opcode table that has no meaning yet; safe, since nothing follows. -/
  | notModelled (mnemonic : String)
  deriving DecidableEq, Repr

/-- The module as AON brings it up with cause POWER (R488): BOOT, stage A, every register at its reset value.
DEDUCED (log entry 7). DESIGN CHOICE (log entries 2, 53, 181). -/
def State.reset : State := {}

end Sys2Proof.Machine
end

