-- ==== Sys2Proof/Machine/Records.lean ====
section
/-! DEFINITION. What the partner link carries as bytes: stored blocks (R164), host descriptors (R121 to R127), mirror
records (R411) and monuments (R417). -/

namespace Sys2Proof.Machine

open Sys2Proof

/-! ### Stored blocks (R164, R169) -/

/-- `n` rounded up to a multiple of 8. -/
def padded8 (n : Nat) : Nat := (n + 7) / 8 * 8

/-- The bytes that raw pixels of a block take once coded: header, payload, CRC and padding (R164, R169).
DESIGN CHOICE (log entry 55). -/
def rawBlockSize (w : Nat) (px : List Byte) : Nat := padded8 (20 + min px.length (Config.codedSize w px))

/-- A block of raw pixels as the entry codec stores it (R164, R169): which tokens this revision chooses is not stated, so
the predictor and the payload of a block that it codes are free values. DESIGN CHOICE (log entry 55). -/
def rawBlock (w lines : Nat) (px : List Byte) : List Byte :=
  let n := Config.codedSize w px
  let stored := decide (px.length ≤ n)
  let payload := if stored then px else (List.range n).map (fun k => Config.codedByte w px (k + 1))
  let body := [0xB5, 0x01] ++ leBytes 1 (if stored then 4 else (Config.codedByte w px 0).toNat % 2) ++ leBytes 1 lines ++
    leBytes 2 w ++ leBytes 2 0 ++ leBytes 4 px.length ++ leBytes 4 payload.length ++ payload ++ leBytes 4 (crc32c px).toNat
  body ++ List.replicate (padded8 body.length - body.length) 0

/-- The bytes of a stored block: those it came in, or those it was coded into. -/
def Block.encoded (b : Block) : List Byte := if b.code = [] then rawBlock b.width b.lines b.pixels else b.code

/-- How many bytes they are. -/
def Block.bytes (b : Block) : Nat := if b.code = [] then b.size else b.code.length

/-! ### Descriptors (R121 to R127) -/

/-- Bytes 8 and on of a descriptor; bytes that its layout marks as ignored are zero.
DESIGN CHOICE (log entry 252). -/
def DescBody.fields : DescBody → List Byte
  | .jobOpen f =>
    leBytes 1 f.jobTag ++ leBytes 1 f.streamed ++ leBytes 1 f.layers ++ leBytes 1 f.depth ++ leBytes 2 f.planes ++
      leBytes 1 f.along ++ leBytes 1 f.across ++ leBytes 4 f.width ++ leBytes 4 f.repeatLen ++ leBytes 8 f.reserve
  | .jobImage f =>
    leBytes 1 f.jobTag ++ leBytes 1 f.layer ++ leBytes 1 f.plane ++ leBytes 1 f.format ++ leBytes 4 f.firstLine ++
      leBytes 4 f.lineCount ++ leBytes 4 f.firstPixel ++ leBytes 4 f.pixelCount ++ leBytes 4 f.byteLen ++
      leBytes 8 f.addr ++ leBytes 1 (ofBool f.last + 2 * ofBool f.flush)
  | .jobClose tag => leBytes 1 tag
  | .jobArm f => leBytes 1 f.jobTag ++ leBytes 3 f.start ++ leBytes 4 f.repeats ++ leBytes 6 f.origin
  | .jobDelete tag => leBytes 1 tag
  | .blockData f =>
    leBytes 1 f.jobTag ++ leBytes 1 f.layer ++ leBytes 2 f.plane ++ leBytes 4 f.block ++ leBytes 4 f.byteLen ++
      leBytes 4 f.request ++ leBytes 8 f.addr
  | .nop => []
  | .abort tag => leBytes 1 tag
  | .stop => []
  | .revoke f =>
    leBytes 1 f.layer ++ leBytes 3 (ofBool f.now) ++ leBytes 4 f.first.toNat ++ leBytes 4 f.last.toNat ++ leBytes 4 0 ++
      leBytes 6 f.effect
  | .mode target => leBytes 1 target
  | .stnCommit f =>
    leBytes 8 (f.slot % 256) ++ leBytes 8 (f.tgt % 2 ^ 48) ++ leBytes 4 f.act ++ leBytes 4 f.arg ++ leBytes 8 (f.ivl % 2 ^ 40) ++
      leBytes 4 f.count
  | .stnCancel slot => leBytes 1 slot
  | .item f =>
    leBytes 4 f.item.toNat ++ leBytes 4 f.fence.toNat ++ leBytes 1 f.format ++ leBytes 3 f.channels ++ leBytes 4 f.width ++
      leBytes 4 f.height ++ leBytes 4 f.byteLen ++ leBytes 8 f.addr ++ leBytes 4 f.xOff ++ leBytes 4 f.yOff ++
      leBytes 1 (ofBool f.last)
  | .fence _ v => leBytes 4 v.toNat
  | .tableCommit f _ =>
    leBytes 1 f.table ++ leBytes 1 f.plane ++ leBytes 2 (ofBool f.isPartial + 2 * ofBool f.now) ++ leBytes 4 f.first ++
      leBytes 4 f.count ++ leBytes 4 f.byteLen ++ leBytes 8 f.addr ++ leBytes 6 f.effect
  | .buffer _ f => leBytes 8 (f.len % 2 ^ 32) ++ leBytes 8 f.addr

/-- A descriptor of 64 bytes. -/
def descBytes (h : DescRef) (b : DescBody) : List Byte :=
  let d := leBytes 1 h.opcode ++ leBytes 1 (128 * ofBool h.phase + 64 * ofBool h.irq + 32 * ofBool h.quiet) ++ leBytes 2 h.tag ++
    leBytes 4 0 ++ b.fields
  d ++ List.replicate (64 - d.length) 0

/-! ### Mirror records (R411) -/

/-- The kind of a record. -/
def MirrorRec.kind : MirrorRec → Nat
  | .desc _ _ _ _ => 1
  | .data _ _ _ _ _ => 2
  | .itemData _ _ _ _ _ => 2
  | .commit _ _ _ _ _ _ _ _ => 3
  | .decision _ _ _ _ => 4
  | .echoRef _ _ _ _ => 6
  | .proofRef _ _ _ _ _ _ => 7

/-- Entries of a table as a record carries them: a word each. -/
def entryBytes (es : List Nat) : List Byte := es.flatMap (leBytes 4)

/-- The entries that follow a descriptor's 64 bytes: those of a TABLE_COMMIT, which no DATA record carries.
DESIGN CHOICE (log entry 252). -/
def DescBody.entries : DescBody → List Nat
  | .tableCommit _ es => es
  | _ => []

/-- The body of a record. -/
def MirrorRec.body : MirrorRec → List Byte
  | .desc h b epoch effect =>
    leBytes 2 h.ring ++ leBytes 2 h.index ++ leBytes 4 epoch.toNat ++ leBytes 8 effect.toNat ++ descBytes h b ++
      entryBytes b.entries
  | .data layer plane tag block b =>
    leBytes 1 0 ++ leBytes 1 layer ++ leBytes 2 plane ++ leBytes 4 tag ++ leBytes 4 block ++ b.encoded
  | .itemData layer channel item block code =>
    leBytes 1 1 ++ leBytes 1 layer ++ leBytes 2 channel ++ leBytes 4 item.toNat ++ leBytes 4 block ++ code
  | .commit source table plane cls epoch effect first es =>
    leBytes 1 source ++ leBytes 1 table ++ leBytes 1 plane ++ leBytes 1 cls ++ leBytes 4 epoch.toNat ++ leBytes 8 effect.toNat ++
      leBytes 4 first ++ leBytes 4 es.length ++ entryBytes es
  | .decision typ c v1 v2 => leBytes 4 (typ % 256) ++ leBytes 8 c.toNat ++ leBytes 4 v1.toNat ++ leBytes 4 v2.toNat
  | .echoRef hub tag lc hc => leBytes 2 (hub % 256) ++ leBytes 2 tag ++ leBytes 4 lc.toNat ++ leBytes 4 hc.toNat
  | .proofRef plane job idx row epoch crc =>
    leBytes 1 plane ++ leBytes 1 job ++ leBytes 2 idx ++ leBytes 4 (row % 65536) ++ leBytes 4 epoch.toNat ++ leBytes 4 crc.toNat

/-- How many bytes a record takes, its header among them. -/
def MirrorRec.bytes : MirrorRec → Nat
  | .desc _ b _ _ => 88 + 4 * b.entries.length
  | .data _ _ _ _ b => 20 + b.bytes
  | .itemData _ _ _ _ code => 20 + code.length
  | .commit _ _ _ _ _ _ _ es => 32 + 4 * es.length
  | .decision _ _ _ _ => 28
  | .echoRef _ _ _ _ => 20
  | .proofRef _ _ _ _ _ _ => 24

/-- A record: its 8-byte header, then its body. -/
def MirrorItem.encode (i : MirrorItem) : List Byte :=
  let b := i.body.body
  leBytes 4 i.seq.toNat ++ leBytes 1 i.body.kind ++ leBytes 1 (ofBool i.isCommit) ++ leBytes 2 b.length ++ b

/-- Records cut into the payloads of packets, each with the sequence of its first record: a packet takes whole records
while they fit, and one that fits in none goes on in further packets (R313). DESIGN CHOICE (log entry 253). -/
def mirrorPackets (limit : Nat) : List MirrorItem → Word → List Byte → List (Word × List Byte)
  | [], seq, d => if d = [] then [] else [(seq, d)]
  | i :: r, seq, d =>
    let e := i.encode
    if d = [] then mirrorPackets limit r i.seq e
    else if d.length + e.length ≤ limit then mirrorPackets limit r seq (d ++ e)
    else (seq, d) :: mirrorPackets limit r i.seq e

/-- A payload cut at the limit of R313. -/
def cutPayload (limit : Nat) (d : List Byte) : List (List Byte) :=
  (List.range (max 1 ((d.length + limit - 1) / limit))).map (fun k => (d.drop (limit * k)).take limit)

/-- The greatest payload of a packet (R313). -/
def payloadMax : Nat := 16320

/-! ### Monuments (R417)

The spec names what each section holds, in order, and gives no layout of its body. Here each value takes the bytes of the
register or rule that names it, a list is preceded by its length, a slot or job that is FREE is left out, and each body
is padded to a multiple of 4. DESIGN CHOICE (log entry 254). -/

/-- A section: its type, its length and its body. -/
def monSection (typ : Nat) (body : List Byte) : List Byte :=
  let b := body ++ List.replicate ((4 - body.length % 4) % 4) 0
  leBytes 2 typ ++ leBytes 2 b.length ++ b

/-- A list in a section. -/
def listBytes {α : Type} (f : α → List Byte) (l : List α) : List Byte := leBytes 2 l.length ++ l.flatMap f

/-- A chainage that may be absent. -/
def chnBytes (c : Option Chainage) : List Byte := leBytes 2 (ofBool c.isSome) ++ leBytes 6 (c.getD 0).toNat

def Version.encode (v : Version) : List Byte :=
  leBytes 4 v.epoch.toNat ++ chnBytes v.effect ++ listBytes (leBytes 4) v.closed

def Job.encode (x : Job) : List Byte :=
  leBytes 1 x.state.code ++ leBytes 1 (ofBool x.streamed) ++ leBytes 2 x.tag ++ leBytes 6 x.origin.toNat ++
    leBytes 4 x.repeats ++ chnBytes x.stop

def LSlot.encode (x : LSlot) : List Byte :=
  leBytes 1 x.job ++ leBytes 4 x.k ++ leBytes 4 x.first ++ leBytes 4 x.len ++ leBytes 4 x.item.toNat ++
    leBytes 1 (ofBool x.shown.isSome) ++ leBytes 4 (x.shown.getD 0).toNat

def Part.encode (p : Part) : List Byte :=
  leBytes 1 p.channels ++ leBytes 4 p.width ++ leBytes 4 p.height ++ leBytes 4 p.xOff ++ leBytes 4 p.yOff ++
    leBytes 4 p.fence.toNat ++ leBytes 4 p.size

def Item.encode (i : Item) : List Byte :=
  leBytes 4 i.number.toNat ++ leBytes 1 (ofBool i.complete + 2 * ofBool i.revoked) ++ listBytes Part.encode i.parts

def Revoked.encode (r : Revoked) : List Byte :=
  leBytes 4 r.first.toNat ++ leBytes 4 r.last.toNat ++ leBytes 4 r.epoch.toNat ++ leBytes 6 r.effect.toNat

def Layer.encode (l : Layer) : List Byte :=
  leBytes 4 l.fence.toNat ++ listBytes LSlot.encode l.slots ++ listBytes Item.encode l.items ++ listBytes Revoked.encode l.revoked

/-- The staging image of a slot, STN_TGT_LO to STN_ACTUAL_HI, and its state. -/
def Slot.encode (x : Slot) : List Byte :=
  leBytes 8 x.target.toNat ++ leBytes 4 x.f.act ++ leBytes 4 x.f.arg ++ leBytes 8 x.f.ivl ++ leBytes 4 x.f.count ++
    leBytes 4 (x.state.code + 16 * x.skips) ++ leBytes 8 x.actual.toNat ++ leBytes 4 x.taken

def GainWait.encode (g : GainWait) : List Byte := leBytes 4 g.epoch.toNat ++ chnBytes g.actual

/-- The sections of a monument, in their order. DESIGN CHOICE (log entry 254). -/
def Monument.encode (p : Monument) : List Byte :=
  let num {α : Type} (f : α → List Byte) (e : Nat × α) : List Byte := leBytes 2 e.1 ++ f e.2
  monSection 1 (leBytes 6 p.printed.toNat ++ leBytes 6 (p.printed + BitVec.ofInt 48 (p.lead / 131072)).toNat ++
    leBytes 8 (unsigned 64 (-p.lead)) ++ leBytes 8 (unsigned 64 p.slew) ++ leBytes 1 p.vote ++ leBytes 8 p.time.toNat) ++
  monSection 2 (leBytes 4 p.counter.toNat ++ listBytes (num (listBytes Version.encode)) p.versions) ++
  monSection 3 (listBytes (num Job.encode) p.jobs) ++
  monSection 4 (listBytes (num Layer.encode) p.layers) ++
  monSection 5 (listBytes (num Slot.encode) p.slots) ++
  monSection 6 (listBytes (fun (e : Nat × Word) => leBytes 4 e.1 ++ leBytes 4 e.2.toNat) p.counters) ++
  monSection 7 (leBytes 5 p.held ++ listBytes (leBytes 1) p.hubs ++ leBytes 4 p.claim) ++
  monSection 8 (listBytes (num (fun g => leBytes 1 (ofBool g.isSome) ++ (g.getD { epoch := 0, actual := none }).encode)) p.gain ++
    listBytes (fun (w : NozzleWait) => leBytes 1 w.plane ++ leBytes 4 w.col ++ w.wait.encode) p.nozzles ++
    listBytes (fun (k : Nat × Nat) => leBytes 1 k.1 ++ leBytes 4 k.2) p.keep ++ leBytes 4 p.logPtr) ++
  monSection 9 (leBytes 4 p.mirrorSeq.toNat) ++
  monSection 10 (listBytes (fun (a : Nat × Bool × Int) =>
    leBytes 1 a.1 ++ leBytes 1 (ofBool a.2.1) ++ leBytes 4 (unsigned 32 a.2.2)) p.axes)

/-- A monument as it is saved: its sections, closed by their CRC-32C (R462, R503, R505). -/
def Monument.saved (p : Monument) : List Byte :=
  let d := p.encode
  d ++ leBytes 4 (crc32c d).toNat

end Sys2Proof.Machine
end

