-- ==== Sys2Proof/Machine/RegNames.lean ====
section
/-! DEFINITION. A name for every register of BAR0 and for each of its fields, by the spec's own names. An array
register takes its index (or indexes). -/

namespace Sys2Proof.Machine

def Reg.GLB_ID_LO : Nat := 0x0
def Reg.GLB_ID_LO.id : Fld := ⟨0x0, 31, 0⟩
def Reg.GLB_ID_HI : Nat := 0x4
def Reg.GLB_ID_HI.id : Fld := ⟨0x4, 31, 0⟩
def Reg.GLB_COMPAT : Nat := 0x8
def Reg.GLB_COMPAT.pin_level : Fld := ⟨0x8, 31, 16⟩
def Reg.GLB_COMPAT.max_level : Fld := ⟨0x8, 15, 0⟩
def Reg.GLB_REV : Nat := 0xC
def Reg.GLB_REV.part : Fld := ⟨0xC, 31, 16⟩
def Reg.GLB_REV.revision : Fld := ⟨0xC, 15, 8⟩
def Reg.GLB_REV.diag_bar : Fld := ⟨0xC, 0, 0⟩
def Reg.GLB_MODE : Nat := 0x10
def Reg.GLB_MODE.previous : Fld := ⟨0x10, 6, 4⟩
def Reg.GLB_MODE.mode : Fld := ⟨0x10, 2, 0⟩
def Reg.GLB_MODE_REQ : Nat := 0x14
def Reg.GLB_MODE_REQ.busy : Fld := ⟨0x14, 31, 31⟩
def Reg.GLB_MODE_REQ.result : Fld := ⟨0x14, 30, 28⟩
def Reg.GLB_MODE_REQ.cause : Fld := ⟨0x14, 27, 24⟩
def Reg.GLB_MODE_REQ.target : Fld := ⟨0x14, 2, 0⟩
def Reg.GLB_LOCK : Nat := 0x18
def Reg.GLB_LOCK.locked : Fld := ⟨0x18, 31, 31⟩
def Reg.GLB_LOCK.busy : Fld := ⟨0x18, 30, 30⟩
def Reg.GLB_LOCK.result : Fld := ⟨0x18, 29, 27⟩
def Reg.GLB_LOCK.wdisc : Fld := ⟨0x18, 26, 1⟩
def Reg.GLB_LOCK.lock : Fld := ⟨0x18, 0, 0⟩
def Reg.GLB_HALT : Nat := 0x1C
def Reg.GLB_HALT.also : Fld := ⟨0x1C, 15, 8⟩
def Reg.GLB_HALT.cause : Fld := ⟨0x1C, 2, 0⟩
def Reg.GLB_RESET : Nat := 0x20
def Reg.GLB_RESET.cause : Fld := ⟨0x20, 18, 16⟩
def Reg.GLB_RESET.key : Fld := ⟨0x20, 15, 0⟩
def Reg.GLB_BOOT : Nat := 0x24
def Reg.GLB_BOOT.fail : Fld := ⟨0x24, 21, 20⟩
def Reg.GLB_BOOT.stage : Fld := ⟨0x24, 19, 16⟩
def Reg.GLB_BOOT.time_ms : Fld := ⟨0x24, 15, 0⟩
def Reg.GLB_XING_OVF : Nat := 0x28
def Reg.GLB_XING_OVF.cnt : Fld := ⟨0x28, 31, 0⟩
def Reg.HST_CFG : Nat := 0x10000
def Reg.HST_CFG.tlm_period_ms : Fld := ⟨0x10000, 31, 16⟩
def Reg.HST_CFG.stop_on_link : Fld := ⟨0x10000, 1, 1⟩
def Reg.HST_STATUS : Nat := 0x10004
def Reg.HST_STATUS.link_width : Fld := ⟨0x10004, 23, 20⟩
def Reg.HST_STATUS.link_speed : Fld := ⟨0x10004, 19, 16⟩
def Reg.HST_STATUS.stop_src : Fld := ⟨0x10004, 8, 4⟩
def Reg.HST_STATUS.dma_quiet : Fld := ⟨0x10004, 1, 1⟩
def Reg.HST_STATUS.stopped : Fld := ⟨0x10004, 0, 0⟩
def Reg.HST_STOP : Nat := 0x10008
def Reg.HST_STOP.release : Fld := ⟨0x10008, 1, 1⟩
def Reg.HST_STOP.stop : Fld := ⟨0x10008, 0, 0⟩
def Reg.HST_DIAG : Nat := 0x1000C
def Reg.HST_DIAG.base : Fld := ⟨0x1000C, 6, 0⟩
def Reg.HST_DIAG_WDISC : Nat := 0x10010
def Reg.HST_DIAG_WDISC.cnt : Fld := ⟨0x10010, 31, 0⟩
def Reg.HST_FB_STATUS : Nat := 0x10014
def Reg.HST_FB_STATUS.lost : Fld := ⟨0x10014, 31, 16⟩
def Reg.HST_FB_STATUS.queued : Fld := ⟨0x10014, 9, 0⟩
def Reg.HST_TLM_DROP : Nat := 0x10018
def Reg.HST_TLM_DROP.cnt : Fld := ⟨0x10018, 31, 0⟩
def Reg.HST_STOP_CNT : Nat := 0x1001C
def Reg.HST_STOP_CNT.cnt : Fld := ⟨0x1001C, 31, 0⟩
def Reg.HST_WIN_BASE_LO (n : Nat) : Nat := 0x10400 + 0x20 * n
def Reg.HST_WIN_BASE_LO.base (n : Nat) : Fld := ⟨0x10400 + 0x20 * n, 31, 12⟩
def Reg.HST_WIN_BASE_HI (n : Nat) : Nat := 0x10404 + 0x20 * n
def Reg.HST_WIN_BASE_HI.base (n : Nat) : Fld := ⟨0x10404 + 0x20 * n, 31, 0⟩
def Reg.HST_WIN_LIMIT_LO (n : Nat) : Nat := 0x10408 + 0x20 * n
def Reg.HST_WIN_LIMIT_LO.limit (n : Nat) : Fld := ⟨0x10408 + 0x20 * n, 31, 12⟩
def Reg.HST_WIN_LIMIT_LO.low (n : Nat) : Fld := ⟨0x10408 + 0x20 * n, 11, 0⟩
def Reg.HST_WIN_LIMIT_HI (n : Nat) : Nat := 0x1040C + 0x20 * n
def Reg.HST_WIN_LIMIT_HI.limit (n : Nat) : Fld := ⟨0x1040C + 0x20 * n, 31, 0⟩
def Reg.HST_WIN_PERM (n : Nat) : Nat := 0x10410 + 0x20 * n
def Reg.HST_WIN_PERM.write (n : Nat) : Fld := ⟨0x10410 + 0x20 * n, 1, 1⟩
def Reg.HST_WIN_PERM.read (n : Nat) : Fld := ⟨0x10410 + 0x20 * n, 0, 0⟩
def Reg.HST_RING_BASE_LO (n : Nat) : Nat := 0x11000 + 0x20 * n
def Reg.HST_RING_BASE_LO.base (n : Nat) : Fld := ⟨0x11000 + 0x20 * n, 31, 6⟩
def Reg.HST_RING_BASE_HI (n : Nat) : Nat := 0x11004 + 0x20 * n
def Reg.HST_RING_BASE_HI.base (n : Nat) : Fld := ⟨0x11004 + 0x20 * n, 31, 0⟩
def Reg.HST_RING_CFG (n : Nat) : Nat := 0x11008 + 0x20 * n
def Reg.HST_RING_CFG.en (n : Nat) : Fld := ⟨0x11008 + 0x20 * n, 31, 31⟩
def Reg.HST_RING_CFG.vector (n : Nat) : Fld := ⟨0x11008 + 0x20 * n, 28, 24⟩
def Reg.HST_RING_CFG.irq (n : Nat) : Fld := ⟨0x11008 + 0x20 * n, 23, 22⟩
def Reg.HST_RING_CFG.size (n : Nat) : Fld := ⟨0x11008 + 0x20 * n, 19, 16⟩
def Reg.HST_RING_CFG.cpl (n : Nat) : Fld := ⟨0x11008 + 0x20 * n, 13, 8⟩
def Reg.HST_RING_HEAD (n : Nat) : Nat := 0x1100C + 0x20 * n
def Reg.HST_RING_HEAD.head (n : Nat) : Fld := ⟨0x1100C + 0x20 * n, 15, 0⟩
def Reg.HST_RING_TAIL (n : Nat) : Nat := 0x11010 + 0x20 * n
def Reg.HST_RING_TAIL.tail (n : Nat) : Fld := ⟨0x11010 + 0x20 * n, 15, 0⟩
def Reg.HST_RING_STATUS (n : Nat) : Nat := 0x11014 + 0x20 * n
def Reg.HST_RING_STATUS.cause (n : Nat) : Fld := ⟨0x11014 + 0x20 * n, 10, 8⟩
def Reg.HST_RING_STATUS.stalled (n : Nat) : Fld := ⟨0x11014 + 0x20 * n, 2, 2⟩
def Reg.HST_RING_STATUS.err (n : Nat) : Fld := ⟨0x11014 + 0x20 * n, 1, 1⟩
def Reg.HST_RING_STATUS.active (n : Nat) : Fld := ⟨0x11014 + 0x20 * n, 0, 0⟩
def Reg.HST_RING_COUNT (n : Nat) : Nat := 0x11018 + 0x20 * n
def Reg.HST_RING_COUNT.count (n : Nat) : Fld := ⟨0x11018 + 0x20 * n, 31, 0⟩
def Reg.HST_MSIX_ADDR_LO (n : Nat) : Nat := 0x18000 + 0x10 * n
def Reg.HST_MSIX_ADDR_LO.addr (n : Nat) : Fld := ⟨0x18000 + 0x10 * n, 31, 2⟩
def Reg.HST_MSIX_ADDR_HI (n : Nat) : Nat := 0x18004 + 0x10 * n
def Reg.HST_MSIX_ADDR_HI.addr (n : Nat) : Fld := ⟨0x18004 + 0x10 * n, 31, 0⟩
def Reg.HST_MSIX_DATA (n : Nat) : Nat := 0x18008 + 0x10 * n
def Reg.HST_MSIX_DATA.data (n : Nat) : Fld := ⟨0x18008 + 0x10 * n, 31, 0⟩
def Reg.HST_MSIX_CTRL (n : Nat) : Nat := 0x1800C + 0x10 * n
def Reg.HST_MSIX_CTRL.mask (n : Nat) : Fld := ⟨0x1800C + 0x10 * n, 0, 0⟩
def Reg.HST_PBA : Nat := 0x19000
def Reg.HST_PBA.pending : Fld := ⟨0x19000, 31, 0⟩
def Reg.CHN_CTRL : Nat := 0x20000
def Reg.CHN_CTRL.readmit : Fld := ⟨0x20000, 10, 8⟩
def Reg.CHN_CTRL.aux_clear : Fld := ⟨0x20000, 5, 4⟩
def Reg.CHN_CTRL.slew_cancel : Fld := ⟨0x20000, 3, 3⟩
def Reg.CHN_CTRL.backstep_release : Fld := ⟨0x20000, 2, 2⟩
def Reg.CHN_CTRL.disarm : Fld := ⟨0x20000, 1, 1⟩
def Reg.CHN_CTRL.arm : Fld := ⟨0x20000, 0, 0⟩
def Reg.CHN_STATUS : Nat := 0x20004
def Reg.CHN_STATUS.speed_limit : Fld := ⟨0x20004, 20, 20⟩
def Reg.CHN_STATUS.slew_active : Fld := ⟨0x20004, 19, 19⟩
def Reg.CHN_STATUS.backstep_hold : Fld := ⟨0x20004, 18, 18⟩
def Reg.CHN_STATUS.held : Fld := ⟨0x20004, 17, 17⟩
def Reg.CHN_STATUS.cal_ch : Fld := ⟨0x20004, 16, 15⟩
def Reg.CHN_STATUS.faulty : Fld := ⟨0x20004, 14, 12⟩
def Reg.CHN_STATUS.voting : Fld := ⟨0x20004, 11, 9⟩
def Reg.CHN_STATUS.arm_cause : Fld := ⟨0x20004, 7, 4⟩
def Reg.CHN_STATUS.vote_state : Fld := ⟨0x20004, 2, 0⟩
def Reg.CHN_VOTE_CFG : Nat := 0x20008
def Reg.CHN_VOTE_CFG.dev_window : Fld := ⟨0x20008, 9, 0⟩
def Reg.CHN_PRESET_LO : Nat := 0x20010
def Reg.CHN_PRESET_LO.preset : Fld := ⟨0x20010, 31, 0⟩
def Reg.CHN_PRESET_HI : Nat := 0x20014
def Reg.CHN_PRESET_HI.preset : Fld := ⟨0x20014, 15, 0⟩
def Reg.CHN_NOW_LO : Nat := 0x20018
def Reg.CHN_NOW_LO.printed : Fld := ⟨0x20018, 31, 0⟩
def Reg.CHN_NOW_HI : Nat := 0x2001C
def Reg.CHN_NOW_HI.printed : Fld := ⟨0x2001C, 15, 0⟩
def Reg.CHN_VOTED_LO : Nat := 0x20020
def Reg.CHN_VOTED_LO.voted : Fld := ⟨0x20020, 31, 0⟩
def Reg.CHN_VOTED_HI : Nat := 0x20024
def Reg.CHN_VOTED_HI.voted : Fld := ⟨0x20024, 15, 0⟩
def Reg.CHN_DEBT : Nat := 0x20028
def Reg.CHN_DEBT.debt : Fld := ⟨0x20028, 31, 0⟩
def Reg.CHN_BACKSTEP_CFG : Nat := 0x2002C
def Reg.CHN_BACKSTEP_CFG.auto_resume : Fld := ⟨0x2002C, 24, 24⟩
def Reg.CHN_BACKSTEP_CFG.reserve : Fld := ⟨0x2002C, 20, 0⟩
def Reg.CHN_SPEED_CFG : Nat := 0x20030
def Reg.CHN_SPEED_CFG.window_us : Fld := ⟨0x20030, 13, 0⟩
def Reg.CHN_SPEED_LINKS : Nat := 0x20034
def Reg.CHN_SPEED_LINKS.links : Fld := ⟨0x20034, 31, 0⟩
def Reg.CHN_SPEED_UMS : Nat := 0x20038
def Reg.CHN_SPEED_UMS.ums : Fld := ⟨0x20038, 31, 0⟩
def Reg.CHN_SPEED_RAW : Nat := 0x2003C
def Reg.CHN_SPEED_RAW.raw : Fld := ⟨0x2003C, 31, 0⟩
def Reg.CHN_REHOME_CFG : Nat := 0x20040
def Reg.CHN_REHOME_CFG.src : Fld := ⟨0x20040, 26, 24⟩
def Reg.CHN_REHOME_CFG.window : Fld := ⟨0x20040, 23, 0⟩
def Reg.CHN_SLEW_PENDING : Nat := 0x20044
def Reg.CHN_SLEW_PENDING.slew : Fld := ⟨0x20044, 31, 0⟩
def Reg.CHN_CFG (n : Nat) : Nat := 0x20100 + 0x100 * n
def Reg.CHN_CFG.glitch (n : Nat) : Fld := ⟨0x20100 + 0x100 * n, 19, 16⟩
def Reg.CHN_CFG.abs_bits (n : Nat) : Fld := ⟨0x20100 + 0x100 * n, 13, 8⟩
def Reg.CHN_CFG.abs_parity (n : Nat) : Fld := ⟨0x20100 + 0x100 * n, 7, 7⟩
def Reg.CHN_CFG.abs_gray (n : Nat) : Fld := ⟨0x20100 + 0x100 * n, 6, 6⟩
def Reg.CHN_CFG.pulse_mode (n : Nat) : Fld := ⟨0x20100 + 0x100 * n, 5, 4⟩
def Reg.CHN_CFG.index_en (n : Nat) : Fld := ⟨0x20100 + 0x100 * n, 3, 3⟩
def Reg.CHN_CFG.invert (n : Nat) : Fld := ⟨0x20100 + 0x100 * n, 2, 2⟩
def Reg.CHN_CFG.type (n : Nat) : Fld := ⟨0x20100 + 0x100 * n, 1, 0⟩
def Reg.CHN_SCALE_LO (n : Nat) : Nat := 0x20104 + 0x100 * n
def Reg.CHN_SCALE_LO.scale (n : Nat) : Fld := ⟨0x20104 + 0x100 * n, 31, 0⟩
def Reg.CHN_SCALE_HI (n : Nat) : Nat := 0x20108 + 0x100 * n
def Reg.CHN_SCALE_HI.scale (n : Nat) : Fld := ⟨0x20108 + 0x100 * n, 15, 0⟩
def Reg.CHN_OFFSET (n : Nat) : Nat := 0x2010C + 0x100 * n
def Reg.CHN_OFFSET.offset (n : Nat) : Fld := ⟨0x2010C + 0x100 * n, 31, 0⟩
def Reg.CHN_THRESH (n : Nat) : Nat := 0x20110 + 0x100 * n
def Reg.CHN_THRESH.thresh (n : Nat) : Fld := ⟨0x20110 + 0x100 * n, 23, 0⟩
def Reg.CHN_SINCOS (n : Nat) : Nat := 0x20114 + 0x100 * n
def Reg.CHN_SINCOS.amp_hi (n : Nat) : Fld := ⟨0x20114 + 0x100 * n, 15, 8⟩
def Reg.CHN_SINCOS.amp_lo (n : Nat) : Fld := ⟨0x20114 + 0x100 * n, 7, 0⟩
def Reg.CHN_TOOTH (n : Nat) : Nat := 0x20118 + 0x100 * n
def Reg.CHN_TOOTH.gap_ratio (n : Nat) : Fld := ⟨0x20118 + 0x100 * n, 15, 8⟩
def Reg.CHN_TOOTH.extra_ratio (n : Nat) : Fld := ⟨0x20118 + 0x100 * n, 7, 0⟩
def Reg.CHN_SSI (n : Nat) : Nat := 0x2011C + 0x100 * n
def Reg.CHN_SSI.recovery (n : Nat) : Fld := ⟨0x2011C + 0x100 * n, 27, 20⟩
def Reg.CHN_SSI.req_period (n : Nat) : Fld := ⟨0x2011C + 0x100 * n, 18, 12⟩
def Reg.CHN_SSI.clk_div (n : Nat) : Fld := ⟨0x2011C + 0x100 * n, 11, 0⟩
def Reg.CHN_INDEX_PITCH (n : Nat) : Nat := 0x20120 + 0x100 * n
def Reg.CHN_INDEX_PITCH.pitch (n : Nat) : Fld := ⟨0x20120 + 0x100 * n, 31, 0⟩
def Reg.CHN_INDEX_TOL (n : Nat) : Nat := 0x20124 + 0x100 * n
def Reg.CHN_INDEX_TOL.tol (n : Nat) : Fld := ⟨0x20124 + 0x100 * n, 15, 0⟩
def Reg.CHN_CH_STATUS (n : Nat) : Nat := 0x20128 + 0x100 * n
def Reg.CHN_CH_STATUS.index_seen (n : Nat) : Fld := ⟨0x20128 + 0x100 * n, 16, 16⟩
def Reg.CHN_CH_STATUS.amp (n : Nat) : Fld := ⟨0x20128 + 0x100 * n, 15, 8⟩
def Reg.CHN_CH_STATUS.fault_cause (n : Nat) : Fld := ⟨0x20128 + 0x100 * n, 7, 4⟩
def Reg.CHN_CH_STATUS.state (n : Nat) : Fld := ⟨0x20128 + 0x100 * n, 2, 0⟩
def Reg.CHN_POS_LO (n : Nat) : Nat := 0x2012C + 0x100 * n
def Reg.CHN_POS_LO.pos (n : Nat) : Fld := ⟨0x2012C + 0x100 * n, 31, 0⟩
def Reg.CHN_POS_HI (n : Nat) : Nat := 0x20130 + 0x100 * n
def Reg.CHN_POS_HI.pos (n : Nat) : Fld := ⟨0x20130 + 0x100 * n, 15, 0⟩
def Reg.CHN_DEV (n : Nat) : Nat := 0x20134 + 0x100 * n
def Reg.CHN_DEV.dev (n : Nat) : Fld := ⟨0x20134 + 0x100 * n, 31, 0⟩
def Reg.CHN_INDEX_ERR (n : Nat) : Nat := 0x20138 + 0x100 * n
def Reg.CHN_INDEX_ERR.err (n : Nat) : Fld := ⟨0x20138 + 0x100 * n, 31, 0⟩
def Reg.CHN_ERR_CNT (n : Nat) : Nat := 0x2013C + 0x100 * n
def Reg.CHN_ERR_CNT.bad (n : Nat) : Fld := ⟨0x2013C + 0x100 * n, 31, 16⟩
def Reg.CHN_ERR_CNT.amp (n : Nat) : Fld := ⟨0x2013C + 0x100 * n, 15, 0⟩
def Reg.CHN_PRB_CFG (n : Nat) : Nat := 0x20800 + 0x40 * n
def Reg.CHN_PRB_CFG.filter (n : Nat) : Fld := ⟨0x20800 + 0x40 * n, 11, 4⟩
def Reg.CHN_PRB_CFG.log (n : Nat) : Fld := ⟨0x20800 + 0x40 * n, 3, 3⟩
def Reg.CHN_PRB_CFG.edge (n : Nat) : Fld := ⟨0x20800 + 0x40 * n, 2, 1⟩
def Reg.CHN_PRB_CFG.en (n : Nat) : Fld := ⟨0x20800 + 0x40 * n, 0, 0⟩
def Reg.CHN_PRB_LOCKOUT (n : Nat) : Nat := 0x20804 + 0x40 * n
def Reg.CHN_PRB_LOCKOUT.lockout (n : Nat) : Fld := ⟨0x20804 + 0x40 * n, 31, 0⟩
def Reg.CHN_PRB_STATUS (n : Nat) : Nat := 0x20808 + 0x40 * n
def Reg.CHN_PRB_STATUS.ovf (n : Nat) : Fld := ⟨0x20808 + 0x40 * n, 15, 8⟩
def Reg.CHN_PRB_STATUS.depth (n : Nat) : Fld := ⟨0x20808 + 0x40 * n, 4, 0⟩
def Reg.CHN_PRB_POP (n : Nat) : Nat := 0x2080C + 0x40 * n
def Reg.CHN_PRB_POP.pop (n : Nat) : Fld := ⟨0x2080C + 0x40 * n, 0, 0⟩
def Reg.CHN_PRB_STAKE_CHN_LO (n : Nat) : Nat := 0x20810 + 0x40 * n
def Reg.CHN_PRB_STAKE_CHN_LO.chn (n : Nat) : Fld := ⟨0x20810 + 0x40 * n, 31, 0⟩
def Reg.CHN_PRB_STAKE_CHN_HI (n : Nat) : Nat := 0x20814 + 0x40 * n
def Reg.CHN_PRB_STAKE_CHN_HI.seq (n : Nat) : Fld := ⟨0x20814 + 0x40 * n, 31, 24⟩
def Reg.CHN_PRB_STAKE_CHN_HI.invalid (n : Nat) : Fld := ⟨0x20814 + 0x40 * n, 18, 18⟩
def Reg.CHN_PRB_STAKE_CHN_HI.held (n : Nat) : Fld := ⟨0x20814 + 0x40 * n, 17, 17⟩
def Reg.CHN_PRB_STAKE_CHN_HI.rising (n : Nat) : Fld := ⟨0x20814 + 0x40 * n, 16, 16⟩
def Reg.CHN_PRB_STAKE_CHN_HI.chn (n : Nat) : Fld := ⟨0x20814 + 0x40 * n, 15, 0⟩
def Reg.CHN_PRB_STAKE_TIME_LO (n : Nat) : Nat := 0x20818 + 0x40 * n
def Reg.CHN_PRB_STAKE_TIME_LO.time (n : Nat) : Fld := ⟨0x20818 + 0x40 * n, 31, 0⟩
def Reg.CHN_PRB_STAKE_TIME_HI (n : Nat) : Nat := 0x2081C + 0x40 * n
def Reg.CHN_PRB_STAKE_TIME_HI.time (n : Nat) : Fld := ⟨0x2081C + 0x40 * n, 31, 0⟩
def Reg.STN_CMD : Nat := 0x30000
def Reg.STN_CMD.busy : Fld := ⟨0x30000, 31, 31⟩
def Reg.STN_CMD.result : Fld := ⟨0x30000, 30, 28⟩
def Reg.STN_CMD.slot : Fld := ⟨0x30000, 15, 8⟩
def Reg.STN_CMD.op : Fld := ⟨0x30000, 1, 0⟩
def Reg.STN_STATUS : Nat := 0x30004
def Reg.STN_STATUS.waiting : Fld := ⟨0x30004, 24, 16⟩
def Reg.STN_STATUS.retired : Fld := ⟨0x30004, 8, 0⟩
def Reg.STN_LATE_CNT : Nat := 0x30008
def Reg.STN_LATE_CNT.cnt : Fld := ⟨0x30008, 31, 0⟩
def Reg.STN_SKIP_CNT : Nat := 0x3000C
def Reg.STN_SKIP_CNT.cnt : Fld := ⟨0x3000C, 31, 0⟩
def Reg.STN_OUT_STATE : Nat := 0x30010
def Reg.STN_OUT_STATE.level : Fld := ⟨0x30010, 15, 0⟩
def Reg.STN_TGT_LO : Nat := 0x30100
def Reg.STN_TGT_LO.tgt : Fld := ⟨0x30100, 31, 0⟩
def Reg.STN_TGT_HI : Nat := 0x30104
def Reg.STN_TGT_HI.tgt : Fld := ⟨0x30104, 15, 0⟩
def Reg.STN_ACT : Nat := 0x30108
def Reg.STN_ACT.chain_slot : Fld := ⟨0x30108, 31, 24⟩
def Reg.STN_ACT.chain_en : Fld := ⟨0x30108, 23, 23⟩
def Reg.STN_ACT.notify : Fld := ⟨0x30108, 22, 22⟩
def Reg.STN_ACT.rearm : Fld := ⟨0x30108, 21, 21⟩
def Reg.STN_ACT.probe : Fld := ⟨0x30108, 20, 18⟩
def Reg.STN_ACT.arm_src : Fld := ⟨0x30108, 17, 16⟩
def Reg.STN_ACT.sel : Fld := ⟨0x30108, 15, 8⟩
def Reg.STN_ACT.catch_up : Fld := ⟨0x30108, 7, 7⟩
def Reg.STN_ACT.action : Fld := ⟨0x30108, 3, 0⟩
def Reg.STN_ARG : Nat := 0x3010C
def Reg.STN_ARG.arg : Fld := ⟨0x3010C, 31, 0⟩
def Reg.STN_IVL_LO : Nat := 0x30110
def Reg.STN_IVL_LO.ivl : Fld := ⟨0x30110, 31, 0⟩
def Reg.STN_IVL_HI : Nat := 0x30114
def Reg.STN_IVL_HI.ivl : Fld := ⟨0x30114, 7, 0⟩
def Reg.STN_COUNT : Nat := 0x30118
def Reg.STN_COUNT.count : Fld := ⟨0x30118, 31, 0⟩
def Reg.STN_STATE : Nat := 0x3011C
def Reg.STN_STATE.state : Fld := ⟨0x3011C, 31, 28⟩
def Reg.STN_STATE.skipped : Fld := ⟨0x3011C, 23, 0⟩
def Reg.STN_ACTUAL_LO : Nat := 0x30120
def Reg.STN_ACTUAL_LO.actual : Fld := ⟨0x30120, 31, 0⟩
def Reg.STN_ACTUAL_HI : Nat := 0x30124
def Reg.STN_ACTUAL_HI.actual : Fld := ⟨0x30124, 15, 0⟩
def Reg.STN_OUT_CFG (n : Nat) : Nat := 0x30400 + 0x8 * n
def Reg.STN_OUT_CFG.safe (n : Nat) : Fld := ⟨0x30400 + 0x8 * n, 1, 1⟩
def Reg.STN_OUT_CFG.invert (n : Nat) : Fld := ⟨0x30400 + 0x8 * n, 0, 0⟩
def Reg.STN_OUT_LIM (n : Nat) : Nat := 0x30404 + 0x8 * n
def Reg.STN_OUT_LIM.min_gap (n : Nat) : Fld := ⟨0x30404 + 0x8 * n, 31, 24⟩
def Reg.STN_OUT_LIM.max_width (n : Nat) : Fld := ⟨0x30404 + 0x8 * n, 23, 0⟩
def Reg.STN_LIFT_CFG (n : Nat) : Nat := 0x30500 + 0x10 * n
def Reg.STN_LIFT_CFG.axes (n : Nat) : Fld := ⟨0x30500 + 0x10 * n, 23, 12⟩
def Reg.STN_LIFT_CFG.down_preset (n : Nat) : Fld := ⟨0x30500 + 0x10 * n, 11, 8⟩
def Reg.STN_LIFT_CFG.up_preset (n : Nat) : Fld := ⟨0x30500 + 0x10 * n, 7, 4⟩
def Reg.STN_LIFT_PLANES (n : Nat) : Nat := 0x30504 + 0x10 * n
def Reg.STN_LIFT_PLANES.planes (n : Nat) : Fld := ⟨0x30504 + 0x10 * n, 9, 0⟩
def Reg.STN_LIFT_SETTLE (n : Nat) : Nat := 0x30508 + 0x10 * n
def Reg.STN_LIFT_SETTLE.settle (n : Nat) : Fld := ⟨0x30508 + 0x10 * n, 31, 0⟩
def Reg.DTM_CTRL : Nat := 0x40000
def Reg.DTM_CTRL.servo_owner : Fld := ⟨0x40000, 8, 8⟩
def Reg.DTM_CTRL.snap : Fld := ⟨0x40000, 0, 0⟩
def Reg.DTM_STATUS : Nat := 0x40004
def Reg.DTM_STATUS.step_count : Fld := ⟨0x40004, 15, 8⟩
def Reg.DTM_STATUS.epoch_neg : Fld := ⟨0x40004, 3, 3⟩
def Reg.DTM_STATUS.adj_refused : Fld := ⟨0x40004, 2, 2⟩
def Reg.DTM_STATUS.snap_busy : Fld := ⟨0x40004, 1, 1⟩
def Reg.DTM_STATUS.offset_busy : Fld := ⟨0x40004, 0, 0⟩
def Reg.DTM_TIME_LO : Nat := 0x40008
def Reg.DTM_TIME_LO.time : Fld := ⟨0x40008, 31, 0⟩
def Reg.DTM_TIME_HI : Nat := 0x4000C
def Reg.DTM_TIME_HI.time : Fld := ⟨0x4000C, 31, 0⟩
def Reg.DTM_TIME_FRAC : Nat := 0x40010
def Reg.DTM_TIME_FRAC.frac : Fld := ⟨0x40010, 31, 0⟩
def Reg.DTM_INCR_LO : Nat := 0x40014
def Reg.DTM_INCR_LO.incr : Fld := ⟨0x40014, 31, 0⟩
def Reg.DTM_INCR_HI : Nat := 0x40018
def Reg.DTM_INCR_HI.incr : Fld := ⟨0x40018, 7, 0⟩
def Reg.DTM_OFFSET_LO : Nat := 0x4001C
def Reg.DTM_OFFSET_LO.off : Fld := ⟨0x4001C, 31, 0⟩
def Reg.DTM_OFFSET_HI : Nat := 0x40020
def Reg.DTM_OFFSET_HI.off : Fld := ⟨0x40020, 31, 0⟩
def Reg.DTM_EPOCH_LO : Nat := 0x40024
def Reg.DTM_EPOCH_LO.epoch : Fld := ⟨0x40024, 31, 0⟩
def Reg.DTM_EPOCH_HI : Nat := 0x40028
def Reg.DTM_EPOCH_HI.epoch : Fld := ⟨0x40028, 31, 0⟩
def Reg.DTM_TICKS_LO : Nat := 0x4002C
def Reg.DTM_TICKS_LO.ticks : Fld := ⟨0x4002C, 31, 0⟩
def Reg.DTM_TICKS_HI : Nat := 0x40030
def Reg.DTM_TICKS_HI.ticks : Fld := ⟨0x40030, 31, 0⟩
def Reg.DTM_SNAP_TIME_LO : Nat := 0x40034
def Reg.DTM_SNAP_TIME_LO.time : Fld := ⟨0x40034, 31, 0⟩
def Reg.DTM_SNAP_TIME_HI : Nat := 0x40038
def Reg.DTM_SNAP_TIME_HI.time : Fld := ⟨0x40038, 31, 0⟩
def Reg.DTM_SNAP_CHN_LO : Nat := 0x4003C
def Reg.DTM_SNAP_CHN_LO.chn : Fld := ⟨0x4003C, 31, 0⟩
def Reg.DTM_SNAP_CHN_HI : Nat := 0x40040
def Reg.DTM_SNAP_CHN_HI.vote_state : Fld := ⟨0x40040, 18, 16⟩
def Reg.DTM_SNAP_CHN_HI.chn : Fld := ⟨0x40040, 15, 0⟩
def Reg.DTM_SNAP_TICKS_LO : Nat := 0x40044
def Reg.DTM_SNAP_TICKS_LO.ticks : Fld := ⟨0x40044, 31, 0⟩
def Reg.DTM_SNAP_TICKS_HI : Nat := 0x40048
def Reg.DTM_SNAP_TICKS_HI.ticks : Fld := ⟨0x40048, 31, 0⟩
def Reg.ETH_PTP_CFG : Nat := 0x50000
def Reg.ETH_PTP_CFG.domain : Fld := ⟨0x50000, 31, 24⟩
def Reg.ETH_PTP_CFG.priority1 : Fld := ⟨0x50000, 23, 16⟩
def Reg.ETH_PTP_CFG.priority2 : Fld := ⟨0x50000, 15, 8⟩
def Reg.ETH_PTP_CFG.fo_en : Fld := ⟨0x50000, 7, 7⟩
def Reg.ETH_PTP_CFG.one_step : Fld := ⟨0x50000, 6, 6⟩
def Reg.ETH_PTP_CFG.mech : Fld := ⟨0x50000, 5, 5⟩
def Reg.ETH_PTP_CFG.transport : Fld := ⟨0x50000, 4, 4⟩
def Reg.ETH_PTP_CFG.role : Fld := ⟨0x50000, 3, 2⟩
def Reg.ETH_PTP_CFG.port : Fld := ⟨0x50000, 0, 0⟩
def Reg.ETH_PTP_INTV : Nat := 0x50004
def Reg.ETH_PTP_INTV.log_announce : Fld := ⟨0x50004, 23, 16⟩
def Reg.ETH_PTP_INTV.log_delay_req : Fld := ⟨0x50004, 15, 8⟩
def Reg.ETH_PTP_INTV.log_sync : Fld := ⟨0x50004, 7, 0⟩
def Reg.ETH_PTP_STATUS : Nat := 0x50008
def Reg.ETH_PTP_STATUS.port_state : Fld := ⟨0x50008, 31, 28⟩
def Reg.ETH_PTP_STATUS.servo_state : Fld := ⟨0x50008, 27, 26⟩
def Reg.ETH_PTP_STATUS.active_port : Fld := ⟨0x50008, 25, 25⟩
def Reg.ETH_PTP_OFFSET : Nat := 0x5000C
def Reg.ETH_PTP_OFFSET.off : Fld := ⟨0x5000C, 31, 0⟩
def Reg.ETH_BCN_CFG : Nat := 0x50020
def Reg.ETH_BCN_CFG.en : Fld := ⟨0x50020, 31, 31⟩
def Reg.ETH_BCN_CFG.standby_en : Fld := ⟨0x50020, 30, 30⟩
def Reg.ETH_BCN_CFG.ports : Fld := ⟨0x50020, 29, 28⟩
def Reg.ETH_BCN_CFG.pairs : Fld := ⟨0x50020, 26, 24⟩
def Reg.ETH_BCN_CFG.dscp : Fld := ⟨0x50020, 21, 16⟩
def Reg.ETH_BCN_CFG.period_us : Fld := ⟨0x50020, 15, 0⟩
def Reg.ETH_BCN_DST_IP : Nat := 0x50024
def Reg.ETH_BCN_DST_IP.ip : Fld := ⟨0x50024, 31, 0⟩
def Reg.ETH_BCN_UDP : Nat := 0x50028
def Reg.ETH_BCN_UDP.dst_port : Fld := ⟨0x50028, 31, 16⟩
def Reg.ETH_BCN_UDP.src_port : Fld := ⟨0x50028, 15, 0⟩
def Reg.ETH_BCN_SENT : Nat := 0x5002C
def Reg.ETH_BCN_SENT.cnt : Fld := ⟨0x5002C, 31, 0⟩
def Reg.ETH_BCN_DROP : Nat := 0x50030
def Reg.ETH_BCN_DROP.cnt : Fld := ⟨0x50030, 31, 0⟩
def Reg.ETH_P_CFG (n : Nat) : Nat := 0x50100 + 0x100 * n
def Reg.ETH_P_CFG.vlan_id (n : Nat) : Fld := ⟨0x50100 + 0x100 * n, 27, 16⟩
def Reg.ETH_P_CFG.vlan_pcp (n : Nat) : Fld := ⟨0x50100 + 0x100 * n, 15, 13⟩
def Reg.ETH_P_CFG.vlan_en (n : Nat) : Fld := ⟨0x50100 + 0x100 * n, 12, 12⟩
def Reg.ETH_P_CFG.an_en (n : Nat) : Fld := ⟨0x50100 + 0x100 * n, 1, 1⟩
def Reg.ETH_P_CFG.en (n : Nat) : Fld := ⟨0x50100 + 0x100 * n, 0, 0⟩
def Reg.ETH_P_STATUS (n : Nat) : Nat := 0x50104 + 0x100 * n
def Reg.ETH_P_STATUS.ts_ovf (n : Nat) : Fld := ⟨0x50104 + 0x100 * n, 31, 16⟩
def Reg.ETH_P_STATUS.an_done (n : Nat) : Fld := ⟨0x50104 + 0x100 * n, 1, 1⟩
def Reg.ETH_P_STATUS.link (n : Nat) : Fld := ⟨0x50104 + 0x100 * n, 0, 0⟩
def Reg.ETH_P_MAC_LO (n : Nat) : Nat := 0x50108 + 0x100 * n
def Reg.ETH_P_MAC_LO.mac (n : Nat) : Fld := ⟨0x50108 + 0x100 * n, 31, 0⟩
def Reg.ETH_P_MAC_HI (n : Nat) : Nat := 0x5010C + 0x100 * n
def Reg.ETH_P_MAC_HI.mac (n : Nat) : Fld := ⟨0x5010C + 0x100 * n, 15, 0⟩
def Reg.ETH_P_IP (n : Nat) : Nat := 0x50110 + 0x100 * n
def Reg.ETH_P_IP.ip (n : Nat) : Fld := ⟨0x50110 + 0x100 * n, 31, 0⟩
def Reg.ETH_P_MASK (n : Nat) : Nat := 0x50114 + 0x100 * n
def Reg.ETH_P_MASK.mask (n : Nat) : Fld := ⟨0x50114 + 0x100 * n, 31, 0⟩
def Reg.ETH_P_GW (n : Nat) : Nat := 0x50118 + 0x100 * n
def Reg.ETH_P_GW.gw (n : Nat) : Fld := ⟨0x50118 + 0x100 * n, 31, 0⟩
def Reg.ETH_P_TS_LAT (n : Nat) : Nat := 0x5011C + 0x100 * n
def Reg.ETH_P_TS_LAT.tx_lat (n : Nat) : Fld := ⟨0x5011C + 0x100 * n, 31, 16⟩
def Reg.ETH_P_TS_LAT.rx_lat (n : Nat) : Fld := ⟨0x5011C + 0x100 * n, 15, 0⟩
def Reg.ETH_P_RX_DISCARD (n : Nat) : Nat := 0x50120 + 0x100 * n
def Reg.ETH_P_RX_DISCARD.cnt (n : Nat) : Fld := ⟨0x50120 + 0x100 * n, 31, 0⟩
def Reg.TRV_CFG : Nat := 0x60000
def Reg.TRV_CFG.headroom_pct : Fld := ⟨0x60000, 23, 16⟩
def Reg.TRV_RUNAHEAD : Nat := 0x60004
def Reg.TRV_RUNAHEAD.window_us : Fld := ⟨0x60004, 17, 0⟩
def Reg.TRV_RUN_MIN : Nat := 0x60008
def Reg.TRV_RUN_MIN.links : Fld := ⟨0x60008, 31, 0⟩
def Reg.TRV_FIRE_LEAD : Nat := 0x6000C
def Reg.TRV_FIRE_LEAD.links : Fld := ⟨0x6000C, 31, 0⟩
def Reg.TRV_URGENT_LEAD : Nat := 0x60010
def Reg.TRV_URGENT_LEAD.links : Fld := ⟨0x60010, 31, 0⟩
def Reg.TRV_PARK_ORDER : Nat := 0x60014
def Reg.TRV_PARK_ORDER.order : Fld := ⟨0x60014, 31, 0⟩
def Reg.TRV_PARK_REQ : Nat := 0x60018
def Reg.TRV_PARK_REQ.host_steps : Fld := ⟨0x60018, 3, 0⟩
def Reg.TRV_STATUS : Nat := 0x6001C
def Reg.TRV_STATUS.active : Fld := ⟨0x6001C, 30, 24⟩
def Reg.TRV_STATUS.steps : Fld := ⟨0x6001C, 23, 20⟩
def Reg.TRV_STATUS.src : Fld := ⟨0x6001C, 19, 16⟩
def Reg.TRV_STATUS.capped : Fld := ⟨0x6001C, 1, 1⟩
def Reg.TRV_CEILING : Nat := 0x60020
def Reg.TRV_CEILING.limit : Fld := ⟨0x60020, 31, 30⟩
def Reg.TRV_CEILING.lines : Fld := ⟨0x60020, 19, 0⟩
def Reg.TRV_RUNAHEAD_EFF : Nat := 0x60024
def Reg.TRV_RUNAHEAD_EFF.links : Fld := ⟨0x60024, 31, 0⟩
def Reg.TRV_RUNAHEAD_EFF_US : Nat := 0x60028
def Reg.TRV_RUNAHEAD_EFF_US.us : Fld := ⟨0x60028, 31, 0⟩
def Reg.TRV_FIRE_LEAD_EFF : Nat := 0x6002C
def Reg.TRV_FIRE_LEAD_EFF.links : Fld := ⟨0x6002C, 31, 0⟩
def Reg.TRV_TILE_CAP : Nat := 0x60030
def Reg.TRV_TILE_CAP.units : Fld := ⟨0x60030, 31, 0⟩
def Reg.TRV_TILE_FREE : Nat := 0x60034
def Reg.TRV_TILE_FREE.units : Fld := ⟨0x60034, 31, 0⟩
def Reg.TRV_QUEUE_NORMAL : Nat := 0x60038
def Reg.TRV_QUEUE_NORMAL.cnt : Fld := ⟨0x60038, 31, 0⟩
def Reg.TRV_QUEUE_URGENT : Nat := 0x6003C
def Reg.TRV_QUEUE_URGENT.cnt : Fld := ⟨0x6003C, 31, 0⟩
def Reg.TRV_LOAD : Nat := 0x60040
def Reg.TRV_LOAD.peak_pct : Fld := ⟨0x60040, 15, 8⟩
def Reg.TRV_LOAD.load_pct : Fld := ⟨0x60040, 7, 0⟩
def Reg.TRV_SLACK_MIN : Nat := 0x60044
def Reg.TRV_SLACK_MIN.slack : Fld := ⟨0x60044, 31, 0⟩
def Reg.TRV_RENDERED : Nat := 0x60080
def Reg.TRV_RENDERED.cnt : Fld := ⟨0x60080, 31, 0⟩
def Reg.TRV_STEAL_CLUSTER : Nat := 0x60084
def Reg.TRV_STEAL_CLUSTER.cnt : Fld := ⟨0x60084, 31, 0⟩
def Reg.TRV_STEAL_RING : Nat := 0x60088
def Reg.TRV_STEAL_RING.cnt : Fld := ⟨0x60088, 31, 0⟩
def Reg.TRV_REQUEUED : Nat := 0x6008C
def Reg.TRV_REQUEUED.cnt : Fld := ⟨0x6008C, 31, 0⟩
def Reg.TRV_MISS : Nat := 0x60090
def Reg.TRV_MISS.cnt : Fld := ⟨0x60090, 31, 0⟩
def Reg.TRV_FELL_BACK : Nat := 0x60094
def Reg.TRV_FELL_BACK.cnt : Fld := ⟨0x60094, 31, 0⟩
def Reg.TRV_BLANKED : Nat := 0x60098
def Reg.TRV_BLANKED.cnt : Fld := ⟨0x60098, 31, 0⟩
def Reg.TRV_ABANDONED : Nat := 0x6009C
def Reg.TRV_ABANDONED.cnt : Fld := ⟨0x6009C, 31, 0⟩
def Reg.TRV_TILE_WAIT : Nat := 0x600A0
def Reg.TRV_TILE_WAIT.cnt : Fld := ⟨0x600A0, 31, 0⟩
def Reg.TRV_STALL_LO : Nat := 0x600A4
def Reg.TRV_STALL_LO.cnt : Fld := ⟨0x600A4, 31, 0⟩
def Reg.TRV_STALL_HI : Nat := 0x600A8
def Reg.TRV_STALL_HI.cnt : Fld := ⟨0x600A8, 31, 0⟩
def Reg.TRV_E_STATUS (n : Nat) : Nat := 0x61000 + 0x10 * n
def Reg.TRV_E_STATUS.state (n : Nat) : Fld := ⟨0x61000 + 0x10 * n, 31, 30⟩
def Reg.TRV_E_STATUS.plane (n : Nat) : Fld := ⟨0x61000 + 0x10 * n, 19, 16⟩
def Reg.TRV_E_STATUS.swath (n : Nat) : Fld := ⟨0x61000 + 0x10 * n, 15, 0⟩
def Reg.TRV_E_COUNT (n : Nat) : Nat := 0x61004 + 0x10 * n
def Reg.TRV_E_COUNT.cnt (n : Nat) : Fld := ⟨0x61004 + 0x10 * n, 31, 0⟩
def Reg.TRV_E_STOLEN (n : Nat) : Nat := 0x61008 + 0x10 * n
def Reg.TRV_E_STOLEN.cnt (n : Nat) : Fld := ⟨0x61008 + 0x10 * n, 31, 0⟩
def Reg.TRV_SCR_TBL_SEL : Nat := 0x68000
def Reg.TRV_SCR_TBL_SEL.plane : Fld := ⟨0x68000, 19, 16⟩
def Reg.TRV_SCR_TBL_SEL.version : Fld := ⟨0x68000, 13, 12⟩
def Reg.TRV_SCR_TBL_SEL.table : Fld := ⟨0x68000, 10, 8⟩
def Reg.TRV_SCR_TBL_SEL.page : Fld := ⟨0x68000, 3, 0⟩
def Reg.TRV_SCR_TBL_EPOCH : Nat := 0x68004
def Reg.TRV_SCR_TBL_EPOCH.epoch : Fld := ⟨0x68004, 31, 0⟩
def Reg.TRV_SCR_TBL_SIZE : Nat := 0x68008
def Reg.TRV_SCR_TBL_SIZE.size : Fld := ⟨0x68008, 20, 0⟩
def Reg.TRV_SCR_STATUS : Nat := 0x6800C
def Reg.TRV_SCR_STATUS.thr_loaded : Fld := ⟨0x6800C, 9, 0⟩
def Reg.TRV_SCR_P_CFG (n : Nat) : Nat := 0x68100 + 0x10 * n
def Reg.TRV_SCR_P_CFG.decorr (n : Nat) : Fld := ⟨0x68100 + 0x10 * n, 16, 16⟩
def Reg.TRV_SCR_P_CFG.yoff (n : Nat) : Fld := ⟨0x68100 + 0x10 * n, 15, 8⟩
def Reg.TRV_SCR_P_CFG.xoff (n : Nat) : Fld := ⟨0x68100 + 0x10 * n, 7, 0⟩
def Reg.TRV_SCR_P_NOUT_DEF (n : Nat) : Nat := 0x68104 + 0x10 * n
def Reg.TRV_SCR_P_NOUT_DEF.wm2 (n : Nat) : Fld := ⟨0x68104 + 0x10 * n, 27, 21⟩
def Reg.TRV_SCR_P_NOUT_DEF.wm1 (n : Nat) : Fld := ⟨0x68104 + 0x10 * n, 20, 14⟩
def Reg.TRV_SCR_P_NOUT_DEF.wp1 (n : Nat) : Fld := ⟨0x68104 + 0x10 * n, 13, 7⟩
def Reg.TRV_SCR_P_NOUT_DEF.wp2 (n : Nat) : Fld := ⟨0x68104 + 0x10 * n, 6, 0⟩
def Reg.TRV_SCR_P_GAPS (n : Nat) : Nat := 0x68108 + 0x10 * n
def Reg.TRV_SCR_P_GAPS.cnt (n : Nat) : Fld := ⟨0x68108 + 0x10 * n, 19, 0⟩
def Reg.TRV_SCR_P_LOST (n : Nat) : Nat := 0x6810C + 0x10 * n
def Reg.TRV_SCR_P_LOST.cnt (n : Nat) : Fld := ⟨0x6810C + 0x10 * n, 19, 0⟩
def Reg.TRV_SCR_P_SAT (n : Nat) : Nat := 0x68200 + 0x4 * n
def Reg.TRV_SCR_P_SAT.cnt (n : Nat) : Fld := ⟨0x68200 + 0x4 * n, 31, 0⟩
def Reg.CMP_STATUS : Nat := 0x70000
def Reg.CMP_STATUS.item_wait : Fld := ⟨0x70000, 7, 0⟩
def Reg.CMP_TBL_SEL : Nat := 0x70004
def Reg.CMP_TBL_SEL.layer : Fld := ⟨0x70004, 18, 16⟩
def Reg.CMP_TBL_SEL.version : Fld := ⟨0x70004, 13, 12⟩
def Reg.CMP_TBL_SEL.table : Fld := ⟨0x70004, 9, 8⟩
def Reg.CMP_TBL_SEL.page : Fld := ⟨0x70004, 3, 0⟩
def Reg.CMP_TBL_EPOCH : Nat := 0x70008
def Reg.CMP_TBL_EPOCH.epoch : Fld := ⟨0x70008, 31, 0⟩
def Reg.CMP_TBL_DATA (n : Nat) : Nat := 0x70400 + 0x4 * n
def Reg.CMP_TBL_DATA.data (n : Nat) : Fld := ⟨0x70400 + 0x4 * n, 31, 0⟩
def Reg.CMP_L0_CFG : Nat := 0x70100
def Reg.CMP_L0_CFG.planes : Fld := ⟨0x70100, 21, 12⟩
def Reg.CMP_L0_CFG.zero_clear : Fld := ⟨0x70100, 11, 11⟩
def Reg.CMP_L0_CFG.upscale : Fld := ⟨0x70100, 10, 10⟩
def Reg.CMP_L0_CFG.late_policy : Fld := ⟨0x70100, 9, 8⟩
def Reg.CMP_L0_CFG.boundary : Fld := ⟨0x70100, 7, 6⟩
def Reg.CMP_L0_CFG.op : Fld := ⟨0x70100, 3, 2⟩
def Reg.CMP_L0_CFG.src : Fld := ⟨0x70100, 1, 0⟩
def Reg.CMP_LI_CFG (n : Nat) : Nat := 0x70140 + 0x40 * n
def Reg.CMP_LI_CFG.planes (n : Nat) : Fld := ⟨0x70140 + 0x40 * n, 21, 12⟩
def Reg.CMP_LI_CFG.zero_clear (n : Nat) : Fld := ⟨0x70140 + 0x40 * n, 11, 11⟩
def Reg.CMP_LI_CFG.upscale (n : Nat) : Fld := ⟨0x70140 + 0x40 * n, 10, 10⟩
def Reg.CMP_LI_CFG.late_policy (n : Nat) : Fld := ⟨0x70140 + 0x40 * n, 9, 8⟩
def Reg.CMP_LI_CFG.boundary (n : Nat) : Fld := ⟨0x70140 + 0x40 * n, 7, 6⟩
def Reg.CMP_LI_CFG.op (n : Nat) : Fld := ⟨0x70140 + 0x40 * n, 3, 2⟩
def Reg.CMP_LI_CFG.src (n : Nat) : Fld := ⟨0x70140 + 0x40 * n, 1, 0⟩
def Reg.CMP_L6_CFG : Nat := 0x70280
def Reg.CMP_L6_CFG.planes : Fld := ⟨0x70280, 21, 12⟩
def Reg.CMP_L6_CFG.zero_clear : Fld := ⟨0x70280, 11, 11⟩
def Reg.CMP_L6_CFG.upscale : Fld := ⟨0x70280, 10, 10⟩
def Reg.CMP_L6_CFG.late_policy : Fld := ⟨0x70280, 9, 8⟩
def Reg.CMP_L6_CFG.boundary : Fld := ⟨0x70280, 7, 6⟩
def Reg.CMP_L6_CFG.op : Fld := ⟨0x70280, 3, 2⟩
def Reg.CMP_L6_CFG.src : Fld := ⟨0x70280, 1, 0⟩
def Reg.CMP_L7_CFG : Nat := 0x702C0
def Reg.CMP_L7_CFG.planes : Fld := ⟨0x702C0, 21, 12⟩
def Reg.CMP_L7_CFG.zero_clear : Fld := ⟨0x702C0, 11, 11⟩
def Reg.CMP_L7_CFG.upscale : Fld := ⟨0x702C0, 10, 10⟩
def Reg.CMP_L7_CFG.late_policy : Fld := ⟨0x702C0, 9, 8⟩
def Reg.CMP_L7_CFG.boundary : Fld := ⟨0x702C0, 7, 6⟩
def Reg.CMP_L7_CFG.op : Fld := ⟨0x702C0, 3, 2⟩
def Reg.CMP_L7_CFG.src : Fld := ⟨0x702C0, 1, 0⟩
def Reg.CMP_L_SCALE (n : Nat) : Nat := 0x70104 + 0x40 * n
def Reg.CMP_L_SCALE.dy (n : Nat) : Fld := ⟨0x70104 + 0x40 * n, 7, 4⟩
def Reg.CMP_L_SCALE.dx (n : Nat) : Fld := ⟨0x70104 + 0x40 * n, 3, 0⟩
def Reg.CMP_L_ITEM_PITCH (n : Nat) : Nat := 0x70108 + 0x40 * n
def Reg.CMP_L_ITEM_PITCH.lines (n : Nat) : Fld := ⟨0x70108 + 0x40 * n, 31, 0⟩
def Reg.CMP_L_ITEM_OFFSET (n : Nat) : Nat := 0x7010C + 0x40 * n
def Reg.CMP_L_ITEM_OFFSET.line (n : Nat) : Fld := ⟨0x7010C + 0x40 * n, 31, 0⟩
def Reg.CMP_L_ITEM_BASE (n : Nat) : Nat := 0x70110 + 0x40 * n
def Reg.CMP_L_ITEM_BASE.item (n : Nat) : Fld := ⟨0x70110 + 0x40 * n, 31, 0⟩
def Reg.CMP_L_BIND_LEAD (n : Nat) : Nat := 0x70114 + 0x40 * n
def Reg.CMP_L_BIND_LEAD.links (n : Nat) : Fld := ⟨0x70114 + 0x40 * n, 31, 0⟩
def Reg.CMP_L_FLIP_LEAD (n : Nat) : Nat := 0x70118 + 0x40 * n
def Reg.CMP_L_FLIP_LEAD.links (n : Nat) : Fld := ⟨0x70118 + 0x40 * n, 31, 0⟩
def Reg.CMP_L_FENCE (n : Nat) : Nat := 0x7011C + 0x40 * n
def Reg.CMP_L_FENCE.fence (n : Nat) : Fld := ⟨0x7011C + 0x40 * n, 31, 0⟩
def Reg.CMP_L_ITEM_NOW (n : Nat) : Nat := 0x70120 + 0x40 * n
def Reg.CMP_L_ITEM_NOW.item (n : Nat) : Fld := ⟨0x70120 + 0x40 * n, 31, 0⟩
def Reg.CMP_L_SHOWN (n : Nat) : Nat := 0x70124 + 0x40 * n
def Reg.CMP_L_SHOWN.item (n : Nat) : Fld := ⟨0x70124 + 0x40 * n, 31, 0⟩
def Reg.CMP_L_HELD (n : Nat) : Nat := 0x70128 + 0x40 * n
def Reg.CMP_L_HELD.ranges (n : Nat) : Fld := ⟨0x70128 + 0x40 * n, 20, 16⟩
def Reg.CMP_L_HELD.items (n : Nat) : Fld := ⟨0x70128 + 0x40 * n, 8, 0⟩
def Reg.CMP_L_LATE_CNT (n : Nat) : Nat := 0x7012C + 0x40 * n
def Reg.CMP_L_LATE_CNT.cnt (n : Nat) : Fld := ⟨0x7012C + 0x40 * n, 31, 0⟩
def Reg.CMP_L_DISCARD_CNT (n : Nat) : Nat := 0x70130 + 0x40 * n
def Reg.CMP_L_DISCARD_CNT.cnt (n : Nat) : Fld := ⟨0x70130 + 0x40 * n, 31, 0⟩
def Reg.CMP_PROOF_CFG : Nat := 0x70800
def Reg.CMP_PROOF_CFG.en : Fld := ⟨0x70800, 31, 31⟩
def Reg.CMP_PROOF_CFG.planes : Fld := ⟨0x70800, 25, 16⟩
def Reg.CMP_PROOF_CFG.cell_y_m1 : Fld := ⟨0x70800, 13, 8⟩
def Reg.CMP_PROOF_CFG.cell_x_m1 : Fld := ⟨0x70800, 5, 0⟩
def Reg.CMP_PROOF_FIRST : Nat := 0x70804
def Reg.CMP_PROOF_FIRST.nozzle : Fld := ⟨0x70804, 19, 0⟩
def Reg.CMP_PROOF_CELLS : Nat := 0x70808
def Reg.CMP_PROOF_CELLS.cells : Fld := ⟨0x70808, 12, 0⟩
def Reg.CMP_PROOF_WT_LO : Nat := 0x7080C
def Reg.CMP_PROOF_WT_LO.w4 : Fld := ⟨0x7080C, 31, 24⟩
def Reg.CMP_PROOF_WT_LO.w3 : Fld := ⟨0x7080C, 23, 16⟩
def Reg.CMP_PROOF_WT_LO.w2 : Fld := ⟨0x7080C, 15, 8⟩
def Reg.CMP_PROOF_WT_LO.w1 : Fld := ⟨0x7080C, 7, 0⟩
def Reg.CMP_PROOF_WT_HI : Nat := 0x70810
def Reg.CMP_PROOF_WT_HI.w7 : Fld := ⟨0x70810, 23, 16⟩
def Reg.CMP_PROOF_WT_HI.w6 : Fld := ⟨0x70810, 15, 8⟩
def Reg.CMP_PROOF_WT_HI.w5 : Fld := ⟨0x70810, 7, 0⟩
def Reg.CMP_PROOF_BASE : Nat := 0x70814
def Reg.CMP_PROOF_BASE.base : Fld := ⟨0x70814, 31, 0⟩
def Reg.CMP_PROOF_DEPTH : Nat := 0x70818
def Reg.CMP_PROOF_DEPTH.depth : Fld := ⟨0x70818, 15, 0⟩
def Reg.CMP_PROOF_ROWS : Nat := 0x7081C
def Reg.CMP_PROOF_ROWS.cnt : Fld := ⟨0x7081C, 31, 0⟩
def Reg.CMP_PROOF_DROP : Nat := 0x70820
def Reg.CMP_PROOF_DROP.cnt : Fld := ⟨0x70820, 31, 0⟩
def Reg.VGP_CFG : Nat := 0x80000
def Reg.VGP_CFG.req_en : Fld := ⟨0x80000, 0, 0⟩
def Reg.VGP_STATUS : Nat := 0x80004
def Reg.VGP_STATUS.pool_free : Fld := ⟨0x80004, 31, 20⟩
def Reg.VGP_STATUS.jobs : Fld := ⟨0x80004, 19, 16⟩
def Reg.VGP_STATUS.stream_wait : Fld := ⟨0x80004, 8, 8⟩
def Reg.VGP_STATUS.req_out : Fld := ⟨0x80004, 6, 0⟩
def Reg.VGP_STORE_SIZE : Nat := 0x80008
def Reg.VGP_STORE_SIZE.extents : Fld := ⟨0x80008, 31, 0⟩
def Reg.VGP_STORE_FREE : Nat := 0x8000C
def Reg.VGP_STORE_FREE.extents : Fld := ⟨0x8000C, 31, 0⟩
def Reg.VGP_STORE_LOW : Nat := 0x80010
def Reg.VGP_STORE_LOW.extents : Fld := ⟨0x80010, 31, 0⟩
def Reg.VGP_CHK_FIRST : Nat := 0x80014
def Reg.VGP_CHK_FIRST.cnt : Fld := ⟨0x80014, 31, 0⟩
def Reg.VGP_CHK_REREAD_OK : Nat := 0x80018
def Reg.VGP_CHK_REREAD_OK.cnt : Fld := ⟨0x80018, 31, 0⟩
def Reg.VGP_REQ_CNT : Nat := 0x8001C
def Reg.VGP_REQ_CNT.cnt : Fld := ⟨0x8001C, 31, 0⟩
def Reg.VGP_BLANK_LINES : Nat := 0x80020
def Reg.VGP_BLANK_LINES.cnt : Fld := ⟨0x80020, 31, 0⟩
def Reg.VGP_JOB_STATE (n : Nat) : Nat := 0x80100 + 0x20 * n
def Reg.VGP_JOB_STATE.closed (n : Nat) : Fld := ⟨0x80100 + 0x20 * n, 17, 17⟩
def Reg.VGP_JOB_STATE.kind (n : Nat) : Fld := ⟨0x80100 + 0x20 * n, 16, 16⟩
def Reg.VGP_JOB_STATE.tag (n : Nat) : Fld := ⟨0x80100 + 0x20 * n, 15, 8⟩
def Reg.VGP_JOB_STATE.state (n : Nat) : Fld := ⟨0x80100 + 0x20 * n, 2, 0⟩
def Reg.VGP_JOB_EXTENTS (n : Nat) : Nat := 0x80104 + 0x20 * n
def Reg.VGP_JOB_EXTENTS.extents (n : Nat) : Fld := ⟨0x80104 + 0x20 * n, 31, 0⟩
def Reg.VGP_JOB_RESERVED (n : Nat) : Nat := 0x80108 + 0x20 * n
def Reg.VGP_JOB_RESERVED.extents (n : Nat) : Fld := ⟨0x80108 + 0x20 * n, 31, 0⟩
def Reg.VGP_JOB_REPEATS (n : Nat) : Nat := 0x8010C + 0x20 * n
def Reg.VGP_JOB_REPEATS.cnt (n : Nat) : Fld := ⟨0x8010C + 0x20 * n, 31, 0⟩
def Reg.VGP_JOB_STARVED (n : Nat) : Nat := 0x80110 + 0x20 * n
def Reg.VGP_JOB_STARVED.cnt (n : Nat) : Fld := ⟨0x80110 + 0x20 * n, 31, 0⟩
def Reg.VGP_JOB_BLANKED (n : Nat) : Nat := 0x80114 + 0x20 * n
def Reg.VGP_JOB_BLANKED.cnt (n : Nat) : Fld := ⟨0x80114 + 0x20 * n, 31, 0⟩
def Reg.FGD_CFG : Nat := 0x90000
def Reg.FGD_CFG.down_boundary : Fld := ⟨0x90000, 9, 9⟩
def Reg.FGD_CFG.down_en : Fld := ⟨0x90000, 8, 8⟩
def Reg.FGD_STATUS : Nat := 0x90004
def Reg.FGD_STATUS.geo_ok : Fld := ⟨0x90004, 3, 3⟩
def Reg.FGD_STATUS.warn : Fld := ⟨0x90004, 2, 2⟩
def Reg.FGD_STATUS.down_pending : Fld := ⟨0x90004, 1, 1⟩
def Reg.FGD_STATUS.down_active : Fld := ⟨0x90004, 0, 0⟩
def Reg.FGD_PITCH_LO : Nat := 0x90008
def Reg.FGD_PITCH_LO.pitch : Fld := ⟨0x90008, 31, 0⟩
def Reg.FGD_PITCH_HI : Nat := 0x9000C
def Reg.FGD_PITCH_HI.pitch : Fld := ⟨0x9000C, 15, 0⟩
def Reg.FGD_PITCH_EFF_LO : Nat := 0x90010
def Reg.FGD_PITCH_EFF_LO.pitch : Fld := ⟨0x90010, 31, 0⟩
def Reg.FGD_PITCH_EFF_HI : Nat := 0x90014
def Reg.FGD_PITCH_EFF_HI.pitch : Fld := ⟨0x90014, 15, 0⟩
def Reg.FGD_GEO_STATUS : Nat := 0x90018
def Reg.FGD_GEO_STATUS.cause : Fld := ⟨0x90018, 31, 28⟩
def Reg.FGD_GEO_STATUS.head : Fld := ⟨0x90018, 8, 0⟩
def Reg.FGD_RATE : Nat := 0x9001C
def Reg.FGD_RATE.rate : Fld := ⟨0x9001C, 19, 0⟩
def Reg.FGD_HEAD_LIMIT : Nat := 0x90020
def Reg.FGD_HEAD_LIMIT.rate : Fld := ⟨0x90020, 17, 0⟩
def Reg.FGD_TBL_SEL : Nat := 0x90024
def Reg.FGD_TBL_SEL.head : Fld := ⟨0x90024, 8, 0⟩
def Reg.FGD_PLACE_MAX : Nat := 0x90028
def Reg.FGD_PLACE_MAX.err : Fld := ⟨0x90028, 15, 0⟩
def Reg.FGD_PLACE_OVER : Nat := 0x9002C
def Reg.FGD_PLACE_OVER.cnt : Fld := ⟨0x9002C, 31, 0⟩
def Reg.FGD_DOWN_SKIPPED : Nat := 0x90030
def Reg.FGD_DOWN_SKIPPED.cnt : Fld := ⟨0x90030, 31, 0⟩
def Reg.FGD_BLANK_TOTAL_LO : Nat := 0x90034
def Reg.FGD_BLANK_TOTAL_LO.cnt : Fld := ⟨0x90034, 31, 0⟩
def Reg.FGD_BLANK_TOTAL_HI : Nat := 0x90038
def Reg.FGD_BLANK_TOTAL_HI.cnt : Fld := ⟨0x90038, 31, 0⟩
def Reg.FGD_USAGE_CFG : Nat := 0x90040
def Reg.FGD_USAGE_CFG.en : Fld := ⟨0x90040, 31, 31⟩
def Reg.FGD_USAGE_CFG.period_s : Fld := ⟨0x90040, 15, 0⟩
def Reg.FGD_USAGE_STATUS : Nat := 0x90044
def Reg.FGD_USAGE_STATUS.no_key : Fld := ⟨0x90044, 31, 31⟩
def Reg.FGD_USAGE_STATUS.fail : Fld := ⟨0x90044, 15, 0⟩
def Reg.FGD_P_DOWN_REMAP (n : Nat) : Nat := 0x90100 + 0x4 * n
def Reg.FGD_P_DOWN_REMAP.map (n : Nat) : Fld := ⟨0x90100 + 0x4 * n, 20, 0⟩
def Reg.FGD_P_VOL_LO (n : Nat) : Nat := 0x90200 + 0x8 * n
def Reg.FGD_P_VOL_LO.vol (n : Nat) : Fld := ⟨0x90200 + 0x8 * n, 31, 0⟩
def Reg.FGD_P_VOL_HI (n : Nat) : Nat := 0x90204 + 0x8 * n
def Reg.FGD_P_VOL_HI.vol (n : Nat) : Fld := ⟨0x90204 + 0x8 * n, 31, 0⟩
def Reg.FGD_HB_BLANK (n k : Nat) : Nat := 0x90400 + 0x40 * n + 0x4 * k
def Reg.FGD_HB_BLANK.cnt (n k : Nat) : Fld := ⟨0x90400 + 0x40 * n + 0x4 * k, 31, 0⟩
def Reg.FGD_HB_LAT (n : Nat) : Nat := 0x9042C + 0x40 * n
def Reg.FGD_HB_LAT.hub_lat (n : Nat) : Fld := ⟨0x9042C + 0x40 * n, 31, 16⟩
def Reg.FGD_HB_LAT.lane_lat (n : Nat) : Fld := ⟨0x9042C + 0x40 * n, 15, 0⟩
def Reg.FGD_HB_DEPTH (n : Nat) : Nat := 0x90430 + 0x40 * n
def Reg.FGD_HB_DEPTH.depth (n : Nat) : Fld := ⟨0x90430 + 0x40 * n, 7, 0⟩
def Reg.FGD_HB_COLLIDE (n : Nat) : Nat := 0x90434 + 0x40 * n
def Reg.FGD_HB_COLLIDE.cnt (n : Nat) : Fld := ⟨0x90434 + 0x40 * n, 31, 0⟩
def Reg.FGD_HD_CFG (n : Nat) : Nat := 0x91000 + 0x20 * n
def Reg.FGD_HD_CFG.en (n : Nat) : Fld := ⟨0x91000 + 0x20 * n, 31, 31⟩
def Reg.FGD_HD_CFG.type (n : Nat) : Fld := ⟨0x91000 + 0x20 * n, 27, 24⟩
def Reg.FGD_HD_CFG.hub (n : Nat) : Fld := ⟨0x91000 + 0x20 * n, 21, 16⟩
def Reg.FGD_HD_CFG.slot (n : Nat) : Fld := ⟨0x91000 + 0x20 * n, 15, 12⟩
def Reg.FGD_HD_CFG.plane (n : Nat) : Fld := ⟨0x91000 + 0x20 * n, 11, 8⟩
def Reg.FGD_HD_CFG.rows_m1 (n : Nat) : Fld := ⟨0x91000 + 0x20 * n, 1, 0⟩
def Reg.FGD_HD_GEOM (n : Nat) : Nat := 0x91004 + 0x20 * n
def Reg.FGD_HD_GEOM.pos (n : Nat) : Fld := ⟨0x91004 + 0x20 * n, 31, 12⟩
def Reg.FGD_HD_GEOM.noz_m1 (n : Nat) : Fld := ⟨0x91004 + 0x20 * n, 11, 0⟩
def Reg.FGD_HD_ROW (n k : Nat) : Nat := 0x91008 + 0x20 * n + 0x4 * k
def Reg.FGD_HD_ROW.off (n k : Nat) : Fld := ⟨0x91008 + 0x20 * n + 0x4 * k, 31, 0⟩
def Reg.FGD_HD_TLM (n : Nat) : Nat := 0x91018 + 0x20 * n
def Reg.FGD_HD_TLM.band (n : Nat) : Fld := ⟨0x91018 + 0x20 * n, 31, 28⟩
def Reg.FGD_HD_TLM.temp (n : Nat) : Fld := ⟨0x91018 + 0x20 * n, 27, 16⟩
def Reg.FGD_HD_TLM.vhead (n : Nat) : Fld := ⟨0x91018 + 0x20 * n, 15, 0⟩
def Reg.FGD_HD_USTAT (n : Nat) : Nat := 0x9101C + 0x20 * n
def Reg.FGD_HD_USTAT.write_fail (n : Nat) : Fld := ⟨0x9101C + 0x20 * n, 2, 2⟩
def Reg.FGD_HD_USTAT.unverified (n : Nat) : Fld := ⟨0x9101C + 0x20 * n, 1, 1⟩
def Reg.FGD_HD_USTAT.serial_valid (n : Nat) : Fld := ⟨0x9101C + 0x20 * n, 0, 0⟩
def Reg.FGD_HD_ACT_LO (n : Nat) : Nat := 0x94200 + 0x20 * n
def Reg.FGD_HD_ACT_LO.cnt (n : Nat) : Fld := ⟨0x94200 + 0x20 * n, 31, 0⟩
def Reg.FGD_HD_ACT_HI (n : Nat) : Nat := 0x94204 + 0x20 * n
def Reg.FGD_HD_ACT_HI.cnt (n : Nat) : Fld := ⟨0x94204 + 0x20 * n, 31, 0⟩
def Reg.FGD_HD_VOL_LO (n : Nat) : Nat := 0x94208 + 0x20 * n
def Reg.FGD_HD_VOL_LO.vol (n : Nat) : Fld := ⟨0x94208 + 0x20 * n, 31, 0⟩
def Reg.FGD_HD_VOL_HI (n : Nat) : Nat := 0x9420C + 0x20 * n
def Reg.FGD_HD_VOL_HI.vol (n : Nat) : Fld := ⟨0x9420C + 0x20 * n, 31, 0⟩
def Reg.FGD_HD_SER_LO (n : Nat) : Nat := 0x94210 + 0x20 * n
def Reg.FGD_HD_SER_LO.ser (n : Nat) : Fld := ⟨0x94210 + 0x20 * n, 31, 0⟩
def Reg.FGD_HD_SER_HI (n : Nat) : Nat := 0x94214 + 0x20 * n
def Reg.FGD_HD_SER_HI.ser (n : Nat) : Fld := ⟨0x94214 + 0x20 * n, 31, 0⟩
def Reg.FGD_HD_USEQ (n : Nat) : Nat := 0x94218 + 0x20 * n
def Reg.FGD_HD_USEQ.seq (n : Nat) : Fld := ⟨0x94218 + 0x20 * n, 31, 0⟩
def Reg.FGD_HT_RATE (n : Nat) : Nat := 0x97400 + 0x40 * n
def Reg.FGD_HT_RATE.max_rate (n : Nat) : Fld := ⟨0x97400 + 0x40 * n, 17, 0⟩
def Reg.FGD_HT_VOLT (n : Nat) : Nat := 0x97404 + 0x40 * n
def Reg.FGD_HT_VOLT.k (n : Nat) : Fld := ⟨0x97404 + 0x40 * n, 31, 16⟩
def Reg.FGD_HT_VOLT.vnom (n : Nat) : Fld := ⟨0x97404 + 0x40 * n, 15, 0⟩
def Reg.FGD_HT_BAND (n : Nat) : Nat := 0x97408 + 0x40 * n
def Reg.FGD_HT_BAND.def_band (n : Nat) : Fld := ⟨0x97408 + 0x40 * n, 11, 8⟩
def Reg.FGD_HT_BAND.band_base (n : Nat) : Fld := ⟨0x97408 + 0x40 * n, 7, 0⟩
def Reg.FGD_HT_VOL_A (n : Nat) : Nat := 0x9740C + 0x40 * n
def Reg.FGD_HT_VOL_A.c2 (n : Nat) : Fld := ⟨0x9740C + 0x40 * n, 31, 16⟩
def Reg.FGD_HT_VOL_A.c1 (n : Nat) : Fld := ⟨0x9740C + 0x40 * n, 15, 0⟩
def Reg.FGD_HT_VOL_B (n : Nat) : Nat := 0x97410 + 0x40 * n
def Reg.FGD_HT_VOL_B.c4 (n : Nat) : Fld := ⟨0x97410 + 0x40 * n, 31, 16⟩
def Reg.FGD_HT_VOL_B.c3 (n : Nat) : Fld := ⟨0x97410 + 0x40 * n, 15, 0⟩
def Reg.FGD_HT_VOL_C (n : Nat) : Nat := 0x97414 + 0x40 * n
def Reg.FGD_HT_VOL_C.c6 (n : Nat) : Fld := ⟨0x97414 + 0x40 * n, 31, 16⟩
def Reg.FGD_HT_VOL_C.c5 (n : Nat) : Fld := ⟨0x97414 + 0x40 * n, 15, 0⟩
def Reg.FGD_HT_VOL_D (n : Nat) : Nat := 0x97418 + 0x40 * n
def Reg.FGD_HT_VOL_D.c7 (n : Nat) : Fld := ⟨0x97418 + 0x40 * n, 15, 0⟩
def Reg.FGD_G_STATUS : Nat := 0x98000
def Reg.FGD_G_STATUS.locked : Fld := ⟨0x98000, 31, 31⟩
def Reg.FGD_G_STATUS.head_pwr : Fld := ⟨0x98000, 30, 30⟩
def Reg.FGD_G_STATUS.fatal_cause : Fld := ⟨0x98000, 23, 20⟩
def Reg.FGD_G_STATUS.pwr_off : Fld := ⟨0x98000, 19, 16⟩
def Reg.FGD_G_STATUS.lock_cause : Fld := ⟨0x98000, 11, 8⟩
def Reg.FGD_G_CFG : Nat := 0x98004
def Reg.FGD_G_CFG.wdg_src : Fld := ⟨0x98004, 31, 31⟩
def Reg.FGD_G_CFG.wdg_ms : Fld := ⟨0x98004, 25, 16⟩
def Reg.FGD_G_WDG : Nat := 0x98008
def Reg.FGD_G_WDG.key : Fld := ⟨0x98008, 15, 0⟩
def Reg.FGD_G_NOZ : Nat := 0x9800C
def Reg.FGD_G_NOZ.nozzle_max : Fld := ⟨0x9800C, 12, 0⟩
def Reg.FGD_G_NOZ_CEIL : Nat := 0x98010
def Reg.FGD_G_NOZ_CEIL.ceil : Fld := ⟨0x98010, 12, 0⟩
def Reg.FGD_G_GAIN : Nat := 0x98014
def Reg.FGD_G_GAIN.gain_max : Fld := ⟨0x98014, 28, 16⟩
def Reg.FGD_G_GAIN.gain_min : Fld := ⟨0x98014, 12, 0⟩
def Reg.FGD_G_GAIN_CEIL : Nat := 0x98018
def Reg.FGD_G_GAIN_CEIL.max : Fld := ⟨0x98018, 28, 16⟩
def Reg.FGD_G_GAIN_CEIL.min : Fld := ⟨0x98018, 12, 0⟩
def Reg.FGD_G_GAIN_RATE : Nat := 0x9801C
def Reg.FGD_G_GAIN_RATE.rate_ceil : Fld := ⟨0x9801C, 31, 16⟩
def Reg.FGD_G_GAIN_RATE.rate : Fld := ⟨0x9801C, 15, 0⟩
def Reg.FGD_G_WDISC : Nat := 0x98020
def Reg.FGD_G_WDISC.cnt : Fld := ⟨0x98020, 31, 0⟩
def Reg.FGD_G_SAVE : Nat := 0x98024
def Reg.FGD_G_SAVE.save : Fld := ⟨0x98024, 0, 0⟩
def Reg.FGD_G_THIN_TOTAL_LO : Nat := 0x98028
def Reg.FGD_G_THIN_TOTAL_LO.cnt : Fld := ⟨0x98028, 31, 0⟩
def Reg.FGD_G_THIN_TOTAL_HI : Nat := 0x9802C
def Reg.FGD_G_THIN_TOTAL_HI.cnt : Fld := ⟨0x9802C, 31, 0⟩
def Reg.FGD_G_WDG_BAD : Nat := 0x98030
def Reg.FGD_G_WDG_BAD.cnt : Fld := ⟨0x98030, 31, 0⟩
def Reg.FGD_G_T_PW (n : Nat) : Nat := 0x98100 + 0x10 * n
def Reg.FGD_G_T_PW.pw_ceil (n : Nat) : Fld := ⟨0x98100 + 0x10 * n, 31, 16⟩
def Reg.FGD_G_T_PW.pw_max (n : Nat) : Fld := ⟨0x98100 + 0x10 * n, 15, 0⟩
def Reg.FGD_G_T_VOL (n : Nat) : Nat := 0x98104 + 0x10 * n
def Reg.FGD_G_T_VOL.head_vol_max (n : Nat) : Fld := ⟨0x98104 + 0x10 * n, 31, 0⟩
def Reg.FGD_G_T_VOL_CEIL (n : Nat) : Nat := 0x98108 + 0x10 * n
def Reg.FGD_G_T_VOL_CEIL.ceil (n : Nat) : Fld := ⟨0x98108 + 0x10 * n, 31, 0⟩
def Reg.FGD_G_HB_THIN_NOZ (n : Nat) : Nat := 0x98400 + 0x10 * n
def Reg.FGD_G_HB_THIN_NOZ.cnt (n : Nat) : Fld := ⟨0x98400 + 0x10 * n, 31, 0⟩
def Reg.FGD_G_HB_THIN_VOL (n : Nat) : Nat := 0x98404 + 0x10 * n
def Reg.FGD_G_HB_THIN_VOL.cnt (n : Nat) : Fld := ⟨0x98404 + 0x10 * n, 31, 0⟩
def Reg.FGD_G_HB_PW_CLIP (n : Nat) : Nat := 0x98408 + 0x10 * n
def Reg.FGD_G_HB_PW_CLIP.cnt (n : Nat) : Fld := ⟨0x98408 + 0x10 * n, 31, 0⟩
def Reg.SKX_L_CFG (n : Nat) : Nat := 0xA0000 + 0x800 * n
def Reg.SKX_L_CFG.en (n : Nat) : Fld := ⟨0xA0000 + 0x800 * n, 31, 31⟩
def Reg.SKX_L_CFG.rate_max (n : Nat) : Fld := ⟨0xA0000 + 0x800 * n, 25, 24⟩
def Reg.SKX_L_CFG.tx_deemph (n : Nat) : Fld := ⟨0xA0000 + 0x800 * n, 19, 16⟩
def Reg.SKX_L_CTRL (n : Nat) : Nat := 0xA0004 + 0x800 * n
def Reg.SKX_L_CTRL.retrain (n : Nat) : Fld := ⟨0xA0004 + 0x800 * n, 0, 0⟩
def Reg.SKX_L_STATUS (n : Nat) : Nat := 0xA0008 + 0x800 * n
def Reg.SKX_L_STATUS.state (n : Nat) : Fld := ⟨0xA0008 + 0x800 * n, 31, 28⟩
def Reg.SKX_L_STATUS.rate (n : Nat) : Fld := ⟨0xA0008 + 0x800 * n, 27, 26⟩
def Reg.SKX_L_STATUS.bonded (n : Nat) : Fld := ⟨0xA0008 + 0x800 * n, 25, 25⟩
def Reg.SKX_L_STATUS.timing (n : Nat) : Fld := ⟨0xA0008 + 0x800 * n, 24, 24⟩
def Reg.SKX_L_STATUS.port (n : Nat) : Fld := ⟨0xA0008 + 0x800 * n, 23, 23⟩
def Reg.SKX_L_STATUS.train_cause (n : Nat) : Fld := ⟨0xA0008 + 0x800 * n, 19, 16⟩
def Reg.SKX_L_STATUS.fom_min (n : Nat) : Fld := ⟨0xA0008 + 0x800 * n, 15, 8⟩
def Reg.SKX_L_STATUS.fom (n : Nat) : Fld := ⟨0xA0008 + 0x800 * n, 7, 0⟩
def Reg.SKX_L_EQ (n : Nat) : Nat := 0xA000C + 0x800 * n
def Reg.SKX_L_EQ.ctle (n : Nat) : Fld := ⟨0xA000C + 0x800 * n, 31, 28⟩
def Reg.SKX_L_EQ.tap5 (n : Nat) : Fld := ⟨0xA000C + 0x800 * n, 24, 20⟩
def Reg.SKX_L_EQ.tap4 (n : Nat) : Fld := ⟨0xA000C + 0x800 * n, 19, 15⟩
def Reg.SKX_L_EQ.tap3 (n : Nat) : Fld := ⟨0xA000C + 0x800 * n, 14, 10⟩
def Reg.SKX_L_EQ.tap2 (n : Nat) : Fld := ⟨0xA000C + 0x800 * n, 9, 5⟩
def Reg.SKX_L_EQ.tap1 (n : Nat) : Fld := ⟨0xA000C + 0x800 * n, 4, 0⟩
def Reg.SKX_L_RT (n : Nat) : Nat := 0xA0010 + 0x800 * n
def Reg.SKX_L_RT.rt (n : Nat) : Fld := ⟨0xA0010 + 0x800 * n, 19, 0⟩
def Reg.SKX_L_LOSS (n : Nat) : Nat := 0xA0014 + 0x800 * n
def Reg.SKX_L_LOSS.count (n : Nat) : Fld := ⟨0xA0014 + 0x800 * n, 31, 16⟩
def Reg.SKX_L_LOSS.cause (n : Nat) : Fld := ⟨0xA0014 + 0x800 * n, 3, 0⟩
def Reg.SKX_L_INVALID (n : Nat) : Nat := 0xA0018 + 0x800 * n
def Reg.SKX_L_INVALID.cnt (n : Nat) : Fld := ⟨0xA0018 + 0x800 * n, 31, 0⟩
def Reg.SKX_L_BADPKT (n : Nat) : Nat := 0xA001C + 0x800 * n
def Reg.SKX_L_BADPKT.cnt (n : Nat) : Fld := ⟨0xA001C + 0x800 * n, 31, 0⟩
def Reg.SKX_L_SKIP (n : Nat) : Nat := 0xA0020 + 0x800 * n
def Reg.SKX_L_SKIP.cnt (n : Nat) : Fld := ⟨0xA0020 + 0x800 * n, 31, 0⟩
def Reg.SKX_CFG : Nat := 0xB4000
def Reg.SKX_CFG.dark_ms : Fld := ⟨0xB4000, 15, 8⟩
def Reg.SKX_CFG.dark_policy : Fld := ⟨0xB4000, 0, 0⟩
def Reg.SKX_UP_LO : Nat := 0xB4004
def Reg.SKX_UP_LO.up : Fld := ⟨0xB4004, 31, 0⟩
def Reg.SKX_UP_HI : Nat := 0xB4008
def Reg.SKX_UP_HI.up : Fld := ⟨0xB4008, 7, 0⟩
def Reg.SKX_HUB_CFG (n : Nat) : Nat := 0xB5000 + 0x40 * n
def Reg.SKX_HUB_CFG.en (n : Nat) : Fld := ⟨0xB5000 + 0x40 * n, 31, 31⟩
def Reg.SKX_HUB_CFG.bonded (n : Nat) : Fld := ⟨0xB5000 + 0x40 * n, 30, 30⟩
def Reg.SKX_HUB_CFG.lane1 (n : Nat) : Fld := ⟨0xB5000 + 0x40 * n, 13, 8⟩
def Reg.SKX_HUB_CFG.lane0 (n : Nat) : Fld := ⟨0xB5000 + 0x40 * n, 5, 0⟩
def Reg.SKX_HUB_STATUS (n : Nat) : Nat := 0xB5004 + 0x40 * n
def Reg.SKX_HUB_STATUS.state (n : Nat) : Fld := ⟨0xB5004 + 0x40 * n, 31, 29⟩
def Reg.SKX_HUB_STATUS.master (n : Nat) : Fld := ⟨0xB5004 + 0x40 * n, 28, 28⟩
def Reg.SKX_HUB_STATUS.master_port (n : Nat) : Fld := ⟨0xB5004 + 0x40 * n, 27, 26⟩
def Reg.SKX_HUB_STATUS.heads (n : Nat) : Fld := ⟨0xB5004 + 0x40 * n, 25, 16⟩
def Reg.SKX_HUB_STATUS.hash (n : Nat) : Fld := ⟨0xB5004 + 0x40 * n, 15, 8⟩
def Reg.SKX_HUB_STATUS.tlm_age (n : Nat) : Fld := ⟨0xB5004 + 0x40 * n, 7, 0⟩
def Reg.SKX_HUB_NEED (n : Nat) : Nat := 0xB5008 + 0x40 * n
def Reg.SKX_HUB_NEED.permille (n : Nat) : Fld := ⟨0xB5008 + 0x40 * n, 31, 16⟩
def Reg.SKX_HUB_NEED.bytes (n : Nat) : Fld := ⟨0xB5008 + 0x40 * n, 15, 0⟩
def Reg.SKX_HUB_ECHO_BAD (n : Nat) : Nat := 0xB500C + 0x40 * n
def Reg.SKX_HUB_ECHO_BAD.cnt (n : Nat) : Fld := ⟨0xB500C + 0x40 * n, 31, 0⟩
def Reg.SKX_HUB_ECHO_MISSING (n : Nat) : Nat := 0xB5010 + 0x40 * n
def Reg.SKX_HUB_ECHO_MISSING.cnt (n : Nat) : Fld := ⟨0xB5010 + 0x40 * n, 31, 0⟩
def Reg.SKX_HUB_RESENT (n : Nat) : Nat := 0xB5014 + 0x40 * n
def Reg.SKX_HUB_RESENT.cnt (n : Nat) : Fld := ⟨0xB5014 + 0x40 * n, 31, 0⟩
def Reg.SKX_HUB_WITHHELD (n : Nat) : Nat := 0xB5018 + 0x40 * n
def Reg.SKX_HUB_WITHHELD.cnt (n : Nat) : Fld := ⟨0xB5018 + 0x40 * n, 31, 0⟩
def Reg.SKX_HUB_HUBCNT (n : Nat) : Nat := 0xB501C + 0x40 * n
def Reg.SKX_HUB_HUBCNT.fire_bad (n : Nat) : Fld := ⟨0xB501C + 0x40 * n, 31, 16⟩
def Reg.SKX_HUB_HUBCNT.noline (n : Nat) : Fld := ⟨0xB501C + 0x40 * n, 15, 0⟩
def Reg.SKX_HUB_REFUSED (n : Nat) : Nat := 0xB5020 + 0x40 * n
def Reg.SKX_HUB_REFUSED.cnt (n : Nat) : Fld := ⟨0xB5020 + 0x40 * n, 15, 0⟩
def Reg.CAM_STATUS : Nat := 0xC0000
def Reg.CAM_STATUS.open : Fld := ⟨0xC0000, 23, 16⟩
def Reg.CAM_STATUS.dev_up : Fld := ⟨0xC0000, 11, 8⟩
def Reg.CAM_STATUS.conn_up : Fld := ⟨0xC0000, 7, 0⟩
def Reg.CAM_LOAD : Nat := 0xC0004
def Reg.CAM_LOAD.peak_pct : Fld := ⟨0xC0004, 15, 8⟩
def Reg.CAM_LOAD.load_pct : Fld := ⟨0xC0004, 7, 0⟩
def Reg.CAM_MBX_ADDR : Nat := 0xC0010
def Reg.CAM_MBX_ADDR.addr : Fld := ⟨0xC0010, 31, 0⟩
def Reg.CAM_MBX_DATA : Nat := 0xC0014
def Reg.CAM_MBX_DATA.data : Fld := ⟨0xC0014, 31, 0⟩
def Reg.CAM_MBX_CMD : Nat := 0xC0018
def Reg.CAM_MBX_CMD.busy : Fld := ⟨0xC0018, 31, 31⟩
def Reg.CAM_MBX_CMD.result : Fld := ⟨0xC0018, 30, 28⟩
def Reg.CAM_MBX_CMD.device : Fld := ⟨0xC0018, 9, 8⟩
def Reg.CAM_MBX_CMD.op : Fld := ⟨0xC0018, 1, 0⟩
def Reg.CAM_TBL_SEL : Nat := 0xC0020
def Reg.CAM_TBL_SEL.context : Fld := ⟨0xC0020, 18, 16⟩
def Reg.CAM_TBL_SEL.table : Fld := ⟨0xC0020, 1, 0⟩
def Reg.CAM_TBL_IDX : Nat := 0xC0024
def Reg.CAM_TBL_IDX.idx : Fld := ⟨0xC0024, 15, 0⟩
def Reg.CAM_TBL_DATA : Nat := 0xC0028
def Reg.CAM_TBL_DATA.data : Fld := ⟨0xC0028, 31, 0⟩
def Reg.CAM_X_STATUS (n : Nat) : Nat := 0xC0100 + 0x10 * n
def Reg.CAM_X_STATUS.state (n : Nat) : Fld := ⟨0xC0100 + 0x10 * n, 31, 28⟩
def Reg.CAM_X_STATUS.rate (n : Nat) : Fld := ⟨0xC0100 + 0x10 * n, 27, 24⟩
def Reg.CAM_X_STATUS.device (n : Nat) : Fld := ⟨0xC0100 + 0x10 * n, 23, 22⟩
def Reg.CAM_X_CRC (n : Nat) : Nat := 0xC0104 + 0x10 * n
def Reg.CAM_X_CRC.cnt (n : Nat) : Fld := ⟨0xC0104 + 0x10 * n, 31, 0⟩
def Reg.CAM_X_PKT (n : Nat) : Nat := 0xC0108 + 0x10 * n
def Reg.CAM_X_PKT.cnt (n : Nat) : Fld := ⟨0xC0108 + 0x10 * n, 31, 0⟩
def Reg.CAM_X_EVPKT (n : Nat) : Nat := 0xC010C + 0x10 * n
def Reg.CAM_X_EVPKT.cnt (n : Nat) : Fld := ⟨0xC010C + 0x10 * n, 31, 0⟩
def Reg.CAM_D_CFG (n : Nat) : Nat := 0xC0200 + 0x40 * n
def Reg.CAM_D_CFG.en (n : Nat) : Fld := ⟨0xC0200 + 0x40 * n, 31, 31⟩
def Reg.CAM_D_CFG.rate (n : Nat) : Fld := ⟨0xC0200 + 0x40 * n, 26, 24⟩
def Reg.CAM_D_CFG.conns (n : Nat) : Fld := ⟨0xC0200 + 0x40 * n, 21, 20⟩
def Reg.CAM_D_CFG.first (n : Nat) : Fld := ⟨0xC0200 + 0x40 * n, 18, 16⟩
def Reg.CAM_D_CFG.bits (n : Nat) : Fld := ⟨0xC0200 + 0x40 * n, 5, 4⟩
def Reg.CAM_D_CFG.rgb (n : Nat) : Fld := ⟨0xC0200 + 0x40 * n, 3, 3⟩
def Reg.CAM_D_WIDTH (n : Nat) : Nat := 0xC0204 + 0x40 * n
def Reg.CAM_D_WIDTH.stream (n : Nat) : Fld := ⟨0xC0204 + 0x40 * n, 23, 16⟩
def Reg.CAM_D_WIDTH.width (n : Nat) : Fld := ⟨0xC0204 + 0x40 * n, 14, 0⟩
def Reg.CAM_D_TRIG (n : Nat) : Nat := 0xC0208 + 0x40 * n
def Reg.CAM_D_TRIG.trig_min_ns (n : Nat) : Fld := ⟨0xC0208 + 0x40 * n, 15, 0⟩
def Reg.CAM_D_STATUS (n : Nat) : Nat := 0xC020C + 0x40 * n
def Reg.CAM_D_STATUS.state (n : Nat) : Fld := ⟨0xC020C + 0x40 * n, 31, 28⟩
def Reg.CAM_D_STATUS.cause (n : Nat) : Fld := ⟨0xC020C + 0x40 * n, 27, 24⟩
def Reg.CAM_D_RAW_BASE (n : Nat) : Nat := 0xC0210 + 0x40 * n
def Reg.CAM_D_RAW_BASE.base (n : Nat) : Fld := ⟨0xC0210 + 0x40 * n, 31, 0⟩
def Reg.CAM_D_RAW_SIZE (n : Nat) : Nat := 0xC0214 + 0x40 * n
def Reg.CAM_D_RAW_SIZE.size (n : Nat) : Fld := ⟨0xC0214 + 0x40 * n, 31, 0⟩
def Reg.CAM_D_LINES (n : Nat) : Nat := 0xC0218 + 0x40 * n
def Reg.CAM_D_LINES.cnt (n : Nat) : Fld := ⟨0xC0218 + 0x40 * n, 31, 0⟩
def Reg.CAM_D_ORPHAN (n : Nat) : Nat := 0xC021C + 0x40 * n
def Reg.CAM_D_ORPHAN.cnt (n : Nat) : Fld := ⟨0xC021C + 0x40 * n, 31, 0⟩
def Reg.CAM_D_OVF (n : Nat) : Nat := 0xC0220 + 0x40 * n
def Reg.CAM_D_OVF.cnt (n : Nat) : Fld := ⟨0xC0220 + 0x40 * n, 31, 0⟩
def Reg.CAM_D_TRIG_SKIP (n : Nat) : Nat := 0xC0224 + 0x40 * n
def Reg.CAM_D_TRIG_SKIP.cnt (n : Nat) : Fld := ⟨0xC0224 + 0x40 * n, 31, 0⟩
def Reg.CAM_D_BAD_LINES (n : Nat) : Nat := 0xC0228 + 0x40 * n
def Reg.CAM_D_BAD_LINES.cnt (n : Nat) : Fld := ⟨0xC0228 + 0x40 * n, 31, 0⟩
def Reg.CAM_SPILL_BASE (n : Nat) : Nat := 0xC0400 + 0x10 * n
def Reg.CAM_SPILL_BASE.base (n : Nat) : Fld := ⟨0xC0400 + 0x10 * n, 31, 0⟩
def Reg.CAM_SPILL_SIZE (n : Nat) : Nat := 0xC0404 + 0x10 * n
def Reg.CAM_SPILL_SIZE.size (n : Nat) : Fld := ⟨0xC0404 + 0x10 * n, 31, 0⟩
def Reg.CAM_SPILL_FILL (n : Nat) : Nat := 0xC0408 + 0x10 * n
def Reg.CAM_SPILL_FILL.bytes (n : Nat) : Fld := ⟨0xC0408 + 0x10 * n, 31, 0⟩
def Reg.CAM_SPILL_DROP (n : Nat) : Nat := 0xC040C + 0x10 * n
def Reg.CAM_SPILL_DROP.cnt (n : Nat) : Fld := ⟨0xC040C + 0x10 * n, 31, 0⟩
def Reg.CAM_C_CFG (n : Nat) : Nat := 0xC1000 + 0x100 * n
def Reg.CAM_C_CFG.en (n : Nat) : Fld := ⟨0xC1000 + 0x100 * n, 31, 31⟩
def Reg.CAM_C_CFG.device (n : Nat) : Fld := ⟨0xC1000 + 0x100 * n, 17, 16⟩
def Reg.CAM_C_CFG.mode (n : Nat) : Fld := ⟨0xC1000 + 0x100 * n, 9, 8⟩
def Reg.CAM_C_LEN (n : Nat) : Nat := 0xC1004 + 0x100 * n
def Reg.CAM_C_LEN.len (n : Nat) : Fld := ⟨0xC1004 + 0x100 * n, 16, 0⟩
def Reg.CAM_C_PITCH_LO (n : Nat) : Nat := 0xC1008 + 0x100 * n
def Reg.CAM_C_PITCH_LO.pitch (n : Nat) : Fld := ⟨0xC1008 + 0x100 * n, 31, 0⟩
def Reg.CAM_C_PITCH_HI (n : Nat) : Nat := 0xC100C + 0x100 * n
def Reg.CAM_C_PITCH_HI.pitch (n : Nat) : Fld := ⟨0xC100C + 0x100 * n, 15, 0⟩
def Reg.CAM_C_DIST (n : Nat) : Nat := 0xC1010 + 0x100 * n
def Reg.CAM_C_DIST.dist (n : Nat) : Fld := ⟨0xC1010 + 0x100 * n, 31, 0⟩
def Reg.CAM_C_TIMEOUT (n : Nat) : Nat := 0xC1014 + 0x100 * n
def Reg.CAM_C_TIMEOUT.us (n : Nat) : Fld := ⟨0xC1014 + 0x100 * n, 15, 0⟩
def Reg.CAM_C_GEN (n : Nat) : Nat := 0xC1018 + 0x100 * n
def Reg.CAM_C_GEN.commit (n : Nat) : Fld := ⟨0xC1018 + 0x100 * n, 31, 31⟩
def Reg.CAM_C_GEN.busy (n : Nat) : Fld := ⟨0xC1018 + 0x100 * n, 30, 30⟩
def Reg.CAM_C_GEN.result (n : Nat) : Fld := ⟨0xC1018 + 0x100 * n, 29, 28⟩
def Reg.CAM_C_GEN.pending (n : Nat) : Fld := ⟨0xC1018 + 0x100 * n, 27, 27⟩
def Reg.CAM_C_ACTIVE_GEN (n : Nat) : Nat := 0xC101C + 0x100 * n
def Reg.CAM_C_ACTIVE_GEN.gen (n : Nat) : Fld := ⟨0xC101C + 0x100 * n, 31, 0⟩
def Reg.CAM_C_PENDING_GEN (n : Nat) : Nat := 0xC1020 + 0x100 * n
def Reg.CAM_C_PENDING_GEN.gen (n : Nat) : Fld := ⟨0xC1020 + 0x100 * n, 31, 0⟩
def Reg.CAM_C_FRAME (n : Nat) : Nat := 0xC1024 + 0x100 * n
def Reg.CAM_C_FRAME.frame (n : Nat) : Fld := ⟨0xC1024 + 0x100 * n, 31, 0⟩
def Reg.CAM_C_STATUS (n : Nat) : Nat := 0xC1028 + 0x100 * n
def Reg.CAM_C_STATUS.open (n : Nat) : Fld := ⟨0xC1028 + 0x100 * n, 31, 31⟩
def Reg.CAM_C_STATUS.lines (n : Nat) : Fld := ⟨0xC1028 + 0x100 * n, 16, 0⟩
def Reg.CAM_C_OUT_CFG (n k : Nat) : Nat := 0xC1040 + 0x100 * n + 0x10 * k
def Reg.CAM_C_OUT_CFG.en (n k : Nat) : Fld := ⟨0xC1040 + 0x100 * n + 0x10 * k, 31, 31⟩
def Reg.CAM_C_OUT_CFG.kind (n k : Nat) : Fld := ⟨0xC1040 + 0x100 * n + 0x10 * k, 30, 28⟩
def Reg.CAM_C_OUT_CFG.dest (n k : Nat) : Fld := ⟨0xC1040 + 0x100 * n + 0x10 * k, 27, 24⟩
def Reg.CAM_C_OUT_CFG.u8 (n k : Nat) : Fld := ⟨0xC1040 + 0x100 * n + 0x10 * k, 23, 23⟩
def Reg.CAM_C_OUT_CFG.by_m1 (n k : Nat) : Fld := ⟨0xC1040 + 0x100 * n + 0x10 * k, 7, 4⟩
def Reg.CAM_C_OUT_CFG.bx_m1 (n k : Nat) : Fld := ⟨0xC1040 + 0x100 * n + 0x10 * k, 3, 0⟩
def Reg.CAM_C_OUT_COLS (n k : Nat) : Nat := 0xC1044 + 0x100 * n + 0x10 * k
def Reg.CAM_C_OUT_COLS.width (n k : Nat) : Fld := ⟨0xC1044 + 0x100 * n + 0x10 * k, 30, 16⟩
def Reg.CAM_C_OUT_COLS.first (n k : Nat) : Fld := ⟨0xC1044 + 0x100 * n + 0x10 * k, 13, 0⟩
def Reg.CAM_C_OUT_LINES (n k : Nat) : Nat := 0xC1048 + 0x100 * n + 0x10 * k
def Reg.CAM_C_OUT_LINES.line_count (n k : Nat) : Fld := ⟨0xC1048 + 0x100 * n + 0x10 * k, 31, 16⟩
def Reg.CAM_C_OUT_LINES.line_first (n k : Nat) : Fld := ⟨0xC1048 + 0x100 * n + 0x10 * k, 15, 0⟩
def Reg.CAM_C_OUT_GOLD (n k : Nat) : Nat := 0xC104C + 0x100 * n + 0x10 * k
def Reg.CAM_C_OUT_GOLD.gcell_count (n k : Nat) : Fld := ⟨0xC104C + 0x100 * n + 0x10 * k, 28, 16⟩
def Reg.CAM_C_OUT_GOLD.gcell_first (n k : Nat) : Fld := ⟨0xC104C + 0x100 * n + 0x10 * k, 11, 0⟩
def Reg.CAM_CLS_CFG : Nat := 0xD0000
def Reg.CAM_CLS_CFG.en : Fld := ⟨0xD0000, 31, 31⟩
def Reg.CAM_CLS_CFG.owner : Fld := ⟨0xD0000, 30, 30⟩
def Reg.CAM_CLS_CFG.streak_en : Fld := ⟨0xD0000, 29, 29⟩
def Reg.CAM_CLS_CFG.trig : Fld := ⟨0xD0000, 28, 28⟩
def Reg.CAM_CLS_CFG.host_ring : Fld := ⟨0xD0000, 26, 24⟩
def Reg.CAM_CLS_CFG.ctx_mask : Fld := ⟨0xD0000, 23, 16⟩
def Reg.CAM_CLS_CFG.cpl : Fld := ⟨0xD0000, 13, 8⟩
def Reg.CAM_CLS_STATUS : Nat := 0xD0004
def Reg.CAM_CLS_STATUS.bench : Fld := ⟨0xD0004, 29, 28⟩
def Reg.CAM_CLS_STRIP : Nat := 0xD0008
def Reg.CAM_CLS_STRIP.lines : Fld := ⟨0xD0008, 31, 0⟩
def Reg.CAM_CLS_STRIP_OFFSET : Nat := 0xD000C
def Reg.CAM_CLS_STRIP_OFFSET.line : Fld := ⟨0xD000C, 31, 0⟩
def Reg.CAM_CLS_ROW : Nat := 0xD0010
def Reg.CAM_CLS_ROW.guard_lines : Fld := ⟨0xD0010, 31, 24⟩
def Reg.CAM_CLS_ROW.gap_lines : Fld := ⟨0xD0010, 23, 16⟩
def Reg.CAM_CLS_ROW.guard_cols : Fld := ⟨0xD0010, 15, 12⟩
def Reg.CAM_CLS_ROW.row_lines : Fld := ⟨0xD0010, 11, 0⟩
def Reg.CAM_CLS_GROUPS : Nat := 0xD0014
def Reg.CAM_CLS_GROUPS.g_last : Fld := ⟨0xD0014, 30, 16⟩
def Reg.CAM_CLS_GROUPS.g_first : Fld := ⟨0xD0014, 14, 0⟩
def Reg.CAM_CLS_LOOP : Nat := 0xD0018
def Reg.CAM_CLS_LOOP.tint_loop : Fld := ⟨0xD0018, 31, 28⟩
def Reg.CAM_CLS_LOOP.ntints_m1 : Fld := ⟨0xD0018, 27, 26⟩
def Reg.CAM_CLS_LOOP.noise_max : Fld := ⟨0xD0018, 23, 16⟩
def Reg.CAM_CLS_LOOP.deadband : Fld := ⟨0xD0018, 15, 8⟩
def Reg.CAM_CLS_LOOP.loop_gain : Fld := ⟨0xD0018, 7, 0⟩
def Reg.CAM_CLS_LAG : Nat := 0xD001C
def Reg.CAM_CLS_LAG.links : Fld := ⟨0xD001C, 31, 0⟩
def Reg.CAM_CLS_STREAK : Nat := 0xD0020
def Reg.CAM_CLS_STREAK.nout_max : Fld := ⟨0xD0020, 31, 24⟩
def Reg.CAM_CLS_STREAK.s_min : Fld := ⟨0xD0020, 23, 16⟩
def Reg.CAM_CLS_STREAK.thresh : Fld := ⟨0xD0020, 7, 0⟩
def Reg.CAM_CLS_OVR : Nat := 0xD0024
def Reg.CAM_CLS_OVR.op : Fld := ⟨0xD0024, 31, 30⟩
def Reg.CAM_CLS_OVR.plane : Fld := ⟨0xD0024, 23, 20⟩
def Reg.CAM_CLS_OVR.u : Fld := ⟨0xD0024, 19, 0⟩
def Reg.CAM_CLS_OVR_STATUS : Nat := 0xD0028
def Reg.CAM_CLS_OVR_STATUS.busy : Fld := ⟨0xD0028, 31, 31⟩
def Reg.CAM_CLS_OVR_STATUS.result : Fld := ⟨0xD0028, 30, 28⟩
def Reg.CAM_CLS_OVR_STATUS.keep : Fld := ⟨0xD0028, 8, 0⟩
def Reg.CAM_CLS_BENCH : Nat := 0xD002C
def Reg.CAM_CLS_BENCH.start : Fld := ⟨0xD002C, 31, 31⟩
def Reg.CAM_CLS_BENCH.abort : Fld := ⟨0xD002C, 30, 30⟩
def Reg.CAM_CLS_BENCH.iter : Fld := ⟨0xD002C, 23, 20⟩
def Reg.CAM_CLS_BENCH.ramp : Fld := ⟨0xD002C, 15, 8⟩
def Reg.CAM_CLS_BENCH.what : Fld := ⟨0xD002C, 1, 0⟩
def Reg.CAM_CLS_STRIPS : Nat := 0xD0030
def Reg.CAM_CLS_STRIPS.cnt : Fld := ⟨0xD0030, 31, 0⟩
def Reg.CAM_CLS_UPDATES : Nat := 0xD0034
def Reg.CAM_CLS_UPDATES.cnt : Fld := ⟨0xD0034, 31, 0⟩
def Reg.CAM_CLS_REJECTED : Nat := 0xD0038
def Reg.CAM_CLS_REJECTED.cnt : Fld := ⟨0xD0038, 31, 0⟩
def Reg.CAM_CLS_WAITED : Nat := 0xD003C
def Reg.CAM_CLS_WAITED.cnt : Fld := ⟨0xD003C, 31, 0⟩
def Reg.CAM_CLS_LOG_PTR : Nat := 0xD0040
def Reg.CAM_CLS_LOG_PTR.ptr : Fld := ⟨0xD0040, 7, 0⟩
def Reg.CAM_CLS_C_BASE_LO (n : Nat) : Nat := 0xD0100 + 0x10 * n
def Reg.CAM_CLS_C_BASE_LO.base (n : Nat) : Fld := ⟨0xD0100 + 0x10 * n, 31, 0⟩
def Reg.CAM_CLS_C_BASE_HI (n : Nat) : Nat := 0xD0104 + 0x10 * n
def Reg.CAM_CLS_C_BASE_HI.base (n : Nat) : Fld := ⟨0xD0104 + 0x10 * n, 31, 0⟩
def Reg.CAM_CLS_C_K (n : Nat) : Nat := 0xD0108 + 0x10 * n
def Reg.CAM_CLS_C_K.k (n : Nat) : Fld := ⟨0xD0108 + 0x10 * n, 31, 0⟩
def Reg.CAM_CLS_P_CFG (n : Nat) : Nat := 0xD0200 + 0x20 * n
def Reg.CAM_CLS_P_CFG.en (n : Nat) : Fld := ⟨0xD0200 + 0x20 * n, 31, 31⟩
def Reg.CAM_CLS_P_CFG.ch (n : Nat) : Fld := ⟨0xD0200 + 0x20 * n, 1, 0⟩
def Reg.CAM_CLS_P_TINT_A (n : Nat) : Nat := 0xD0204 + 0x20 * n
def Reg.CAM_CLS_P_TINT_A.tint1 (n : Nat) : Fld := ⟨0xD0204 + 0x20 * n, 31, 16⟩
def Reg.CAM_CLS_P_TINT_A.tint0 (n : Nat) : Fld := ⟨0xD0204 + 0x20 * n, 15, 0⟩
def Reg.CAM_CLS_P_TINT_B (n : Nat) : Nat := 0xD0208 + 0x20 * n
def Reg.CAM_CLS_P_TINT_B.tint3 (n : Nat) : Fld := ⟨0xD0208 + 0x20 * n, 31, 16⟩
def Reg.CAM_CLS_P_TINT_B.tint2 (n : Nat) : Fld := ⟨0xD0208 + 0x20 * n, 15, 0⟩
def Reg.CAM_CLS_P_TGT_A (n : Nat) : Nat := 0xD020C + 0x20 * n
def Reg.CAM_CLS_P_TGT_A.tgt1 (n : Nat) : Fld := ⟨0xD020C + 0x20 * n, 31, 16⟩
def Reg.CAM_CLS_P_TGT_A.tgt0 (n : Nat) : Fld := ⟨0xD020C + 0x20 * n, 15, 0⟩
def Reg.CAM_CLS_P_TGT_B (n : Nat) : Nat := 0xD0210 + 0x20 * n
def Reg.CAM_CLS_P_TGT_B.tgt3 (n : Nat) : Fld := ⟨0xD0210 + 0x20 * n, 31, 16⟩
def Reg.CAM_CLS_P_TGT_B.tgt2 (n : Nat) : Fld := ⟨0xD0210 + 0x20 * n, 15, 0⟩
def Reg.CAM_CLS_P_ERR (n : Nat) : Nat := 0xD0214 + 0x20 * n
def Reg.CAM_CLS_P_ERR.err (n : Nat) : Fld := ⟨0xD0214 + 0x20 * n, 15, 0⟩
def Reg.CAM_CLS_P_ERR_MAX (n : Nat) : Nat := 0xD0218 + 0x20 * n
def Reg.CAM_CLS_P_ERR_MAX.err (n : Nat) : Fld := ⟨0xD0218 + 0x20 * n, 15, 0⟩
def Reg.CAM_CLS_P_ND (n : Nat) : Nat := 0xD021C + 0x20 * n
def Reg.CAM_CLS_P_ND.nd (n : Nat) : Fld := ⟨0xD021C + 0x20 * n, 15, 0⟩
def Reg.CAM_CLS_LOG_A (n : Nat) : Nat := 0xD1000 + 0x8 * n
def Reg.CAM_CLS_LOG_A.plane (n : Nat) : Fld := ⟨0xD1000 + 0x8 * n, 31, 28⟩
def Reg.CAM_CLS_LOG_A.cause (n : Nat) : Fld := ⟨0xD1000 + 0x8 * n, 27, 24⟩
def Reg.CAM_CLS_LOG_A.u (n : Nat) : Fld := ⟨0xD1000 + 0x8 * n, 19, 0⟩
def Reg.CAM_CLS_LOG_B (n : Nat) : Nat := 0xD1004 + 0x8 * n
def Reg.CAM_CLS_LOG_B.epoch (n : Nat) : Fld := ⟨0xD1004 + 0x8 * n, 31, 0⟩
def Reg.DRM_CFG : Nat := 0xE0000
def Reg.DRM_CFG.qos_mode : Fld := ⟨0xE0000, 0, 0⟩
def Reg.DRM_STATUS : Nat := 0xE0004
def Reg.DRM_STATUS.lock_cause : Fld := ⟨0xE0004, 31, 28⟩
def Reg.DRM_STATUS.panic : Fld := ⟨0xE0004, 14, 12⟩
def Reg.DRM_STATUS.band : Fld := ⟨0xE0004, 7, 0⟩
def Reg.DRM_REGION : Nat := 0xE0008
def Reg.DRM_REGION.cam_256m : Fld := ⟨0xE0008, 13, 8⟩
def Reg.DRM_REGION.tile_256m : Fld := ⟨0xE0008, 6, 0⟩
def Reg.DRM_MAP : Nat := 0xE000C
def Reg.DRM_MAP.cam_base : Fld := ⟨0xE000C, 22, 16⟩
def Reg.DRM_MAP.tile_base : Fld := ⟨0xE000C, 14, 8⟩
def Reg.DRM_MAP.image : Fld := ⟨0xE000C, 6, 0⟩
def Reg.DRM_LOAD : Nat := 0xE0010
def Reg.DRM_LOAD.peak_pct : Fld := ⟨0xE0010, 15, 8⟩
def Reg.DRM_LOAD.load_pct : Fld := ⟨0xE0010, 7, 0⟩
def Reg.DRM_FWD : Nat := 0xE0014
def Reg.DRM_FWD.cnt : Fld := ⟨0xE0014, 31, 0⟩
def Reg.DRM_CHECK_CNT : Nat := 0xE0018
def Reg.DRM_CHECK_CNT.cnt : Fld := ⟨0xE0018, 31, 0⟩
def Reg.DRM_P0_CFG : Nat := 0xE0100
def Reg.DRM_P0_CFG.target_ns : Fld := ⟨0xE0100, 31, 16⟩
def Reg.DRM_P0_CFG.panic_off : Fld := ⟨0xE0100, 15, 8⟩
def Reg.DRM_P0_CFG.panic_on : Fld := ⟨0xE0100, 7, 0⟩
def Reg.DRM_P12_CFG (n : Nat) : Nat := 0xE0120 + 0x20 * n
def Reg.DRM_P12_CFG.target_ns (n : Nat) : Fld := ⟨0xE0120 + 0x20 * n, 31, 16⟩
def Reg.DRM_P12_CFG.panic_off (n : Nat) : Fld := ⟨0xE0120 + 0x20 * n, 15, 8⟩
def Reg.DRM_P12_CFG.panic_on (n : Nat) : Fld := ⟨0xE0120 + 0x20 * n, 7, 0⟩
def Reg.DRM_PB_CFG (n : Nat) : Nat := 0xE0160 + 0x20 * n
def Reg.DRM_PB_CFG.target_ns (n : Nat) : Fld := ⟨0xE0160 + 0x20 * n, 31, 16⟩
def Reg.DRM_P_BYTES_LO (n : Nat) : Nat := 0xE0104 + 0x20 * n
def Reg.DRM_P_BYTES_LO.cnt (n : Nat) : Fld := ⟨0xE0104 + 0x20 * n, 31, 0⟩
def Reg.DRM_P_BYTES_HI (n : Nat) : Nat := 0xE0108 + 0x20 * n
def Reg.DRM_P_BYTES_HI.cnt (n : Nat) : Fld := ⟨0xE0108 + 0x20 * n, 31, 0⟩
def Reg.DRM_P_LAT_MAX (n : Nat) : Nat := 0xE010C + 0x20 * n
def Reg.DRM_P_LAT_MAX.ns (n : Nat) : Fld := ⟨0xE010C + 0x20 * n, 15, 0⟩
def Reg.DRM_P_PANIC_TIME (n : Nat) : Nat := 0xE0110 + 0x20 * n
def Reg.DRM_P_PANIC_TIME.us (n : Nat) : Fld := ⟨0xE0110 + 0x20 * n, 31, 0⟩
def Reg.DRM_P_MISS (n : Nat) : Nat := 0xE0114 + 0x20 * n
def Reg.DRM_P_MISS.cnt (n : Nat) : Fld := ⟨0xE0114 + 0x20 * n, 31, 0⟩
def Reg.DRM_CH_REF (n : Nat) : Nat := 0xE0400 + 0x20 * n
def Reg.DRM_CH_REF.owed (n : Nat) : Fld := ⟨0xE0400 + 0x20 * n, 3, 0⟩
def Reg.DRM_CH_FORCED (n : Nat) : Nat := 0xE0404 + 0x20 * n
def Reg.DRM_CH_FORCED.cnt (n : Nat) : Fld := ⟨0xE0404 + 0x20 * n, 31, 0⟩
def Reg.DRM_CH_DLY_CA (n : Nat) : Nat := 0xE0408 + 0x20 * n
def Reg.DRM_CH_DLY_CA.ck (n : Nat) : Fld := ⟨0xE0408 + 0x20 * n, 31, 24⟩
def Reg.DRM_CH_DLY_CA.cs (n : Nat) : Fld := ⟨0xE0408 + 0x20 * n, 23, 16⟩
def Reg.DRM_CH_DLY_CA.ca_hi (n : Nat) : Fld := ⟨0xE0408 + 0x20 * n, 15, 8⟩
def Reg.DRM_CH_DLY_CA.ca_lo (n : Nat) : Fld := ⟨0xE0408 + 0x20 * n, 7, 0⟩
def Reg.DRM_CH_DLY_RD (n : Nat) : Nat := 0xE040C + 0x20 * n
def Reg.DRM_CH_DLY_RD.dqs1_rx (n : Nat) : Fld := ⟨0xE040C + 0x20 * n, 31, 24⟩
def Reg.DRM_CH_DLY_RD.dqs0_rx (n : Nat) : Fld := ⟨0xE040C + 0x20 * n, 23, 16⟩
def Reg.DRM_CH_DLY_RD.rdqs1 (n : Nat) : Fld := ⟨0xE040C + 0x20 * n, 15, 8⟩
def Reg.DRM_CH_DLY_RD.rdqs0 (n : Nat) : Fld := ⟨0xE040C + 0x20 * n, 7, 0⟩
def Reg.DRM_CH_DLY_WR (n : Nat) : Nat := 0xE0410 + 0x20 * n
def Reg.DRM_CH_DLY_WR.dq1_tx (n : Nat) : Fld := ⟨0xE0410 + 0x20 * n, 31, 24⟩
def Reg.DRM_CH_DLY_WR.dq0_tx (n : Nat) : Fld := ⟨0xE0410 + 0x20 * n, 23, 16⟩
def Reg.DRM_CH_DLY_WR.wck1 (n : Nat) : Fld := ⟨0xE0410 + 0x20 * n, 15, 8⟩
def Reg.DRM_CH_DLY_WR.wck0 (n : Nat) : Fld := ⟨0xE0410 + 0x20 * n, 7, 0⟩
def Reg.CHK_CTRL : Nat := 0xF0000
def Reg.CHK_CTRL.selftest : Fld := ⟨0xF0000, 0, 0⟩
def Reg.CHK_STATUS : Nat := 0xF0004
def Reg.CHK_STATUS.busy : Fld := ⟨0xF0004, 31, 31⟩
def Reg.CHK_STATUS.fail : Fld := ⟨0xF0004, 23, 0⟩
def Reg.CHK_U_PARAM (n : Nat) : Nat := 0xF0100 + 0x20 * n
def Reg.CHK_U_PARAM.width (n : Nat) : Fld := ⟨0xF0100 + 0x20 * n, 31, 24⟩
def Reg.CHK_U_PARAM.refout (n : Nat) : Fld := ⟨0xF0100 + 0x20 * n, 1, 1⟩
def Reg.CHK_U_PARAM.refin (n : Nat) : Fld := ⟨0xF0100 + 0x20 * n, 0, 0⟩
def Reg.CHK_U_POLY (n : Nat) : Nat := 0xF0104 + 0x20 * n
def Reg.CHK_U_POLY.poly (n : Nat) : Fld := ⟨0xF0104 + 0x20 * n, 31, 0⟩
def Reg.CHK_U_INIT (n : Nat) : Nat := 0xF0108 + 0x20 * n
def Reg.CHK_U_INIT.init (n : Nat) : Fld := ⟨0xF0108 + 0x20 * n, 31, 0⟩
def Reg.CHK_U_XOROUT (n : Nat) : Nat := 0xF010C + 0x20 * n
def Reg.CHK_U_XOROUT.xorout (n : Nat) : Fld := ⟨0xF010C + 0x20 * n, 31, 0⟩
def Reg.CHK_U_COUNT (n : Nat) : Nat := 0xF0110 + 0x20 * n
def Reg.CHK_U_COUNT.cnt (n : Nat) : Fld := ⟨0xF0110 + 0x20 * n, 31, 0⟩
def Reg.CHK_U_MISMATCH (n : Nat) : Nat := 0xF0114 + 0x20 * n
def Reg.CHK_U_MISMATCH.cnt (n : Nat) : Fld := ⟨0xF0114 + 0x20 * n, 31, 0⟩
def Reg.MOT_CFG : Nat := 0x100000
def Reg.MOT_CFG.stop_axes : Fld := ⟨0x100000, 27, 16⟩
def Reg.MOT_CFG.pwm_khz : Fld := ⟨0x100000, 7, 0⟩
def Reg.MOT_STATUS : Nat := 0x100004
def Reg.MOT_STATUS.fault : Fld := ⟨0x100004, 27, 16⟩
def Reg.MOT_STATUS.moving : Fld := ⟨0x100004, 11, 0⟩
def Reg.MOT_A_CFG (n : Nat) : Nat := 0x100100 + 0x100 * n
def Reg.MOT_A_CFG.en (n : Nat) : Fld := ⟨0x100100 + 0x100 * n, 31, 31⟩
def Reg.MOT_A_CFG.class_mode (n : Nat) : Fld := ⟨0x100100 + 0x100 * n, 27, 26⟩
def Reg.MOT_A_CFG.invert (n : Nat) : Fld := ⟨0x100100 + 0x100 * n, 25, 25⟩
def Reg.MOT_A_CFG.stall_action (n : Nat) : Fld := ⟨0x100100 + 0x100 * n, 24, 24⟩
def Reg.MOT_A_CFG.gear_src (n : Nat) : Fld := ⟨0x100100 + 0x100 * n, 23, 22⟩
def Reg.MOT_A_CFG.lag_max (n : Nat) : Fld := ⟨0x100100 + 0x100 * n, 15, 0⟩
def Reg.MOT_A_CMD (n : Nat) : Nat := 0x100104 + 0x100 * n
def Reg.MOT_A_CMD.busy (n : Nat) : Fld := ⟨0x100104 + 0x100 * n, 31, 31⟩
def Reg.MOT_A_CMD.result (n : Nat) : Fld := ⟨0x100104 + 0x100 * n, 30, 28⟩
def Reg.MOT_A_CMD.immediate (n : Nat) : Fld := ⟨0x100104 + 0x100 * n, 16, 16⟩
def Reg.MOT_A_CMD.preset (n : Nat) : Fld := ⟨0x100104 + 0x100 * n, 11, 8⟩
def Reg.MOT_A_CMD.op (n : Nat) : Fld := ⟨0x100104 + 0x100 * n, 3, 0⟩
def Reg.MOT_A_STATUS (n : Nat) : Nat := 0x100108 + 0x100 * n
def Reg.MOT_A_STATUS.state (n : Nat) : Fld := ⟨0x100108 + 0x100 * n, 31, 28⟩
def Reg.MOT_A_STATUS.pos_valid (n : Nat) : Fld := ⟨0x100108 + 0x100 * n, 27, 27⟩
def Reg.MOT_A_STATUS.class (n : Nat) : Fld := ⟨0x100108 + 0x100 * n, 26, 26⟩
def Reg.MOT_A_STATUS.in_window (n : Nat) : Fld := ⟨0x100108 + 0x100 * n, 25, 25⟩
def Reg.MOT_A_STATUS.returning (n : Nat) : Fld := ⟨0x100108 + 0x100 * n, 24, 24⟩
def Reg.MOT_A_STATUS.fault_cause (n : Nat) : Fld := ⟨0x100108 + 0x100 * n, 23, 20⟩
def Reg.MOT_A_STATUS.load (n : Nat) : Fld := ⟨0x100108 + 0x100 * n, 7, 0⟩
def Reg.MOT_A_POS (n : Nat) : Nat := 0x10010C + 0x100 * n
def Reg.MOT_A_POS.pos (n : Nat) : Fld := ⟨0x10010C + 0x100 * n, 31, 0⟩
def Reg.MOT_A_VEL (n : Nat) : Nat := 0x100110 + 0x100 * n
def Reg.MOT_A_VEL.vel (n : Nat) : Fld := ⟨0x100110 + 0x100 * n, 31, 0⟩
def Reg.MOT_A_STG_TARGET (n : Nat) : Nat := 0x100114 + 0x100 * n
def Reg.MOT_A_STG_TARGET.target (n : Nat) : Fld := ⟨0x100114 + 0x100 * n, 31, 0⟩
def Reg.MOT_A_STG_VMAX (n : Nat) : Nat := 0x100118 + 0x100 * n
def Reg.MOT_A_STG_VMAX.vmax (n : Nat) : Fld := ⟨0x100118 + 0x100 * n, 18, 0⟩
def Reg.MOT_A_STG_AMAX (n : Nat) : Nat := 0x10011C + 0x100 * n
def Reg.MOT_A_STG_AMAX.amax (n : Nat) : Fld := ⟨0x10011C + 0x100 * n, 31, 0⟩
def Reg.MOT_A_STG_DMAX (n : Nat) : Nat := 0x100120 + 0x100 * n
def Reg.MOT_A_STG_DMAX.dmax (n : Nat) : Fld := ⟨0x100120 + 0x100 * n, 31, 0⟩
def Reg.MOT_A_STG_JMAX (n : Nat) : Nat := 0x100124 + 0x100 * n
def Reg.MOT_A_STG_JMAX.jmax (n : Nat) : Fld := ⟨0x100124 + 0x100 * n, 31, 0⟩
def Reg.MOT_A_STG_CFG (n : Nat) : Nat := 0x100128 + 0x100 * n
def Reg.MOT_A_STG_CFG.rel (n : Nat) : Fld := ⟨0x100128 + 0x100 * n, 31, 31⟩
def Reg.MOT_A_STG_CFG.notify (n : Nat) : Fld := ⟨0x100128 + 0x100 * n, 30, 30⟩
def Reg.MOT_A_STG_CFG.class (n : Nat) : Fld := ⟨0x100128 + 0x100 * n, 29, 28⟩
def Reg.MOT_A_CUR (n : Nat) : Nat := 0x10012C + 0x100 * n
def Reg.MOT_A_CUR.i_hold (n : Nat) : Fld := ⟨0x10012C + 0x100 * n, 31, 16⟩
def Reg.MOT_A_CUR.i_floor (n : Nat) : Fld := ⟨0x10012C + 0x100 * n, 15, 0⟩
def Reg.MOT_A_CEIL (n : Nat) : Nat := 0x100130 + 0x100 * n
def Reg.MOT_A_CEIL.i_ceil_max (n : Nat) : Fld := ⟨0x100130 + 0x100 * n, 31, 16⟩
def Reg.MOT_A_CEIL.i_ceil (n : Nat) : Fld := ⟨0x100130 + 0x100 * n, 15, 0⟩
def Reg.MOT_A_SENSE (n : Nat) : Nat := 0x100134 + 0x100 * n
def Reg.MOT_A_SENSE.full_scale_ma (n : Nat) : Fld := ⟨0x100134 + 0x100 * n, 31, 16⟩
def Reg.MOT_A_SENSE.blank (n : Nat) : Fld := ⟨0x100134 + 0x100 * n, 3, 0⟩
def Reg.MOT_A_DRIVE (n : Nat) : Nat := 0x100138 + 0x100 * n
def Reg.MOT_A_DRIVE.coil_mohm (n : Nat) : Fld := ⟨0x100138 + 0x100 * n, 31, 16⟩
def Reg.MOT_A_DRIVE.ke (n : Nat) : Fld := ⟨0x100138 + 0x100 * n, 15, 0⟩
def Reg.MOT_A_CHOP (n : Nat) : Nat := 0x10013C + 0x100 * n
def Reg.MOT_A_CHOP.hyst_ma (n : Nat) : Fld := ⟨0x10013C + 0x100 * n, 15, 0⟩
def Reg.MOT_A_GEAR_RATIO (n : Nat) : Nat := 0x100140 + 0x100 * n
def Reg.MOT_A_GEAR_RATIO.ratio (n : Nat) : Fld := ⟨0x100140 + 0x100 * n, 31, 0⟩
def Reg.MOT_A_WIN_LO (n : Nat) : Nat := 0x100144 + 0x100 * n
def Reg.MOT_A_WIN_LO.lo (n : Nat) : Fld := ⟨0x100144 + 0x100 * n, 31, 0⟩
def Reg.MOT_A_WIN_HI (n : Nat) : Nat := 0x100148 + 0x100 * n
def Reg.MOT_A_WIN_HI.hi (n : Nat) : Fld := ⟨0x100148 + 0x100 * n, 31, 0⟩
def Reg.MOT_A_WIN_PLANES (n : Nat) : Nat := 0x10014C + 0x100 * n
def Reg.MOT_A_WIN_PLANES.planes (n : Nat) : Fld := ⟨0x10014C + 0x100 * n, 9, 0⟩
def Reg.MOT_A_HOME_POS (n : Nat) : Nat := 0x100150 + 0x100 * n
def Reg.MOT_A_HOME_POS.pos (n : Nat) : Fld := ⟨0x100150 + 0x100 * n, 31, 0⟩
def Reg.MOT_A_HOME_CFG (n : Nat) : Nat := 0x100154 + 0x100 * n
def Reg.MOT_A_HOME_CFG.dir (n : Nat) : Fld := ⟨0x100154 + 0x100 * n, 31, 31⟩
def Reg.MOT_A_HOME_CFG.speed (n : Nat) : Fld := ⟨0x100154 + 0x100 * n, 18, 0⟩
def Reg.MOT_A_HOME_CUR (n : Nat) : Nat := 0x100158 + 0x100 * n
def Reg.MOT_A_HOME_CUR.i_home (n : Nat) : Fld := ⟨0x100158 + 0x100 * n, 15, 0⟩
def Reg.MOT_A_CUR_NOW (n : Nat) : Nat := 0x10015C + 0x100 * n
def Reg.MOT_A_CUR_NOW.b (n : Nat) : Fld := ⟨0x10015C + 0x100 * n, 31, 16⟩
def Reg.MOT_A_CUR_NOW.a (n : Nat) : Fld := ⟨0x10015C + 0x100 * n, 15, 0⟩
def Reg.MOT_A_STALLS (n : Nat) : Nat := 0x100160 + 0x100 * n
def Reg.MOT_A_STALLS.cnt (n : Nat) : Fld := ⟨0x100160 + 0x100 * n, 31, 0⟩
def Reg.MOT_A_OVERSHOOTS (n : Nat) : Nat := 0x100164 + 0x100 * n
def Reg.MOT_A_OVERSHOOTS.cnt (n : Nat) : Fld := ⟨0x100164 + 0x100 * n, 31, 0⟩
def Reg.MOT_A_REVERSALS (n : Nat) : Nat := 0x100168 + 0x100 * n
def Reg.MOT_A_REVERSALS.cnt (n : Nat) : Fld := ⟨0x100168 + 0x100 * n, 31, 0⟩
def Reg.MOT_A_CMP_VAL (n k : Nat) : Nat := 0x100180 + 0x100 * n + 0x10 * k
def Reg.MOT_A_CMP_VAL.val (n k : Nat) : Fld := ⟨0x100180 + 0x100 * n + 0x10 * k, 31, 0⟩
def Reg.MOT_A_CMP_CFG (n k : Nat) : Nat := 0x100184 + 0x100 * n + 0x10 * k
def Reg.MOT_A_CMP_CFG.arm (n k : Nat) : Fld := ⟨0x100184 + 0x100 * n + 0x10 * k, 31, 31⟩
def Reg.MOT_A_CMP_CFG.state (n k : Nat) : Fld := ⟨0x100184 + 0x100 * n + 0x10 * k, 30, 28⟩
def Reg.MOT_A_CMP_CFG.cancel (n k : Nat) : Fld := ⟨0x100184 + 0x100 * n + 0x10 * k, 27, 27⟩
def Reg.MOT_A_CMP_CFG.dir (n k : Nat) : Fld := ⟨0x100184 + 0x100 * n + 0x10 * k, 26, 26⟩
def Reg.MOT_A_CMP_CFG.catch_up (n k : Nat) : Fld := ⟨0x100184 + 0x100 * n + 0x10 * k, 25, 25⟩
def Reg.MOT_A_CMP_CFG.sel (n k : Nat) : Fld := ⟨0x100184 + 0x100 * n + 0x10 * k, 23, 16⟩
def Reg.MOT_A_CMP_CFG.action (n k : Nat) : Fld := ⟨0x100184 + 0x100 * n + 0x10 * k, 3, 0⟩
def Reg.MOT_A_CMP_ARG (n k : Nat) : Nat := 0x100188 + 0x100 * n + 0x10 * k
def Reg.MOT_A_CMP_ARG.arg (n k : Nat) : Fld := ⟨0x100188 + 0x100 * n + 0x10 * k, 31, 0⟩
def Reg.MOT_A_CMP_ACT (n k : Nat) : Nat := 0x10018C + 0x100 * n + 0x10 * k
def Reg.MOT_A_CMP_ACT.pos (n k : Nat) : Fld := ⟨0x10018C + 0x100 * n + 0x10 * k, 31, 0⟩
def Reg.MOT_PRE_TARGET (n k : Nat) : Nat := 0x102000 + 0x200 * n + 0x20 * k
def Reg.MOT_PRE_TARGET.target (n k : Nat) : Fld := ⟨0x102000 + 0x200 * n + 0x20 * k, 31, 0⟩
def Reg.MOT_PRE_VMAX (n k : Nat) : Nat := 0x102004 + 0x200 * n + 0x20 * k
def Reg.MOT_PRE_VMAX.vmax (n k : Nat) : Fld := ⟨0x102004 + 0x200 * n + 0x20 * k, 18, 0⟩
def Reg.MOT_PRE_AMAX (n k : Nat) : Nat := 0x102008 + 0x200 * n + 0x20 * k
def Reg.MOT_PRE_AMAX.amax (n k : Nat) : Fld := ⟨0x102008 + 0x200 * n + 0x20 * k, 31, 0⟩
def Reg.MOT_PRE_DMAX (n k : Nat) : Nat := 0x10200C + 0x200 * n + 0x20 * k
def Reg.MOT_PRE_DMAX.dmax (n k : Nat) : Fld := ⟨0x10200C + 0x200 * n + 0x20 * k, 31, 0⟩
def Reg.MOT_PRE_JMAX (n k : Nat) : Nat := 0x102010 + 0x200 * n + 0x20 * k
def Reg.MOT_PRE_JMAX.jmax (n k : Nat) : Fld := ⟨0x102010 + 0x200 * n + 0x20 * k, 31, 0⟩
def Reg.MOT_PRE_CFG (n k : Nat) : Nat := 0x102014 + 0x200 * n + 0x20 * k
def Reg.MOT_PRE_CFG.rel (n k : Nat) : Fld := ⟨0x102014 + 0x200 * n + 0x20 * k, 31, 31⟩
def Reg.MOT_PRE_CFG.notify (n k : Nat) : Fld := ⟨0x102014 + 0x200 * n + 0x20 * k, 30, 30⟩
def Reg.MOT_PRE_CFG.class (n k : Nat) : Fld := ⟨0x102014 + 0x200 * n + 0x20 * k, 29, 28⟩
def Reg.THM_STATUS : Nat := 0x110000
def Reg.THM_STATUS.steps : Fld := ⟨0x110000, 31, 28⟩
def Reg.THM_STATUS.bad : Fld := ⟨0x110000, 20, 0⟩
def Reg.THM_MAX : Nat := 0x110004
def Reg.THM_MAX.channel : Fld := ⟨0x110004, 29, 24⟩
def Reg.THM_MAX.temp : Fld := ⟨0x110004, 15, 0⟩
def Reg.THM_MASK : Nat := 0x110008
def Reg.THM_MASK.mask : Fld := ⟨0x110008, 20, 0⟩
def Reg.THM_LANE_BAND : Nat := 0x11000C
def Reg.THM_LANE_BAND.other : Fld := ⟨0x11000C, 5, 4⟩
def Reg.THM_LANE_BAND.hi : Fld := ⟨0x11000C, 3, 2⟩
def Reg.THM_LANE_BAND.lo : Fld := ⟨0x11000C, 1, 0⟩
def Reg.THM_LAST : Nat := 0x110010
def Reg.THM_LAST.kind : Fld := ⟨0x110010, 31, 30⟩
def Reg.THM_LAST.channel : Fld := ⟨0x110010, 29, 24⟩
def Reg.THM_LAST.reading : Fld := ⟨0x110010, 15, 0⟩
def Reg.THM_CH (n : Nat) : Nat := 0x110100 + 0x4 * n
def Reg.THM_CH.valid (n : Nat) : Fld := ⟨0x110100 + 0x4 * n, 31, 31⟩
def Reg.THM_CH.reading (n : Nat) : Fld := ⟨0x110100 + 0x4 * n, 15, 0⟩
def Reg.CAL_REQ : Nat := 0x120000
def Reg.CAL_REQ.go : Fld := ⟨0x120000, 31, 31⟩
def Reg.CAL_REQ.kind : Fld := ⟨0x120000, 19, 16⟩
def Reg.CAL_REQ.index : Fld := ⟨0x120000, 5, 0⟩
def Reg.CAL_STATUS : Nat := 0x120004
def Reg.CAL_STATUS.busy : Fld := ⟨0x120004, 31, 31⟩
def Reg.CAL_STATUS.result : Fld := ⟨0x120004, 30, 28⟩
def Reg.CAL_STATUS.kind : Fld := ⟨0x120004, 27, 24⟩
def Reg.CAL_STATUS.index : Fld := ⟨0x120004, 23, 18⟩
def Reg.CAL_STATUS.rejected : Fld := ⟨0x120004, 15, 0⟩
def Reg.CAL_ENC_IN (n k : Nat) : Nat := 0x120100 + 0x8 * n + 0x4 * k
def Reg.CAL_ENC_IN.slices (n k : Nat) : Fld := ⟨0x120100 + 0x8 * n + 0x4 * k, 18, 16⟩
def Reg.CAL_ENC_IN.gain (n k : Nat) : Fld := ⟨0x120100 + 0x8 * n + 0x4 * k, 15, 8⟩
def Reg.CAL_ENC_IN.offset (n k : Nat) : Fld := ⟨0x120100 + 0x8 * n + 0x4 * k, 7, 0⟩
def Reg.CAL_SNS_COIL (n k : Nat) : Nat := 0x120200 + 0x8 * n + 0x4 * k
def Reg.CAL_SNS_COIL.slices (n k : Nat) : Fld := ⟨0x120200 + 0x8 * n + 0x4 * k, 21, 16⟩
def Reg.CAL_SNS_COIL.offset (n k : Nat) : Fld := ⟨0x120200 + 0x8 * n + 0x4 * k, 7, 0⟩
def Reg.CAL_XCVR (n : Nat) : Nat := 0x120400 + 0x4 * n
def Reg.CAL_XCVR.rx (n : Nat) : Fld := ⟨0x120400 + 0x4 * n, 27, 16⟩
def Reg.CAL_XCVR.tx (n : Nat) : Fld := ⟨0x120400 + 0x4 * n, 11, 0⟩
def Reg.CAL_THM (n : Nat) : Nat := 0x120600 + 0x4 * n
def Reg.CAL_THM.pair (n : Nat) : Fld := ⟨0x120600 + 0x4 * n, 8, 8⟩
def Reg.CAL_THM.offset (n : Nat) : Fld := ⟨0x120600 + 0x4 * n, 5, 0⟩
def Reg.PTN_CFG : Nat := 0x130000
def Reg.PTN_CFG.en : Fld := ⟨0x130000, 31, 31⟩
def Reg.PTN_CFG.revert_en : Fld := ⟨0x130000, 30, 30⟩
def Reg.PTN_CFG.image_src : Fld := ⟨0x130000, 29, 29⟩
def Reg.PTN_CFG.halt_reset : Fld := ⟨0x130000, 28, 28⟩
def Reg.PTN_CFG.proof_en : Fld := ⟨0x130000, 27, 27⟩
def Reg.PTN_CFG.revert_boundary : Fld := ⟨0x130000, 26, 26⟩
def Reg.PTN_CFG.proof_cluster : Fld := ⟨0x130000, 19, 16⟩
def Reg.PTN_CFG.revert_hold_s : Fld := ⟨0x130000, 15, 0⟩
def Reg.PTN_STATUS : Nat := 0x130004
def Reg.PTN_STATUS.state : Fld := ⟨0x130004, 31, 29⟩
def Reg.PTN_STATUS.role : Fld := ⟨0x130004, 28, 27⟩
def Reg.PTN_STATUS.straps : Fld := ⟨0x130004, 26, 25⟩
def Reg.PTN_STATUS.strap_err : Fld := ⟨0x130004, 24, 24⟩
def Reg.PTN_STATUS.in_step : Fld := ⟨0x130004, 23, 23⟩
def Reg.PTN_STATUS.stale : Fld := ⟨0x130004, 22, 22⟩
def Reg.PTN_STATUS.majority : Fld := ⟨0x130004, 21, 21⟩
def Reg.PTN_STATUS.commit_hold : Fld := ⟨0x130004, 20, 20⟩
def Reg.PTN_STATUS.held : Fld := ⟨0x130004, 13, 8⟩
def Reg.PTN_STATUS.majority_n : Fld := ⟨0x130004, 5, 0⟩
def Reg.PTN_CTRL : Nat := 0x130008
def Reg.PTN_CTRL.revert_now : Fld := ⟨0x130008, 1, 1⟩
def Reg.PTN_CTRL.resync : Fld := ⟨0x130008, 0, 0⟩
def Reg.PTN_PARTNER_ID_LO : Nat := 0x13000C
def Reg.PTN_PARTNER_ID_LO.id : Fld := ⟨0x13000C, 31, 0⟩
def Reg.PTN_PARTNER_ID_HI : Nat := 0x130010
def Reg.PTN_PARTNER_ID_HI.id : Fld := ⟨0x130010, 31, 0⟩
def Reg.PTN_SYNC : Nat := 0x130014
def Reg.PTN_SYNC.pct : Fld := ⟨0x130014, 7, 0⟩
def Reg.PTN_LAG : Nat := 0x130018
def Reg.PTN_LAG.us : Fld := ⟨0x130018, 31, 0⟩
def Reg.PTN_CHN_DEV : Nat := 0x13001C
def Reg.PTN_CHN_DEV.d : Fld := ⟨0x13001C, 31, 0⟩
def Reg.PTN_SEQ : Nat := 0x130020
def Reg.PTN_SEQ.seq : Fld := ⟨0x130020, 31, 0⟩
def Reg.PTN_CLAIM : Nat := 0x130024
def Reg.PTN_CLAIM.claim : Fld := ⟨0x130024, 31, 0⟩
def Reg.PTN_HELD_LO : Nat := 0x130028
def Reg.PTN_HELD_LO.held : Fld := ⟨0x130028, 31, 0⟩
def Reg.PTN_HELD_HI : Nat := 0x13002C
def Reg.PTN_HELD_HI.held : Fld := ⟨0x13002C, 7, 0⟩
def Reg.PTN_TAKEOVER_US : Nat := 0x130030
def Reg.PTN_TAKEOVER_US.us : Fld := ⟨0x130030, 31, 0⟩
def Reg.PTN_UNMIRRORED : Nat := 0x130034
def Reg.PTN_UNMIRRORED.cnt : Fld := ⟨0x130034, 31, 0⟩
def Reg.PTN_ECHO_BAD : Nat := 0x130038
def Reg.PTN_ECHO_BAD.cnt : Fld := ⟨0x130038, 31, 0⟩
def Reg.PTN_PROOF_CMP : Nat := 0x13003C
def Reg.PTN_PROOF_CMP.cnt : Fld := ⟨0x13003C, 31, 0⟩
def Reg.PTN_PROOF_MISMATCH : Nat := 0x130040
def Reg.PTN_PROOF_MISMATCH.cnt : Fld := ⟨0x130040, 31, 0⟩
def Reg.PTN_LAST (n : Nat) : Nat := 0x130100 + 0x4 * n
def Reg.PTN_LAST.tag (n : Nat) : Fld := ⟨0x130100 + 0x4 * n, 31, 16⟩
def Reg.PTN_LAST.index (n : Nat) : Fld := ⟨0x130100 + 0x4 * n, 15, 0⟩
def Reg.PTN_L_STATUS (n : Nat) : Nat := 0x130200 + 0x10 * n
def Reg.PTN_L_STATUS.state (n : Nat) : Fld := ⟨0x130200 + 0x10 * n, 31, 28⟩
def Reg.PTN_L_STATUS.loss (n : Nat) : Fld := ⟨0x130200 + 0x10 * n, 15, 8⟩
def Reg.PTN_L_STATUS.fom (n : Nat) : Fld := ⟨0x130200 + 0x10 * n, 7, 0⟩
def Reg.PWR_STATUS : Nat := 0x140000
def Reg.PWR_STATUS.power_fail : Fld := ⟨0x140000, 31, 31⟩
def Reg.PWR_STATUS.holdup_ok : Fld := ⟨0x140000, 30, 30⟩
def Reg.PWR_STATUS.limit_steps : Fld := ⟨0x140000, 11, 8⟩
def Reg.PWR_STATUS.vback_good : Fld := ⟨0x140000, 3, 3⟩
def Reg.PWR_STATUS.vmain_good : Fld := ⟨0x140000, 2, 2⟩
def Reg.PWR_STATUS.active : Fld := ⟨0x140000, 0, 0⟩
def Reg.PWR_CFG : Nat := 0x140004
def Reg.PWR_CFG.ilim_ma : Fld := ⟨0x140004, 31, 16⟩
def Reg.PWR_CFG.return_ms : Fld := ⟨0x140004, 15, 0⟩
def Reg.PWR_VMAIN : Nat := 0x140008
def Reg.PWR_VMAIN.mv : Fld := ⟨0x140008, 15, 0⟩
def Reg.PWR_VBACK : Nat := 0x14000C
def Reg.PWR_VBACK.mv : Fld := ⟨0x14000C, 15, 0⟩
def Reg.PWR_IMAIN : Nat := 0x140010
def Reg.PWR_IMAIN.ma : Fld := ⟨0x140010, 15, 0⟩
def Reg.PWR_IBACK : Nat := 0x140014
def Reg.PWR_IBACK.ma : Fld := ⟨0x140014, 15, 0⟩
def Reg.PWR_PIN : Nat := 0x140018
def Reg.PWR_PIN.dw : Fld := ⟨0x140018, 15, 0⟩
def Reg.PWR_VMOT : Nat := 0x14001C
def Reg.PWR_VMOT.mv : Fld := ⟨0x14001C, 15, 0⟩
def Reg.PWR_HOLDUP : Nat := 0x140020
def Reg.PWR_HOLDUP.mv : Fld := ⟨0x140020, 15, 0⟩
def Reg.PWR_SWITCH_CNT : Nat := 0x140024
def Reg.PWR_SWITCH_CNT.cnt : Fld := ⟨0x140024, 31, 0⟩
def Reg.PWR_LAST_FAIL : Nat := 0x140028
def Reg.PWR_LAST_FAIL.result : Fld := ⟨0x140028, 31, 30⟩
def Reg.PWR_LAST_FAIL.monument : Fld := ⟨0x140028, 15, 0⟩
def Reg.SEC_STATUS : Nat := 0x150000
def Reg.SEC_STATUS.backoff_s : Fld := ⟨0x150000, 31, 16⟩
def Reg.SEC_STATUS.result : Fld := ⟨0x150000, 14, 12⟩
def Reg.SEC_STATUS.fails : Fld := ⟨0x150000, 11, 8⟩
def Reg.SEC_STATUS.open : Fld := ⟨0x150000, 4, 0⟩
def Reg.SEC_CTRL : Nat := 0x150004
def Reg.SEC_CTRL.scope : Fld := ⟨0x150004, 12, 8⟩
def Reg.SEC_CTRL.close : Fld := ⟨0x150004, 2, 2⟩
def Reg.SEC_CTRL.submit : Fld := ⟨0x150004, 1, 1⟩
def Reg.SEC_CTRL.nonce : Fld := ⟨0x150004, 0, 0⟩
def Reg.SEC_NONCE (n : Nat) : Nat := 0x150010 + 0x4 * n
def Reg.SEC_NONCE.nonce (n : Nat) : Fld := ⟨0x150010 + 0x4 * n, 31, 0⟩
def Reg.SEC_RESP (n : Nat) : Nat := 0x150020 + 0x4 * n
def Reg.SEC_RESP.resp (n : Nat) : Fld := ⟨0x150020 + 0x4 * n, 31, 0⟩
def Reg.SEC_FW : Nat := 0x150040
def Reg.SEC_FW.confirm : Fld := ⟨0x150040, 31, 31⟩
def Reg.SEC_FW.counter : Fld := ⟨0x150040, 30, 24⟩
def Reg.SEC_FW.running : Fld := ⟨0x150040, 23, 23⟩
def Reg.SEC_FW.a_ok : Fld := ⟨0x150040, 22, 22⟩
def Reg.SEC_FW.b_ok : Fld := ⟨0x150040, 21, 21⟩
def Reg.SEC_FW.a_starts : Fld := ⟨0x150040, 20, 18⟩
def Reg.SEC_FW.b_starts : Fld := ⟨0x150040, 17, 15⟩
def Reg.SEC_FW_VER_A : Nat := 0x150044
def Reg.SEC_FW_VER_A.ver : Fld := ⟨0x150044, 31, 0⟩
def Reg.SEC_FW_VER_B : Nat := 0x150048
def Reg.SEC_FW_VER_B.ver : Fld := ⟨0x150048, 31, 0⟩
def Reg.SEC_KEY_CTRL : Nat := 0x150050
def Reg.SEC_KEY_CTRL.present : Fld := ⟨0x150050, 11, 8⟩
def Reg.SEC_KEY_CTRL.erase : Fld := ⟨0x150050, 3, 3⟩
def Reg.SEC_KEY_CTRL.store : Fld := ⟨0x150050, 2, 2⟩
def Reg.SEC_KEY_CTRL.slot : Fld := ⟨0x150050, 1, 0⟩
def Reg.SEC_KEY_DATA (n : Nat) : Nat := 0x150060 + 0x4 * n
def Reg.SEC_KEY_DATA.data (n : Nat) : Fld := ⟨0x150060 + 0x4 * n, 31, 0⟩
def Reg.SEC_KEY_KCV (n : Nat) : Nat := 0x150080 + 0x4 * n
def Reg.SEC_KEY_KCV.kcv (n : Nat) : Fld := ⟨0x150080 + 0x4 * n, 31, 0⟩
def Reg.SEC_XFER_ADDR_LO : Nat := 0x150100
def Reg.SEC_XFER_ADDR_LO.addr : Fld := ⟨0x150100, 31, 6⟩
def Reg.SEC_XFER_ADDR_HI : Nat := 0x150104
def Reg.SEC_XFER_ADDR_HI.addr : Fld := ⟨0x150104, 31, 0⟩
def Reg.SEC_XFER_LEN : Nat := 0x150108
def Reg.SEC_XFER_LEN.len : Fld := ⟨0x150108, 31, 0⟩
def Reg.SEC_XFER : Nat := 0x15010C
def Reg.SEC_XFER.busy : Fld := ⟨0x15010C, 31, 31⟩
def Reg.SEC_XFER.result : Fld := ⟨0x15010C, 30, 28⟩
def Reg.SEC_XFER.op : Fld := ⟨0x15010C, 2, 0⟩
def Reg.SEC_XFER_DONE : Nat := 0x150110
def Reg.SEC_XFER_DONE.bytes : Fld := ⟨0x150110, 31, 0⟩
def Reg.EVT_CFG : Nat := 0x160000
def Reg.EVT_CFG.fatal_bypass : Fld := ⟨0x160000, 0, 0⟩
def Reg.EVT_SEQ : Nat := 0x160004
def Reg.EVT_SEQ.seq : Fld := ⟨0x160004, 31, 0⟩
def Reg.EVT_VEC_CFG (n : Nat) : Nat := 0x160100 + 0x4 * n
def Reg.EVT_VEC_CFG.count (n : Nat) : Fld := ⟨0x160100 + 0x4 * n, 23, 16⟩
def Reg.EVT_VEC_CFG.holdoff (n : Nat) : Fld := ⟨0x160100 + 0x4 * n, 15, 0⟩
def Reg.EVT_CODE (n : Nat) : Nat := 0x160400 + 0x4 * n
def Reg.EVT_CODE.irq_en (n : Nat) : Fld := ⟨0x160400 + 0x4 * n, 8, 8⟩
def Reg.EVT_CODE.vector (n : Nat) : Fld := ⟨0x160400 + 0x4 * n, 4, 0⟩
def Reg.EVT_CNT (n : Nat) : Nat := 0x160800 + 0x4 * n
def Reg.EVT_CNT.cnt (n : Nat) : Fld := ⟨0x160800 + 0x4 * n, 31, 0⟩

end Sys2Proof.Machine
end

