-- ==== Sys2Proof/Machine/Ops.lean ====
section
/-! DEFINITION. The named operations over registers, events, host memory and completions that every family uses. -/

namespace Sys2Proof.Machine

open Sys2Proof

/-! ### Registers (R7 to R14) -/

/-- Where an offset lies in a register row: the indexes of its two arrays. -/
def RegRow.index (r : RegRow) (off : Nat) : Option (Nat × Nat) :=
  if off < r.off then none
  else
    let d := off - r.off
    let i := if r.s1 = 0 then 0 else d / r.s1
    let e := d - i * r.s1
    let k := if r.s2 = 0 then 0 else e / r.s2
    if i < r.n1 ∧ k < r.n2 ∧ e = k * r.s2 then some (i, k) else none

/-- The row of the register at an offset, with its first index. -/
def findRow : List RegRow → Nat → Option (RegRow × Nat)
  | [], _ => none
  | r :: rs, off =>
    match r.index off with
    | some (i, _) => some (r, i)
    | none => findRow rs off

/-- The reset value of one field. -/
def FieldRow.reset (f : FieldRow) (off i : Nat) : Nat :=
  match f.rst with
  | .val n => n
  | .fuse => bitsOf (Config.fuseWord off).toNat f.hi f.lo
  | .motCeil => 0xFFFF
  | .index => i

/-- The word a register holds after reset. -/
def regReset (off : Nat) : Word :=
  match findRow (blockRows off) off with
  | none => 0
  | some (r, i) => word (r.fields.foldl (fun n f => withBits n f.hi f.lo (f.reset off i)) 0)

/-- The word a register of the bank holds. -/
def Mach.rd (m : Mach) (off : Nat) : Nat := (Tab.getD regReset m.regs off).toNat

/-- The bank with a register set. -/
def Mach.wr (m : Mach) (off v : Nat) : Mach := { m with regs := Tab.setD regReset m.regs off (word v) }

/-- A field of the bank. -/
def Mach.fld (m : Mach) (f : Fld) : Nat := bitsOf (m.rd f.off) f.hi f.lo

/-- The bank with a field set. -/
def Mach.setFld (m : Mach) (f : Fld) (v : Nat) : Mach := m.wr f.off (withBits (m.rd f.off) f.hi f.lo v)

/-- A one-bit field as a Bool. -/
def Mach.flag (m : Mach) (f : Fld) : Bool := m.fld f ≠ 0

/-- A field as a two's complement number. -/
def Mach.sfld (m : Mach) (f : Fld) : Int := signed (f.hi + 1 - f.lo) (m.fld f)

/-- A saturating counter field with `n` more. -/
def Mach.addSat (m : Mach) (f : Fld) (n : Nat) : Mach :=
  m.setFld f (min (m.fld f + n) (2 ^ (f.hi + 1 - f.lo) - 1))

/-- A wrapping counter field with `n` more. -/
def Mach.addWrap (m : Mach) (f : Fld) (n : Nat) : Mach := m.setFld f (m.fld f + n)

/-- A 64-bit value held in a _LO/_HI pair of the bank (R11). -/
def Mach.pair (m : Mach) (lo : Nat) : Nat := m.rd lo + 2 ^ 32 * m.rd (lo + 4)

/-- The bank with such a pair set. -/
def Mach.setPair (m : Mach) (lo v : Nat) : Mach := (m.wr lo (v % 2 ^ 32)).wr (lo + 4) (v / 2 ^ 32 % 2 ^ 32)

/-- Such a pair as a wrapping 64-bit counter with `n` more. -/
def Mach.addPair (m : Mach) (lo n : Nat) : Mach := m.setPair lo (m.pair lo + n)

/-! ### Writes that SETUP and the lock gate (R9, R291, R497) -/

/-- A write to an RWS field or a SETUP table window: taken in SETUP before the lock; after the lock it is discarded
and counted, and counted again with EV_GUARD_WRITE when it is one of the Fire Guard fields. -/
def Mach.countDiscard (m : Mach) : Mach :=
  { m with glb := { m.glb with wdisc := min (m.glb.wdisc + 1) (2 ^ 26 - 1) } }

/-- Whether such a write is taken now. -/
def Mach.rwsOpen (m : Mach) : Bool := !m.glb.locked && m.glb.mode = .setup

/-- A 64-bit counter in a _LO/_HI pair with `n` more, saturating. -/
def Mach.addPairSat (m : Mach) (lo n : Nat) : Mach := m.setPair lo (min (m.pair lo + n) (2 ^ 64 - 1))

/-- A check unit has formed `n` values, and `bad` comparisons of it failed (R332, R336). -/
def Mach.checked (m : Mach) (unit n bad : Nat) : Mach :=
  (m.addWrap (Reg.CHK_U_COUNT.cnt unit) n).addSat (Reg.CHK_U_MISMATCH.cnt unit) bad

/-! ### Mode, time and place -/

/-- GLB_MODE reads this mode. -/
def Mach.inMode (m : Mach) (k : Mode) : Bool := m.glb.mode = k

/-- The modes in which stations act and axes work (R68, R449). -/
def Mode.working : Mode → Bool
  | .setup => true | .ready => true | .run => true | .benchmark => true | _ => false

/-- The modes in which the press prints. -/
def Mode.printing : Mode → Bool
  | .run => true | .benchmark => true | _ => false

/-- The DTM tick count as a number. -/
def Mach.now (m : Mach) : Nat := m.dtm.ticks.toNat

/-- A number of DTM ticks has passed since a tick. -/
def Mach.passed (m : Mach) (since ticks : Nat) : Bool := decide (since + ticks ≤ m.now)

/-- The tick on which a periodic action was last taken; 0 before the first. DESIGN CHOICE (log entry 211). -/
def Mach.lastBeat (m : Mach) (b : Beat) : Nat :=
  match m.glb.beats.find? (fun e => e.1 = b) with | some e => e.2 | none => 0

/-- A periodic action is due: its period, in DTM ticks, has passed since it was last taken.
DESIGN CHOICE (log entry 5). -/
def Mach.beatDue (m : Mach) (b : Beat) (period : Nat) : Bool := m.passed (m.lastBeat b) period

/-- A periodic action is taken on the present tick. -/
def Mach.beaten (m : Mach) (b : Beat) : Mach :=
  { m with glb := { m.glb with beats := (b, m.now) :: m.glb.beats.filter (fun e => !(e.1 = b)) } }

/-- Take a periodic action where it is due. -/
def Mach.onBeat (m : Mach) (b : Beat) (period : Nat) (f : Mach → Mach) : Mach :=
  if m.beatDue b period then f (m.beaten b) else m

/-- One microsecond in DTM ticks. -/
def ticksUs : Nat := 500

/-- Datum time in ns: the upper 64 bits of the Datum clock (R87). -/
def Mach.time (m : Mach) : DWord := (m.dtm.clock >>> 32).setWidth 64

/-- The printed chainage, 0 while disarmed (R138). DEDUCED (log entry 90). -/
def Mach.chainage (m : Mach) : Chainage := if m.chn.vote = .disarmed then 0 else m.chn.printed

/-- The debt in 2^-17 links (R54): what the voted chainage lacks of the printed one. -/
def Mach.debt17 (m : Mach) : Nat := (-m.chn.lead).toNat

/-- The debt in links, rounded up. -/
def Mach.debt (m : Mach) : Nat := ceilDiv m.debt17 (2 ^ 17)

/-- The module plays BACKSIGHT (R401). -/
def Mach.isBacksight (m : Mach) : Bool := m.glb.mode = .backsight

/-- The module has shed its load: it has declared power-fail (R461) or thermal shutdown (R468). -/
def Mach.shed (m : Mach) : Bool := m.pwr.powerFail || m.thm.latch.isSome

/-- The effective charter level (R4). -/
def Mach.level (m : Mach) : Nat :=
  if m.fld Reg.GLB_COMPAT.pin_level = 0 then m.fld Reg.GLB_COMPAT.max_level else m.fld Reg.GLB_COMPAT.pin_level

/-- What the Skovex, Farsil, CoaXPress and Ethernet transceivers send. -/
def Output.onLinks : Output → Bool
  | .hostWrite _ _ => false | .hostRead _ => false | .msix _ _ _ => false | .calExport _ _ => false
  | .station _ _ => false | .gates _ _ => false | .pwm _ _ _ => false | .pgood _ => false | .dramRead _ _ => false
  | _ => true

/-- `out` with one more thing sent. Transceivers that are silent send nothing (R461, R479).
DESIGN CHOICE (log entry 163). -/
def Mach.emit (m : Mach) (o : Output) : Mach := if m.skx.silent && o.onLinks then m else { m with out := o :: m.out }

/-! ### Symbols, sets and packets of the links (R308, R309, R313, R319) -/

/-- The special symbols of R308, as the data byte of the code group K. -/
def kA : Nat := 0x7C
def kS : Nat := 0x1C
def kC : Nat := 0xDC
def kV : Nat := 0xFE
def kF : Nat := 0xF7
def kL : Nat := 0xFB
def kE : Nat := 0xFD
def kK : Nat := 0xBC

/-- A set with its check byte (R308). -/
def checkedSet (d : List Byte) : List Byte := d ++ [crc8 d]

/-- A packet of R313 with its header bytes 4 to 7. -/
def packet (typ : Nat) (mid payload : List Byte) : List Byte :=
  let body := leBytes 1 typ ++ leBytes 1 1 ++ leBytes 2 payload.length ++ mid ++ payload
  body ++ leBytes 4 (crc32c body).toNat

/-- The bytes of a packet on one stripe lane of `n`: byte i goes on stripe lane i modulo n (R319). -/
def stripe (n i : Nat) (d : List Byte) : List Byte :=
  ((List.range d.length).filter (fun k => k % n = i)).map (fun k => d.getD k 0)

/-- Send a symbol in the same slot on each lane of a group. -/
def Mach.sendSymbol (m : Mach) (lanes : List Nat) (k : Nat) : Mach :=
  lanes.foldl (fun (m : Mach) n => m.emit (.laneSymbols n k [])) m

/-- The IDLE sets that fill a gap until the next set or packet, as one output on each lane (R308). -/
def Mach.sendIdle (m : Mach) (lanes : List Nat) : Mach :=
  lanes.foldl (fun (m : Mach) n => m.emit (.laneSymbols n kK [0xB5])) m

/-- Send a packet between /L/ and /E/ on the lanes of a group, whole on one lane and striped over two (R313, R319). -/
def Mach.sendPacket (m : Mach) (lanes : List Nat) (kind : Nat) (d : List Byte) : Mach :=
  (((List.range lanes.length).foldl (fun (m : Mach) i =>
    m.emit (.lanePacket (lanes.getD i 0) kind (stripe lanes.length i d))) (m.sendSymbol lanes kL)).sendSymbol
      lanes kE).sendIdle lanes

/-- A packet in progress on the lanes of a group ends with /V/ in place of /E/ (R309). -/
def Mach.cutPacket (m : Mach) (lanes : List Nat) : Mach := ((m.sendSymbol lanes kL).sendSymbol lanes kV).sendIdle lanes

/-- Send a packet to the partner, striped over both lanes of Farsil (R406, R407). -/
def Mach.sendFarsil (m : Mach) (typ : Nat) (mid payload : List Byte) : Mach :=
  m.sendPacket [40, 41] typ (packet typ mid payload)

/-- A packet or set that comes up a head lane fails its check: it is discarded and counted (R309, R313). -/
def Mach.discard (m : Mach) (lane : Nat) : Mach := if lane < 40 then m.addSat (Reg.SKX_L_BADPKT.cnt lane) 1 else m

/-! ### Interrupt vectors (R131, R146) -/

/-- Raise a vector: its message goes out, or its pending bit is set while it is masked. -/
def Mach.raiseVector (m : Mach) (v : Nat) : Mach :=
  let m := { m with evt := { m.evt with vecPending := Tab.set 0 m.evt.vecPending v 0 } }
  if m.flag (Reg.HST_MSIX_CTRL.mask v) then
    { m with evt := { m.evt with pba := Tab.set false m.evt.pba v true } }
  else
    m.emit (.msix v (BitVec.ofNat 64 (m.pair (Reg.HST_MSIX_ADDR_LO v))) (word (m.rd (Reg.HST_MSIX_DATA v))))

/-- One more entry pends on a vector. It is raised at EVT_VEC<v>_CFG.count, or at once when `bypass` holds.
DEDUCED (log entries 154, 241). -/
def Mach.notify (m : Mach) (v : Nat) (bypass : Bool) : Mach :=
  let n := Tab.get 0 m.evt.vecPending v + 1
  let m := { m with evt := { m.evt with
    vecPending := Tab.set 0 m.evt.vecPending v n
    vecSince := if n = 1 then Tab.set 0 m.evt.vecSince v m.now else m.evt.vecSince } }
  if bypass || decide (max 1 (m.fld (Reg.EVT_VEC_CFG.count v)) ≤ n) then m.raiseVector v else m

/-! ### The field book (R138 to R140, R528) -/

/-- The flags of a record raised now: chainage valid, held, BACKSIGHT (R138). -/
def Mach.recFlags (m : Mach) : Nat :=
  ofBool m.chn.vote.valid + 2 * ofBool (m.chn.lead < 0) + 4 * ofBool m.isBacksight

/-- The internal queue holds 512 records (R140). -/
def recQueueMax : Nat := 512

/-- One occurrence becomes a record: the next sequence number, a count in EVT_CNT, and a place in the queue, or
the record is lost when the queue is full (R140). -/
def Mach.addRec (m : Mach) (r : Rec) : Mach :=
  let r := { r with seq := m.evt.seq }
  let m := m.addSat (Reg.EVT_CNT.cnt r.code) 1
  if m.evt.queue.length < recQueueMax then
    { m with evt := { m.evt with seq := m.evt.seq + 1, queue := m.evt.queue ++ [r] } }
  else
    { m with evt := { m.evt with
        seq := m.evt.seq + 1
        lost := m.evt.lost + 1
        lostAll := m.evt.lostAll + 1
        firstLost := if m.evt.lost = 0 then r.seq else m.evt.firstLost } }

/-- Raise an event with a severity and two arguments whose record names a chainage. -/
def Mach.raiseAt (m : Mach) (e : Ev) (c : Chainage) (sev : Sev) (a0 a1 : Nat) : Mach :=
  m.addRec
    { code := e.code, sev := sev, block := e.block, flags := m.recFlags, seq := 0, chn := c,
      time := m.time, arg0 := word a0, arg1 := word a1 }

/-- Raise an event with a severity and two arguments (R139, R140). DEDUCED (log entries 57, 167). -/
def Mach.raise (m : Mach) (e : Ev) (sev : Sev) (a0 a1 : Nat) : Mach := m.raiseAt e m.chainage sev a0 a1

/-- 10 ms in DTM ticks. -/
def ticks10ms : Nat := 5000000

/-- The arguments of a rate-limited record: the count stands in arg1, but for the codes whose chapters put it
elsewhere (R528): EV_TRV_MISS in arg0 [31:8], and EV_PROOF_DROP in arg0. -/
def rateArgs (code : Nat) (r : RateSrc) : Nat × Nat :=
  if code = Ev.trvMiss.code then (r.a0 % 256 + 256 * (r.count % 2 ^ 24), r.a1)
  else if code = Ev.proofDrop.code then (r.count, r.a1)
  else if code = Ev.guardPulse.code ∨ code = Ev.firePlacement.code ∨ code = Ev.tileWait.code ∨ code = Ev.drmTargetMiss.code then (r.a0, r.a1)
  else (r.a0, r.count)

/-- A source may raise a record when none of it was raised in the last 10 ms (R528). -/
def RateSrc.free (r : RateSrc) (now : Nat) : Bool :=
  match r.last with
  | none => true
  | some t => decide (t + ticks10ms ≤ now)

/-- The key of a source within EVT's table: its code and its number. -/
def rateKey (code source : Nat) : Nat := code * 65536 + source

/-- Raise the record a source owes, and start its next 10 ms. EV_STN_SKIPPED names the chainage of the latest skip
(R77). -/
def Mach.rateFlush (m : Mach) (e : Ev) (source : Nat) : Mach :=
  let k := rateKey e.code source
  let r := Tab.get {} m.evt.rate k
  let a := rateArgs e.code r
  let m := m.raiseAt e (if e = Ev.stnSkipped then r.chn else m.chainage) r.sev a.1 a.2
  { m with evt := { m.evt with rate := Tab.set {} m.evt.rate k { last := some m.now } } }

/-- A source's record with `n` more occurrences: arguments are those of the first occurrence counted; those of later
ones are added by `join`. -/
def RateSrc.more (r : RateSrc) (sev : Sev) (a : Nat × Nat) (n : Nat) (join : Nat × Nat → Nat × Nat → Nat × Nat) : RateSrc :=
  let b := if r.count = 0 then a else join (r.a0, r.a1) a
  { r with
    count := r.count + n, a0 := b.1, a1 := b.2
    sev := if r.count = 0 || decide (r.sev.code < sev.code) then sev else r.sev }

/-- Put a source's record back. -/
def Mach.setRate (m : Mach) (k : Nat) (r : RateSrc) : Mach :=
  { m with evt := { m.evt with rate := Tab.set {} m.evt.rate k r } }

/-- Later occurrences of a source set further bits of arg0. -/
def joinBits (old new : Nat × Nat) : Nat × Nat := (old.1 ||| new.1, old.2)

/-- `n` occurrences of a source raised at most once per 10 ms: a record at once, or counted until then (R528). -/
def Mach.raiseRated (m : Mach) (e : Ev) (source : Nat) (sev : Sev) (a0 a1 n : Nat)
    (join : Nat × Nat → Nat × Nat → Nat × Nat := fun old _ => old) : Mach :=
  if n = 0 then m
  else
    let k := rateKey e.code source
    let r := { (Tab.get {} m.evt.rate k).more sev (a0, a1) n join with chn := m.chainage }
    if r.free m.now then (m.setRate k r).rateFlush e source else m.setRate k r

/-! ### DMA windows (R112, R113) -/

/-- A window holds every byte of a transfer with the permission it needs. -/
def Mach.windowHolds (m : Mach) (write : Bool) (addr len w : Nat) : Bool :=
  (if write then m.flag (Reg.HST_WIN_PERM.write w) else m.flag (Reg.HST_WIN_PERM.read w)) &&
  decide (m.pair (Reg.HST_WIN_BASE_LO w) ≤ addr) && decide (addr + len ≤ m.pair (Reg.HST_WIN_LIMIT_LO w) + 1)

/-- A transfer of host memory is allowed. -/
def Mach.dmaOk (m : Mach) (write : Bool) (addr len : Nat) : Bool :=
  (List.range 16).any (m.windowHolds write addr len)

/-! ### Rings (R114 to R120) -/

/-- Rings 22, 23 and 32 to 63 are reserved (R114). -/
def ringReserved (r : Nat) : Bool := r = 22 || r = 23 || decide (32 ≤ r)

/-- Rings 0 to 19 are written by the host (R114). -/
def ringHostWritten (r : Nat) : Bool := decide (r < 20)

/-- The bytes of one entry of a ring (R114). -/
def ringEntry (r : Nat) : Nat := if r = 20 ∨ 24 ≤ r then 32 else 64

/-- The number of entries of a ring, from its size field. -/
def Mach.ringSize (m : Mach) (r : Nat) : Nat := 2 ^ (m.fld (Reg.HST_RING_CFG.size r) + 6)

/-- One ring's state. -/
def Mach.ring (m : Mach) (r : Nat) : Ring := Tab.get {} m.hst.rings r

/-- The rings with one changed. -/
def Mach.setRing (m : Mach) (r : Nat) (x : Ring) : Mach :=
  { m with hst := { m.hst with rings := Tab.set {} m.hst.rings r x } }

/-- The host link carries writes. -/
def Mach.linkUp (m : Mach) : Bool := decide (0 < m.hst.linkSpeed)

/-- A module-written ring is enabled and has a free entry: at most 2^k - 1 entries stand outstanding (R117). In
power-fail only the field book is written (R461). -/
def Mach.ringSpace (m : Mach) (r : Nat) : Bool :=
  let x := m.ring r
  let n := m.ringSize r
  m.linkUp && x.active && (r = 20 || !m.pwr.powerFail) && decide ((x.head + n - x.tail) % n < n - 1)

/-- Where the next entry of a ring lies in host memory. -/
def Mach.ringNext (m : Mach) (r : Nat) : Nat := m.pair (Reg.HST_RING_BASE_LO r) + ringEntry r * (m.ring r).head

/-- A module-written ring takes an entry now: it has a free one, and a window allows its write (R112).
DEDUCED (log entry 189). -/
def Mach.ringRoom (m : Mach) (r : Nat) : Bool := m.ringSpace r && m.dmaOk true (m.ringNext r) (ringEntry r)

/-- EV_HST_WINDOW where only the windows keep a ring's next entry from being written (R113). DEDUCED (log entry 189). -/
def Mach.ringBarred (m : Mach) (r : Nat) (sev : Sev) : Mach :=
  if m.ringSpace r && !m.dmaOk true (m.ringNext r) (ringEntry r) then m.raise Ev.hstWindow sev r (m.ring r).head else m

/-- Write one entry of a module-written ring with the phase of its pass in byte 1 [7] (R116). -/
def Mach.ringWrite (m : Mach) (r : Nat) (entry : List Byte) : Mach :=
  let x := m.ring r
  let b1 := (entry.getD 1 0).toNat % 128 + 128 * ofBool x.phase
  let e := entry.take 1 ++ [BitVec.ofNat 8 b1] ++ entry.drop 2
  let wrap := x.head + 1 = m.ringSize r
  (m.emit (.hostWrite (m.ringNext r) e)).setRing r
    { x with head := if wrap then 0 else x.head + 1, phase := if wrap then !x.phase else x.phase, count := x.count + 1 }

/-- The vector of a module-written ring pends on every entry when its irq field says so (R131). -/
def Mach.ringNotify (m : Mach) (r : Nat) (wanted : Bool) : Mach :=
  if wanted then m.notify (m.fld (Reg.HST_RING_CFG.vector r)) false else m

/-! ### Completions (R128 to R131, R141) -/

/-- The 32 bytes of a completion entry (R128); the phase is put in as the ring writes it. -/
def Cpl.bytes (c : Cpl) : List Byte :=
  leBytes 1 c.status.code ++ leBytes 1 c.kind.code ++ leBytes 2 c.tag ++ leBytes 1 c.ring ++ leBytes 1 c.opcode ++
  leBytes 2 c.index ++ leBytes 6 (c.chn.getD 0).toNat ++
  leBytes 1 (ofBool c.chn.isSome + 2 * ofBool c.moved + 4 * ofBool c.continued + 8 * ofBool c.short +
    16 * ofBool c.long + 32 * ofBool c.crcErr) ++
  leBytes 1 0 ++ leBytes 4 c.epoch.toNat ++ leBytes 4 c.value ++ leBytes 8 c.time.toNat

/-- The severity of a completion routed to FIELDBOOK (R141). -/
def Status.sev : Status → Sev
  | .ok => .info | .alreadyActed => .info | .noEffect => .info
  | .caughtUp => .warning | .fellBack => .warning
  | _ => .error

/-- Ring `r` wants its vector raised for an entry whose descriptor has or lacks the irq flag (R131). -/
def Mach.irqWanted (m : Mach) (r : Nat) (flagged : Bool) : Bool :=
  let i := m.fld (Reg.HST_RING_CFG.irq r)
  decide (r < 64) && (i = 2 || (i = 1 && flagged))

/-- A completion routed to FIELDBOOK is the record EV_HST_CPL (R141), which raises the descriptor's ring's vector once
it is written (R145). -/
def Mach.cplRecord (m : Mach) (c : Cpl) : Mach :=
  m.addRec
    { code := Ev.hstCpl.code, sev := c.status.sev, block := Ev.hstCpl.block
      flags := ofBool c.chn.isSome + m.recFlags / 2 * 2, seq := 0, chn := c.chn.getD 0, time := m.time
      arg0 := word (c.ring * 2 ^ 24 + c.status.code * 2 ^ 16 + c.opcode * 256 + c.kind.code)
      arg1 := word (c.tag % 65536 * 65536 + c.index % 65536)
      cplRing := if m.irqWanted c.ring c.irq then some c.ring else none }

/-! #### The field book -/

/-- The 32 bytes of a record (R138); the phase is put in as the ring writes it. -/
def Rec.bytes (r : Rec) : List Byte :=
  leBytes 1 r.code ++ leBytes 1 r.sev.code ++ leBytes 1 r.block ++ leBytes 1 r.flags ++ leBytes 4 r.seq.toNat ++
  leBytes 6 r.chn.toNat ++ leBytes 2 0 ++ leBytes 8 r.time.toNat ++ leBytes 4 r.arg0.toNat ++ leBytes 4 r.arg1.toNat

/-- Write one record, and pend its vectors after it (R131, R146). -/
def Mach.recWrite (m : Mach) (r : Rec) : Mach :=
  let m := m.ringWrite 20 r.bytes
  let m := match r.cplRing with
    | some q => m.ringNotify q true
    | none => m
  let m := m.ringNotify 20 (m.fld (Reg.HST_RING_CFG.irq 20) = 2)
  if m.flag (Reg.EVT_CODE.irq_en r.code) then
    m.notify (m.fld (Reg.EVT_CODE.vector r.code)) (r.sev = .fatal && m.flag Reg.EVT_CFG.fatal_bypass)
  else m

/-- Queued records go out while FIELDBOOK has room. DEDUCED (log entry 155). -/
def Mach.recDrain (m : Mach) : Nat → Mach
  | 0 => m
  | n + 1 =>
    match m.evt.queue with
    | [] => m
    | r :: l =>
      if m.ringRoom 20 then (({ m with evt := { m.evt with queue := l } } : Mach).recWrite r).recDrain n else m

/-- EV_HST_WINDOW once where only the windows have come to keep FIELDBOOK's next entry from being written (R113).
DEDUCED (log entry 189). -/
def Mach.bookBar (m : Mach) : Mach :=
  let barred := !m.evt.queue.isEmpty && m.ringSpace 20 && !m.ringRoom 20
  let was := m.evt.barred
  let m : Mach := { m with evt := { m.evt with barred := barred } }
  if barred && !was then m.ringBarred 20 .warning else m

/-- Queued records are written; where some were lost, EV_HST_FB_LOST says so once room has returned (R140).
DEDUCED (log entry 155). -/
def Mach.bookDrain (m : Mach) : Mach :=
  let m := (m.recDrain m.evt.queue.length).bookBar
  if m.evt.lost = 0 ∨ !m.ringRoom 20 then m
  else
    let n := m.evt.lost
    let m := { m with evt := { m.evt with lost := 0 } }
    (m.raise Ev.hstFbLost .error n m.evt.firstLost.toNat).recDrain (m.evt.queue.length + 1)

/-! #### Completion queues -/

/-- Put a completion into a CQ and pend the vectors of the CQ and of the descriptor's ring (R131). -/
def Mach.cqPut (m : Mach) (target : Nat) (c : Cpl) : Mach :=
  let m := m.ringWrite target c.bytes
  let m := m.ringNotify c.ring (m.irqWanted c.ring c.irq)
  m.ringNotify target (m.fld (Reg.HST_RING_CFG.irq target) = 2)

/-- The completions that wait for room in a target. -/
def Mach.waiting (m : Mach) (target : Nat) : List Cpl := Tab.get [] m.hst.cplWait target

/-- The table of waiting completions with one target's changed. -/
def Mach.setWaiting (m : Mach) (target : Nat) (l : List Cpl) : Mach :=
  { m with hst := { m.hst with cplWait := Tab.set [] m.hst.cplWait target l } }

/-- The completions of CTRL that wait for a target go out while it has room: they stand first among those that wait. -/
def Mach.ctrlDrain (m : Mach) (t : Nat) : Nat → Mach
  | 0 => m
  | n + 1 =>
    match m.waiting t with
    | [] => m
    | c :: l => if c.ring = 0 && m.ringRoom t then ((m.setWaiting t l).cqPut t c).ctrlDrain t n else m

/-- What goes onto the link ahead of other completions and TLM entries: records, then completions of CTRL (R145). -/
def Mach.drainFirst (m : Mach) : Mach :=
  let m := m.bookDrain
  if m.hst.stopped then m
  else m.hst.cplWait.foldl (fun m (e : Nat × List Cpl) => m.ctrlDrain e.1 e.2.length) m

/-- Write a completion to a CQ, behind what goes ahead of it (R132, R145). -/
def Mach.cqWrite (m : Mach) (target : Nat) (c : Cpl) : Mach :=
  (if c.ring = 0 then m.bookDrain else m.drainFirst).cqPut target c

/-- Completions that wait with one more among them: those of CTRL go ahead of those of other rings (R132, R145). -/
def cplInsert (c : Cpl) (l : List Cpl) : List Cpl :=
  if c.ring = 0 then l.takeWhile (fun d => d.ring = 0) ++ c :: l.dropWhile (fun d => d.ring = 0) else l ++ [c]

/-- A completion goes to its target: a record of FIELDBOOK, an entry of a CQ with room, or a place in the queue
that waits for room (R120). -/
def Mach.cplSend (m : Mach) (target : Nat) (c : Cpl) : Mach :=
  if target = 20 then m.cplRecord c
  else if (m.waiting target).isEmpty then
    if m.ringRoom target then m.cqWrite target c else (m.setWaiting target [c]).ringBarred target .warning
  else m.setWaiting target (cplInsert c (m.waiting target))

/-- Queue a completion entry; while the module is stopped it is held (R136). -/
def Mach.cplQueue (m : Mach) (target : Nat) (c : Cpl) : Mach :=
  let c := { c with time := m.time }
  if m.hst.stopped then { m with hst := { m.hst with held := m.hst.held ++ [.cpl target c] } }
  else m.cplSend target c

/-- The completions that wait for a target go out while it has room. -/
def Mach.cplDrain (m : Mach) (t : Nat) : Nat → Mach
  | 0 => m
  | n + 1 =>
    match m.waiting t with
    | [] => m
    | c :: l => if m.ringRoom t then ((m.setWaiting t l).cqPut t c).cplDrain t n else m

/-- What waits to be written goes out in the order of R145: records, completions of CTRL, then others. While the module
is stopped records alone do (R136). -/
def Mach.drainWaiting (m : Mach) : Mach :=
  let m := m.drainFirst
  if m.hst.stopped then m
  else m.hst.cplWait.foldl (fun m (e : Nat × List Cpl) => m.cplDrain e.1 e.2.length) m

/-- The completion entry of a descriptor, to be filled in. -/
def cplOf (h : DescRef) (st : Status) (kind : CplKind := .completion) : Cpl :=
  { status := st, kind := kind, tag := h.tag, ring := h.ring, opcode := h.opcode, index := h.index, irq := h.irq }

/-- Complete a descriptor: no entry when it is quiet and the status is OK (R121). -/
def Mach.complete (m : Mach) (h : DescRef) (c : Cpl) : Mach :=
  let m := m.setRing h.ring { m.ring h.ring with count := (m.ring h.ring).count + 1 }
  if h.quiet && c.status = .ok then m else m.cplQueue h.target c

/-- Complete a descriptor with a bare status. -/
def Mach.done (m : Mach) (h : DescRef) (st : Status) : Mach := m.complete h (cplOf h st)

/-- The buffers posted on CAMO ring n. -/
def Mach.camBufs (m : Mach) (n : Nat) : List CamBuffer := Tab.get [] m.hst.camBufs n

/-- The buffers of one ring changed. -/
def Mach.setCamBufs (m : Mach) (n : Nat) (l : List CamBuffer) : Mach :=
  { m with hst := { m.hst with camBufs := Tab.set [] m.hst.camBufs n l } }

/-- Complete a descriptor that is not carried out. One of a CAMO ring waits behind the buffers posted before it: completions
keep ring order (R118). -/
def Mach.refuse (m : Mach) (h : DescRef) (st : Status) : Mach :=
  let n := h.ring - 12
  if h.ring < 12 || decide (20 ≤ h.ring) || (m.camBufs n).isEmpty then m.done h st
  else m.setCamBufs n (m.camBufs n ++ [{ desc := h, refused := some st }])

/-- The severity of a descriptor's data not being read: item content is lost (R139). -/
def lossSev (h : DescRef) : Sev := if h.opcode = 0x40 then .error else .warning

/-- Complete a descriptor that names an address outside every window (R113). -/
def Mach.windowFail (m : Mach) (h : DescRef) : Mach :=
  (m.raise Ev.hstWindow (lossSev h) h.ring h.index).refuse h .window

/-- A ring has a descriptor fetched and not yet acted on. -/
def Mach.holdsDesc (m : Mach) (h : DescRef) : Bool := (m.ring h.ring).got = some h

/-- The descriptor that a ring fetched is acted on now. -/
def Mach.takeDesc (m : Mach) (h : DescRef) : Mach := m.setRing h.ring { m.ring h.ring with got := none }

/-! ### The meaning of a command -/

/-- FGD_G_STATUS.pwr_off: the conditions of R301 that fail, not locked, STOP_n or LAND stop, watchdog, and mode
or fatal (R305). -/
def Mach.pwrOff (m : Mach) : Nat :=
  ofBool (!m.glb.locked) +
  2 * ofBool (!m.hst.stopN || m.hst.stopSrc.getLsbD 1) +
  4 * ofBool (!m.fgd.wdgRefreshed || m.fgd.wdgExpired) +
  8 * ofBool (!(m.glb.mode = .ready || m.glb.mode = .run || m.glb.mode = .benchmark) || m.fgd.fatalCause ≠ 0)

/-- HEAD_PWR_EN goes low when any condition of R301 fails. DEDUCED (log entry 91). -/
def Mach.settle (m : Mach) : Mach :=
  if m.fgd.headPwr && m.pwrOff ≠ 0 then
    ({ m with fgd := { m.fgd with headPwr := false } }).raise Ev.guardPwr .warning 0 m.pwrOff
  else m

/-- Every domain runs: no failed clock holds the module in reset (R479) and no shutdown has switched it off
(R468). -/
def Mach.alive (m : Mach) : Bool := !m.glb.clockHeld && !m.glb.powerOff

/-- A command of the running module that writes neither DRAM nor fuses: its effect, then HEAD_PWR_EN under R301. While
every domain but AON is held in reset it finds nothing to act on. DESIGN CHOICE (log entry 3). -/
def State.run (s : State) (f : Mach → Mach) : Host.Outcome State Fault Refusal :=
  .next { s with m := if s.m.alive then ({ f s.m with dram := s.m.dram, otp := s.m.otp } : Mach).settle else s.m }

/-- A command of the running module that may store to DRAM, or reset the module; the fuses stay. -/
def State.runMem (s : State) (f : Mach → Mach) : Host.Outcome State Fault Refusal :=
  .next { s with m := if s.m.alive then ({ f s.m with otp := s.m.otp } : Mach).settle else s.m }

/-- A command of the running module that may blow fuses; DRAM stays. -/
def State.runFuse (s : State) (f : Mach → Mach) : Host.Outcome State Fault Refusal :=
  .next { s with m := if s.m.alive then ({ f s.m with dram := s.m.dram } : Mach).settle else s.m }

/-- A command that AON takes whatever the other domains do, and that writes neither DRAM nor fuses. -/
def State.runAon (s : State) (f : Mach → Mach) : Host.Outcome State Fault Refusal :=
  .next { s with m := ({ f s.m with dram := s.m.dram, otp := s.m.otp } : Mach).settle }

/-- A reset that AON carries out whatever the other domains do; the fuses stay. -/
def State.runReset (s : State) (f : Mach → Mach) : Host.Outcome State Fault Refusal :=
  .next { s with m := ({ f s.m with otp := s.m.otp } : Mach).settle }

/-! ### Module DRAM (R380) -/

/-- The canonical form of memory: addresses strictly rising, and no entry that reads 0. -/
def Memory.wf (l : List Host.Cell) : Bool := Tab.wf (fun _ => (0 : Byte)) l

/-- The byte at a DRAM address; a byte that nothing has written reads 0. DESIGN CHOICE (log entry 15). -/
def Mach.dramByte (m : Mach) (a : Nat) : Byte := Tab.get (0 : Byte) m.dram a

/-- The bytes of DRAM from an address. -/
def Mach.dramRead (m : Mach) (a n : Nat) : List Byte := (List.range n).map (fun i => m.dramByte (a + i))

/-- The bytes of DRAM with `d` written from an address. -/
def dramWriteList : List Byte → Nat → List Host.Cell → List Host.Cell
  | [], _, l => l
  | b :: d, a, l => dramWriteList d (a + 1) (Tab.set (0 : Byte) l a b)

/-- Write bytes into DRAM. -/
def Mach.dramWrite (m : Mach) (a : Nat) (d : List Byte) : Mach := { m with dram := dramWriteList d a m.dram }

/-- 256 MB, the unit of DRM_REGION (R381). -/
def unit256M : Nat := 2 ^ 28

/-- Where the state region begins (R381). -/
def stateRegion : Nat := 0x780000000

/-! ### The mirror (R410, R411) -/

/-- The active module mirrors while its partner is SYNCING or BACKSIGHT (R411). -/
def Mach.mirroring (m : Mach) : Bool :=
  m.ptn.state = .foresight || (m.ptn.state = .reverting && m.ptn.oldActive)

/-- Commits wait for the partner's ACK while the partner is BACKSIGHT (R413). -/
def Mach.commitsWait (m : Mach) : Bool :=
  m.mirroring && m.ptn.partner = PtnState.backsight.code

/-- Records leave in MIRROR packets, whose CRCs check unit 22 forms (R407). -/
def Mach.sendMirror (m : Mach) (rs : List MirrorItem) : Mach :=
  (mirrorPackets payloadMax rs 0 []).foldl (fun (m : Mach) p =>
    (cutPayload payloadMax p.2).foldl (fun (m : Mach) d =>
      (m.checked 22 1 0).sendFarsil 0x12 (leBytes 4 p.1.toNat) d) m) m

/-- Send a record to the partner, and keep it staged until it is acknowledged (R410). -/
def Mach.mirror (m : Mach) (isCommit : Bool) (body : MirrorRec) : Mach :=
  if m.mirroring then
    let q := m.ptn.sent + 1
    let i : MirrorItem := { seq := q, isCommit := isCommit, body := body }
    ({ m with ptn := { m.ptn with
        sent := q
        staging := m.ptn.staging ++ [i]
        stagedAt := m.ptn.stagedAt ++ [m.now] } } : Mach).sendMirror [i]
  else m

/-- The fill of the staging buffer in bytes, of the 64 MB it holds. -/
def Mach.stagingFill (m : Mach) : Nat := m.ptn.staging.foldl (fun n i => n + i.body.bytes) 0

/-- The staging buffer is 100 % full (R410). -/
def Mach.stagingFull (m : Mach) : Bool := decide (2 ^ 26 ≤ m.stagingFill)

/-- Mirror an outcome decided by time (R412). -/
def Mach.decide_ (m : Mach) (typ : Nat) (c : Chainage) (v1 v2 : Nat) : Mach :=
  m.mirror false (.decision typ c (word v1) (word v2))

/-- Mirror a descriptor acted on, with the epoch it took and the effect chainage used. -/
def Mach.mirrorDesc (m : Mach) (h : DescRef) (b : DescBody) (epoch : Word := 0) (effect : Chainage := 0)
    (isCommit : Bool := false) : Mach :=
  m.mirror isCommit (.desc h b epoch effect)

end Sys2Proof.Machine
end

