-- ==== Sys2Proof/Machine/Operands.lean ====
section
/-! DEFINITION. The operands that commands name through the press description: head records and plane nozzle
indices (R210, R257), jobs and their latched registers, job lines and their chainages (R20, R263), swath names
(R231), and the first unfired line (R25). -/

namespace Sys2Proof.Machine

open Sys2Proof

/-! ### Head geometry -/

/-- A head record as R257 lists it. -/
structure HeadRec where
  id : Nat
  type : Nat
  hub : Nat
  slot : Nat
  plane : Nat
  pos : Nat
  noz : Nat
  rows : List Nat
  deriving DecidableEq, Repr

/-- Head `h` is enabled. -/
def Mach.headEn (m : Mach) (h : Nat) : Bool := m.flag (Reg.FGD_HD_CFG.en h)

/-- The record of head `h`. -/
def Mach.headRec (m : Mach) (h : Nat) : HeadRec :=
  { id := h, type := m.fld (Reg.FGD_HD_CFG.type h), hub := m.fld (Reg.FGD_HD_CFG.hub h)
    slot := m.fld (Reg.FGD_HD_CFG.slot h), plane := m.fld (Reg.FGD_HD_CFG.plane h)
    pos := m.fld (Reg.FGD_HD_GEOM.pos h), noz := m.fld (Reg.FGD_HD_GEOM.noz_m1 h) + 1
    rows := (List.range (m.fld (Reg.FGD_HD_CFG.rows_m1 h) + 1)).map (fun r => m.rd (Reg.FGD_HD_ROW h r)) }

/-- Every enabled head, in the order of head numbers. -/
def Mach.heads (m : Mach) : List HeadRec := ((List.range 400).filter m.headEn).map m.headRec

/-- A head put into a list kept in the order of pos(h); equal positions keep the order of head numbers. -/
def insertHead (h : HeadRec) : List HeadRec → List HeadRec
  | [] => [h]
  | x :: r => if h.pos < x.pos then h :: x :: r else x :: insertHead h r

/-- The heads of a plane by rank (R210). -/
def Mach.planeHeads (m : Mach) (p : Nat) : List HeadRec :=
  (m.heads.filter (fun h => h.plane = p)).foldl (fun l h => insertHead h l) []

/-- The enabled heads of a hub. -/
def Mach.hubHeads (m : Mach) (hub : Nat) : List HeadRec := m.heads.filter (fun h => h.hub = hub)

/-- The number of nozzles of a list of heads. -/
def nozzleCount (hs : List HeadRec) : Nat := hs.foldl (fun n h => n + h.noz) 0

/-- Where plane nozzle index `u` stands: the head's rank, the head, and k (R210). -/
def nozzleAt : List HeadRec → Nat → Nat → Option (Nat × HeadRec × Nat)
  | [], _, _ => none
  | h :: r, rank, u => if u < h.noz then some (rank, h, u) else nozzleAt r (rank + 1) (u - h.noz)

/-- The plane nozzle index of the first nozzle of a head, among its plane's heads by rank. -/
def firstU : List HeadRec → Nat → Nat
  | [], _ => 0
  | h :: r, id => if h.id = id then 0 else h.noz + firstU r id

/-- The row offsets of a list of heads. -/
def rowOffsets (hs : List HeadRec) : List Nat := hs.flatMap (fun h => h.rows)

/-- The smallest and the largest of a list, 0 for none. -/
def listMin : List Nat → Nat
  | [] => 0
  | [a] => a
  | a :: b :: r => min a (listMin (b :: r))

def listMax (l : List Nat) : Nat := l.foldl max 0

/-! ### Jobs -/

/-- The job in a slot. -/
def Mach.job (m : Mach) (j : Nat) : Job := Tab.get {} m.vgp.job j

/-- The jobs with one slot changed. -/
def Mach.setJob (m : Mach) (j : Nat) (x : Job) : Mach :=
  { m with vgp := { m.vgp with job := Tab.set {} m.vgp.job j x } }

/-- The slot that holds a job_tag. -/
def Mach.jobSlot (m : Mach) (tag : Nat) : Option Nat :=
  (List.range 8).find? (fun j => (m.job j).state ≠ .free && (m.job j).tag = tag)

/-- A job is ARMED or PRINTING. -/
def Job.active (x : Job) : Bool := x.state = .armed || x.state = .printing

/-- A job has lines: it is PRINTING, or ARMED and past its commit point (R171, R235). -/
def Job.hasLines (x : Job) : Bool := x.state = .printing || (x.state = .armed && x.started)

/-- The plane mask names a plane. -/
def Job.hasPlane (x : Job) (p : Nat) : Bool := bitAt x.planes p

/-- The layer mask names a layer. -/
def Job.hasLayer (x : Job) (n : Nat) : Bool := bitAt x.layers n

/-- A register as the job latched it. -/
def Job.latched (x : Job) (off : Nat) : Nat := (Tab.getD regReset x.latch off).toNat

/-- A field of a register as the job latched it. -/
def Job.lfld (x : Job) (f : Fld) : Nat := bitsOf (x.latched f.off) f.hi f.lo

/-- The job with the present words of some registers latched. -/
def Mach.latchRegs (m : Mach) (x : Job) (offs : List Nat) : Job :=
  { x with latch := offs.foldl (fun t o => Tab.setD regReset t o (word (m.rd o))) x.latch }

/-- The slots of the jobs that have lines, in slot order. -/
def Mach.lineJobs (m : Mach) : List Nat := (List.range 8).filter (fun j => (m.job j).hasLines)

/-- A layer of a job is taken from items: L1 to L5 always, L0 and L6 as latched at JOB_OPEN, L7 never (R181, R182). -/
def Job.itemLayer (x : Job) (n : Nat) : Bool :=
  x.hasLayer n && (if n = 0 ∨ n = 6 then bitAt x.itemSrc n else decide (n < 7))

/-- The lowest item-sourced layer of a job (R197). -/
def Job.namedLayer (x : Job) : Option Nat := (List.range 7).find? x.itemLayer

/-! ### Job lines -/

/-- The line chainage of job line `n`: the whole-link part of O + n x P (R263). -/
def Job.lineChn (x : Job) (n : Nat) : Chainage := x.origin + BitVec.ofNat 48 (n * x.pitch / 65536)

/-- The signed difference of two chainages with 16 fraction bits, modulo 2^64. -/
def diff64 (a b : Nat) : Int := (BitVec.ofNat 64 a - BitVec.ofNat 64 b).toInt

/-- The extended printed chainage in 2^-16 links (R269). -/
def Mach.ext16 (m : Mach) : Nat :=
  m.chainage.toNat * 65536 + (if m.chn.lead < 0 then 0 else min 65535 (m.chn.lead.toNat / 2))

/-- c(n, r) in 2^-16 links (R268). -/
def Job.fire16 (x : Job) (line off : Nat) : Nat :=
  (x.origin.toNat * 65536 + line * x.pitch + off * 65536) % 2 ^ 64

/-- The first job line whose line chainage lies at or beyond `c`. -/
def Job.lineAt (x : Job) (c : Chainage) : Nat :=
  let d := chnDiff c x.origin
  if d ≤ 0 then 0 else if x.pitch = 0 then 0 else ceilDiv (d.toNat * 65536) x.pitch

/-- The job line that a chainage lies in: the last whose line chainage it has reached. -/
def Job.lineIn (x : Job) (c : Chainage) : Nat := if chnAtOrAhead c x.origin then x.lineAt (c + 1) - 1 else 0

/-- The first line that the job prints: the first at or beyond its effect chainage (R170). -/
def Job.firstLine (x : Job) : Nat := x.lineAt x.effect

/-- The job lines that a stream line of a layer covers along the web: 2 at 600 dpi, 1 at 1200 dpi. -/
def Job.alongOf (x : Job) (n : Nat) : Nat := if bitAt x.along n then 1 else 2

/-- The same across the web, in nozzles. -/
def Job.acrossOf (x : Job) (n : Nat) : Nat := if bitAt x.across n then 1 else 2

/-- The key of a stream of a job. -/
def streamKey (layer plane : Nat) : Nat := 16 * layer + plane

/-- A stream of a job. -/
def Job.stream (x : Job) (layer plane : Nat) : Stream := Tab.get {} x.streams (streamKey layer plane)

/-- The job with one stream changed. -/
def Job.setStream (x : Job) (layer plane : Nat) (t : Stream) : Job :=
  { x with streams := Tab.set {} x.streams (streamKey layer plane) t }

/-- The stream id of R174. -/
def streamId (tag layer plane : Nat) : Nat := tag % 256 + 256 * (layer % 8) + 4096 * (plane % 16)

/-- The job lines of a closed streamed job's longest stream (R173). -/
def Job.streamLines (x : Job) : Nat :=
  listMax (x.streams.map (fun e => e.2.coded * x.alongOf (e.1 / 16)))

/-- The job line count of a job: repeats x repeat length, or the longest stream of a closed streamed job; none
while nothing bounds it (R173). -/
def Job.lineCount (x : Job) : Option Nat :=
  if x.streamed then (if x.closed then some x.streamLines else none)
  else if x.repeats = 0 then none else some (x.repeats * x.repeatLen)

/-- The first job line that the job does not print: its line count, or the first line at or beyond its stop
chainage, whichever comes first (R173). -/
def Job.endLine (x : Job) : Option Nat :=
  match x.lineCount, x.stop with
  | n, none => n
  | none, some s => some (x.lineAt s)
  | some n, some s => some (min n (x.lineAt s))

/-- Job line `n` is a line that the job prints. -/
def Job.prints (x : Job) (n : Nat) : Bool :=
  decide (x.firstLine ≤ n) && (match x.endLine with | none => true | some e => decide (n < e))

/-- A line that the job prints holds a chainage. -/
def Job.onWeb (x : Job) (web : Chainage) : Bool := x.prints (x.lineIn web) && chnAtOrAhead web x.origin

/-- The line's number within its repeat, for a REPEAT (R222). -/
def Job.inRepeat (x : Job) (n : Nat) : Nat := if x.streamed || x.repeatLen = 0 then n else n % x.repeatLen

/-- The row offsets of the enabled heads of a plane mask. -/
def Mach.maskOffsets (m : Mach) (planes : Nat) : List Nat :=
  rowOffsets (m.heads.filter (fun h => bitAt planes h.plane))

/-- The key of a line of a hub in the fire path. -/
def fireKey (job line hub : Nat) : Nat := (line * 64 + hub) * 8 + job

/-- The job line past the last of which a row of a plane mask has its /F/ committed: such a row fires whatever is
committed after it (R29). -/
def Mach.pastCommitted (m : Mach) (j planes : Nat) : Nat :=
  listMax ((m.fgd.line.filter (fun e => e.1 % 8 = j && (m.hubHeads (e.1 / 8 % 64)).any (fun h =>
    bitAt planes h.plane && decide (e.2.fired / 2 ^ (4 * h.slot) % 16 ≠ 0)))).map (fun e => e.1 / 512 + 1))

/-- The first line of a job that a row of a plane mask at the offset `pick` chooses has not fired: at the least offset
the first line that no row has fired (R25). None where the job has no such line. -/
def Mach.unfiredLine (m : Mach) (pick : List Nat → Nat) (x : Job) (planes : Nat) : Option Nat :=
  let off := pick (m.maskOffsets planes)
  let d := chnDiff (m.chainage - BitVec.ofNat 48 off) x.origin
  let n := if d < 0 then 0 else if x.pitch = 0 then 0 else ceilDiv ((d.toNat + 1) * 65536) x.pitch
  let n := max n x.firstLine
  match x.endLine with
  | none => some n
  | some e => if n < e then some n else none

/-- The lesser and the greater of two chainages by R6. -/
def chnMin (a b : Chainage) : Chainage := if chnAtOrAhead b a then a else b
def chnMax (a b : Chainage) : Chainage := if chnAtOrAhead a b then a else b

/-- The lowest line chainage over the jobs in flight that print some plane of a scope, of a line that each job names. -/
def Mach.lowestLine (m : Mach) (planes : Nat) (line : Nat → Job → Option Nat) : Option Chainage :=
  m.lineJobs.foldl (fun acc j =>
    let x := m.job j
    if x.planes &&& planes = 0 then acc
    else match line j x with
      | none => acc
      | some n =>
        match acc with
        | none => some (x.lineChn n)
        | some c => some (chnMin c (x.lineChn n))) none

/-- The chainage of the first unfired line of a scope, of which no row of it has fired or is committed to (R25, R29);
none with no such line. -/
def Mach.unfired (m : Mach) (planes : Nat) : Option Chainage :=
  m.lowestLine planes (fun j x =>
    let n := max ((m.unfiredLine listMin x (x.planes &&& planes)).getD 0) (m.pastCommitted j planes)
    if (m.unfiredLine listMin x (x.planes &&& planes)).isSome && x.prints n then some n else none)

/-- The same for the first line that some row of the scope has still to fire. -/
def Mach.unfinished (m : Mach) (planes : Nat) : Option Chainage :=
  m.lowestLine planes (fun _ x => m.unfiredLine listMax x (x.planes &&& planes))

/-! ### Swaths (R231) -/

/-- The key of a swath: job slot, plane, swath index and swath row. -/
def swathKey (job plane idx row : Nat) : Nat := ((row * 16 + plane) * 8 + job) * 4096 + idx

/-- The parts of a swath's key. -/
def keyIdx (k : Nat) : Nat := k % 4096
def keyJob (k : Nat) : Nat := k / 4096 % 8
def keyPlane (k : Nat) : Nat := k / 32768 % 16
def keyRow (k : Nat) : Nat := k / 524288

/-- A swath. -/
def Mach.swath (m : Mach) (k : Nat) : Swath := Tab.get {} m.trv.swath k

/-- The swaths with one changed. -/
def Mach.setSwath (m : Mach) (k : Nat) (x : Swath) : Mach :=
  { m with trv := { m.trv with swath := Tab.set {} m.trv.swath k x } }

/-- The number of swaths of a plane (R231). -/
def Mach.swathCount (m : Mach) (p : Nat) : Nat := ceilDiv (nozzleCount (m.planeHeads p)) 256

/-- The heads that hold a nozzle of swath `idx` of a plane. -/
def swathHeads : List HeadRec → Nat → Nat → List HeadRec
  | [], _, _ => []
  | h :: r, u, idx =>
    if u < 256 * idx + 256 ∧ 256 * idx < u + h.noz then h :: swathHeads r (u + h.noz) idx
    else swathHeads r (u + h.noz) idx

/-- The deadline of a swath: the line chainage of its first line, plus its smallest row offset, less F (R233). -/
def Mach.deadline (m : Mach) (k : Nat) : Chainage :=
  let x := m.job (keyJob k)
  let hs := swathHeads (m.planeHeads (keyPlane k)) 0 (keyIdx k)
  x.lineChn (64 * keyRow k) + BitVec.ofNat 48 (listMin (rowOffsets hs)) - BitVec.ofNat 48 x.lead

/-- The slack of a swath: its deadline less the printed chainage, signed (R234). -/
def Mach.slack (m : Mach) (k : Nat) : Int := chnDiff (m.deadline k) m.chainage

/-- A deadline is reached (R234). -/
def Mach.reached (m : Mach) (k : Nat) : Bool := decide (m.slack k ≤ 0)

end Sys2Proof.Machine
end

