-- ==== Sys2Proof/Machine/Coils.lean ====
section
/-! DEFINITION. The coils of a motion axis: the electrical angle (R435), centre-aligned PWM in QUIET (R442), the
hysteresis chopper of FAST (R443), and the samples of the current sense (R434, R521). -/

namespace Sys2Proof.Machine

open Sys2Proof

/-- 2^16 x sin θ over the first quarter of the electrical cycle, rounded to whole numbers.
DESIGN CHOICE (log entry 205). -/
def sineQuarter : List Nat :=
  [0, 402, 804, 1206, 1608, 2010, 2412, 2814, 3216, 3617, 4019, 4420, 4821, 5222, 5623, 6023, 6424, 6824, 7224, 7623,
   8022, 8421, 8820, 9218, 9616, 10014, 10411, 10808, 11204, 11600, 11996, 12391] ++
  [12785, 13180, 13573, 13966, 14359, 14751, 15143, 15534, 15924, 16314, 16703, 17091, 17479, 17867, 18253, 18639, 19024,
   19409, 19792, 20175, 20557, 20939, 21320, 21699, 22078, 22457, 22834, 23210, 23586, 23961, 24335, 24708] ++
  [25080, 25451, 25821, 26190, 26558, 26925, 27291, 27656, 28020, 28383, 28745, 29106, 29466, 29824, 30182, 30538, 30893,
   31248, 31600, 31952, 32303, 32652, 33000, 33347, 33692, 34037, 34380, 34721, 35062, 35401, 35738, 36075] ++
  [36410, 36744, 37076, 37407, 37736, 38064, 38391, 38716, 39040, 39362, 39683, 40002, 40320, 40636, 40951, 41264, 41576,
   41886, 42194, 42501, 42806, 43110, 43412, 43713, 44011, 44308, 44604, 44898, 45190, 45480, 45769, 46056] ++
  [46341, 46624, 46906, 47186, 47464, 47741, 48015, 48288, 48559, 48828, 49095, 49361, 49624, 49886, 50146, 50404, 50660,
   50914, 51166, 51417, 51665, 51911, 52156, 52398, 52639, 52878, 53114, 53349, 53581, 53812, 54040, 54267] ++
  [54491, 54714, 54934, 55152, 55368, 55582, 55794, 56004, 56212, 56418, 56621, 56823, 57022, 57219, 57414, 57607, 57798,
   57986, 58172, 58356, 58538, 58718, 58896, 59071, 59244, 59415, 59583, 59750, 59914, 60075, 60235, 60392] ++
  [60547, 60700, 60851, 60999, 61145, 61288, 61429, 61568, 61705, 61839, 61971, 62101, 62228, 62353, 62476, 62596, 62714,
   62830, 62943, 63054, 63162, 63268, 63372, 63473, 63572, 63668, 63763, 63854, 63944, 64031, 64115, 64197] ++
  [64277, 64354, 64429, 64501, 64571, 64639, 64704, 64766, 64827, 64884, 64940, 64993, 65043, 65091, 65137, 65180, 65220,
   65259, 65294, 65328, 65358, 65387, 65413, 65436, 65457, 65476, 65492, 65505, 65516, 65525, 65531, 65535] ++
  [65536]

/-- 2^16 x sin θ and cos θ, where θ is given in microsteps, 1 024 to the cycle (R435). -/
def sine16 (t : Int) : Int :=
  let k := (t % 1024).toNat
  let v : Int := (sineQuarter.getD (if k / 256 % 2 = 0 then k % 256 else 256 - k % 256) 0 : Nat)
  if k < 512 then v else -v
def cosine16 (t : Int) : Int := sine16 (t + 256)

/-- `k` more bits of the angle in the first quarter whose tangent is `y` to `x`. -/
def angleGo : Nat → Nat → Nat → Nat → Nat
  | 0, r, _, _ => r
  | k + 1, r, x, y =>
    let t := r + 2 ^ k
    angleGo k (if t ≤ 256 ∧ (x : Int) * sine16 t ≤ (y : Int) * cosine16 t then t else r) x y

/-- The electrical angle of the measured currents in microsteps, rounded down within its quarter (R444). -/
def currentAngle (a b : Int) : Int :=
  let k : Int := (angleGo 9 0 a.natAbs b.natAbs : Nat)
  if 0 ≤ a then (if 0 ≤ b then k else 1024 - k) else if 0 ≤ b then 512 - k else 512 + k

/-- The load of a QUIET step (R444): how far the measured current angle lags behind θ along the motion, where one full
step, 256 microsteps, marks the loss of step. With no current in either coil there is no angle to measure.
DESIGN CHOICE (log entries 210, 247). -/
def quietLoad (theta : Int) (back : Bool) (a b : Int) : Nat :=
  if a = 0 ∧ b = 0 then Config.openValue 247 (unsigned 32 theta) % 256
  else
    let lag := signed 10 (unsigned 10 (if back then currentAngle a b - theta else theta - currentAngle a b))
    (clampInt 0 255 (lag * 255 / 256)).toNat

/-- The load of a FAST step (R444): the mean on-time fraction of the two coils less the fraction needed at zero load,
where an on-time fraction of 1 marks the loss of step. DESIGN CHOICE (log entry 210). -/
def fastLoad (a b : Coil) : Nat :=
  let need : Int := (a.need + b.need : Nat)
  (clampInt 0 255 ((65536 * ((a.on + b.on : Nat) : Int) - need) * 255 / (65536 * ((a.ticks + b.ticks : Nat) : Int) - need))).toNat

/-- What drives the coils of an axis: its registers, the motor supply in mV, and the PWM frequency in kHz. -/
structure CoilDrive where
  full : Nat
  blank : Nat
  mohm : Nat
  ke : Nat
  hyst : Nat
  bus : Nat
  khz : Nat
  deriving DecidableEq, Repr

/-- A converter code in mA (R434). DESIGN CHOICE (log entry 206). -/
def CoilDrive.mA (d : CoilDrive) (code : Int) : Int := code * (d.full : Int) / 512

/-- The duty of a coil in 2^-16 (R442): `set16` is its set current in 2^-16 mA and `emf16` the voltage induced in it
in 2^-16 mV. With no motor supply measured the duty is not stated. DESIGN CHOICE (log entry 207). -/
def CoilDrive.dutyOf (d : CoilDrive) (set16 emf16 integral : Int) : Int :=
  if d.bus = 0 then clampInt (-65536) 65536 (signed 32 (Config.openValue 207 (unsigned 32 set16)))
  else clampInt (-65536) 65536 ((set16 * d.mohm / 1000 + emf16) / d.bus + integral / 65536)

/-- The integral term in 2^-32 of duty after a sample that lies `err` mA below the set current: 2π x 200 Hz over one
PWM period. DESIGN CHOICE (log entry 208). -/
def CoilDrive.integrate (d : CoilDrive) (old err : Int) : Int :=
  if d.bus = 0 then old
  else clampInt (-(2 ^ 32)) (2 ^ 32) (old + err * d.mohm * 1256637 * 4294967296 / (1000000000 * d.bus * d.khz))

/-- A sample of a coil in QUIET, with its set current. -/
def Coil.quietSample (c : Coil) (d : CoilDrive) (set16 now : Int) : Coil :=
  { c with meas := now, integral := d.integrate c.integral (set16 / 65536 - now) }

/-- A quarter microsecond of a coil in the figures of its full step: whether the chopper drives it, and the fraction
needed at zero load. -/
def Coil.tally (c : Coil) (need : Int) : Coil :=
  { c with ticks := c.ticks + 1, on := c.on + (if c.high = 0 then 0 else 1), need := c.need + need.natAbs }

/-- A quarter microsecond of a chopped coil with its set current in mA (R443): a sample taken within `blank` of a gate
edge is discarded, and within it nothing switches. `need` is the duty of R442 without its correction, which is what the
coil needs at zero load (R444). DEDUCED (log entry 209). -/
def Coil.chop (c : Coil) (d : CoilDrive) (set need : Int) (now : Option Int) : Coil :=
  let c := { (c.tally need) with edge := min 16 (c.edge + 1) }
  if c.edge < d.blank then c
  else
    let c := match now with
      | some v => { c with meas := v, short := c.short + (set - v), count := c.count + 1 }
      | none => c
    let s : Int := if set < 0 then -1 else 1
    let driven := if set < 0 then 2 else 1
    let above := 2 * s * (c.meas - set - c.band)
    let high := if above < -(d.hyst : Int) then driven else if (d.hyst : Int) < above then 0 else if c.high = 0 then 0 else driven
    if high = c.high then c else { c with high := high, edge := 0 }

/-- The band at the end of a full step: it moves by the mean of the set current less the measured, within ±hyst_ma
(R443). -/
def Coil.stepEnd (c : Coil) (hyst : Nat) : Coil :=
  { c with
    band := if c.count = 0 then c.band else clampInt (-(hyst : Int)) hyst (c.band + c.short / (c.count : Int))
    short := 0, count := 0, ticks := 0, on := 0, need := 0 }

/-- A coil as the PWM, or as the chopper, takes it over from the other. -/
def Coil.quiet (c : Coil) : Coil :=
  { c with high := 0, band := 0, short := 0, count := 0, ticks := 0, on := 0, need := 0 }
def Coil.fast (c : Coil) : Coil := { c with duty := 0, integral := 0 }

/-- The samples of a PWM period lie at the centre of the longer of its on and off phases: the on phase is centred in
the period, the off phase on its boundary (R521). -/
def Coil.sampledAtCentre (c : Coil) : Bool := decide (65536 ≤ 2 * c.duty.natAbs)

/-- The coils of an axis are driven: not in OFF, nor in FAULT but by a stall (R435, R445), nor in a calibration begun
in OFF (R455). -/
def Axis.driven (x : Axis) : Bool :=
  match x.state with
  | .off => false
  | .fault => x.faultCause = 1
  | .cal => !x.calOff
  | _ => true

/-- A gate of an axis may be high. -/
def Axis.gatesOn (x : Axis) : Bool := x.coilA ≠ {} || x.coilB ≠ {}

/-- An axis with its coils no longer driven. -/
def Axis.undriven (x : Axis) : Axis := { x with coilA := {}, coilB := {}, phase := 0, peak := 0, above := 0 }

/-- The levels of the four gates under the chopper: GA1, GA2, GB1 and GB2 from bit 0 on. -/
def Axis.gateLevels (x : Axis) : Nat := x.coilA.high + 4 * x.coilB.high

end Sys2Proof.Machine
end

