-- ==== Sys2Proof/Machine/Epoch.lean ====
section
/-! DEFINITION. The commit point (R20 to R30): table versions, effect chainages, what a commit invalidates
(R244), and what falls back at a deadline (R245, R246). -/

namespace Sys2Proof.Machine

open Sys2Proof

/-! ### Tables -/

/-- The number of a table: its code (R126; 7 REPEAT, 8 LAYER content, 9 REVOKE) and its plane or layer. -/
def tableId (kind idx : Nat) : Nat := kind * 16 + idx

/-- The reset entry of a table (R188, R225). -/
def tableReset (id e : Nat) : Nat :=
  match id / 16 with
  | 1 => 0x1000
  | 3 => 0x80000000
  | 4 => 0xFFFFFFFF
  | 5 => if e = 0 ∨ e = 6 ∨ e = 12 ∨ e = 18 then 0x2000 else 0
  | 6 => e % 256 * 256
  | _ => 0

/-- The entries of a table (R188, R225). -/
def Mach.tableSize (m : Mach) (kind idx : Nat) : Nat :=
  match kind with
  | 1 => nozzleCount (m.planeHeads idx)
  | 2 => nozzleCount (m.planeHeads idx)
  | 3 => 512
  | 4 => 131072
  | 5 => 50
  | 6 => 2560
  | _ => 0

/-- The versions of a table, oldest first; the first has been in force since reset or import. -/
def Mach.versions (m : Mach) (id : Nat) : List Version :=
  match Tab.get [] m.epo.versions id with
  | [] => [{}]
  | l => l

/-- The versions left once those before the one in use at `c` are retired (R26). -/
def retire (c : Chainage) : List Version → List Version
  | v :: w :: r =>
    match w.effect with
    | some e => if chnAtOrAhead c e then retire c (w :: r) else v :: w :: r
    | none => retire c (w :: r)
  | l => l

/-- Where the version in use is judged: the first line of the table's scope that some row has still to fire, or the
printed chainage with no such line. DESIGN CHOICE (log entry 193). -/
def Mach.usePoint (m : Mach) (planes : Nat) : Chainage := (m.unfinished planes).getD m.chainage

/-- The version in use and the committed versions not yet in effect (R26). -/
def Mach.inForce (m : Mach) (id planes : Nat) : List Version := retire (m.usePoint planes) (m.versions id)

/-- The newest version whose effect chainage lies at or behind a line chainage (R24), given the one before it. -/
def versionAt (c : Chainage) : Version → List Version → Version
  | v, [] => v
  | v, w :: r =>
    match w.effect with
    | some e => if chnAtOrAhead c e then versionAt c w r else versionAt c v r
    | none => versionAt c w r

/-- The version of a table that a line uses, among the commits up to an epoch (R24, R244). Where those have all been
retired since the render began, every line still to fire uses the oldest one held. -/
def Mach.lineVersion (m : Mach) (id : Nat) (c : Chainage) (upTo : Word) : Version :=
  match (m.versions id).filter (fun v => !epochNewer v.epoch upTo) with
  | [] => (m.versions id).headD {}
  | v :: r => versionAt c v r

/-- One entry of a version. -/
def Version.entry (v : Version) (id e : Nat) : Nat := Tab.getD (tableReset id) v.cells e

/-- The newest committed version. -/
def Mach.newest (m : Mach) (id : Nat) : Version := (m.versions id).getLastD {}

/-- The nozzles that closure has disabled in the newest version of a plane's NOZZLE_MAP (R375, R376). -/
def Mach.closedOf (m : Mach) (p : Nat) : List Nat := (m.newest (tableId 2 p)).closed

/-- Closure's disabled nozzles in that version become `l`. -/
def Mach.setClosed (m : Mach) (p : Nat) (l : List Nat) : Mach :=
  let id := tableId 2 p
  { m with epo := { m.epo with
      versions := Tab.set [] m.epo.versions id ((m.versions id).dropLast ++ [{ m.newest id with closed := l }]) } }

/-- A version with entries replaced from `first` on, over `base` (R22). -/
def putEntries (id : Nat) : List Nat → Nat → Tab Nat → Tab Nat
  | [], _, t => t
  | v :: r, e, t => putEntries id r (e + 1) (Tab.setD (tableReset id) t e v)

/-! ### Layer registers -/

/-- CMP_L<n>_CFG. -/
def layerCfg (n : Nat) : Nat := 0x70100 + 0x40 * n

def layerPlanes (n : Nat) : Fld := ⟨layerCfg n, 21, 12⟩
def layerZeroClear (n : Nat) : Fld := ⟨layerCfg n, 11, 11⟩
def layerUpscale (n : Nat) : Fld := ⟨layerCfg n, 10, 10⟩
def layerLate (n : Nat) : Fld := ⟨layerCfg n, 9, 8⟩
def layerBoundary (n : Nat) : Fld := ⟨layerCfg n, 7, 6⟩
def layerOp (n : Nat) : Fld := ⟨layerCfg n, 3, 2⟩
def layerSrc (n : Nat) : Fld := ⟨layerCfg n, 1, 0⟩

/-- The planes that a layer's tables reach: those of the jobs that compose it, or of its register with no such
job. -/
def Mach.layerScope (m : Mach) (n : Nat) : Nat :=
  let js := m.lineJobs.filter (fun j => (m.job j).hasLayer n)
  if js.isEmpty then m.fld (layerPlanes n)
  else js.foldl (fun a j => a ||| (m.job j).lfld (layerPlanes n)) 0

/-! ### Commits -/

/-- What a commit changes, as R22 names it. -/
structure Scope where
  kind : Nat
  tables : List Nat
  planes : Nat
  layer : Nat
  content : Bool
  first : Word
  last : Word
  desc : Option DescRef
  deriving DecidableEq, Repr

/-- The tables of a repeat change of a job: one for each plane that it prints. -/
def Job.repeatTables (x : Job) : List Nat := ((List.range 10).filter x.hasPlane).map (tableId 7)

/-- The tables that a change commits. -/
def Mach.changeTables (m : Mach) : Change → List Nat
  | .table _ f _ => [tableId f.table f.plane]
  | .closure f _ _ => [tableId f.table f.plane]
  | .revoke _ f => [tableId 9 f.layer]
  | .flip layer _ _ => [tableId 8 layer]
  | .arm _ f => match m.jobSlot f.jobTag with | some j => (m.job j).repeatTables | none => []
  | .station j _ => (m.job j).repeatTables

/-- The commits of a table that wait for the partner's ACK (R413): they count among its versions. -/
def Mach.heldOf (m : Mach) (t : Nat) : List Held := m.ptn.held.filter (fun h => (m.changeTables h.change).contains t)

/-- No table of the scope would need a fifth version (R26). -/
def Mach.hasRoom (m : Mach) (sc : Scope) : Bool :=
  sc.tables.all (fun t => decide ((m.inForce t sc.planes).length + (m.heldOf t).length < 4))

/-- The effect chainage of the previous commit to a table, where there is one (R25). -/
def Mach.prevEffect (m : Mach) (t : Nat) : Option Chainage :=
  match (m.heldOf t).getLast? with
  | some h => some h.effect
  | none => (m.newest t).effect

/-- The effect chainage that a commit takes, and whether R25 moved it. `now` names the first unfired line, or the
printed chainage with no such line. -/
def Mach.fixEffect (m : Mach) (sc : Scope) (now : Bool) (named : Chainage) : Chainage × Bool :=
  let u := m.unfired sc.planes
  let e := if now then u.getD m.chainage else named
  let e1 := sc.tables.foldl (fun a t =>
    match m.prevEffect t with
    | some p => if chnAtOrAhead a p then a else p
    | none => a) e
  let e2 := match u with
    | some c => if chnAtOrAhead e1 c then e1 else c
    | none => e1
  (e2, now || e2 ≠ named)

/-- The last line of a swath row that the job prints. -/
def Job.lastOf (x : Job) (row : Nat) : Nat :=
  match x.endLine with
  | none => 64 * row + 63
  | some e => min (64 * row + 63) (e - 1)

/-- The lines of a swath row that the job prints. -/
def Job.rowLines (x : Job) (row : Nat) : List Nat :=
  ((List.range 64).map (fun i => 64 * row + i)).filter x.prints

/-- A slot of a layer shows an item of a range on some line of a swath row. -/
def Mach.rowShows (m : Mach) (layer j row : Nat) (first last : Word) : Bool :=
  (Tab.get {} m.cmp.layer layer).slots.any (fun s =>
    s.job = j && decide (s.first < 64 * row + 64) && decide (64 * row < s.first + s.len) &&
    (match s.shown with
     | some i => !epochNewer first i && !epochNewer i last
     | none => false))

/-- A swath lies in a commit's planes, layers or items (R244). -/
def Mach.inScope (m : Mach) (sc : Scope) (k : Nat) : Bool :=
  let x := m.job (keyJob k)
  let p := keyPlane k
  let lp := x.lfld (layerPlanes sc.layer)
  let ko := x.lfld (layerOp sc.layer) = 1
  x.hasLines && x.hasPlane p &&
  (match sc.kind with
   | 5 => x.itemLayer sc.layer && bitAt lp p
   | 6 => x.hasLayer sc.layer && bitAt lp p
   | 7 => false
   | 8 => x.itemLayer sc.layer && (bitAt sc.planes p || ko)
   | 9 => x.itemLayer sc.layer && (bitAt lp p || ko) &&
          m.rowShows sc.layer (keyJob k) (keyRow k) sc.first sc.last
   | _ => bitAt sc.planes p)

/-- Change the record of a commit. DESIGN CHOICE (log entry 24). -/
def Mach.updCommit (m : Mach) (ep : Word) (f : Commit → Commit) : Mach :=
  { m with epo := { m.epo with commits := m.epo.commits.map (fun c => if c.epoch = ep then f c else c) } }

/-- The pending commits whose effect chainage lies at or behind a line. -/
def covering (c : Chainage) (ps : List Pend) : List Pend := ps.filter (fun p => chnAtOrAhead c p.effect)

/-- A line that the pending commits blank: one of them that covers it is CONTENT (R245). -/
def Job.blankLine (x : Job) (ps : List Pend) (n : Nat) : Bool := (covering (x.lineChn n) ps).any (fun q => q.content)

/-- The lines of a swath row fall back or are blanked under pending commits, and one of those commits counts them: in
its swath row once (R246), and in its actual effect chainage past the last that fires under an older epoch (R29). -/
def Mach.countFall (m : Mach) (k : Nat) (lines : List Nat) (ps : List Pend) (p : Pend) : Mach :=
  let x := m.job (keyJob k)
  let ls := lines.filter (fun n => chnAtOrAhead (x.lineChn n) p.effect)
  let old := ls.filter (fun n => !x.blankLine ps n)
  let key := keyRow k * 8 + keyJob k
  let past (was : Option Chainage) : Option Chainage :=
    match old.getLast?, ls.head? with
    | some n, _ => some (x.lineChn (n + 1))
    | none, some n => was.map (fun c => chnMin c (x.lineChn n))
    | none, none => was
  if ls.isEmpty then m else
  m.updCommit p.epoch (fun c => { c with
    rows := Tab.upd 0 c.rows key (max ls.length)
    past := Tab.upd none c.past k past
    blanked := c.blanked || ls.any (x.blankLine ps) })

/-- How many lines fire from a fallback tile and how many are blanked, under pending commits: with `whole` every line
counts, else those that a commit covers (R245). -/
def Job.fallCount (x : Job) (lines : List Nat) (ps : List Pend) (whole : Bool) : Nat × Nat :=
  ((lines.filter (fun n => (whole || !(covering (x.lineChn n) ps).isEmpty) && !x.blankLine ps n)).length,
   (lines.filter (x.blankLine ps)).length)

/-- A saturating counter field from which `old` of what it counted goes as `new` comes. -/
def Mach.recountFld (m : Mach) (f : Fld) (new old : Nat) : Mach :=
  m.setFld f (min (m.fld f + new - old) (2 ^ (f.hi + 1 - f.lo) - 1))

/-- Lines of a swath fall back under pending commits (R245): TRV_FELL_BACK and TRV_BLANKED count them as the list of
pending commits now stands, in place of what they counted under the list before. -/
def Mach.fallBack (m : Mach) (k : Nat) (lines : List Nat) (before now : List Pend × Bool) : Mach :=
  let x := m.job (keyJob k)
  let a := x.fallCount lines before.1 before.2
  let b := x.fallCount lines now.1 now.2
  let m := (m.recountFld Reg.TRV_FELL_BACK.cnt b.1 a.1).recountFld Reg.TRV_BLANKED.cnt b.2 a.2
  now.1.foldl (fun m p => m.countFall k lines now.1 p) m

/-- A row of a job line has fired, or its /F/ is committed. -/
def Mach.rowGone (m : Mach) (j n : Nat) (h : HeadRec) (r : Nat) : Bool :=
  chnAtOrAhead m.chainage ((m.job j).lineChn n + BitVec.ofNat 48 (h.rows.getD r 0)) ||
  bitAt (Tab.get {} m.fgd.line (fireKey j n h.hub)).rows (4 * h.slot + r)

/-- The lines of a swath that some row of its heads has still to fire. -/
def Mach.linesAhead (m : Mach) (k : Nat) : List Nat :=
  let hs := swathHeads (m.planeHeads (keyPlane k)) 0 (keyIdx k)
  ((m.job (keyJob k)).rowLines (keyRow k)).filter (fun n =>
    hs.any (fun h => (List.range h.rows.length).any (fun r => !m.rowGone (keyJob k) n h r)))

/-- What a commit does to one swath (R244). A swath past its deadline, its tile perhaps read already, falls back at
once. -/
def Mach.requeueOne (m : Mach) (sc : Scope) (p : Pend) (k : Nat) : Mach :=
  let x := m.job (keyJob k)
  let s := m.swath k
  let lines := m.linesAhead k
  let ps := s.pend ++ [p]
  if !m.inScope sc k || s.decided = .missed || !lines.any (fun n => chnAtOrAhead (x.lineChn n) p.effect) then m
  else if s.rendering then m.setSwath k { s with pend := ps }
  else if s.decided = .fallback then (m.setSwath k { s with pend := ps }).fallBack k lines (s.pend, s.whole) (ps, s.whole)
  else if s.released || (s.tile.isSome && (s.decided = .tile || m.reached k)) then
    ((m.setSwath k { s with fallback := s.tile, tile := none, pend := ps, decided := .fallback }).addSat
      Reg.TRV_REQUEUED.cnt 1).fallBack k lines ([], false) (ps, false)
  else if s.tile.isNone && s.fallback.isNone then m
  else
    (m.setSwath k { s with
      fallback := if s.fallback.isSome then s.fallback else s.tile
      tile := none, pend := ps, requeue := true, urgent := true }).addSat Reg.TRV_REQUEUED.cnt 1

/-- What a commit does to every swath. -/
def Mach.requeueAll (m : Mach) (sc : Scope) (p : Pend) : Mach :=
  m.trv.swath.foldl (fun m e => m.requeueOne sc p e.1) m

/-- Take the next epoch for a change with its effect chainage (R21, R22): a version of each table, a commit whose
effect is to be known, and the swaths that it invalidates. `cells` completes each table from its newest version. -/
def Mach.commit (m : Mach) (sc : Scope) (effect : Chainage) (moved : Bool) (flip : Option Word)
    (cells : Nat → Tab Nat → Tab Nat) : Mach :=
  let ep := m.epo.counter + 1
  let vs := sc.tables.foldl (fun t id =>
    let kept := m.inForce id sc.planes
    let v : Version := { epoch := ep, effect := some effect, cells := cells id (m.newest id).cells }
    Tab.set [] t id (kept ++ [{ v with closed := (m.newest id).closed.filter (fun u => bitAt (v.entry id u) 31) }]))
    m.epo.versions
  let c : Commit :=
    { epoch := ep, effect := effect, content := sc.content, kind := sc.kind, planes := sc.planes, layer := sc.layer
      desc := sc.desc, moved := moved, actual := effect, flip := flip }
  let m := { m with epo := { m.epo with counter := ep, versions := vs, commits := m.epo.commits ++ [c] } }
  m.requeueAll sc { epoch := ep, effect := effect, content := sc.content }

/-- The lines that a commit counts: once each those of every swath row that fell back or were blanked on account of it
(R246). -/
def Commit.late (c : Commit) : Nat := c.rows.foldl (fun n e => n + e.2) 0

/-- The actual effect chainage of a commit (R29). -/
def Commit.actualEffect (c : Commit) : Chainage :=
  c.past.foldl (fun a e => match e.2 with | some p => chnMax a p | none => a) c.actual

/-- No swath that a commit requeued still waits for its render or its deadline (R246). -/
def Mach.effectKnown (m : Mach) (ep : Word) : Bool :=
  !m.trv.swath.any (fun e => e.2.decided = .undecided && e.2.pend.any (fun p => p.epoch = ep))

/-- The scope of a table commit. -/
def Mach.tableScope (m : Mach) (kind idx : Nat) (desc : Option DescRef) : Scope :=
  { kind := kind, tables := [tableId kind idx]
    planes := if kind ≤ 4 then 2 ^ idx else m.layerScope idx
    layer := if kind ≤ 4 then 0 else idx
    content := false, first := 0, last := 0, desc := desc }

/-- EFFECT_KNOWN (R246, R129, R198): the EFFECT entry of a commit by descriptor, EV_LAYER_FLIP of a flip, and
EV_TRV_EPOCH_LATE when lines fell back. Nothing happens while a requeued swath still waits. -/
def execEffectKnown (epoch : Word) (s : State) : Host.Outcome State Fault Refusal :=
  s.run fun m =>
    match m.epo.commits.find? (fun c => c.epoch = epoch) with
    | none => m
    | some c =>
      if !m.effectKnown epoch then m else
      let m := { m with epo := { m.epo with commits := m.epo.commits.filter (fun d => d.epoch ≠ epoch) } }
      let m := { m with cls := { m.cls with gain := m.cls.gain.map (fun e =>
        (e.1, e.2.map (fun (g : GainWait) =>
          if g.epoch = epoch then { g with actual := some c.actualEffect } else g)))
                                            nozzles := m.cls.nozzles.map (fun w =>
          if w.wait.epoch = epoch then { w with wait := { epoch := epoch, actual := some c.actualEffect } } else w)
                                            bench := m.cls.bench.map (fun b => { b with waits := b.waits.map (fun w =>
          if w.2.epoch = epoch then (w.1, { epoch := epoch, actual := some c.actualEffect }) else w) }) } }
      let m := match c.desc with
        | none => m
        | some h => m.cplQueue h.target
            { cplOf h (if c.late = 0 then .ok else .fellBack) .effect with
              chn := some c.actualEffect, epoch := epoch, value := c.late }
      let m := match c.flip with
        | none => m
        | some i => m.raise Ev.layerFlip .info
            (c.layer % 8 + 8 * ofBool (c.late ≠ 0) + 256 * (i.toNat % 2 ^ 24)) c.actualEffect.toNat
      if c.late = 0 then m
      else m.raise Ev.trvEpochLate (if c.blanked then .error else .warning) epoch.toNat
        (c.late % 2 ^ 31 + 2 ^ 31 * ofBool c.blanked)

end Sys2Proof.Machine
end

