-- ==== Sys2Proof/Machine/Store.lean ====
section
/-! DEFINITION. Jobs, streams and the image store (R150 to R163, R173, R177): extents, the entry codec, and the
ends of jobs. -/

namespace Sys2Proof.Machine

open Sys2Proof

/-! ### Extents (R159, R160) -/

/-- The bytes of a list of lines. -/
def lineBytes (l : List (List Byte)) : Nat := l.foldl (fun n x => n + x.length) 0

/-- The bytes of a list of blocks with their index entries. -/
def blockBytes (l : List Block) : Nat := l.foldl (fun n b => n + b.size + 8) 0

/-- The bytes of a stream: blocks, index, row table, and what waits to be coded (R155, R159). -/
def Stream.bytes (t : Stream) : Nat :=
  blockBytes t.blocks + 4 * t.rows + lineBytes t.pending + lineBytes t.part +
  t.partBlocks.foldl (fun n r => n + blockBytes r) 0

/-- The job lines of a printing streamed job that have fired on every row (R162). -/
def Mach.firedLines (m : Mach) (x : Job) : Nat :=
  if x.streamed && x.state = .printing then
    let back := m.chainage - BitVec.ofNat 48 (listMax (m.maskOffsets x.planes))
    if chnAtOrAhead back x.origin then x.lineAt (back + 1) else 0
  else 0

/-- The extents of a stream, less those whose every line has fired: of its blocks and of its pending lines (R162). -/
def Stream.extents (t : Stream) (along fired : Nat) : Nat :=
  let gone := (t.blocks.filter (fun b => decide ((b.first + b.lines) * along ≤ fired))).foldl (fun n b => n + b.size + 8) 0
  let idle := lineBytes (t.pending.take (fired / along - t.coded))
  ceilDiv t.bytes 4096 - (gone + idle) / 4096

/-- The extents that a job's streams use. -/
def Mach.jobUsed (m : Mach) (x : Job) : Nat :=
  let fired := m.firedLines x
  x.streams.foldl (fun n e => n + e.2.extents (x.alongOf (e.1 / 16)) fired) 0

/-- The extents that a job holds, its reservation included. -/
def Mach.jobHeld (m : Mach) (x : Job) : Nat := max x.reserve (m.jobUsed x)

/-- The extents of an item. -/
def Item.extents (i : Item) : Nat := i.parts.foldl (fun n p => n + ceilDiv p.size 4096) 0

/-- The store in extents: the image region of DRM_MAP (R381). -/
def Mach.storeSize (m : Mach) : Nat := m.fld Reg.DRM_MAP.image * 65536

/-- A slot has a line that some row of its job's planes has not fired. -/
def Mach.slotLive (m : Mach) (s : LSlot) : Bool :=
  let x := m.job s.job
  let last := s.first + s.len - 1
  x.hasLines &&
  !chnAtOrAhead m.chainage (x.lineChn last + BitVec.ofNat 48 (listMax (m.maskOffsets x.planes)))

/-- A layer. -/
def Mach.layer (m : Mach) (n : Nat) : Layer := Tab.get {} m.cmp.layer n

/-- The layers with one changed. -/
def Mach.setLayer (m : Mach) (n : Nat) (l : Layer) : Mach :=
  { m with cmp := { m.cmp with layer := Tab.set {} m.cmp.layer n l } }

/-- The slots of a job that are bound, oldest first. -/
def Layer.slotsOf (l : Layer) (j : Nat) : List LSlot := l.slots.filter (fun s => s.job = j)

/-- The newest bound slot of a job. -/
def Layer.lastSlot (l : Layer) (j : Nat) : Option LSlot := (l.slotsOf j).getLast?

/-- The number of a job's first PITCH slot: the one that holds its first line (R191). DEDUCED (log entry 28). -/
def Job.firstSlot (x : Job) (n : Nat) : Nat :=
  let off := x.latched (Reg.CMP_L_ITEM_OFFSET n)
  let pitch := x.latched (Reg.CMP_L_ITEM_PITCH n)
  if pitch = 0 then 0 else (x.firstLine - off) / pitch

/-- A job takes a layer's items by PITCH (R191). -/
def Job.pitchLayer (x : Job) (n : Nat) : Bool :=
  x.itemLayer n && x.lfld (layerBoundary n) = 0 && x.latched (Reg.CMP_L_ITEM_PITCH n) ≠ 0

/-- The slot of a job's layer that is to bind next. -/
def Mach.slotNext (m : Mach) (j n : Nat) : Nat :=
  match (m.layer n).lastSlot j with
  | some s => s.k + 1
  | none => if (m.job j).pitchLayer n then (m.job j).firstSlot n else 0

/-- A job is still to bind a slot of a layer: it is active, and a PITCH slot begins before its end. -/
def Mach.slotsLeft (m : Mach) (j n : Nat) : Bool :=
  let x := m.job j
  x.active && x.itemLayer n &&
  (!x.pitchLayer n || (match x.endLine with
    | none => true
    | some e =>
      !x.hasLines || decide (x.latched (Reg.CMP_L_ITEM_OFFSET n) + m.slotNext j n * x.latched (Reg.CMP_L_ITEM_PITCH n) < e)))

/-- A job keeps a revoked range of a layer in use: a slot of one of its numbers has not passed on every row, or is
still to bind (R201). -/
def Mach.rangeAhead (m : Mach) (n : Nat) (r : Revoked) (j : Nat) : Bool :=
  ((m.layer n).slotsOf j).any (fun s => !epochNewer r.first s.item && !epochNewer s.item r.last && m.slotLive s) ||
  (m.slotsLeft j n &&
    !epochNewer (word ((m.job j).latched (Reg.CMP_L_ITEM_BASE n) + m.slotNext j n)) r.last)

/-- A revoked range is still in use: it is retired once the slots of all its numbers have passed on every row, in every
job that has them (R201). DEDUCED (log entry 242). -/
def Mach.rangeLive (m : Mach) (n : Nat) (r : Revoked) : Bool :=
  !(List.range 8).any (fun j => ((m.layer n).lastSlot j).any (fun s => !epochNewer r.last s.item)) ||
  (List.range 8).any (m.rangeAhead n r)

/-- An item number lies in a revoked range that is still in use (R201). -/
def Mach.revoked (m : Mach) (n : Nat) (i : Word) : Bool :=
  (m.layer n).revoked.any (fun r => !epochNewer r.first i && !epochNewer i r.last && m.rangeLive n r)

/-- The next slot of a layer may take over what slot `s` shows: it is its job's newest, the job holds late items, and a
slot is still to bind (R197). -/
def Mach.mayHold (m : Mach) (n : Nat) (s : LSlot) : Bool :=
  (m.layer n).lastSlot s.job = some s && (m.job s.job).lfld (layerLate n) = 0 && m.slotsLeft s.job n

/-- Every line of the last slot that shows an item has fired on every row (R194): some slot shows it, none has a line
left, and none may be followed by one that holds it. DEDUCED (log entry 242). -/
def Mach.itemPrinted (m : Mach) (n : Nat) (i : Item) : Bool :=
  let ss := (m.layer n).slots.filter (fun s => s.shown = some i.number)
  !ss.isEmpty && !ss.any (fun s => m.slotLive s || m.mayHold n s)

/-- An item holds extents until it is revoked, or the last line of the last slot that shows it has fired (R194). -/
def Mach.itemLive (m : Mach) (n : Nat) (i : Item) : Bool := !i.revoked && !m.itemPrinted n i

/-- The extents that every item holds (R194). -/
def Mach.itemExtents (m : Mach) : Nat :=
  (List.range 8).foldl (fun a n =>
    ((m.layer n).items.filter (m.itemLive n)).foldl (fun k i => k + i.extents) a) 0

/-- VGP_STORE_FREE: the store less the repair pool and what jobs and items hold. -/
def Mach.storeFree (m : Mach) : Nat :=
  m.storeSize - 2048 - m.vgp.job.foldl (fun n e => n + m.jobHeld e.2) 0 - m.itemExtents

/-- The repair-pool extents in use (R177). -/
def Mach.poolUsed (m : Mach) : Nat := m.vgp.job.foldl (fun n e => n + e.2.pool) 0

/-- EV_STORE_LOW once the free count is below its threshold, and again only after it has risen above (R163). -/
def Mach.storeCheck (m : Mach) : Mach :=
  let low := m.fld Reg.VGP_STORE_LOW.extents
  let free := m.storeFree
  if m.vgp.lowRaised then
    if low < free then { m with vgp := { m.vgp with lowRaised := false } } else m
  else if low ≠ 0 ∧ free < low then
    ({ m with vgp := { m.vgp with lowRaised := true } }).raise Ev.storeLow .warning free low
  else m

/-! ### The entry codec (R153 to R156) -/

/-- A list cut into pieces of `n`, at most `k` of them. -/
def pieces {α : Type} (n : Nat) : Nat → List α → List (List α)
  | 0, _ => []
  | k + 1, l => l.take n :: pieces n k (l.drop n)

/-- The pixels of a layer line across the web. -/
def Job.layerWidth (x : Job) (layer : Nat) : Nat := ceilDiv x.width (x.acrossOf layer)

/-- The block columns of a layer. -/
def Job.blockCols (x : Job) (layer : Nat) : Nat := ceilDiv (x.layerWidth layer) 256

/-- One block row coded from raw lines: a block for each column. -/
def codeRow (cols row first : Nat) (lines : List (List Byte)) : List Block :=
  (List.range cols).map fun c =>
    let seg := lines.map (fun l => (l.drop (256 * c)).take 256)
    let px := seg.flatten
    let w := (seg.headD []).length
    { row := row, col := c, first := first, lines := lines.length, width := w
      size := rawBlockSize w px, pixels := px }

/-- Code pending lines in block rows of 64, and a shorter one at the end when `all` holds (R155). The first
argument bounds the rows. -/
def codePending (cols : Nat) (all : Bool) : Nat → Stream → Stream
  | 0, t => t
  | fuel + 1, t =>
    if t.pending.length < 64 && !(all && !t.pending.isEmpty) then t
    else
      let ls := t.pending.take 64
      codePending cols all fuel
        { t with
          pending := t.pending.drop 64
          blocks := t.blocks ++ codeRow cols t.rows t.coded ls
          rows := t.rows + 1
          coded := t.coded + ls.length }

/-- Code what a stream has pending. -/
def Stream.code (t : Stream) (cols : Nat) (all : Bool) : Stream := codePending cols all (t.pending.length + 1) t

/-- The width of block column `c` of lines `w` pixels wide. -/
def colWidthOf (w c : Nat) : Nat := min 256 (w - 256 * c)

/-- The blocks of one block row of VANGOP data, from column `c` on, of lines `w` pixels wide; none when a block
fails (R156). -/
def takeRow (w : Nat) (lines : Option Nat) : Nat → Nat → List Byte → Option (List Block × List Byte)
  | 0, _, d => some ([], d)
  | n + 1, c, d =>
    match vangopBlock d with
    | none => none
    | some ((ln, bw, px), rest) =>
      if bw ≠ colWidthOf w c ∨ (lines ≠ none ∧ lines ≠ some ln) then none
      else
        match takeRow w (some ln) n (c + 1) rest with
        | none => none
        | some (bs, d') =>
          some ({ row := 0, col := c, first := 0, lines := ln, width := bw
                  size := d.length - rest.length, pixels := px
                  code := d.take (d.length - rest.length) } :: bs, d')

/-- The block rows of VANGOP data whose lines sum to `need`, and what follows them; none when the data fails
(R156). -/
def takeRows (w cols c0 : Nat) : Nat → Nat → List Byte → Option (List (List Block) × List Byte)
  | 0, need, d => if need = 0 then some ([], d) else none
  | fuel + 1, need, d =>
    if need = 0 then some ([], d)
    else
      match takeRow w none cols c0 d with
      | none => none
      | some (bs, rest) =>
        let ln := (bs.map (fun b => b.lines)).headD 0
        if ln = 0 ∨ need < ln then none
        else (takeRows w cols c0 fuel (need - ln) rest).map (fun r => (bs :: r.1, r.2))

/-- The rows of a band put beside those of the bands before it in its band row; none where their line counts
differ. -/
def joinRows : List (List Block) → List (List Block) → Option (List (List Block))
  | [], b => some b
  | a, [] => if a = [] then some [] else none
  | p :: ps, q :: qs =>
    if (p.map (fun b => b.lines)).headD 0 = (q.map (fun b => b.lines)).headD 0 then
      (joinRows ps qs).map (fun r => (p ++ q) :: r)
    else none

/-- Complete block rows appended to a stream. -/
def appendRows (t : Stream) (rows : List (List Block)) : Stream :=
  rows.foldl (fun t r =>
    let ln := (r.map (fun b => b.lines)).headD 0
    { t with
      blocks := t.blocks ++ r.map (fun b => { b with row := t.rows, first := t.coded })
      rows := t.rows + 1
      coded := t.coded + ln }) t

/-- A layer and plane that JOB_IMAGE and BLOCK_DATA may name: L0 or L6, in the job's masks, its source JOB
(R153, R182). -/
def Job.takesStream (x : Job) (layer plane : Nat) : Bool :=
  (layer = 0 || layer = 6) && x.hasLayer layer && decide (plane < 10) && x.hasPlane plane && !bitAt x.itemSrc layer

/-- A band reaches the layer width and completes its band row (R153). -/
def Job.bandCompletes (x : Job) (f : JobImageF) : Bool := decide (f.firstPixel + f.pixelCount = x.layerWidth f.layer)

/-- A band's fields and place are those that its stream accepts (R153 to R155, R182). -/
def Job.bandOk (x : Job) (f : JobImageF) : Bool :=
  let t := x.stream f.layer f.plane
  let ends := f.firstPixel + f.pixelCount
  let limit := x.repeatLen / x.alongOf f.layer
  !(!x.takesStream f.layer f.plane || 2 ≤ f.format || f.firstLine ≠ t.expLine || f.firstPixel ≠ t.expPixel ||
    f.firstPixel % 256 ≠ 0 || f.pixelCount = 0 || f.lineCount = 0 || (ends % 256 ≠ 0 && !x.bandCompletes f) ||
    x.layerWidth f.layer < ends ||
    (t.expPixel ≠ 0 && (f.lineCount ≠ t.rowLines || f.format ≠ t.rowFormat)) ||
    (!x.streamed && limit < f.firstLine + f.lineCount) ||
    (f.format = 0 && f.byteLen ≠ f.pixelCount * f.lineCount) || (f.format = 0 && f.flush && !x.bandCompletes f))

/-- A stream with the expected position moved past a band (R153). -/
def Job.bandMoves (x : Job) (f : JobImageF) : Stream :=
  let t := x.stream f.layer f.plane
  { t with
    expLine := if x.bandCompletes f then f.firstLine + f.lineCount else t.expLine
    expPixel := if x.bandCompletes f then 0 else f.firstPixel + f.pixelCount
    rowLines := f.lineCount
    rowFormat := f.format }

/-- A band whose lines have all fired is discarded: it takes its place in the stream, and what waited there for it,
fired as well, goes with it (R174). DESIGN CHOICE (log entry 195). -/
def Job.bandGone (x : Job) (f : JobImageF) : Stream :=
  let t := x.bandMoves f
  if x.bandCompletes f then
    { t with
      part := [], partBlocks := [], pending := [], coded := f.firstLine + f.lineCount
      rows := t.rows + ceilDiv (f.firstLine + f.lineCount - t.coded) 64 }
  else t

/-- What a band does to its stream, or the status that refuses it (R153 to R156). -/
def bandResult (x : Job) (f : JobImageF) (data : List Byte) : Except Status Stream :=
  let t := x.stream f.layer f.plane
  let completes := x.bandCompletes f
  if !x.bandOk f then .error .badParam
  else
    let cols := x.blockCols f.layer
    let t' := x.bandMoves f
    if f.format = 0 then
      let segs := pieces f.pixelCount f.lineCount data
      let part := if t.expPixel = 0 then segs else (t.part.zip segs).map (fun p => p.1 ++ p.2)
      if completes then
        .ok (({ t' with part := [], pending := t.pending ++ part }).code cols (f.flush || f.last))
      else .ok { t' with part := part }
    else
      let n := ceilDiv f.pixelCount 256
      match takeRows (x.layerWidth f.layer) n (f.firstPixel / 256) f.lineCount f.lineCount data with
      | none => .error .check
      | some (_, _ :: _) => .error .check
      | some (rows, []) =>
        match joinRows (if t.expPixel = 0 then [] else t.partBlocks) rows with
        | none => .error .check
        | some all =>
          if completes then .ok (appendRows (({ t' with partBlocks := [] }).code cols true) all)
          else .ok { t' with partBlocks := all }

/-! ### Engines -/

/-- An engine of the Traverse. -/
def Mach.engine (m : Mach) (e : Nat) : Engine := Tab.get {} m.trv.eng e

/-- The engines with one changed. -/
def Mach.setEngine (m : Mach) (e : Nat) (g : Engine) : Mach :=
  { m with trv := { m.trv with eng := Tab.set {} m.trv.eng e g } }

/-- The engine without the swath it holds. -/
def Engine.drop (g : Engine) : Engine :=
  { g with cur := none, stalled := false, state := .idle }

/-- An engine renders or is ready to (R251). -/
def Engine.isActive (g : Engine) : Bool := g.state = .idle || g.state = .busy

/-- The engines active. -/
def Mach.activeEngines (m : Mach) : Nat := ((List.range 80).filter (fun e => (m.engine e).isActive)).length

/-! ### The line-rate ceiling (R251, R258, R284) -/

/-- The planes of the jobs that are ARMED or PRINTING. -/
def Mach.activePlanes (m : Mach) : Nat :=
  (List.range 8).foldl (fun a j => if (m.job j).active then a ||| (m.job j).planes else a) 0

/-- FGD_HEAD_LIMIT: the lowest max_rate of the head types in use, or 0 with none (R258). -/
def Mach.headLimit (m : Mach) : Nat :=
  let any := (List.range 8).any (fun j => (m.job j).active)
  let hs := m.heads.filter (fun h => !any || bitAt m.activePlanes h.plane)
  listMin (hs.map (fun h => m.fld (Reg.FGD_HT_RATE.max_rate h.type)))

/-- The swaths of a line of every plane of the jobs, or of every plane with heads when no job is armed (R251). -/
def Mach.swathsPerRow (m : Mach) : Nat :=
  let any := (List.range 8).any (fun j => (m.job j).active)
  ((List.range 10).filter (fun p => !any || bitAt m.activePlanes p)).foldl (fun n p => n + m.swathCount p) 0

/-- TRV_CEILING: the lowest of the scheduler's, the head types' and the engines' terms, with the term that set it. -/
def Mach.ceiling (m : Mach) : Nat × Nat :=
  let k := if m.fgd.downActive then 2 else 1
  let sched := 160000 * k
  let head := m.headLimit * k
  let s := m.swathsPerRow
  let pct := clampNat 50 100 (m.fld Reg.TRV_CFG.headroom_pct)
  let eng := m.activeEngines * 1200000000 * 64 * pct / (8512 * s * 100)
  let a : Nat × Nat := (sched, 0)
  let b := if head ≠ 0 ∧ head < a.1 then (head, 1) else a
  if s ≠ 0 ∧ eng < b.1 then (eng, 2) else b

/-- TRV_CEILING as it stands when BOOT ends: no change, so no event (R251). DEDUCED (log entry 18). -/
def Mach.ceilingShown (m : Mach) : Mach :=
  (m.setFld Reg.TRV_CEILING.lines m.ceiling.1).setFld Reg.TRV_CEILING.limit m.ceiling.2

/-- Recompute the ceiling; EV_TRV_CEILING when it or the number of active engines changes, but in BOOT, where the block
only comes up (R251, R490). DESIGN CHOICE (log entry 19). -/
def Mach.updateCeiling (m : Mach) : Mach :=
  let c := m.ceiling
  let e := m.activeEngines
  if m.inMode .boot then m.ceilingShown
  else if c.1 = m.fld Reg.TRV_CEILING.lines ∧ e = m.trv.active then m.setFld Reg.TRV_CEILING.limit c.2
  else
    let lower := c.1 < m.fld Reg.TRV_CEILING.lines ∨ e < m.trv.active
    let m := (m.setFld Reg.TRV_CEILING.lines c.1).setFld Reg.TRV_CEILING.limit c.2
    let m := { m with trv := { m.trv with active := e } }
    m.raise Ev.trvCeiling (if lower then .warning else .info) c.1
      (e + 256 * m.trv.steps + 4096 * m.trv.src + 65536 * c.2)

/-! ### Job states -/

/-- A change of state: EV_JOB_STATE (R152), and a DECISION record of type 4 (R412). -/
def Mach.jobState (m : Mach) (j : Nat) (st : JobState) : Mach :=
  let x := m.job j
  let m := (m.setJob j { x with state := st }).raise Ev.jobState .info x.tag (st.code + 256 * x.state.code)
  (m.mirror false (.decision 4 m.chainage (word x.tag) (word st.code))).updateCeiling

/-- A layer without the slots of a job (R196): the items that those slots alone showed have printed, and ranges that
the job's slots have passed are retired (R194, R201). -/
def Mach.endSlots (m : Mach) (j n : Nat) (l : Layer) : Layer :=
  let kept := l.slots.filter (fun s => s.job ≠ j)
  let shows (ss : List LSlot) (i : Item) : Bool := ss.any (fun s => s.shown = some i.number)
  { l with
    slots := kept
    items := l.items.filter (fun i => shows kept i || !shows l.slots i)
    revoked := l.revoked.filter (m.rangeLive n) }

/-- The slots and the unfinished proof rows of a job go (R196, R203). -/
def Mach.dropSlots (m : Mach) (j : Nat) : Mach :=
  { m with cmp := { m.cmp with
      layer := m.cmp.layer.foldl (fun t e => Tab.set {} t e.1 (m.endSlots j e.1 e.2)) m.cmp.layer
      proof := m.cmp.proof.filter (fun w => w.job ≠ j) } }

/-- A slot becomes FREE: its extents, pool extents and open requests go with it (R178, R180). -/
def Mach.freeJob (m : Mach) (j : Nat) : Mach :=
  let m := m.jobState j .free
  ({ m with vgp := { m.vgp with
      job := Tab.set {} m.vgp.job j {}
      bad := m.vgp.bad.filter (fun b => b.job ≠ j) } }).storeCheck

/-- An engine that waits for the inputs of its next swath waits no longer: the cycles waited since its last swath ended,
12 ENG cycles to 5 DTM ticks, are added to TRV_STALL (R240). -/
def Mach.stallEnds (m : Mach) (e : Nat) : Mach :=
  let g := m.engine e
  if g.stalled then
    (m.addPair Reg.TRV_STALL_LO ((m.now - g.ended) * 12 / 5)).setEngine e { g with stalled := false }
  else m

/-- Engines that hold or have selected a swath for which `p` holds let it go, counting each render abandoned. -/
def Mach.abandon (m : Mach) (p : Nat → Bool) : Mach :=
  (List.range 80).foldl (fun m e =>
    let m := if (m.engine e).next.any p then m.stallEnds e else m
    let g := m.engine e
    let g := if g.next.any p then { g with next := none } else g
    match g.cur with
    | some k =>
      if p k then (m.setEngine e g.drop).addSat Reg.TRV_ABANDONED.cnt (ofBool (m.swath k).rendering)
      else m.setEngine e g
    | none => m.setEngine e g) m

/-- Discard the swaths and tiles for which `p` holds; renders in progress are abandoned (R248). -/
def Mach.discardSwaths (m : Mach) (p : Nat → Bool) : Mach :=
  let m := m.abandon p
  { m with trv := { m.trv with swath := m.trv.swath.filter (fun e => !p e.1) } }

/-- The cause values of R277 in their order, the first of which counts. -/
def causeValues : List Nat := [8, 10, 6, 9, 4, 5, 7, 2, 3, 1, 0]

/-- The value of the cause at an order from 1, and the order of a value. -/
def causeValue (order : Nat) : Nat := causeValues.getD (order - 1) 0
def causeOrder (value : Nat) : Nat := ((List.range 11).find? (fun i => causeValues.getD i 0 = value)).getD 10 + 1

/-! ### Control strips (R360) -/

/-- The planes that a job's strips carry, in ascending order. -/
def Job.stripPlanes (x : Job) : List Nat :=
  (List.range 10).filter (fun p => bitAt (x.lfld (layerPlanes 7)) p && x.hasPlane p)

/-- A strip's length in job lines. -/
def Job.stripLength (x : Job) : Nat :=
  let rl := x.lfld Reg.CAM_CLS_ROW.row_lines
  let gap := x.lfld Reg.CAM_CLS_ROW.gap_lines
  x.stripPlanes.length * (rl + gap) + rl

/-- The strip and row of a job line; none between rows and strips. -/
def Job.stripRow (x : Job) (line : Nat) : Option (Nat × Nat) :=
  let pitch := x.lfld Reg.CAM_CLS_STRIP.lines
  let off := x.lfld Reg.CAM_CLS_STRIP_OFFSET.line
  let rl := x.lfld Reg.CAM_CLS_ROW.row_lines
  let gap := x.lfld Reg.CAM_CLS_ROW.gap_lines
  if pitch = 0 ∨ line < off ∨ rl + gap = 0 then none
  else
    let a := (line - off) % pitch
    let r := a / (rl + gap)
    if r ≤ x.stripPlanes.length ∧ a % (rl + gap) < rl then some ((line - off) / pitch, r) else none

/-- The first line of row `r` of strip `k`. -/
def Job.stripLine (x : Job) (k r : Nat) : Nat :=
  x.lfld Reg.CAM_CLS_STRIP_OFFSET.line + k * x.lfld Reg.CAM_CLS_STRIP.lines +
    r * (x.lfld Reg.CAM_CLS_ROW.row_lines + x.lfld Reg.CAM_CLS_ROW.gap_lines)

/-- The strips whose row of plane `p` (row `r`) fires at the printed chainage: the chainage lies from the fire of the
row's first line to that of its last on the plane's rows (R365). -/
def Mach.stripsFiring (m : Mach) (x : Job) (p r : Nat) : List Nat :=
  let offs := rowOffsets (m.planeHeads p)
  let lo := BitVec.ofNat 48 (listMin offs)
  let hi := BitVec.ofNat 48 (listMax offs)
  let c := m.chainage
  let step := x.lfld Reg.CAM_CLS_STRIP.lines
  let a := if chnAtOrAhead (c - hi) x.origin then x.lineAt (c - hi) else 0
  let b := if chnAtOrAhead (c - lo) x.origin then x.lineAt (c - lo) else 0
  let k0 := (a - x.stripLine 0 r) / step - 1
  ((List.range ((b - a) / step + 4)).map (fun i => k0 + i)).filter (fun k =>
    let f := x.stripLine k r
    chnAtOrAhead c (x.lineChn f + lo) && chnAtOrAhead (x.lineChn (f + x.lfld Reg.CAM_CLS_ROW.row_lines - 1) + hi) c)

/-- A hub has counted a blank or thinned line: the plane rows being fired on its planes are rejected (R365). -/
def Mach.stripHit (m : Mach) (hub : Nat) : Mach :=
  let planes := (m.hubHeads hub).map (fun h => h.plane)
  let hits : List (Nat × Nat × Nat) := m.lineJobs.flatMap (fun j =>
    let x := m.job j
    if x.lfld Reg.CAM_CLS_STRIP.lines = 0 then []
    else (List.range x.stripPlanes.length).flatMap (fun i =>
      let p := x.stripPlanes.getD i 16
      if !planes.contains p then [] else (m.stripsFiring x p (i + 1)).map (fun k => (x.run, k, p))))
  { m with cls := { m.cls with rowHits := m.cls.rowHits ++ hits.filter (fun h => !m.cls.rowHits.contains h) } }

/-- Count hub-lines not fired under a cause value (R277). -/
def Mach.countBlank (m : Mach) (hub cause n : Nat) : Mach :=
  if n = 0 then m
  else ((m.addSat (Reg.FGD_HB_BLANK.cnt hub cause) n).addPair Reg.FGD_BLANK_TOTAL_LO n).stripHit hub

/-- Where the alternation of a downshifted line begins: the boundary's line, or the first line of a later job; none for a
line fired at full rate. The last boundary at or behind the line's chainage decides (R282, R283). -/
def Mach.downStart (m : Mach) (j n : Nat) : Option Nat :=
  match m.fgd.shifts.find? (fun s => chnAtOrAhead ((m.job j).lineChn n) s.chn) with
  | some s => if !s.down then none else some (if j = s.job then s.line else (m.job j).firstLine)
  | none => none

/-- A line is skipped under a downshift. -/
def Mach.lineSkipped (m : Mach) (j n : Nat) : Bool :=
  match m.downStart j n with | none => false | some d => (n - d) % 2 = 1

/-- The hubs that hold a head of a job's planes. -/
def Mach.jobHubs (m : Mach) (x : Job) : List Nat :=
  (List.range 40).filter (fun h => (m.hubHeads h).any (fun r => x.hasPlane r.plane))

/-- The first line of a job whose row at an offset lies ahead of a chainage; the end of its lines where none does. -/
def Job.crossedTo (x : Job) (c : Chainage) (off : Nat) : Nat :=
  let back := c - BitVec.ofNat 48 off
  let n := if chnAtOrAhead back x.origin then x.lineAt (back + 1) else 0
  max x.firstLine (match x.endLine with | none => n | some e => min n e)

/-- The lines of a job in flight at printed chainage `c` for row offsets up to `off`: crossed, with a row still
ahead (R278); from and to, the end excluded. -/
def Job.inFlight (x : Job) (c : Chainage) (off : Nat) : Nat × Nat :=
  let a := x.crossedTo c off
  (a, max a (x.crossedTo c 0))

/-- How many lines of a range are to fire: those skipped under a downshift are not (R282). -/
def Mach.linesDue (m : Mach) (j : Nat) (r : Nat × Nat) : Nat :=
  ((List.range (r.2 - r.1)).filter (fun i => !m.lineSkipped j (r.1 + i))).length

/-- A job stops printing at once: its lines in flight count under a cause for each hub (R277, R278), and its
swaths, tiles and lines in the fire path are discarded. The number of lines in flight on any hub comes with it. -/
def Mach.cutJob (m : Mach) (j cause : Nat) : Mach × Nat :=
  let x := m.job j
  let c := m.chainage
  let count (m : Mach) (h : Nat) : Mach :=
    let off := listMax (rowOffsets ((m.hubHeads h).filter (fun r => x.hasPlane r.plane)))
    let r := x.inFlight c off
    let seen := m.fgd.line.filter (fun e =>
      e.1 % 8 = j && e.1 / 8 % 64 = h && decide (r.1 ≤ e.1 / 512) && decide (e.1 / 512 < r.2) && e.2.cause.isSome)
    let m := seen.foldl (fun m e =>
      if e.2.counted then m else m.countBlank h (causeValue (min (e.2.cause.getD 11) (causeOrder cause))) 1) m
    m.countBlank h cause (m.linesDue j r - seen.length)
  let m' := if x.hasLines then (m.jobHubs x).foldl count m else m
  let r := x.inFlight c (listMax (m.maskOffsets x.planes))
  let m' := m'.discardSwaths (fun k => keyJob k = j)
  ({ m' with fgd := { m'.fgd with line := m'.fgd.line.filter (fun e => e.1 % 8 ≠ j) } },
   if x.hasLines then m.linesDue j r else 0)

/-- The repeats completed by line `n`, a partly printed one counted (R173). -/
def Job.repeatsBy (x : Job) (n : Nat) : Nat :=
  if x.streamed || x.repeatLen = 0 || n ≤ x.firstLine then 0 else ceilDiv n x.repeatLen

/-- The repeats that a job has completed where it stands at line `n` (R103, R180). -/
def Job.repeatsDone (x : Job) (n : Nat) : Nat :=
  if x.streamed || x.repeatLen = 0 || n < x.firstLine then 0 else n / x.repeatLen

/-- The repeats that a job has completed at the printed chainage, up to its end (R180). -/
def Mach.jobRepeats (m : Mach) (x : Job) : Nat :=
  if x.state ≠ .printing then 0
  else x.repeatsDone (match x.endLine with | none => x.lineIn m.chainage | some e => min (x.lineIn m.chainage) e)

/-- What is known of the end of the last job of a tag (R134). -/
def Mach.setEnded (m : Mach) (tag : Nat) (c : Option Chainage) : Mach :=
  { m with vgp := { m.vgp with ended := Tab.set none m.vgp.ended tag c } }

/-- A stop or a JOB_END calls for a usage record (R288). -/
def Mach.oweUsage (m : Mach) : Mach :=
  { m with fgd := { m.fgd with usageOwed := m.fgd.usageOwed + ofBool (m.flag Reg.FGD_USAGE_CFG.en && !m.isBacksight) } }

/-- An ended job whose web may still pass a camera: its last line lies less than the greatest DIST behind (R346). -/
def Mach.pastSeen (m : Mach) (p : PastJob) : Bool :=
  match p.job.endLine with
  | none => false
  | some e => decide (p.job.firstLine < e) && decide (chnDiff m.chainage (p.job.lineChn (e - 1)) < 2 ^ 32)

/-- A job whose lines end here joins the jobs that the cameras still see, as far as it has printed (R353, R362).
DEDUCED (log entry 246). -/
def Mach.keepPast (m : Mach) (j : Nat) : Mach :=
  let x := m.job j
  if !x.hasLines then m
  else
    let stop := match x.stop with | some s => chnMin s m.chainage | none => m.chainage
    let p : PastJob :=
      { slot := j, job := { x with streams := [], stop := some stop }
        slots := match x.namedLayer with | some n => (m.layer n).slotsOf j | none => [] }
    let past := (p :: m.vgp.past).filter m.pastSeen
    let runs := past.map (fun p => p.job.run)
    let live (r : Nat) : Bool := runs.contains r || (List.range 8).any (fun i => i ≠ j && (m.job i).run = r)
    { m with
      vgp := { m.vgp with past := past }
      cls := { m.cls with
        rowHits := m.cls.rowHits.filter (fun h => live h.1)
        nextStrip := m.cls.nextStrip.filter (fun e => live (e.1 / 8))
        strips := m.cls.strips.filter (fun e => live e.1.run) } }

/-- A job ends: its JOB_END entry, and the slot STORED for a REPEAT or FREE for a STREAMED job (R129, R133, R173). Its
open requests are closed (R178). -/
def Mach.endJob (m : Mach) (j : Nat) (st : Status) (c : Chainage) (value : Nat) : Mach :=
  let x := m.job j
  let m := m.keepPast j
  let m := m.cplQueue x.desc.target { cplOf x.desc st .jobEnd with chn := some c, value := value }
  let m := (m.setEnded x.tag (some c)).oweUsage
  let m := { m with vgp := { m.vgp with bad := m.vgp.bad.filter (fun b => b.job ≠ j) } }
  let m := (m.discardSwaths (fun k => keyJob k = j)).dropSlots j
  let m := { m with fgd := { m.fgd with
    line := m.fgd.line.filter (fun e => e.1 % 8 ≠ j)
    shifts := m.fgd.shifts.map (fun (s : Shift) => if s.job = j then { s with job := 64 } else s) } }
  if x.streamed || st = .failedSpace then m.freeJob j
  else
    let m := m.jobState j .stored
    m.setJob j { m.job j with
      stop := none, takenBy := none, started := false, byStation := false, repeats := 0, epoch := 0, flips := [] }

/-- A job fails for space (R161): every extent goes, rows not yet fired print blank, an ARMED or PRINTING job
queues JOB_END, the slot becomes FREE, and its tag names no job any more. -/
def Mach.failSpace (m : Mach) (j : Nat) : Mach :=
  let x := m.job j
  let held := m.jobHeld x
  let m := if x.active then
      let r := m.cutJob j 9
      r.1.endJob j .failedSpace r.1.chainage (m.jobRepeats x)
    else m.freeJob j
  (m.setEnded x.tag none).raise Ev.jobFailedSpace .error x.tag held

/-- The extents that a job may still take, beyond those it uses: its reservation, or the free store (R160). -/
def Mach.jobRoom (m : Mach) (x : Job) : Nat := if x.reserve ≠ 0 then x.reserve - m.jobUsed x else m.storeFree

/-- New blocks of a stream go to the partner as DATA records (R411). -/
def Mach.mirrorBlocks (m : Mach) (x : Job) (layer plane : Nat) (bs : List Block) : Mach :=
  if m.flag Reg.PTN_CFG.image_src then m
  else bs.foldl (fun m b => m.mirror false (.data layer plane x.tag (b.row * x.blockCols layer + b.col) b)) m

/-- Store what a band does to its stream, fail the job for space, or let a printing streamed job wait (R161,
R162). -/
def Mach.storeBand (m : Mach) (h : DescRef) (f : JobImageF) (data : List Byte) (j : Nat) (t : Stream) : Mach :=
  let x := m.job j
  let x' := x.setStream f.layer f.plane t
  if m.jobRoom x < m.jobUsed x' - m.jobUsed x then
    if x.streamed && x.state = .printing then
      { m with vgp := { m.vgp with imageWait := some (h, f, data) } }
    else (m.failSpace j).done h .failedSpace
  else
    let new := t.blocks.drop (x.stream f.layer f.plane).blocks.length
    let m := (m.setJob j x').storeCheck
    (m.mirrorBlocks x f.layer f.plane new).done h .ok

/-! ### Descriptors -/

/-- What every descriptor passes before its meaning: its ring has fetched it with this opcode (R118), a stop cuts it
short (R136), HALT takes CTRL NOP and STOP only (R498), and a standby only those and STN_CANCEL (R414). -/
def Mach.act (m : Mach) (h : DescRef) (op : Nat) (halt standby : Bool) (f : Mach → Mach) : Mach :=
  if !m.holdsDesc h || h.opcode ≠ op then m else
  let m := m.takeDesc h
  if m.hst.stopped then m.refuse h .stopped
  else if (m.inMode .halt && !halt) || (m.isBacksight && !standby) then m.refuse h .badState
  else f m

/-- A descriptor whose data the module reads from host memory acts as any other (R461: power-fail has stopped that
read, and the descriptor waits). -/
def Mach.actData (m : Mach) (h : DescRef) (op : Nat) (standby : Bool) (f : Mach → Mach) : Mach :=
  if m.pwr.powerFail then m else m.act h op false standby f

/-- On a standby with image_src HOST the host's own JOB_IMAGE, BLOCK_DATA and ITEM are stored (R414). -/
def Mach.hostImage (m : Mach) : Bool := m.flag Reg.PTN_CFG.image_src

/-- JOB_OPEN's fields in range (R122, R152). -/
def jobOpenOk (f : JobOpenF) : Bool :=
  decide (f.jobTag < 256) && decide (f.streamed < 2) && decide (f.layers < 256) && (f.depth = 2 || f.depth = 3) &&
  decide (0 < f.planes) && decide (f.planes < 1024) && decide (f.along < 256) && decide (f.across < 256) &&
  decide (0 < f.width) && decide (f.width ≤ 1048576) &&
  (if f.streamed = 1 then decide (f.repeatLen = 0)
   else decide (128 ≤ f.repeatLen) &&
     !(f.repeatLen % 2 = 1 && (List.range 8).any (fun n => bitAt f.layers n && !bitAt f.along n)))

/-- The layers whose present source is ITEM (R182). -/
def Mach.itemSrcNow (m : Mach) : Nat :=
  ofBool (m.fld (layerSrc 0) ≠ 0) + 64 * ofBool (m.fld (layerSrc 6) ≠ 0)

/-- The guard windows hold nothing of the job that stood in a slot before (R294). -/
def Mach.clearWindows (m : Mach) (j : Nat) : Mach :=
  { m with fgd := { m.fgd with
      head := m.fgd.head.foldl (fun t (e : Nat × Head) =>
        Tab.set {} t e.1 { e.2 with window := e.2.window.filter (fun w => w.job ≠ j) }) m.fgd.head } }

/-- Open a job in a slot (R151, R160). -/
def Mach.openJob (m : Mach) (j : Nat) (f : JobOpenF) : Mach :=
  let m := m.setJob j
    { tag := f.jobTag, streamed := f.streamed = 1, layers := f.layers, depth := f.depth, planes := f.planes
      along := f.along, across := f.across, width := f.width, repeatLen := f.repeatLen
      reserve := ceilDiv f.reserve 4096, itemSrc := m.itemSrcNow }
  (((m.setEnded f.jobTag none).clearWindows j).jobState j .opened).storeCheck

/-- JOB_OPEN (R123, R151, R152, R160). -/
def execJobOpen (h : DescRef) (f : JobOpenF) (s : State) : Host.Outcome State Fault Refusal :=
  s.run fun m => m.act h 0x01 false false fun m =>
    match (List.range 8).find? (fun j => (m.job j).state = .free) with
    | none => m.done h .badState
    | some j =>
      if (m.jobSlot f.jobTag).isSome then m.done h .badState
      else if !jobOpenOk f then m.done h .badParam
      else if m.storeFree < ceilDiv f.reserve 4096 then m.done h .failedSpace
      else ((m.mirrorDesc h (.jobOpen f)).openJob j f).done h .ok

/-- A job accepts JOB_IMAGE: OPEN, or a STREAMED job not yet closed (R151). -/
def Job.takesImage (x : Job) : Bool := x.state = .opened || (x.streamed && x.active && !x.closed)

/-- Every line of a band has fired on every row (R174). -/
def Mach.bandFired (m : Mach) (x : Job) (f : JobImageF) : Bool :=
  decide ((f.firstLine + f.lineCount) * x.alongOf f.layer ≤ m.firedLines x)

/-- JOB_IMAGE (R153 to R157, R161, R162, R174). A band whose lines have all fired completes OK and is discarded. -/
def execJobImage (h : DescRef) (f : JobImageF) (data : List Byte) (s : State) :
    Host.Outcome State Fault Refusal :=
  s.run fun m => m.actData h 0x02 m.hostImage fun m =>
    match m.jobSlot f.jobTag with
    | none => m.done h .badState
    | some j =>
      let x := m.job j
      if !x.takesImage then m.done h .badState
      else if !m.dmaOk false f.addr f.byteLen then m.windowFail h
      else if m.bandFired x f && x.bandOk f then
        ((m.mirrorDesc h (.jobImage f)).setJob j (x.setStream f.layer f.plane (x.bandGone f))).done h .ok
      else match bandResult x f data with
        | .error st => m.done h st
        | .ok t => (m.mirrorDesc h (.jobImage f)).storeBand h f data j t

/-- STREAM_SPACE_RESUME (R162): a waiting JOB_IMAGE takes the extents that firing has released. -/
def execStreamSpaceResume (s : State) : Host.Outcome State Fault Refusal :=
  s.run fun m =>
    match m.vgp.imageWait with
    | none => m
    | some (h, f, data) =>
      match m.jobSlot f.jobTag with
      | none => ({ m with vgp := { m.vgp with imageWait := none } }).done h .badState
      | some j =>
        let x := m.job j
        if m.bandFired x f && x.bandOk f then
          (({ m with vgp := { m.vgp with imageWait := none } } : Mach).setJob j
            (x.setStream f.layer f.plane (x.bandGone f))).done h .ok
        else match bandResult x f data with
        | .error st => ({ m with vgp := { m.vgp with imageWait := none } }).done h st
        | .ok t =>
          if m.jobRoom x < m.jobUsed (x.setStream f.layer f.plane t) - m.jobUsed x && x.state = .printing then m
          else ({ m with vgp := { m.vgp with imageWait := none } }).storeBand h f data j t

/-- Every stream of a job with its pending lines coded and its incomplete band row discarded (R155). -/
def Job.closeStreams (x : Job) : Job :=
  x.streams.foldl (fun y e =>
    let t : Stream := { e.2 with part := [], partBlocks := [], expPixel := 0 }
    { y with streams := Tab.set {} y.streams e.1 (t.code (x.blockCols (e.1 / 16)) true) }) x

/-- A job accepts JOB_CLOSE: OPEN, or a STREAMED job ARMED or PRINTING (R151). -/
def Job.takesClose (x : Job) : Bool := x.state = .opened || (x.streamed && x.active)

/-- JOB_CLOSE (R151, R155): the pending lines are coded, and a REPEAT's unused reservation goes back. A STREAMED job
in PRINTING does not fail for space (R162). -/
def execJobClose (h : DescRef) (tag : Nat) (s : State) : Host.Outcome State Fault Refusal :=
  s.run fun m => m.act h 0x03 false false fun m =>
    match m.jobSlot tag with
    | none => m.done h .badState
    | some j =>
      let x := m.job j
      if !x.takesClose then m.done h .badState
      else
        let y := { x.closeStreams with closed := true }
        if m.jobRoom x < m.jobUsed y - m.jobUsed x && !(x.streamed && x.state = .printing) then (m.failSpace j).done h .failedSpace
        else
          let y := if x.streamed then y else { y with reserve := 0 }
          let m := m.mirrorDesc h (.jobClose tag)
          let m := m.setJob j y
          let m := if x.state = .opened then m.jobState j .stored else m
          m.storeCheck.complete h { cplOf h .ok with value := m.jobHeld y }

/-- JOB_DELETE (R151). -/
def execJobDelete (h : DescRef) (tag : Nat) (s : State) : Host.Outcome State Fault Refusal :=
  s.run fun m => m.act h 0x05 false false fun m =>
    match m.jobSlot tag with
    | none => m.done h .badState
    | some j =>
      if (m.job j).state = .opened ∨ (m.job j).state = .stored then
        ((m.mirrorDesc h (.jobDelete tag)).freeJob j).done h .ok
      else m.done h .badState

/-! ### Blocks on the print side (R175 to R178, R247) -/

/-- Columns and lines within the repeat that read a block of a stream, from and to, the end excluded (R178). With
LINEAR upscaling the position before the block reads it too (R185). -/
def Job.footprint (x : Job) (layer : Nat) (b : Block) : (Nat × Nat) × (Nat × Nat) :=
  let back (a k : Nat) : Nat :=
    if x.lfld (layerUpscale layer) = 1 ∧ k = 2 then a - 1 else a
  let a := x.acrossOf layer
  let l := x.alongOf layer
  ((back (256 * b.col * a) a, (256 * b.col + b.width) * a), (back (b.first * l) l, (b.first + b.lines) * l))

/-- The streams of layer L0 or L6 that plane `p` reads: its own, and those whose coverage a KNOCKOUT layer that clears
on zero takes from other planes (R189, R190). -/
def Job.readsPlane (x : Job) (p n q : Nat) : Bool :=
  x.hasLayer n && !x.itemLayer n &&
  (if bitAt (x.lfld (layerPlanes n)) p then p = q
   else x.lfld (layerOp n) = 1 && x.lfld (layerZeroClear n) = 1 && bitAt (x.lfld (layerPlanes n)) q)

/-- A swath holds a dot that reads a block of a stream. -/
def Mach.swathReads (m : Mach) (k j layer plane : Nat) (b : Block) : Bool :=
  let x := m.job j
  let fp := x.footprint layer b
  let hs := m.planeHeads (keyPlane k)
  keyJob k = j && x.readsPlane (keyPlane k) layer plane &&
  (List.range 64).any (fun i =>
    let n := x.inRepeat (64 * keyRow k + i)
    decide (fp.2.1 ≤ n) && decide (n < fp.2.2)) &&
  (List.range 256).any (fun i =>
    match nozzleAt hs 0 (256 * keyIdx k + i) with
    | none => false
    | some (_, h, q) => decide (fp.1.1 ≤ h.pos + q) && decide (h.pos + q < fp.1.2))

/-- The earliest deadline of the swaths that read a block in the repeat that swath `k` prints (R176). -/
def Mach.fireHorizon (m : Mach) (k layer plane : Nat) (b : Block) : Chainage :=
  let j := keyJob k
  let x := m.job j
  let fp := (x.footprint layer b).2
  let top := 64 * keyRow k + 63
  let base := top - x.inRepeat top
  let start := if base + fp.1 ≤ top then base + fp.1 else base - x.repeatLen + fp.1
  let row := max start x.firstLine / 64
  let ks := (((List.range 10).filter x.hasPlane).flatMap (fun p =>
    (List.range (m.swathCount p)).map (fun idx => swathKey j p idx row))).filter
      (fun q => m.swathReads q j layer plane b)
  ks.foldl (fun c q => chnMin c (m.deadline q)) (m.deadline k)

/-- The block that an entry of the failed blocks names, while it is stored. -/
def Mach.badStored (m : Mach) (q : BadBlock) : Option Block :=
  let x := m.job q.job
  (x.stream q.layer q.plane).blocks.find? (fun b => b.row * x.blockCols q.layer + b.col = q.block)

/-- The failed blocks that a swath reads in the repeat that it prints, with the stored block of each. -/
def Mach.badOf (m : Mach) (k : Nat) : List (BadBlock × Block) :=
  m.vgp.bad.filterMap (fun q =>
    match m.badStored q with
    | none => none
    | some b =>
      if m.swathReads k q.job q.layer q.plane b && q.horizon = m.fireHorizon k q.layer q.plane b then some (q, b) else none)

/-- `lines` lines of a failed block print no drop: they are counted and reported (R178). -/
def Mach.blockBlank (m : Mach) (q : BadBlock) (lines : Nat) : Mach :=
  let x := m.job q.job
  let m := m.setJob q.job { x with blanked := min (x.blanked + lines) (2 ^ 32 - 1) }
  (m.addSat Reg.VGP_BLANK_LINES.cnt lines).raise Ev.blockCheck .error
    (streamId x.tag q.layer q.plane + 65536 * (lines % 65536)) q.block

/-- The lines of a swath row that a block covers. -/
def Job.rowCovered (x : Job) (layer row : Nat) (b : Block) : Nat :=
  let l := x.alongOf layer
  ((x.rowLines row).filter (fun n =>
    let i := x.inRepeat n
    decide (b.first * l ≤ i) && decide (i < (b.first + b.lines) * l))).length

/-- A swath comes to its deadline without the re-render of a block's repair: its fallback tile fires, and the lines that
the block covers in its row are blanked, counted once for the row (R247). DEDUCED (log entry 196). -/
def Mach.repairLate (m : Mach) (k : Nat) : Mach :=
  ((m.badOf k).filter (fun r => r.1.repaired && !r.1.blank && !r.1.rows.contains (keyRow k))).foldl (fun m r =>
    let m := { m with vgp := { m.vgp with
      bad := m.vgp.bad.map (fun a => if a = r.1 then { a with rows := a.rows ++ [keyRow k] } else a) } }
    m.blockBlank r.1 ((m.job r.1.job).rowCovered r.1.layer (keyRow k) r.2)) m

/-- What a repair of a block does to one swath that reads it, with how many rendered swaths have been requeued (R247):
a rendered one is requeued as URGENT, or its re-render takes the repair in; one being rendered, from the block as it was
read, is rendered again when it ends; and one whose inputs an engine has read reads the block again.
DEDUCED (log entry 196). -/
def Mach.repairOne (layer block : Nat) (r : Mach × Nat) (k : Nat) : Mach × Nat :=
  let s := r.1.swath k
  let rendered := s.tile.isSome || s.fallback.isSome
  if s.rendering then (r.1.setSwath k { s with again := true }, r.2 + ofBool rendered)
  else
  let s := { s with fails := s.fails.filter (fun q => !(q.1 = layer && q.2.1.isNone && q.2.2 = block)) }
  if rendered then
    ((r.1.setSwath k { s with
        fallback := if s.fallback.isSome then s.fallback else s.tile
        tile := none, requeue := true, urgent := true, repair := true }).addSat Reg.TRV_REQUEUED.cnt 1, r.2 + 1)
  else (r.1.setSwath k s, r.2)

/-- Every swath that reads a repaired block and whose deadline is not reached; with how many were requeued (R247). -/
def Mach.repairRequeue (m : Mach) (j layer plane : Nat) (b : Block) : Mach × Nat :=
  let block := b.row * (m.job j).blockCols layer + b.col
  ((m.trv.swath.map (fun e => e.1)).filter (fun k =>
    (m.swath k).decided = .undecided && !m.reached k && m.swathReads k j layer plane b)).foldl (Mach.repairOne layer block) (m, 0)

/-- The entries of failed blocks once a block is repaired under a request id (R177): the request of that id is closed,
and `early` ones, whose horizon lies ahead, are repaired. -/
def repairEntries (early : BadBlock → Bool) (id : Nat) (l : List BadBlock) : List BadBlock :=
  l.map (fun q =>
    { q with
      request := if id ≠ 0 && q.request = some id then none else q.request
      repaired := q.repaired || early q })

/-- BLOCK_DATA (R151, R177, R247). -/
def execBlockData (h : DescRef) (f : BlockDataF) (data : List Byte) (s : State) :
    Host.Outcome State Fault Refusal :=
  s.run fun m => m.actData h 0x06 m.hostImage fun m =>
    match m.jobSlot f.jobTag with
    | none => m.done h .badState
    | some j =>
      let x := m.job j
      let t := x.stream f.layer f.plane
      let cols := x.blockCols f.layer
      if !x.takesStream f.layer f.plane then m.done h .badParam
      else match t.blocks.find? (fun b => b.row * cols + b.col = f.block) with
        | none => m.done h .badParam
        | some b =>
          if !m.dmaOk false f.addr f.byteLen then m.windowFail h
          else match vangopBlock data with
            | none => m.done h .check
            | some ((ln, w, px), rest) =>
              let need := ceilDiv (data.length - rest.length) 4096
              if ln ≠ b.lines ∨ w ≠ b.width ∨ rest ≠ [] then m.done h .check
              else if 2048 < m.poolUsed + need then m.done h .badState
              else
                let b' := { b with pixels := px, code := data, repair := true }
                let t' := { t with blocks := t.blocks.map (fun c => if c = b then b' else c) }
                let early (q : BadBlock) : Bool :=
                  q.job = j && q.layer = f.layer && q.plane = f.plane && q.block = f.block && !q.blank &&
                  !chnAtOrAhead m.chainage q.horizon
                let before := m.vgp.bad.any early
                let m := m.mirrorDesc h (.blockData f)
                let m := m.setJob j { (x.setStream f.layer f.plane t') with pool := x.pool + need }
                let m := m.mirrorBlocks x f.layer f.plane [b']
                let m := { m with vgp := { m.vgp with bad := repairEntries early f.request m.vgp.bad } }
                let id := streamId f.jobTag f.layer f.plane
                let m := m.raise Ev.blockRepaired .info id f.request
                let m := if before then
                    let r := m.repairRequeue j f.layer f.plane b
                    r.1.raise Ev.trvRepairRequeue .info id r.2
                  else m
                m.done h .ok

end Sys2Proof.Machine
end

