-- ==== Sys2Proof/Machine/Layers.lean ====
section
/-! DEFINITION. Items and slots of the layers (R191 to R202): storing, readiness, binding, the late policies and
the items that leave. -/

namespace Sys2Proof.Machine

open Sys2Proof

/-- The item of a number. -/
def Layer.item (l : Layer) (i : Word) : Option Item := l.items.find? (fun x => x.number = i)

/-- The slot of an item number has been bound (R193): a job's slots bind one after another from its first, and the
number is that of one of them. -/
def Mach.numberBound (m : Mach) (n : Nat) (i : Word) : Bool :=
  (m.layer n).slots.any (fun s =>
    let x := m.job s.job
    let back := epochDiff s.item i
    decide (0 ≤ back) && decide (back ≤ ((s.k - (if x.pitchLayer n then x.firstSlot n else 0) : Nat) : Int)))

/-- An item is ready (R195). -/
def Mach.ready (m : Mach) (n : Nat) (i : Word) : Bool :=
  let l := m.layer n
  match l.item i with
  | none => false
  | some x => x.complete && !x.revoked && !m.revoked n i && x.parts.all (fun p => decide (0 ≤ epochDiff l.fence p.fence))

/-- An item fits its slot (R196): sizes divide by the scale factors, and the part lies within the job's width and
the slot's length. A part's extent is taken in nozzles and lines, as its offsets are. -/
def itemFits (x : Job) (n : Nat) (i : Item) : Bool :=
  let dx := x.lfld (Reg.CMP_L_SCALE.dx n)
  let dy := x.lfld (Reg.CMP_L_SCALE.dy n)
  dx ≠ 0 && dy ≠ 0 && i.parts.all (fun p =>
    p.width % dx = 0 && p.height % dy = 0 && decide (p.xOff + p.width / dx * x.acrossOf n ≤ x.width) &&
    decide (p.yOff + p.height / dy * x.alongOf n ≤ x.lfld (Reg.CMP_L_ITEM_PITCH.lines n)))

/-- Raise EV_ITEM_DISCARDED for items that leave unshown, and count them (R193, R205, R206). -/
def Mach.itemsDiscarded (m : Mach) (n count : Nat) (lowest : Word) : Mach :=
  if count = 0 then m
  else (m.addSat (Reg.CMP_L_DISCARD_CNT.cnt n) count).raise Ev.itemDiscarded .error
    (n % 8 + 65536 * (count % 65536)) lowest.toNat

/-- The lowest of a list of item numbers, by their signed differences. -/
def lowestItem : List Word → Word
  | [] => 0
  | [a] => a
  | a :: b :: r => let c := lowestItem (b :: r); if epochNewer a c then c else a

/-- The web of a slot may still pass a camera: its last line lies less than the greatest DIST behind (R346). -/
def Mach.slotSeen (m : Mach) (s : LSlot) : Bool :=
  decide (chnDiff m.chainage ((m.job s.job).lineChn (s.first + s.len - 1)) < 2 ^ 32)

/-- Held items behind a bound slot's number that no slot shows are discarded (R196), items whose slots have all
printed are released (R194), ranges whose slots have all passed are retired (R201), and slots whose lines have all
fired and passed the cameras go, but for the newest of each job. -/
def Mach.tidyLayer (m : Mach) (n : Nat) (number : Word) : Mach :=
  let l := m.layer n
  let shown (i : Item) : Bool := l.slots.any (fun s => s.shown = some i.number)
  let gone (i : Item) : Bool := epochNewer number i.number && !shown i && !i.revoked
  let items := l.items.filter (fun i => !gone i && !m.itemPrinted n i && (shown i || !i.revoked))
  (m.setLayer n { l with
    items := items
    revoked := l.revoked.filter (m.rangeLive n)
    slots := l.slots.filter (fun s => m.slotLive s || l.lastSlot s.job = some s || m.slotSeen s)
    failed := l.failed.filter (fun f => items.any (fun i => i.number = f.1)) }).itemsDiscarded n
      (l.items.filter gone).length (lowestItem ((l.items.filter gone).map (fun i => i.number)))

/-- Bind the next slot of a job's layer, which begins at job line `first` with planes `planes` (R196, R197): the
ready item that fits, or what the late policy shows. The DECISION record is of type 1. -/
def Mach.bindSlot (m : Mach) (n j k first planes : Nat) : Mach :=
  let x := m.job j
  let l := m.layer n
  let number := word (x.latched (Reg.CMP_L_ITEM_BASE n) + k)
  let isReady := m.ready n number
  let fits := match l.item number with | some i => itemFits x n i | none => false
  let hold := x.lfld (layerLate n) = 0
  let heldItem := match ((l.lastSlot j).bind (fun s => s.shown)).bind l.item with
    | some i => if i.revoked then none else some i.number
    | none => none
  let shown := if isReady && fits then some number else if hold then heldItem else none
  let late := !(isReady && fits)
  let fell := late && hold && heldItem.isNone
  let m := m.setLayer n { l with slots := l.slots ++ [
    { job := j, k := k, first := first, len := x.latched (Reg.CMP_L_ITEM_PITCH n), item := number, shown := shown
      planes := planes }] }
  let m := if late then
      (m.addSat (Reg.CMP_L_LATE_CNT.cnt n) 1).raise Ev.layerLate .error
        (n % 8 + 8 * ofBool (!hold) + 16 * ofBool fell + 32 * ofBool (isReady && !fits)) number.toNat
    else m
  let m := m.tidyLayer n number
  m.mirror false (.decision 1 m.chainage
    (word (n % 8 + 8 * ofBool shown.isNone + 16 * ofBool (late && shown.isSome))) (shown.getD 0xFFFFFFFF))

/-- The printed chainage reaches the slot's first line chainage less BIND_LEAD (R196). -/
def Mach.bindDue (m : Mach) (j n : Nat) : Bool :=
  let x := m.job j
  let first := x.latched (Reg.CMP_L_ITEM_OFFSET n) + m.slotNext j n * x.latched (Reg.CMP_L_ITEM_PITCH n)
  x.hasLines && x.pitchLayer n &&
  (match x.endLine with | none => true | some e => decide (first < e)) &&
  chnAtOrAhead m.chainage (x.lineChn first - BitVec.ofNat 48 (x.latched (Reg.CMP_L_BIND_LEAD n)))

/-- SLOT_BIND (R196): the next PITCH slot of the layer binds in each job whose binding chainage is reached. A
standby binds only what its DECISION records name (R412). -/
def execSlotBind (layer : Nat) (s : State) : Host.Outcome State Fault Refusal :=
  s.run fun m =>
    if m.isBacksight then m else
    (List.range 8).foldl (fun m j =>
      if m.bindDue j layer then
        let x := m.job j
        let k := m.slotNext j layer
        m.bindSlot layer j k (x.latched (Reg.CMP_L_ITEM_OFFSET layer) + k * x.latched (Reg.CMP_L_ITEM_PITCH layer)) 0
      else m) m

/-! ### ITEM and FENCE -/

/-- A part as stored: its blocks coded or checked, its pixels channel-planar (R192); none when a block fails. -/
def itemPart (f : ItemF) (data : List Byte) : Option Part :=
  let cols := ceilDiv f.width 256
  let base : Part :=
    { channels := f.channels, width := f.width, height := f.height, xOff := f.xOff, yOff := f.yOff
      fence := f.fence, size := 0, data := [] }
  if f.format = 0 then
    let planes := pieces (f.width * f.height) f.channels data
    let rows := ceilDiv f.height 64
    let coded := planes.map (fun p =>
      (List.range rows).foldl (fun n r =>
        let ls := pieces f.width (min 64 (f.height - 64 * r)) (p.drop (64 * r * f.width))
        n + blockBytes (codeRow cols r (64 * r) ls) + 4) 0)
    some { base with
      size := coded.foldl (· + ·) 0, data := data
      grid := List.replicate f.channels ((List.range rows).map (fun r => min 64 (f.height - 64 * r))) }
  else
    let r := forRange f.channels (fun _ (a : Option (Part × List Byte)) =>
      match a with
      | none => none
      | some (p, d) =>
        match takeRows f.width cols 0 f.height f.height d with
        | none => none
        | some (rows, rest) =>
          let px := rows.flatMap (fun r =>
            let ln := (r.map (fun b => b.lines)).headD 0
            (List.range ln).flatMap (fun y => r.flatMap (fun b => (b.pixels.drop (y * b.width)).take b.width)))
          some ({ p with
            code := data
            size := p.size + rows.foldl (fun n r => n + blockBytes r + 4) 0
            data := p.data ++ px
            grid := p.grid ++ [rows.map (fun r => (r.map (fun b => b.lines)).headD 0)] }, rest))
      (some (base, data))
    match r with
    | some (p, []) => some p
    | _ => none

/-- ITEM's fields in range (R122, R192). -/
def itemOk (n : Nat) (f : ItemF) : Bool :=
  decide (n < 7) && decide (1 ≤ f.channels) && decide (f.channels ≤ 4) && decide (f.format < 2) &&
  decide (0 < f.width) && decide (0 < f.height) &&
  (f.format = 1 || f.byteLen = f.channels * f.width * f.height)

/-- A layer holds at most 256 items (R194). -/
def itemMax : Nat := 256

/-- Why a part must wait: 0 for no extent, 1 for the item limit (R194, R205). -/
def Mach.itemWaits (m : Mach) (n : Nat) (f : ItemF) (p : Part) : Option Nat :=
  let l := m.layer n
  if (l.item f.item).isNone && itemMax ≤ (l.items.filter (m.itemLive n)).length then some 1
  else if m.storeFree < ceilDiv p.size 4096 then some 0
  else none

/-- `n` coded blocks that stand one after another, by the coded size in their headers (R164). -/
def splitBlocks : Nat → List Byte → List (List Byte)
  | 0, _ => []
  | n + 1, d =>
    let k := padded8 (20 + leField d 12 4)
    d.take k :: splitBlocks n (d.drop k)

/-- The channels of a part's blocks, in their order: by channel, row and column (R192). -/
def Part.channelsOf (p : Part) : List Nat :=
  (List.range p.channels).flatMap (fun c => List.replicate ((p.grid.getD c []).length * ceilDiv p.width 256) c)

/-- The stored blocks of a part, each with its channel. -/
def Part.blocks (p : Part) : List (Nat × List Byte) :=
  let chans := p.channelsOf
  if p.code = [] then
    (List.range p.channels).flatMap (fun c =>
      let px := (p.data.drop (c * p.width * p.height)).take (p.width * p.height)
      (List.range (ceilDiv p.height 64)).flatMap (fun r =>
        (codeRow (ceilDiv p.width 256) r (64 * r)
          (pieces p.width (min 64 (p.height - 64 * r)) (px.drop (64 * r * p.width)))).map (fun b => (c, b.encoded))))
  else chans.zip (splitBlocks chans.length p.code)

/-- The stored blocks of a part go to the partner as DATA records, numbered within their item from `base` on (R411). -/
def Mach.mirrorPart (m : Mach) (n : Nat) (i : Word) (base : Nat) (p : Part) : Mach :=
  if !m.mirroring then m
  else (p.blocks.foldl (fun (a : Mach × Nat) b =>
    (a.1.mirror false (.itemData n b.1 i a.2 b.2), a.2 + 1)) (m, base)).1

/-- The stored blocks of an item go to the partner. -/
def Mach.mirrorItem (m : Mach) (n : Nat) (i : Item) : Mach :=
  (i.parts.foldl (fun (a : Mach × Nat) p => (a.1.mirrorPart n i.number a.2 p, a.2 + p.channelsOf.length)) (m, 0)).1

/-- A part joins those of its item; it fills the first one recorded without its pixels, if there is one (R414, R416). -/
def putPart (p : Part) : List Part → List Part
  | [] => [p]
  | q :: r => if q.data = [] then p :: r else q :: putPart p r

/-- Store a part of an item (R193). -/
def Mach.storePart (m : Mach) (n : Nat) (f : ItemF) (p : Part) : Mach :=
  let l := m.layer n
  let items := match l.item f.item with
    | none => l.items ++ [{ number := f.item, complete := f.last, parts := [p] }]
    | some _ => l.items.map (fun i =>
        if i.number = f.item then { i with complete := f.last, parts := putPart p i.parts } else i)
  let base := match l.item f.item with | none => 0 | some i => i.parts.foldl (fun k q => k + q.channelsOf.length) 0
  let m := (m.setLayer n { l with items := items }).storeCheck
  if m.hostImage then m else m.mirrorPart n f.item base p

/-- A part of an item is recorded whose pixels have not come. -/
def Item.awaits (i : Item) : Bool := i.parts.any (fun p => p.data = [])

/-- An item that is refused on arrival: revoked, its slot bound, or complete already (R193). -/
def Mach.itemRefused (m : Mach) (n : Nat) (i : Word) : Bool :=
  let l := m.layer n
  match l.item i with
  | some x => !x.awaits && (m.revoked n i || m.numberBound n i || x.complete)
  | none => m.revoked n i || m.numberBound n i

/-- What is stored of an item whose slot has bound without it goes once a part of it is refused (R193, R194). -/
def Mach.dropUnshown (m : Mach) (n : Nat) (i : Word) : Mach :=
  let l := m.layer n
  if m.numberBound n i && !l.slots.any (fun s => s.shown = some i) then
    (m.setLayer n { l with items := l.items.filter (fun x => x.number ≠ i) }).storeCheck
  else m

/-- Act on an ITEM whose data has been read: refuse it, let it wait, or store it. -/
def Mach.takeItem (m : Mach) (h : DescRef) (n : Nat) (f : ItemF) (data : List Byte) (waited : Bool) : Mach :=
  let clear (m : Mach) : Mach := if waited then m.setLayer n { m.layer n with wait := none } else m
  if m.itemRefused n f.item then (((clear m).dropUnshown n f.item).itemsDiscarded n 1 f.item).done h .badState
  else
    match itemPart f data with
    | none => (clear m).done h .check
    | some p =>
      match m.itemWaits n f p with
      | some c =>
        if waited then m
        else (m.setLayer n { m.layer n with wait := some (h, f, data) }).raise Ev.itemWait .warning h.ring c
      | none => ((clear m).storePart n f p).done h .ok

/-- ITEM (R192 to R194). The ring ITEMn names layer n. -/
def execItem (h : DescRef) (f : ItemF) (data : List Byte) (s : State) : Host.Outcome State Fault Refusal :=
  s.run fun m => m.actData h 0x40 m.hostImage fun m =>
    let n := h.ring - 2
    if !itemOk n f then m.done h .badParam
    else if !m.dmaOk false f.addr f.byteLen then m.windowFail h
    else (m.mirrorDesc h (.item f)).takeItem h n f data false

/-- ITEM_WAIT_RESUME (R194): the waiting ITEM of a layer goes on once there is room for it. -/
def execItemWaitResume (layer : Nat) (s : State) : Host.Outcome State Fault Refusal :=
  s.run fun m =>
    match (m.layer layer).wait with
    | none => m
    | some (h, f, data) => m.takeItem h layer f data true

/-- FENCE (R125, R195): fence_reached of its ring's layer moves to a value that is ahead of it. -/
def execFence (h : DescRef) (layer : Nat) (v : Word) (s : State) : Host.Outcome State Fault Refusal :=
  s.run fun m => if layer ≠ h.ring - 2 then m else m.act h 0x41 false false fun m =>
    let l := m.layer layer
    let m := if epochNewer v l.fence then m.setLayer layer { l with fence := v } else m
    (m.mirrorDesc h (.fence layer v)).done h .ok

/-! ### What a layer shows -/

/-- The scheduled slot at a chainage: the job that prints there, and the bound or scheduled slot's item and what
it shows (R197). -/
def Mach.layerAt (m : Mach) (n : Nat) (c : Chainage) : Option (Word × Option Word) :=
  (List.range 8).foldl (fun acc j =>
    let x := m.job j
    let line := if chnAtOrAhead c x.origin then x.lineAt (c + 1) - 1 else 0
    if !x.hasLines || !x.itemLayer n || !chnAtOrAhead c x.origin || !x.prints line then acc
    else
      let s := (((m.layer n).slotsOf j).filter (fun s => decide (s.first ≤ line) && decide (line < s.first + s.len))).getLast?
      match s with
      | some t => some (t.item, if t.revoked.any (fun r => chnAtOrAhead c r.2) then none else t.shown)
      | none =>
        if x.pitchLayer n ∧ x.latched (Reg.CMP_L_ITEM_OFFSET n) ≤ line then
          some (word (x.latched (Reg.CMP_L_ITEM_BASE n) +
            (line - x.latched (Reg.CMP_L_ITEM_OFFSET n)) / x.latched (Reg.CMP_L_ITEM_PITCH n)), none)
        else acc) none

/-- The slots of a job in the layer of R197. -/
def Mach.namedSlots (m : Mach) (j : Nat) : List LSlot :=
  match (m.job j).namedLayer with
  | none => []
  | some n => (m.layer n).slotsOf j

/-- The item number of a job line, where a chapter names no layer: that of the lowest item layer (R197), from the slots
bound in it; all ones with no item layer or no slot. -/
def Job.itemAt (x : Job) (slots : List LSlot) (line : Nat) : Word :=
  match x.namedLayer with
  | none => 0xFFFFFFFF
  | some n =>
    match (slots.filter (fun s => decide (s.first ≤ line) && decide (line < s.first + s.len))).getLast? with
    | some t => t.item
    | none =>
      if x.pitchLayer n ∧ x.latched (Reg.CMP_L_ITEM_OFFSET n) ≤ line then
        word (x.latched (Reg.CMP_L_ITEM_BASE n) +
          (line - x.latched (Reg.CMP_L_ITEM_OFFSET n)) / x.latched (Reg.CMP_L_ITEM_PITCH n))
      else 0xFFFFFFFF

/-- The item number of a line of the job in a slot. -/
def Mach.itemOfLine (m : Mach) (j line : Nat) : Word := (m.job j).itemAt (m.namedSlots j) line

/-- The revoked ranges still in use (R201). -/
def Mach.liveRanges (m : Mach) (n : Nat) : List Revoked := (m.layer n).revoked.filter (m.rangeLive n)

end Sys2Proof.Machine
end

