-- ==== Sys2Proof/Machine/Screen.lean ====
section
/-! DEFINITION. Composition (R184 to R190), the control strip's dots (R360, R361) and screening (R207 to R224): the
drop codes of a swath, by the integer arithmetic of the spec. -/

namespace Sys2Proof.Machine

open Sys2Proof

/-! ### Pixels of a layer -/

/-- The block of a stream that holds a pixel, with the pixel (R164). A line that was never supplied reads 0. -/
def streamPixel (t : Stream) (x y : Nat) : Option Block × Nat :=
  match t.blocks.find? (fun b => b.col = x / 256 && decide (b.first ≤ y) && decide (y < b.first + b.lines)) with
  | none => (none, 0)
  | some b => (some b, (b.pixels.getD ((y - b.first) * b.width + x % 256) 0).toNat)

/-- Which layer pixels an output position reads in one axis: factor 1 or 2, LINEAR or REPLICATE, and the last
pixel (R185). -/
def axisReads (factor : Nat) (linear : Bool) (last at_ : Nat) : Nat × Nat :=
  let i := at_ / factor
  if factor = 2 ∧ linear = true ∧ at_ % 2 = 1 then (i, min (i + 1) last) else (i, i)

/-- A position upscaled to 1200 dpi: across the web on each line first, then along it (R185). -/
def upscaled (f : Nat → Nat → Nat) (xs ys : Nat × Nat) : Nat :=
  let row (y : Nat) : Nat := if xs.1 = xs.2 then f xs.1 y else (f xs.1 y + f xs.2 y + 1) / 2
  if ys.1 = ys.2 then row ys.1 else (row ys.1 + row ys.2 + 1) / 2

/-- A failed block as an engine's reads named it: its layer, its item if any, and its index. -/
abbrev FailedBlock := Nat × Option Word × Nat

/-- The stream pixel of a JOB-sourced layer for plane `p` at a dot: its value, and whether a failed block is read
(R178, R189). -/
def jobDot (x : Job) (n p col line : Nat) (fails : List FailedBlock) : Option (Nat × Bool) :=
  if x.width ≤ col then none
  else
    let t := x.stream n p
    let lin := x.lfld (layerUpscale n) = 1
    let lines := if x.streamed then t.coded else x.repeatLen / x.alongOf n
    let xs := axisReads (x.acrossOf n) lin (x.layerWidth n - 1) col
    let ys := axisReads (x.alongOf n) lin (lines - 1) (x.inRepeat line)
    let bad (a b : Nat) : Bool := match (streamPixel t a b).1 with
      | none => false
      | some k => fails.any (fun q => q.1 = n && q.2.1.isNone && q.2.2 = k.row * x.blockCols n + k.col)
    some (upscaled (fun a b => (streamPixel t a b).2) xs ys,
      bad xs.1 ys.1 || bad xs.2 ys.1 || bad xs.1 ys.2 || bad xs.2 ys.2)

/-- The number of blocks of a part, and of its channels before channel `c`. -/
def partBlockCount (p : Part) (c : Nat) : Nat :=
  (p.grid.take c).foldl (fun n g => n + g.length * ceilDiv p.width 256) 0

/-- The block row of a channel that holds a line. -/
def gridRow : List Nat → Nat → Nat
  | [], _ => 0
  | g :: r, y => if y < g then 0 else 1 + gridRow r (y - g)

/-- One supplied pixel of a part, and the index of its block within the item, counted by part, channel, row and
column. -/
def partPixel (p : Part) (base c x y : Nat) : Nat × Nat :=
  ((p.data.getD ((c * p.height + y) * p.width + x) 0).toNat,
   base + partBlockCount p c + gridRow (p.grid.getD c []) y * ceilDiv p.width 256 + x / 256)

/-- One layer pixel of a part: the mean of a dx by dy box of supplied pixels (R184), and whether a failed block is
read. -/
def boxPixel (p : Part) (base c dx dy : Nat) (fails : List Nat) (x y : Nat) : Nat × Bool :=
  let px := (List.range dy).flatMap (fun j => (List.range dx).map (fun i => partPixel p base c (x * dx + i) (y * dy + j)))
  ((px.foldl (fun n q => n + q.1) 0 + dx * dy / 2) / (dx * dy), px.any (fun q => fails.contains q.2))

/-- The last part of an item that holds a dot, with the number of blocks before it (R189). -/
def partAt (x : Job) (n dx dy col line : Nat) : List Part → Nat → Option (Part × Nat) → Option (Part × Nat)
  | [], _, acc => acc
  | p :: r, base, acc =>
    let inside := decide (p.xOff ≤ col) && decide (col < p.xOff + p.width / dx * x.acrossOf n) &&
      decide (p.yOff ≤ line) && decide (line < p.yOff + p.height / dy * x.alongOf n)
    partAt x n dx dy col line r (base + partBlockCount p p.channels) (if inside then some (p, base) else acc)

/-- The slot of a layer that holds a job line. -/
def Layer.slotAt (l : Layer) (j line : Nat) : Option LSlot :=
  ((l.slotsOf j).filter (fun s => decide (s.first ≤ line) && decide (line < s.first + s.len))).getLast?

/-- The item that a slot shows on a line, among the revocations up to an epoch (R201, R202). -/
def Layer.shownOn (l : Layer) (s : LSlot) (c : Chainage) (epoch : Word) : Option Item :=
  if s.revoked.any (fun r => !epochNewer r.1 epoch && chnAtOrAhead c r.2) then none else s.shown.bind l.item

/-- The channels of an item layer at a dot after scaling, and whether a failed block is read (R184, R185). -/
def itemDot (x : Job) (n : Nat) (it : Item) (s : LSlot) (col line : Nat) (fails : List FailedBlock) :
    Option (List Nat × Bool) :=
  let dx := x.lfld (Reg.CMP_L_SCALE.dx n)
  let dy := x.lfld (Reg.CMP_L_SCALE.dy n)
  let bad := (fails.filter (fun q => q.1 = n && q.2.1 = some it.number)).map (fun q => q.2.2)
  if x.width ≤ col then none
  else match partAt x n dx dy col (line - s.first) it.parts 0 none with
    | none => none
    | some (p, base) =>
      let lin := x.lfld (layerUpscale n) = 1
      let xs := axisReads (x.acrossOf n) lin (p.width / dx - 1) (col - p.xOff)
      let ys := axisReads (x.alongOf n) lin (p.height / dy - 1) (line - s.first - p.yOff)
      let val (c : Nat) : Nat := upscaled (fun a b => (boxPixel p base c dx dy bad a b).1) xs ys
      let fail := (List.range p.channels).any (fun c =>
        (boxPixel p base c dx dy bad xs.1 ys.1).2 || (boxPixel p base c dx dy bad xs.2 ys.1).2 ||
        (boxPixel p base c dx dy bad xs.1 ys.2).2 || (boxPixel p base c dx dy bad xs.2 ys.2).2)
      some ((List.range p.channels).map val, fail)

/-- The matrix of a layer for plane `p` (R186). -/
def matrixOut (v : Version) (n p : Nat) (chan : List Nat) : Nat :=
  let e (k : Nat) : Int := signed 16 (v.entry (tableId 5 n) (5 * p + k))
  let s : Int := (List.range 4).foldl (fun a k => a + e k * (chan.getD k 0 : Int)) (e 4 * 128)
  (clampInt 0 255 ((s + 4096) / 8192)).toNat

/-- The curve of a layer (R187). -/
def curveOut (v : Version) (n p y : Nat) : Nat := min 0xFF00 (v.entry (tableId 6 n) (256 * p + y) % 65536)

/-! ### The control strip (R360, R361) -/

/-- TINT<i> of a plane. -/
def Mach.tint (m : Mach) (p i : Nat) : Nat :=
  bitsOf (m.rd (if i < 2 then Reg.CAM_CLS_P_TINT_A p else Reg.CAM_CLS_P_TINT_B p)) (16 * (i % 2) + 15) (16 * (i % 2))

/-- TGT<i> of a plane. -/
def Mach.tgt (m : Mach) (p i : Nat) : Nat :=
  bitsOf (m.rd (if i < 2 then Reg.CAM_CLS_P_TGT_A p else Reg.CAM_CLS_P_TGT_B p)) (16 * (i % 2) + 15) (16 * (i % 2))

/-- The tint index of a strip. -/
def Mach.tintOf (m : Mach) (strip : Nat) : Nat :=
  if m.cls.bench.isSome then 0 else strip % (m.fld Reg.CAM_CLS_LOOP.ntints_m1 + 1)

/-- The span of a nozzle group: its first and last columns (R361). -/
def groupSpan (hs : List HeadRec) (g : Nat) : Option (Nat × Nat) :=
  let n := nozzleCount hs
  if n ≤ 32 * g then none
  else match nozzleAt hs 0 (32 * g), nozzleAt hs 0 (min (32 * g + 31) (n - 1)) with
    | some (_, h, k), some (_, h', k') => some (h.pos + k, h'.pos + k')
    | _, _ => none

/-- A column lies in the span of a printed group of a plane. -/
def inStripSpan (x : Job) (hs : List HeadRec) (col : Nat) : Bool :=
  let g0 := x.lfld Reg.CAM_CLS_GROUPS.g_first
  let g1 := min (x.lfld Reg.CAM_CLS_GROUPS.g_last) ((nozzleCount hs - 1) / 32)
  (List.range (g1 + 1 - g0)).any (fun i =>
    match groupSpan hs (g0 + i) with
    | some (a, b) => decide (a ≤ col) && decide (col ≤ b)
    | none => false)

/-- What L7 supplies for plane `p` at a dot, where it covers it. -/
def Mach.stripDot (m : Mach) (x : Job) (hs : List HeadRec) (p col line : Nat) : Option Nat :=
  match x.stripRow line with
  | none => none
  | some (strip, r) =>
    if !inStripSpan x hs col then none
    else some (if 0 < r ∧ x.stripPlanes.getD (r - 1) 16 = p then m.tint p (m.tintOf strip) else 0)

/-! ### Composition -/

/-- What a layer gives plane `p` at a dot, where it covers the dot: the layer value and whether a failed block is
read (R189). The plane masks are judged by the caller. -/
def Mach.layerDot (m : Mach) (x : Job) (j n p col line : Nat) (epoch : Word) (fails : List FailedBlock) :
    Option (Nat × Bool) :=
  let c := x.lineChn line
  let zc := x.lfld (layerZeroClear n) = 1
  let curve (y : Nat) : Nat := curveOut (m.lineVersion (tableId 6 n) c epoch) n p y
  if n = 7 then
    match m.stripDot x (m.planeHeads p) p col line with
    | none => none
    | some v => if zc ∧ v = 0 then none else some (v, false)
  else if x.itemLayer n then
    let l := m.layer n
    match l.slotAt j line with
    | none => none
    | some s =>
      if s.planes ≠ 0 ∧ !bitAt s.planes p then none
      else match l.shownOn s c epoch with
        | none => none
        | some it =>
          match itemDot x n it s col line fails with
          | none => none
          | some (chan, bad) =>
            if zc ∧ chan.all (· = 0) then none
            else some (curve (matrixOut (m.lineVersion (tableId 5 n) c epoch) n p chan), bad)
  else
    match jobDot x n p col line fails with
    | none => none
    | some (y, bad) => if zc ∧ y = 0 then none else some (curve y, bad)

/-- One layer's operator on acc for plane `p` (R190). A KNOCKOUT layer clears the planes outside its mask where
it covers the column in some plane of it. -/
def Mach.composeLayer (m : Mach) (x : Job) (j p col line : Nat) (epoch : Word) (fails : List FailedBlock)
    (n : Nat) (acc : Nat × Bool) : Nat × Bool :=
  let mask := x.lfld (layerPlanes n)
  let op := x.lfld (layerOp n)
  if bitAt mask p then
    match m.layerDot x j n p col line epoch fails with
    | none => acc
    | some (v, bad) =>
      (match op with
       | 2 => max acc.1 v
       | 3 => min (acc.1 + v) 0xFF00
       | _ => v, acc.2 || bad)
  else if op = 1 ∧ ((List.range 10).any (fun q => bitAt mask q && (m.layerDot x j n q col line epoch fails).isSome)) then
    (0, acc.2)
  else acc

/-- The composed value acc[p] of a dot, and whether a failed block was read (R190). -/
def Mach.compose (m : Mach) (j p col line : Nat) (epoch : Word) (fails : List FailedBlock) : Nat × Bool :=
  let x := m.job j
  (List.range 8).foldl (fun acc n =>
    if x.hasLayer n then m.composeLayer x j p col line epoch fails n acc else acc) (0, false)

/-! ### Screening -/

/-- The gain range in force: each limit within its ceiling (R292, R299). -/
def Mach.gainRange (m : Mach) : Nat × Nat :=
  (max (m.fld Reg.FGD_G_GAIN.gain_min) (m.fld Reg.FGD_G_GAIN_CEIL.min),
   min (m.fld Reg.FGD_G_GAIN.gain_max) (m.fld Reg.FGD_G_GAIN_CEIL.max))

/-- A plane as screening sees it on one line: its heads, and the versions in force. -/
structure PlaneLine where
  heads : List HeadRec
  gain : Version
  map : Version
  stitch : Version
  thr : Version
  plane : Nat

/-- A nozzle is disabled in the NOZZLE_MAP in force. -/
def PlaneLine.disabled (w : PlaneLine) (u : Nat) : Bool := bitAt (w.map.entry (tableId 2 w.plane) u) 31

/-- The weights of a seam at offset `o` of its overlap of `W` columns: left and right (R214, R215). -/
def seamWeights (entry W o : Nat) : Nat × Nat :=
  let s := if bitAt entry 31 then W / 4 else entry % 256
  let l := if bitAt entry 31 then W - 2 * (W / 4) else entry / 256 % 256
  if o < s then (4096, 0)
  else if o < s + l then
    let r := (4096 * (o - s + 1) + (l + 1) / 2) / (l + 1)
    (4096 - r, r)
  else (0, 4096)

/-- The stitch weight of a nozzle: rank, head, index within the head, and plane nozzle index (R213 to R216). -/
def stitchWeight (w : PlaneLine) (rank : Nat) (h : HeadRec) (k u : Nat) : Nat :=
  let col := h.pos + k
  let pair (seam other W o : Nat) (left : Bool) : Nat :=
    match w.disabled u, w.disabled other with
    | false, true => 4096
    | true, false => 0
    | _, _ =>
      let ws := seamWeights (w.stitch.entry (tableId 3 w.plane) seam) W o
      if left then ws.1 else ws.2
  let start := u - k
  let left := match w.heads[rank + 1]? with
    | some g =>
      let W := h.pos + h.noz - g.pos
      if g.pos ≤ col ∧ col - g.pos < W ∧ col - g.pos < g.noz then
        some (pair rank (start + h.noz + (col - g.pos)) W (col - g.pos) true)
      else none
    | none => none
  let right := if rank = 0 then none else
    match w.heads[rank - 1]? with
    | some g =>
      let W := g.pos + g.noz - h.pos
      if h.pos < g.pos + g.noz ∧ k < W ∧ g.pos ≤ col then
        some (pair (rank - 1) (start - g.noz + (col - g.pos)) W k false)
      else none
    | none => none
  match left, right with
  | some s, _ => s
  | none, some s => s
  | none, none => 4096

/-- v0 of a nozzle from its composed value, and whether it was clamped (R217). -/
def gainValue (range : Nat × Nat) (w : PlaneLine) (rank : Nat) (h : HeadRec) (k u a : Nat) : Nat × Bool :=
  let s := stitchWeight w rank h k u
  let g := max range.1 (min range.2 (w.gain.entry (tableId 1 w.plane) u % 8192))
  let t := (a * s + 2048) / 4096
  let v := (t * g + 2048) / 4096
  (min 0xFF00 v, decide (0xFF00 < v))

/-- The redistribution weights of a nozzle towards k - 2, k - 1, k + 1 and k + 2 (R218). -/
def nozzleWeights (w : PlaneLine) (def_ u : Nat) : Nat :=
  let e := w.map.entry (tableId 2 w.plane) u
  if bitAt e 30 then def_ else e

/-- What donor at offset `d` (-2, -1, 1, 2 as 0 to 3) gives, from its v0 and its weights (R218). -/
def donation (weights v0 d : Nat) : Nat := (v0 * bitsOf weights (27 - 7 * d) (21 - 7 * d) + 32) / 64

/-- The code of a value at a cell of the threshold array (R222, R223). -/
def thresholdCode (w : PlaneLine) (depth cell v : Nat) : Nat :=
  let e0 := w.thr.entry (tableId 4 w.plane) (2 * cell)
  let e1 := if depth = 3 then w.thr.entry (tableId 4 w.plane) (2 * cell + 1) else 0
  let f := e0 / 2 ^ 24
  let t (i : Nat) : Nat := if i ≤ 3 then bitsOf e0 (8 * i - 1) (8 * i - 8) else bitsOf e1 (8 * (i - 3) - 1) (8 * (i - 3) - 8)
  ((List.range (if depth = 3 then 7 else 3)).filter (fun i => decide (t (i + 1) * 256 + f < v))).length

/-- The cell of a nozzle (R222). -/
def thresholdCell (cfg rank col n : Nat) : Nat :=
  let c := if bitAt cfg 16 ∧ rank % 2 = 1 then 128 else 0
  256 * ((n + bitsOf cfg 15 8 + c) % 256) + (col + bitsOf cfg 7 0 + c) % 256

/-- The codes of 256 nozzles of a plane on one line from index `u0`, with the dots saturated and whether a failed
block was read (R217 to R223). -/
def Mach.screenLine (m : Mach) (j p u0 line : Nat) (epoch : Word) (fails : List FailedBlock)
    (heads : List HeadRec) : List Nat × Nat × Bool :=
  let x := m.job j
  let c := x.lineChn line
  let ver (kind : Nat) : Version := m.lineVersion (tableId kind p) c epoch
  let w : PlaneLine :=
    { heads := heads, gain := ver 1, map := ver 2, stitch := ver 3, thr := ver 4, plane := p }
  let cfg := x.latched (Reg.TRV_SCR_P_CFG p)
  let nout := x.latched (Reg.TRV_SCR_P_NOUT_DEF p)
  let range := m.gainRange
  let v0 (u : Nat) : Option (Nat × Bool × Bool) :=
    match nozzleAt heads 0 u with
    | none => none
    | some (rank, h, k) =>
      let a := m.compose j p (h.pos + k) line epoch fails
      let g := gainValue range w rank h k u a.1
      some (g.1, g.2, a.2)
  let one (i : Nat) : Nat × Nat × Bool :=
    let u := u0 + i
    match nozzleAt heads 0 u, v0 u with
    | some (rank, h, k), some (v, sat, bad) =>
      if w.disabled u then (0, ofBool sat, bad)
      else
        let give (d : Nat) : Nat :=
          -- the donor at offset d of (k - 2, k - 1, k + 1, k + 2) gives with the weight of the opposite offset
          let far : Int := (k : Int) + (match d with | 0 => -2 | 1 => -1 | 2 => 1 | _ => 2)
          if far < 0 ∨ (h.noz : Int) ≤ far then 0
          else
            let ud := u - k + far.toNat
            if w.disabled ud then
              match v0 ud with
              | some (vd, _, _) => donation (nozzleWeights w nout ud) vd (3 - d)
              | none => 0
            else 0
        let sum := v + give 0 + give 1 + give 2 + give 3
        let fin := min 0xFF00 sum
        let code := thresholdCode w x.depth (thresholdCell cfg rank (h.pos + k) (x.inRepeat line)) fin
        (if bad then 0 else code, ofBool sat + ofBool (decide (0xFF00 < sum)), bad)
    | _, _ => (0, 0, false)
  let all := (List.range 256).map one
  (all.map (fun r => r.1), all.foldl (fun n r => n + r.2.1) 0, all.any (fun r => r.2.2))

/-- The codes of a swath: 64 lines of 256 codes, each with whether a failed block was read, and the dots saturated.
Lines beyond the end of the job and nozzles beyond the plane's last are code 0 (R231). -/
def Mach.renderSwath (m : Mach) (k : Nat) (epoch : Word) (fails : List FailedBlock) :
    List (List Nat × Bool) × Nat :=
  let x := m.job (keyJob k)
  let p := keyPlane k
  let heads := m.planeHeads p
  let lines := (List.range 64).map (fun i =>
    let n := 64 * keyRow k + i
    if (match x.endLine with | none => true | some e => decide (n < e)) then
      m.screenLine (keyJob k) p (256 * keyIdx k) n epoch fails heads
    else (List.replicate 256 0, 0, false))
  (lines.map (fun r => (r.1, r.2.2)), lines.foldl (fun n r => n + r.2.1) 0)

/-- One line record of R224: 64 bytes at depth 2, 96 bytes at depth 3. -/
def packCodes (depth : Nat) (codes : List Nat) : List Byte :=
  let w := if depth = 3 then 3 else 2
  leBytes (32 * w) (codes.foldr (fun c n => c % 2 ^ w + 2 ^ w * n) 0)

/-- A plane's uncovered columns within a width (R211). -/
def uncovered (hs : List HeadRec) (width : Nat) : Nat :=
  ((List.range width).filter (fun c => !hs.any (fun h => decide (h.pos ≤ c) && decide (c < h.pos + h.noz)))).length

/-- The disabled nozzles of a NOZZLE_MAP version with a share that no receiver takes (R219). -/
def lostShares (hs : List HeadRec) (p def_ : Nat) (v : Version) : Nat :=
  let w : PlaneLine := { heads := hs, gain := {}, map := v, stitch := {}, thr := {}, plane := p }
  ((List.range (nozzleCount hs)).filter (fun u =>
    w.disabled u &&
    (match nozzleAt hs 0 u with
     | none => false
     | some (_, h, k) =>
       (List.range 4).any (fun d =>
         let far : Int := (k : Int) + (match d with | 0 => -2 | 1 => -1 | 2 => 1 | _ => 2)
         bitsOf (nozzleWeights w def_ u) (27 - 7 * d) (21 - 7 * d) ≠ 0 &&
         (far < 0 || decide ((h.noz : Int) ≤ far) || w.disabled (u - k + far.toNat)))))).length

end Sys2Proof.Machine
end

