-- ==== Sys2Proof/Machine/Jobs.lean ====
section
/-! DEFINITION. Changes that pass the commit point (R20 to R30, R413): table versions, revocations, armed jobs and
layer flips; and the descriptors that arm, abort and commit. -/

namespace Sys2Proof.Machine

open Sys2Proof

/-! ### Hubs as jobs need them -/

/-- A hub. -/
def Mach.hub (m : Mach) (n : Nat) : Hub := Tab.get {} m.skx.hub n

/-- The hubs with one changed. -/
def Mach.setHub (m : Mach) (n : Nat) (x : Hub) : Mach :=
  { m with skx := { m.skx with hub := Tab.set {} m.skx.hub n x } }

/-- Codes in a row of a slot, from the hub's capability block (R324). -/
def Hub.rowLen (x : Hub) (slot : Nat) : Nat := leField x.caps (66 + 8 * slot) 2

/-- The rows of a slot, from the hub's capability block. -/
def Hub.rowsOf (x : Hub) (slot : Nat) : Nat := leField x.caps (64 + 8 * slot) 1

/-- The bytes of a head's LINE section (R315). -/
def sectionBytes (depth rows rowLen : Nat) : Nat := ceilDiv (rows * rowLen * depth) 32 * 4

/-- The line bytes of a hub at a drop depth, for the heads in a plane mask (R315). -/
def Mach.hubLineBytes (m : Mach) (hub planes depth : Nat) : Nat :=
  ((m.hubHeads hub).filter (fun h => bitAt planes h.plane)).foldl
    (fun n h => n + sectionBytes depth h.rows.length ((m.hub hub).rowLen h.slot)) 0

/-- The lanes of a hub's group. -/
def Mach.hubLanes (m : Mach) (hub : Nat) : List Nat :=
  if m.flag (Reg.SKX_HUB_CFG.bonded hub) then
    [m.fld (Reg.SKX_HUB_CFG.lane0 hub), m.fld (Reg.SKX_HUB_CFG.lane1 hub)]
  else [m.fld (Reg.SKX_HUB_CFG.lane0 hub)]

/-! ### What a change is at the commit point -/

/-- The descriptor that a closure commit's entries carry: ring 64, opcode 0x60, index 0 and the strip number as tag;
none unless CAM_CLS_CFG.cpl names FIELDBOOK or a CQ (R367). -/
def Mach.closureDesc (m : Mach) (tag : Nat) : Option DescRef :=
  let t := m.fld Reg.CAM_CLS_CFG.cpl
  if t = 20 ∨ (24 ≤ t ∧ t < 32) then some { ring := 64, tag := tag % 65536, opcode := 0x60, target := t } else none

/-- Where a flip begins in a job, by the FLIP_LEAD that it latched at its JOB_ARM (R183, R198). -/
def Job.flipStart (x : Job) (layer : Nat) (t : Chainage) : Chainage :=
  t + BitVec.ofNat 48 (x.latched (Reg.CMP_L_FLIP_LEAD layer))

/-- A PRINTING job whose layer takes station flips (R198). -/
def Job.takesFlip (x : Job) (n : Nat) : Bool := x.state = .printing && x.itemLayer n && x.lfld (layerBoundary n) = 1

/-- The job that a flip of a layer acts on, of which each names where the flip begins: the first that prints a line
there, or else the first that takes flips. -/
def Mach.flipJob (m : Mach) (n : Nat) (start : Job → Chainage) : Option Nat :=
  let js := (List.range 8).filter (fun j => (m.job j).takesFlip n)
  match js.find? (fun j => (m.job j).prints ((m.job j).lineAt (start (m.job j)))) with
  | some j => some j
  | none => js.head?

/-- A slot has a line at or beyond a chainage. -/
def Mach.slotReaches (m : Mach) (s : LSlot) (c : Chainage) : Bool :=
  chnAtOrAhead ((m.job s.job).lineChn (s.first + s.len - 1)) c

/-- The planes of a flip (R198): those that the new slot shows, and those of the slot that it cuts short, which change
with it. -/
def Mach.flipPlanes (m : Mach) (layer planes : Nat) (e : Chainage) : Nat :=
  let all := m.layerScope layer
  let of_ (p : Nat) : Nat := if p = 0 then all else all &&& p
  match (m.flipJob layer (fun _ => e)).bind (m.layer layer).lastSlot with
  | some s => if m.slotReaches s e then of_ planes ||| of_ s.planes else of_ planes
  | none => of_ planes

/-- The scope of a change (R22, R23). -/
def Mach.scopeOf (m : Mach) : Change → Scope
  | .table h f _ => m.tableScope f.table f.plane (some h)
  | .closure f _ tag => m.tableScope f.table f.plane (m.closureDesc tag)
  | .revoke h f =>
    { kind := 9, tables := [tableId 9 f.layer], planes := m.layerScope f.layer, layer := f.layer, content := true
      first := f.first, last := f.last, desc := some h }
  | .arm h f =>
    let x := match m.jobSlot f.jobTag with | some j => m.job j | none => {}
    { kind := 7, tables := x.repeatTables, planes := x.planes, layer := 0
      content := true, first := 0, last := 0, desc := some h }
  | .station j _ =>
    let x := m.job j
    { kind := 7, tables := x.repeatTables, planes := x.planes, layer := 0
      content := true, first := 0, last := 0, desc := some x.desc }
  | .flip layer planes start =>
    { kind := 8, tables := [tableId 8 layer], planes := m.flipPlanes layer planes start
      layer := layer, content := true, first := 0, last := 0, desc := none }

/-- Limit one GAIN entry to `by_` around the entry of the version before (R300). -/
def limitEntry (prev by_ e : Nat) : Nat :=
  let g := e % 8192
  let p := prev % 8192
  let r := if p + by_ < g then p + by_ else if g + by_ < p then p - by_ else g
  e - g + r

/-- The entries of a table commit over the newest version (R22). -/
def tableCells (f : TableF) (entries : List Nat) (id : Nat) (old : Tab Nat) : Tab Nat :=
  putEntries id entries (if f.isPartial then f.first else 0) (if f.isPartial then old else [])

/-- The newest committed version of a table as it stands once the commits that wait for the partner's ACK are in it
(R300, R413). DEDUCED (log entry 215). -/
def Mach.coming (m : Mach) (id : Nat) : Version :=
  (m.heldOf id).foldl (fun v h =>
    let put (f : TableF) (es : List Nat) : Version :=
      if tableId f.table f.plane = id then { v with cells := tableCells f es id v.cells } else v
    match h.change with
    | .table _ f es => put f es
    | .closure f es _ => put f es
    | _ => v) (m.newest id)

/-- A GAIN commit in RUN limited per entry by the distance since the newest version's effect chainage (R300), with
the number of entries limited. -/
def Mach.limitGain (m : Mach) (f : TableF) (effect : Chainage) (entries : List Nat) : List Nat × Nat :=
  let id := tableId f.table f.plane
  match m.prevEffect id with
  | some e =>
    if f.table = 1 ∧ m.inMode .run then
      let rate := min (m.fld Reg.FGD_G_GAIN_RATE.rate) (m.fld Reg.FGD_G_GAIN_RATE.rate_ceil)
      let by_ := rate * (chnDiff effect e).toNat / 256000000
      let first := if f.isPartial then f.first else 0
      let new := (List.range entries.length).map (fun i =>
        limitEntry ((m.coming id).entry id (first + i)) by_ (entries.getD i 0))
      (new, ((new.zip entries).filter (fun p => p.1 ≠ p.2)).length)
    else (entries, 0)
  | none => (entries, 0)

/-- The default redistribution weights of a plane: as latched by the job that prints it, or of the register with no
such job (R218, R230). DEDUCED (log entry 197). -/
def Mach.noutDef (m : Mach) (p : Nat) : Nat :=
  match (List.range 8).find? (fun j => (m.job j).active && (m.job j).hasPlane p) with
  | some j => (m.job j).latched (Reg.TRV_SCR_P_NOUT_DEF p)
  | none => m.rd (Reg.TRV_SCR_P_NOUT_DEF p)

/-- What follows a table version: the loaded flag of THRESHOLD, the lost shares of NOZZLE_MAP (R219, R226); a whole
table is no longer broken (R395). -/
def Mach.afterTable (m : Mach) (f : TableF) : Mach :=
  let m := if f.isPartial then m else { m with drm := { m.drm with
    broken := m.drm.broken.filter (fun b => b.table ≠ tableId f.table f.plane) } }
  if f.table = 4 then
    m.setFld Reg.TRV_SCR_STATUS.thr_loaded (m.fld Reg.TRV_SCR_STATUS.thr_loaded ||| 2 ^ f.plane)
  else if f.table = 2 then
    let n := lostShares (m.planeHeads f.plane) f.plane (m.noutDef f.plane)
      (m.newest (tableId 2 f.plane))
    let m := m.setFld (Reg.TRV_SCR_P_LOST.cnt f.plane) n
    if n = 0 then m else m.raise Ev.scrNoutLost .error (f.plane % 16 + 256 * (n % 2 ^ 24)) m.epo.counter.toNat
  else m

/-- A NOZZLE_MAP commit has changed nozzles of a plane from `old`: closure waits around their columns, and a nozzle
that the host re-enabled is no longer closure's (R374, R375). -/
def Mach.mapChanged (m : Mach) (p : Nat) (old : Version) : Mach :=
  let id := tableId 2 p
  let new := m.newest id
  let hs := m.planeHeads p
  let cols := ((List.range (nozzleCount hs)).filter (fun u => old.entry id u ≠ new.entry id u)).filterMap (fun u =>
    (nozzleAt hs 0 u).map (fun n => n.2.1.pos + n.2.2))
  { m with cls := { m.cls with
      nozzles := m.cls.nozzles ++ cols.map (fun c =>
        { plane := p, col := c, wait := { epoch := m.epo.counter, actual := none } }) } }

/-- A job's lines stop at a chainage: its swaths wholly at or beyond it are discarded (R173, R248). -/
def Mach.stopLines (m : Mach) (j : Nat) (s : Chainage) : Mach :=
  let x := m.job j
  (m.setJob j { x with stop := some s }).discardSwaths (fun k => keyJob k = j && decide (x.lineAt s ≤ 64 * keyRow k))

/-- The job controller has taken an ABORT or a job end on this tick (R133). -/
def Mach.endTaken (m : Mach) : Mach := { m with vgp := { m.vgp with endTick := some m.now } }

/-- It has taken one on this tick already. -/
def Mach.endBusy (m : Mach) : Bool := m.vgp.endTick = some m.now

/-- Two arms of the same lines: an earlier job that is ARMED or PRINTING stops at the new job's effect chainage, and
ends with value 0 when none of its lines lies before it (R172, R248): at once, or where the job controller has taken an end
on this tick on a later one (R133). -/
def Mach.takeOver (m : Mach) (j : Nat) (e : Chainage) : Mach :=
  (List.range 8).foldl (fun m i =>
    let x := m.job i
    if i = j ∨ !x.hasLines then m
    else
      let stop := match x.stop with | some s => chnMin s e | none => e
      let m := (m.setJob i { x with takenBy := if x.stop = some stop then x.takenBy else some j }).stopLines i stop
      if x.lineAt stop ≤ x.firstLine && !m.endBusy then m.endTaken.endJob i .ok m.chainage 0 else m) m

/-- A job's lines exist from a commit on: its origin, effect chainage and epoch (R170, R171). -/
def Mach.startJob (m : Mach) (j : Nat) (origin effect : Chainage) (epoch : Word) : Mach :=
  let run := m.vgp.runs + 1
  let m := { m with vgp := { m.vgp with runs := run } }
  let m := m.setJob j { m.job j with
    started := true, startAt := m.chainage, origin := origin, effect := effect, epoch := epoch, stop := none, run := run }
  m.takeOver j effect

/-- An ARMED job whose lines do not exist yet. -/
def Job.awaitsLines (x : Job) : Bool := x.state = .armed && !x.started

/-- A flip opens the next slot at the first line at or beyond `e`, cutting the slot before it (R198, R199). -/
def Mach.openSlot (m : Mach) (n j : Nat) (e : Chainage) (planes : Nat) : Mach :=
  let x := m.job j
  let l := m.layer n
  let first := x.lineAt e
  let k := Tab.get 0 x.flips n
  let m := m.setJob j { x with flips := Tab.set 0 x.flips n (k + 1) }
  let m := match l.lastSlot j with
    | none => m
    | some s =>
      let cut := match s.shown.bind l.item with
        | none => false
        | some it => it.parts.any (fun p =>
            decide (first < s.first + p.yOff + p.height / max 1 (x.lfld (Reg.CMP_L_SCALE.dy n)) * x.alongOf n))
      let m := m.setLayer n { l with slots := l.slots.map (fun t =>
        if t = s then { s with len := min s.len (first - s.first) } else t) }
      if cut then m.raise Ev.itemCut .error n (s.shown.getD 0).toNat else m
  m.bindSlot n j k first planes

/-- Revoke a range: from the effect chainage on the slots that show an item of it cover no dot, slots that hold one
become BLANK there with EV_LAYER_LATE, and the stored items that no slot prints any more go (R201, R202). -/
def Mach.revokeItems (m : Mach) (f : RevokeF) (effect : Chainage) : Mach :=
  let l := m.layer f.layer
  let ranges := m.liveRanges f.layer ++ [{ first := f.first, last := f.last, epoch := m.epo.counter, effect := effect }]
  let names (i : Word) : Bool := !epochNewer f.first i && !epochNewer i f.last
  let hit (s : LSlot) : Bool := s.shown.any names && m.slotReaches s effect
  let shows (i : Item) : Bool := l.slots.any (fun s => s.shown = some i.number && m.slotLive s)
  let m := m.setLayer f.layer { l with
    revoked := ranges
    slots := l.slots.map (fun s => if hit s then { s with revoked := s.revoked ++ [(m.epo.counter, effect)] } else s)
    items := (l.items.filter (fun i => !names i.number || shows i)).map (fun i =>
      if names i.number then { i with revoked := true } else i) }
  let held := l.slots.filter (fun s => hit s && s.shown ≠ some s.item && m.slotLive s)
  held.foldl (fun m s => m.raise Ev.layerLate .error (f.layer % 8 + 16) s.item.toNat) m

/-- Closure's NOZZLE_MAP commit disables nozzles that were enabled: they count as its own (R376). -/
def Mach.closureMap (m : Mach) (f : TableF) (entries : List Nat) (old : Version) : Mach :=
  let us := (List.range entries.length).filterMap (fun i =>
    if bitAt (entries.getD i 0) 31 && !bitAt (old.entry (tableId 2 f.plane) (f.first + i)) 31 then some (f.first + i) else none)
  if us.isEmpty then m
  else m.setClosed f.plane (m.closedOf f.plane ++ us.filter (fun u => !(m.closedOf f.plane).contains u))

/-- A change takes its epoch at the commit point, also where its job has ended while it waited (R30). `report` queues
its completion entry. -/
def Mach.applyChange (m : Mach) (c : Change) (effect : Chainage) (moved report : Bool) : Mach :=
  let sc := m.scopeOf c
  let sc := if report then sc else { sc with desc := none }
  let finish (m : Mach) (h : DescRef) : Mach :=
    if report then
      m.complete h { cplOf h .ok with chn := some effect, moved := moved, epoch := m.epo.counter }
    else m
  match c with
  | .table h f entries =>
    let old := m.newest (tableId f.table f.plane)
    let m := (m.commit sc effect moved none (tableCells f entries)).afterTable f
    finish (if f.table = 2 then m.mapChanged f.plane old else m) h
  | .closure f entries _ =>
    let old := m.newest (tableId f.table f.plane)
    let m := (m.commit sc effect moved none (tableCells f entries)).afterTable f
    let m := if f.table = 2 then (m.mapChanged f.plane old).closureMap f entries old else m
    let m := match sc.desc with
      | some h => m.cplQueue h.target
          { cplOf h .ok with chn := some effect, moved := moved, epoch := m.epo.counter }
      | none => m
    if f.table = 1 then
      { m with cls := { m.cls with
          gain := Tab.set none m.cls.gain f.plane (some { epoch := m.epo.counter, actual := none }) } }
    else m
  | .revoke h f =>
    finish ((m.commit sc effect moved none (fun _ t => t)).revokeItems f effect) h
  | .arm h f =>
    let m := m.commit sc effect moved none (fun _ t => t)
    finish (match m.jobSlot f.jobTag with
      | some j => if (m.job j).awaitsLines then m.startJob j (BitVec.ofNat 48 f.origin) effect m.epo.counter else m
      | none => m) h
  | .station j origin =>
    let m := m.commit sc effect moved none (fun _ t => t)
    if (m.job j).awaitsLines then m.startJob j origin effect m.epo.counter else m
  | .flip layer planes _ =>
    match m.flipJob layer (fun _ => effect) with
    | none => m.commit sc effect moved none (fun _ t => t)
    | some j =>
      let x := m.job j
      let number := word (x.latched (Reg.CMP_L_ITEM_BASE layer) + Tab.get 0 x.flips layer)
      (m.commit sc effect moved (some number) (fun _ t => t)).openSlot layer j effect planes

/-- Where the effect of a scope begins while no line falls back (R29): the lowest line chainage at or beyond its
effect chainage, and at or beyond the first line that no row had fired, over the jobs that print a plane of it.
DEDUCED (log entry 194). -/
def Mach.firstEffect (m : Mach) (sc : Scope) (e : Chainage) : Chainage :=
  let e := match m.unfired sc.planes with | some u => chnMax e u | none => e
  (m.lowestLine sc.planes (fun _ x => if x.prints (x.lineAt e) then some (x.lineAt e) else none)).getD e

/-- A change takes its epoch, and its actual effect chainage can be no lower than where its effect begins. -/
def Mach.commitNow (m : Mach) (c : Change) (e : Chainage) (moved : Bool) : Mach :=
  let sc := m.scopeOf c
  let m := (m.applyChange c e moved true).addSat Reg.PTN_UNMIRRORED.cnt (ofBool m.ptn.unmirrored)
  let first := m.firstEffect sc e
  m.updCommit m.epo.counter (fun d => { d with actual := chnMax d.actual first })

/-- The record that mirrors a change (R411). -/
def changeRecord (c : Change) (epoch : Word) (e : Chainage) : MirrorRec :=
  match c with
  | .table h f entries => .desc h (.tableCommit f entries) epoch e
  | .revoke h f => .desc h (.revoke f) epoch e
  | .arm h f => .desc h (.jobArm f) epoch e
  | .closure f entries _ => .commit 1 f.table f.plane 0 epoch e f.first entries
  | .flip layer planes _ => .commit 2 0 layer 1 epoch e 0 [planes]
  | .station j origin => .commit 3 0 j 1 epoch e 0 [origin.toNat % 2 ^ 32, origin.toNat / 2 ^ 32]

/-- The effect chainage that a change names, and whether it asks for the first unfired line. -/
def Mach.named (_m : Mach) (c : Change) : Chainage × Bool :=
  match c with
  | .table _ f _ => (BitVec.ofNat 48 f.effect, f.now)
  | .closure f _ _ => (BitVec.ofNat 48 f.effect, f.now)
  | .revoke _ f => (BitVec.ofNat 48 f.effect, f.now)
  | .arm _ f => (BitVec.ofNat 48 f.origin, false)
  | .station _ origin => (origin, false)
  | .flip _ _ start => (start, false)

/-- Bring a change to the commit point (R21): its effect chainage is fixed by R25 and its GAIN entries by R300, it is
mirrored, and it commits at once or waits for the partner's ACK (R413). -/
def Mach.submit (m : Mach) (c : Change) : Mach :=
  let sc := m.scopeOf c
  let nm := m.named c
  let e := m.fixEffect sc nm.2 nm.1
  let epoch := m.epo.counter + 1 + word m.ptn.held.length
  let limited (m : Mach) (f : TableF) (n : Nat) : Mach :=
    if n = 0 then m
    else m.raise Ev.guardGainLimited .warning (f.plane % 16 + 256 * (n % 2 ^ 24)) epoch.toNat
  let r : Mach × Change := match c with
    | .table h f entries =>
      let g := m.limitGain f e.1 entries
      (limited m f g.2, .table h f g.1)
    | .closure f entries src =>
      let g := m.limitGain f e.1 entries
      (limited m f g.2, .closure f g.1 src)
    | c => (m, c)
  let m := r.1.mirror true (changeRecord r.2 epoch e.1)
  if r.1.commitsWait then
    { m with ptn := { m.ptn with held := m.ptn.held ++ [{ seq := m.ptn.sent, effect := e.1, moved := e.2, change := r.2 }] } }
  else m.commitNow r.2 e.1 e.2

/-! ### TABLE_COMMIT and REVOKE -/

/-- The overlap of a seam in columns (R213). -/
def seamOverlap (hs : List HeadRec) (j : Nat) : Nat :=
  match hs[j]?, hs[j + 1]? with
  | some a, some b => a.pos + a.noz - b.pos
  | _, _ => 0

/-- A table commit's fields and entries are in range (R188, R227). -/
def Mach.tableOk (m : Mach) (f : TableF) (entries : List Nat) : Bool :=
  let size := m.tableSize f.table f.plane
  decide (1 ≤ f.table) && decide (f.table ≤ 6) && decide (f.plane < (if f.table ≤ 4 then 10 else 7)) &&
  decide (0 < f.count) && f.byteLen = 4 * f.count && decide (f.first + f.count ≤ size) &&
  (f.isPartial || (f.first = 0 && f.count = size)) && entries.length = f.count &&
  (f.table ≠ 1 || entries.all (fun e => decide (0x800 ≤ e % 8192) && decide (e % 8192 ≤ 0x1800))) &&
  (f.table ≠ 3 || (List.range entries.length).all (fun i =>
    let e := entries.getD i 0
    let w := seamOverlap (m.planeHeads f.plane) (f.first + i)
    w = 0 || bitAt e 31 || decide (e % 256 + e / 256 % 256 ≤ w)))

/-- TABLE_COMMIT (R126, R227): a COSMETIC version through the commit point. -/
def execTableCommit (h : DescRef) (f : TableF) (entries : List Nat) (s : State) :
    Host.Outcome State Fault Refusal :=
  s.run fun m => m.actData h 0x60 false fun m =>
    if m.inMode .boot || m.inMode .setup then m.done h .badState
    else if !m.tableOk f entries then m.done h .badParam
    else if !m.dmaOk false f.addr f.byteLen then m.windowFail h
    else if !m.hasRoom (m.scopeOf (.table h f entries)) then m.done h .versionsFull
    else m.submit (.table h f entries)

/-- A layer is item-sourced (R201). -/
def Mach.itemSourced (m : Mach) (n : Nat) : Bool :=
  if n = 0 ∨ n = 6 then
    m.fld (layerSrc n) = 1 ||
    (List.range 8).any (fun j => (m.job j).state ≠ .free && bitAt (m.job j).itemSrc n)
  else decide (n < 7)

/-- A layer holds up to 16 revoked ranges (R201). -/
def rangeMax : Nat := 16

/-- REVOKE (R124, R201, R202): a CONTENT commit. -/
def execRevoke (h : DescRef) (f : RevokeF) (s : State) : Host.Outcome State Fault Refusal :=
  s.run fun m => m.act h 0x23 false false fun m =>
    if !m.itemSourced f.layer || epochDiff f.last f.first < 0 then m.done h .badParam
    else if rangeMax ≤ (m.liveRanges f.layer).length then m.done h .badState
    else if !m.hasRoom (m.scopeOf (.revoke h f)) then m.done h .versionsFull
    else m.submit (.revoke h f)

/-! ### JOB_ARM -/

/-- The registers that a JOB_ARM latches (R183, R230, R262, R361). -/
def armLatches : List Nat :=
  (List.range 8).flatMap (fun n => (List.range 7).map (fun i => layerCfg n + 4 * i)) ++
  (List.range 9).map (fun i => Reg.CMP_PROOF_CFG + 4 * i) ++
  (List.range 10).flatMap (fun p => [Reg.TRV_SCR_P_CFG p, Reg.TRV_SCR_P_NOUT_DEF p]) ++
  [Reg.CAM_CLS_STRIP, Reg.CAM_CLS_STRIP_OFFSET, Reg.CAM_CLS_ROW, Reg.CAM_CLS_GROUPS]

/-- FGD_PITCH, in 2^-16 links. -/
def Mach.pitchNow (m : Mach) : Nat := m.pair Reg.FGD_PITCH_LO

/-- The reset pitch, 1200 dpi (R262). -/
def pitchReset : Nat := 0x152AAAAB

/-- The job with its pitch, fire lead and registers latched (R183, R230, R237, R262). -/
def Mach.latchJob (m : Mach) (x : Job) : Job :=
  let p := m.pitchNow
  let x := m.latchRegs x armLatches
  { x with pitch := p, lead := clampNat (8 * p / 65536) (56 * p / 65536) (m.fld Reg.TRV_FIRE_LEAD.links) }

/-- The camera region's size in bytes (R381). -/
def Mach.cameraRegion (m : Mach) : Nat := (120 - m.fld Reg.DRM_MAP.cam_base) * unit256M

/-- The bytes of one proof ring slot (R204). -/
def Job.proofSlot (x : Job) : Nat :=
  let planes := popCount 10 (x.lfld Reg.CMP_PROOF_CFG.planes)
  ceilDiv (32 + 2 * x.lfld Reg.CMP_PROOF_CELLS.cells * planes) 64 * 64

/-- A job with its registers latched may arm: R183, R262, R265, R321 and R361. -/
def Mach.armOk (m : Mach) (x : Job) : Bool :=
  (List.range 8).all (fun n => !x.hasLayer n ||
    (let dx := x.lfld (Reg.CMP_L_SCALE.dx n)
     let dy := x.lfld (Reg.CMP_L_SCALE.dy n)
     decide (1 ≤ dx) && decide (dx ≤ 4) && decide (1 ≤ dy) && decide (dy ≤ 4) &&
     !(x.itemLayer n && x.lfld (layerBoundary n) = 0 && x.latched (Reg.CMP_L_ITEM_PITCH n) = 0) &&
     x.lfld (layerPlanes n) &&& x.planes = x.lfld (layerPlanes n))) &&
  decide (x.lfld Reg.CMP_PROOF_BASE.base * 4096 + x.lfld Reg.CMP_PROOF_DEPTH.depth * x.proofSlot ≤ m.cameraRegion) &&
  decide (pitchReset ≤ x.pitch) && decide (x.pitch ≤ 4 * pitchReset) &&
  (m.jobHubs x).all (fun hub =>
    let offs := rowOffsets (m.hubHeads hub)
    decide (ceilDiv ((x.lead + (listMax offs - listMin offs)) * 65536) x.pitch + 2 ≤ m.fld (Reg.FGD_HB_DEPTH.depth hub)) &&
    decide (m.hubLineBytes hub x.planes x.depth ≤ 6400 * (m.hubLanes hub).length)) &&
  !(x.lfld Reg.CAM_CLS_STRIP.lines ≠ 0 && decide (x.lfld Reg.CAM_CLS_STRIP.lines < x.stripLength)) &&
  decide (2 * x.lfld Reg.CAM_CLS_ROW.guard_lines < x.lfld Reg.CAM_CLS_ROW.row_lines)

/-- The columns that no nozzle covers, counted at a JOB_ARM (R211). -/
def Mach.countGaps (m : Mach) (x : Job) : Mach :=
  ((List.range 10).filter x.hasPlane).foldl (fun m p =>
    let n := uncovered (m.planeHeads p) x.width
    let m := m.setFld (Reg.TRV_SCR_P_GAPS.cnt p) n
    if n = 0 then m else m.raise Ev.scrGap .error (p % 16 + 256 * (n % 2 ^ 24)) x.tag) m

/-- A job may arm from its state (R151). -/
def Job.takesArm (x : Job) : Bool := x.state = .stored || (x.streamed && x.state = .opened)

/-- Every layer's ranges whose slots have all passed are retired (R201). -/
def Mach.retireRanges (m : Mach) : Mach :=
  { m with cmp := { m.cmp with layer := m.cmp.layer.foldl (fun t (e : Nat × Layer) =>
      Tab.set {} t e.1 { e.2 with revoked := m.liveRanges e.1 }) m.cmp.layer } }

/-- The job ARMED under a descriptor, with everything latched. -/
def Mach.armJob (m : Mach) (j : Nat) (h : DescRef) (f : JobArmF) : Mach :=
  let x := m.latchJob (m.job j)
  let m := m.setJob j { x with
    desc := h, repeats := f.repeats, byStation := f.start = 1, started := false, stop := none, takenBy := none
    offset := f.origin, starved := 0, flips := [] }
  let m := m.setEnded x.tag none
  let m := { m with fgd := { m.fgd with
      next := m.fgd.next.filter (fun e => e.1 % 8 ≠ j) } }
  (m.retireRanges.jobState j .armed).countGaps x

/-- JOB_ARM (R151, R170, R171, R183, R262): AT_ORIGIN is a CONTENT commit; BY_STATION waits for its station. -/
def execJobArm (h : DescRef) (f : JobArmF) (s : State) : Host.Outcome State Fault Refusal :=
  s.run fun m => m.act h 0x04 false false fun m =>
    match m.jobSlot f.jobTag with
    | none => m.done h .badState
    | some j =>
      let x := m.job j
      if !x.takesArm || !(m.inMode .ready || m.inMode .run || m.inMode .benchmark) then m.done h .badState
      else if 2 ≤ f.start || !m.armOk (m.latchJob x) || (f.start = 1 && 2 ^ 47 ≤ f.origin) then m.done h .badParam
      else if f.start = 1 then ((m.mirrorDesc h (.jobArm f)).armJob j h f).done h .ok
      else if !m.hasRoom (m.scopeOf (.arm h f)) then m.done h .versionsFull
      else (m.armJob j h f).submit (.arm h f)

/-- JOB_EFFECT_CROSSED (R150, R170): an ARMED job whose effect chainage the printed chainage has crossed prints. -/
def execJobEffectCrossed (tag : Nat) (s : State) : Host.Outcome State Fault Refusal :=
  s.run fun m =>
    if m.isBacksight then m else
    match m.jobSlot tag with
    | none => m
    | some j =>
      let x := m.job j
      if x.state = .armed && x.hasLines && m.chn.vote.valid && chnAtOrAhead m.chainage x.effect then
        m.jobState j .printing
      else m

/-! ### NOP and ABORT -/

/-- CTRL NOP (R124). -/
def execNop (h : DescRef) (s : State) : Host.Outcome State Fault Refusal :=
  s.run fun m => m.act h 0x20 true true fun m => (m.mirrorDesc h .nop).done h .ok

/-- An ABORT is taken (R134): before the job's commit point it wins, and rows not yet fired print blank.
DEDUCED (log entry 240). -/
def Mach.abortJob (m : Mach) (h : DescRef) (tag : Nat) : Mach :=
  let late (m : Mach) : Mach := match Tab.get none m.vgp.ended tag with
    | some c => m.complete h { cplOf h .noEffect with chn := some c }
    | none => m.done h .badState
  match m.jobSlot tag with
  | none => late m
  | some j =>
    if (m.job j).active then
      let m := m.mirrorDesc h (.abort tag)
      let c := m.chainage
      let r := m.cutJob j 9
      (r.1.endJob j .aborted c r.2).complete h { cplOf h .ok with chn := some c }
    else late m

/-- CTRL ABORT (R133, R134). The job controller takes one ABORT or job end per tick: an ABORT that finds the tick
taken waits for the next. -/
def execAbort (h : DescRef) (tag : Nat) (s : State) : Host.Outcome State Fault Refusal :=
  s.run fun m => m.act h 0x21 false false fun m =>
    if m.endBusy || m.vgp.abortWait.isSome then
      { m with vgp := { m.vgp with abortWait := some (h, tag) } }
    else m.endTaken.abortJob h tag

/-- Where a job ends on its own, and the repeats it has completed: a PRINTING job whose last line has been crossed on its
last row, and one that has been left no line (R133, R173). -/
def Mach.jobOver (m : Mach) (j : Nat) : Option (Chainage × Nat) :=
  let x := m.job j
  if !x.active then none
  else if !x.started then (if x.stop.isSome then some (m.chainage, 0) else none)
  else match x.endLine with
    | none => none
    | some e =>
      if e ≤ x.firstLine then some (m.chainage, 0)
      else if x.state ≠ .printing then none
      else
        let c := x.lineChn (e - 1) + BitVec.ofNat 48 (listMax (m.maskOffsets x.planes))
        if diff64 (x.fire16 (e - 1) (listMax (m.maskOffsets x.planes))) m.ext16 ≤ 0 then some (c, x.repeatsBy e) else none

/-- What the job controller takes on a DTM tick: the end of one job that is over, or else an ABORT that waits (R133).
DEDUCED (log entry 192). -/
def Mach.jobsEnd (m : Mach) : Mach :=
  match (List.range 8).find? (fun j => (m.jobOver j).isSome) with
  | some j =>
    match m.jobOver j with
    | some (c, n) => m.endTaken.endJob j .ok c n
    | none => m
  | none =>
    match m.vgp.abortWait with
    | some (h, tag) => ({ m with vgp := { m.vgp with abortWait := none } } : Mach).endTaken.abortJob h tag
    | none => m

end Sys2Proof.Machine
end

