-- ==== Sys2Proof/Machine/Traverse.lean ====
section
/-! DEFINITION. The Traverse engines (R231 to R256): tiles, run-ahead, the choice of work, renders, deadlines, and
parking. -/

namespace Sys2Proof.Machine

open Sys2Proof

/-! ### Tiles (R241, R242) -/

/-- The 64-byte units of a tile of a drop depth (R241). -/
def tileUnits (depth : Nat) : Nat := if depth = 3 then 97 else 65

/-- TRV_TILE_CAP: the tile region of DRM_MAP in units. -/
def Mach.tileCap (m : Mach) : Nat := (m.fld Reg.DRM_MAP.cam_base - m.fld Reg.DRM_MAP.tile_base) * 2 ^ 22

/-- The slot of a tile that is there: its first unit and its length. -/
def tileSpan : Option Tile → List (Nat × Nat)
  | some t => [(t.slot, t.units)]
  | none => []

/-- The slots that a swath's tiles and its render in progress take. -/
def Swath.spans (s : Swath) (depth : Nat) : List (Nat × Nat) :=
  tileSpan s.tile ++ tileSpan s.fallback ++ s.spent ++ (if s.rendering then [(s.slot, tileUnits depth)] else [])

/-- Every slot of the tile region that is taken. -/
def Mach.tileSpans (m : Mach) : List (Nat × Nat) := m.trv.swath.flatMap (fun e => e.2.spans (m.job (keyJob e.1)).depth)

/-- TRV_TILE_FREE. -/
def Mach.tileFree (m : Mach) : Nat := m.tileCap - m.tileSpans.foldl (fun n s => n + s.2) 0

/-- The lowest slot of a length that is free in the tile region, if there is one. DESIGN CHOICE (log entry 198). -/
def Mach.tileSlot (m : Mach) (need : Nat) : Option Nat :=
  let used := m.tileSpans
  let fits (a : Nat) : Bool := decide (a + need ≤ m.tileCap) && used.all (fun s => decide (a + need ≤ s.1) || decide (s.1 + s.2 ≤ a))
  match (0 :: used.map (fun s => s.1 + s.2)).filter fits with
  | [] => none
  | l => some (listMin l)

/-- The header of a tile (R241). -/
def tileHeader (k : Nat) (t : Tile) : List Byte :=
  leBytes 4 t.epoch.toNat ++ leBytes 2 (keyRow k) ++
  leBytes 1 (ofBool t.depth3 + 2 * ofBool (!t.drops.isEmpty) + 4 * ofBool t.blankSlot + 8 * ofBool t.repair) ++
  leBytes 1 (keyPlane k % 16 + 16 * (keyJob k % 8))

/-- Where a tile stands in DRAM. -/
def Mach.tileAddr (m : Mach) (t : Tile) : Nat := m.fld Reg.DRM_MAP.tile_base * unit256M + 64 * t.slot

/-- The code of a nozzle on a line, from the code records of a tile in DRAM (R224). -/
def Mach.tileDot (m : Mach) (t : Tile) (line u : Nat) : Nat :=
  let w := if t.depth3 then 3 else 2
  let bit := u % 256 * w
  let a := m.tileAddr t + 8 + 32 * w * (line % 64) + bit / 8
  ((m.dramByte a).toNat + 256 * (m.dramByte (a + 1)).toNat) / 2 ^ (bit % 8) % 2 ^ w

/-! ### Run-ahead (R235, R236) -/

/-- R_p(D) of a job (R236). -/
def Mach.residentRows (m : Mach) (x : Job) (p d : Nat) : Nat :=
  let offs := rowOffsets (m.planeHeads p)
  ceilDiv ((d + x.lead + (listMax offs - listMin offs)) * 65536) (64 * x.pitch) + 2

/-- A distance fits within 15/16 of the tile region. -/
def Mach.runFits (m : Mach) (x : Job) (d : Nat) : Bool :=
  decide (((List.range 10).filter x.hasPlane).foldl (fun n p =>
    n + m.swathCount p * m.residentRows x p d * tileUnits x.depth) 0 ≤ 15 * m.tileCap / 16)

/-- The greatest number up to `n` for which `p` holds, or 0. -/
def greatest (p : Nat → Bool) : Nat → Nat
  | 0 => 0
  | n + 1 => if p (n + 1) then n + 1 else greatest p n

/-- D_eff of a job for a D_req. -/
def Mach.runFor (m : Mach) (x : Job) (req : Nat) : Nat :=
  if m.runFits x req then req
  else
    let links (n : Nat) : Nat := n * 64 * x.pitch / 65536
    links (greatest (fun n => m.runFits x (links n)) ((req * 65536 - 1) / (64 * max 1 x.pitch)))

/-- D_req of R236, at the speed of the last window. -/
def Mach.runRequest (m : Mach) : Nat :=
  max (m.fld Reg.TRV_RUN_MIN.links)
    (clampNat 1000 250000 (m.fld Reg.TRV_RUNAHEAD.window_us) * m.fld Reg.CHN_SPEED_LINKS.links / m.chn.speedWindow)

/-- Set the effective run-ahead distance: TRV_RUNAHEAD_EFF, its time, and whether it is capped (R236). -/
def Mach.setRunahead (m : Mach) : Mach :=
  let req := m.runRequest
  let ds := m.lineJobs.map (fun j => m.runFor (m.job j) req)
  let d := min (if ds.isEmpty then req else listMin ds) (2 ^ 32 - 1)
  let capped := !ds.isEmpty && decide (listMin ds < req)
  let v := m.fld Reg.CHN_SPEED_LINKS.links
  let us := if v = 0 then clampNat 1000 250000 (m.fld Reg.TRV_RUNAHEAD.window_us)
            else d * m.chn.speedWindow / v
  let was := m.trv.capped
  let m := { m with trv := { m.trv with capped := capped } }
  let m := (m.setFld Reg.TRV_RUNAHEAD_EFF.links d).setFld Reg.TRV_RUNAHEAD_EFF_US.us (min us (2 ^ 32 - 1))
  if capped && !was then m.raise Ev.trvRunaheadCapped .warning d (min req (2 ^ 32 - 1)) else m

/-- The farthest chainage at which a deadline makes its swath eligible: D_eff ahead of the printed one (R235). -/
def Mach.runEdge (m : Mach) : Chainage := m.chainage + BitVec.ofNat 48 (m.fld Reg.TRV_RUNAHEAD_EFF.links)

/-- Every item slot that the lines of a swath row read is bound (R196). -/
def Mach.slotsBound (m : Mach) (j row : Nat) : Bool :=
  let x := m.job j
  (List.range 7).all fun n =>
    !x.pitchLayer n ||
    (x.rowLines row).all (fun i =>
      decide (i < x.latched (Reg.CMP_L_ITEM_OFFSET n)) || ((m.layer n).slotAt j i).isSome)

/-- A stream has been coded as far as a swath row reads it. -/
def Job.streamReady (x : Job) (n q row : Nat) : Bool :=
  let l := x.lastOf row
  x.closed ||
  decide ((axisReads (x.alongOf n) (x.lfld (layerUpscale n) = 1) (l + 1) l).2 < (x.stream n q).coded)

/-- The streams of a streamed job that plane `p` reads: its own, and those whose coverage a KNOCKOUT layer that
clears on zero takes from other planes. -/
def Job.streamsRead (x : Job) (p : Nat) : List (Nat × Nat) :=
  if !x.streamed then []
  else [0, 6].flatMap (fun n => ((List.range 10).filter (x.readsPlane p n)).map (fun q => (n, q)))

/-- Every stream line that a swath reads has been coded (R155). -/
def Job.streamsReady (x : Job) (p row : Nat) : Bool := (x.streamsRead p).all (fun s => x.streamReady s.1 s.2 row)

/-- A swath needs a table of which a version is broken (R395): a table of its plane, or of a layer that it composes,
that a line of it takes from the broken version or from one committed over part of it. DEDUCED (log entry 49). -/
def Mach.needsBroken (m : Mach) (k : Nat) : Bool :=
  let x := m.job (keyJob k)
  m.drm.broken.any (fun b =>
    (if b.table / 16 ≤ 4 then b.table % 16 = keyPlane k
     else x.hasLayer (b.table % 16) && bitAt (x.lfld (layerPlanes (b.table % 16))) (keyPlane k)) &&
    (x.rowLines (keyRow k)).any (fun n =>
      !epochNewer b.epoch (m.lineVersion b.table (x.lineChn n) m.epo.counter).epoch))

/-- A version loads into an engine's scratch for a swath (R395): a failed copy is rewritten from the good one, or the
version is broken. -/
def Mach.tableLoad (m : Mach) (k : Nat) (l : TableLoad) : Mach :=
  let x := m.job (keyJob k)
  let id := tableId l.table l.idx
  let v := m.lineVersion id (x.lineChn ((x.rowLines (keyRow k)).headD 0)) m.epo.counter
  if !l.both then m.addSat Reg.DRM_CHECK_CNT.cnt 1
  else if m.drm.broken.any (fun b => b.table = id && b.epoch = v.epoch) then m
  else
    let b : Broken := { table := id, epoch := v.epoch }
    ({ m with drm := { m.drm with broken := m.drm.broken ++ [b] } }).raise
      Ev.drmCheck .error 2 (l.idx % 16 + 256 * (l.table % 16) + 65536 * (v.epoch.toNat % 65536))

/-- A swath is eligible and waits for a render (R235). DEDUCED (log entry 29). -/
def Mach.queued (m : Mach) (k : Nat) : Bool :=
  let x := m.job (keyJob k)
  let s := m.swath k
  !m.needsBroken k && x.hasLines && x.hasPlane (keyPlane k) && !(x.rowLines (keyRow k)).isEmpty &&
  s.decided = .undecided && s.tile.isNone && !s.rendering && s.claimed.isNone && !m.reached k &&
  (s.requeue || s.eligible ||
    (chnAtOrAhead m.runEdge (m.deadline k) && m.slotsBound (keyJob k) (keyRow k) &&
     x.streamsReady (keyPlane k) (keyRow k)))

/-- A swath is URGENT (R238). -/
def Mach.isUrgent (m : Mach) (k : Nat) : Bool :=
  (m.swath k).urgent || decide (m.slack k < (m.fld Reg.TRV_URGENT_LEAD.links : Nat))

/-- The swath rows of one swath index whose deadline lies ahead and within the run-ahead. -/
def Mach.rowsAhead (m : Mach) (j p idx : Nat) : List Nat :=
  let x := m.job j
  let back := BitVec.ofNat 48 x.lead - BitVec.ofNat 48 (listMin (rowOffsets (swathHeads (m.planeHeads p) 0 idx)))
  let a := ceilDiv (x.lineAt (m.chainage + back + 1)) 64
  let past := m.runEdge + back
  let b := if chnAtOrAhead past x.origin then x.lineAt (past + 1) else 0
  let first := x.firstLine / 64
  let n := ceilDiv b 64
  (List.range (n - max a first)).map (fun i => max a first + i)

/-- Every swath that is queued: those within the run-ahead, and those that have been eligible before it shrank. -/
def Mach.queue (m : Mach) : List Nat :=
  let near := m.lineJobs.flatMap (fun j =>
    ((List.range 10).filter (m.job j).hasPlane).flatMap (fun p =>
      (List.range (m.swathCount p)).flatMap (fun idx =>
        ((m.rowsAhead j p idx).map (swathKey j p idx)).filter m.queued)))
  near ++ (m.trv.swath.map (fun e => e.1)).filter (fun k => m.queued k && !near.contains k)

/-- What is queued now stays eligible, and what is URGENT stays URGENT, whatever becomes of the distances that made it
so (R235, R238). -/
def Mach.keepQueue (m : Mach) : Mach :=
  m.queue.foldl (fun m k => m.setSwath k { m.swath k with eligible := true, urgent := m.isUrgent k }) m

/-- Recompute the run-ahead at the end of a speed window (R236). An eligible swath stays eligible when D_eff shrinks
(R235). -/
def Mach.updateRunahead (m : Mach) : Mach :=
  if m.setRunahead.fld Reg.TRV_RUNAHEAD_EFF.links < m.fld Reg.TRV_RUNAHEAD_EFF.links then m.keepQueue.setRunahead
  else m.setRunahead

/-- The URGENT swaths that wait for a tile slot. -/
def Mach.tileWaiters (m : Mach) : Nat := (m.trv.swath.filter (fun e => e.2.waiting)).length

/-! ### Choosing work (R239) -/

/-- The home engine of a swath (R232). -/
def homeEngine (k : Nat) : Nat := 8 * keyPlane k + keyIdx k / 8 % 8

/-- The choice of R239 under which engine `e` would take a swath: 16 x the choice, plus the distance on the ring. -/
def Mach.choice (m : Mach) (e k : Nat) : Nat :=
  let c := e / 8
  let d := (keyPlane k + 10 - c) % 10
  if m.isUrgent k then (if d = 0 then 16 else 32 + d)
  else if homeEngine k = e then 48
  else if d = 0 then 64 else 80 + d

/-- Swath `a` comes before swath `b` for engine `e`. -/
def Mach.before (m : Mach) (e a b : Nat) : Bool :=
  let ca := m.choice e a
  let cb := m.choice e b
  let sa := m.slack a
  let sb := m.slack b
  decide (ca < cb) || (ca = cb &&
    (decide (sa < sb) || (sa = sb &&
      (decide (keyPlane a < keyPlane b) || (keyPlane a = keyPlane b &&
        (decide (keyIdx a < keyIdx b) || (keyIdx a = keyIdx b && decide (a < b))))))))

/-- The swath that engine `e` would select. -/
def Mach.pick (m : Mach) (e : Nat) : Option Nat :=
  m.queue.foldl (fun acc k =>
    match acc with
    | none => some k
    | some b => if m.before e k b then some k else some b) none

/-! ### Reads of blocks (R175, R176, R200) -/

/-- A block that failed twice: a request, where R176 allows one, and one entry for each repeat that reads it, until it
is repaired or its lines are blanked (R178). -/
def Mach.badBlock (m : Mach) (k : Nat) (r : BlockRead) (b : Block) : Mach :=
  let x := m.job r.job
  let id := streamId x.tag r.layer r.plane
  let same (q : BadBlock) : Bool := q.job = r.job && q.layer = r.layer && q.plane = r.plane && q.block = r.block
  let horizon := m.fireHorizon k r.layer r.plane b
  let rest := m.vgp.bad.filter (fun q => !(same q && (q.blank || q.repaired) && q.request.isNone && q.horizon ≠ horizon))
  let asked := rest.any (fun q => same q && q.request.isSome)
  let known := rest.any (fun q => same q && q.horizon = horizon)
  let entry : BadBlock :=
    { job := r.job, layer := r.layer, plane := r.plane, block := r.block, request := none, horizon := horizon }
  if !asked && m.flag Reg.VGP_CFG.req_en && decide ((rest.filter (fun q => q.request.isSome)).length < 64) then
    let n := m.vgp.nextRequest
    let ask (q : BadBlock) : BadBlock := if same q && q.horizon = horizon then { q with request := some n, repaired := false } else q
    let m : Mach := { m with vgp := { m.vgp with
      nextRequest := if n + 1 < 2 ^ 32 then n + 1 else 1
      bad := (if known then rest else rest ++ [entry]).map ask } }
    let c : Cpl :=
      { status := .ok, kind := .request, tag := x.tag, ring := 1, opcode := 6, index := r.layer + 256 * r.plane
        chn := some horizon, epoch := word r.block, value := n }
    ((m.addSat Reg.VGP_REQ_CNT.cnt 1).cplQueue (m.fld (Reg.HST_RING_CFG.cpl 1)) c).raise Ev.blockRequest .warning id n
  else
    { m with vgp := { m.vgp with
      bad := if known then rest.map (fun q => if same q && q.horizon = horizon then { q with repaired := false } else q)
        else rest ++ [entry] } }

/-- The layer lines of each block of an item, by the item's block index. -/
def itemBlockLines (it : Item) : List Nat :=
  it.parts.flatMap (fun p => (p.grid.take p.channels).flatMap (fun g =>
    g.flatMap (fun ln => List.replicate (ceilDiv p.width 256) ln)))

/-- An item block that failed twice: counted and reported once, it prints in no plane from then on (R200).
DEDUCED (log entry 199). -/
def Mach.badItem (m : Mach) (r : BlockRead) (i : Word) : Mach :=
  let x := m.job r.job
  let l := m.layer r.layer
  if l.failed.contains (i, r.block) then m else
  let dy := max 1 (x.lfld (Reg.CMP_L_SCALE.dy r.layer))
  let lines := match l.item i with
    | none => 0
    | some it => ceilDiv ((itemBlockLines it).getD r.block 0) dy * x.alongOf r.layer
  let m := m.setLayer r.layer { l with failed := l.failed ++ [(i, r.block)] }
  (m.addSat Reg.VGP_BLANK_LINES.cnt lines).raise Ev.itemCheck .error (r.layer % 8 + 65536 * (lines % 65536)) i.toNat

/-- One block whose first read failed as an engine took it for swath `k`. -/
def Mach.blockRead (m : Mach) (k : Nat) (r : BlockRead) : Mach :=
  let x := m.job r.job
  let m := m.addSat Reg.VGP_CHK_FIRST.cnt 1
  if !r.rereadBad then
    (m.addSat Reg.VGP_CHK_REREAD_OK.cnt 1).raise Ev.blockReread .info (streamId x.tag r.layer r.plane) r.block
  else
    let s := m.swath k
    let m := m.setSwath k { s with fails := s.fails ++ [(r.layer, r.item, r.block)] }
    match r.item with
    | some i => m.badItem r i
    | none =>
      match (x.stream r.layer r.plane).blocks.find? (fun b => b.row * x.blockCols r.layer + b.col = r.block) with
      | some b => if m.swathReads k r.job r.layer r.plane b then m.badBlock k r b else m
      | none => m

/-! ### Renders (R239 to R242) -/

/-- A cluster's nibble in TRV_PARK_ORDER at step `n`, counted from 0. -/
def parkNibble (order n : Nat) : Nat := order / 16 ^ n % 16

/-- The modes, pair states and shutdowns that park every cluster (R249, R419, R427, R461, R468). -/
def Mach.modeParks (m : Mach) : Bool :=
  m.shed ||
  m.inMode .boot || m.inMode .setup || m.inMode .halt ||
  (m.inMode .backsight && !(m.ptn.state = .claiming || (m.ptn.state = .reverting && !m.ptn.oldActive)))

/-- A cluster is ordered to run (R249). -/
def Mach.clusterRuns (m : Mach) (c : Nat) : Bool :=
  if m.modeParks then
    m.isBacksight && !m.shed && m.flag Reg.PTN_CFG.proof_en && m.fld Reg.PTN_CFG.proof_cluster = c
  else !(List.range m.trv.steps).any (fun n => parkNibble (m.fld Reg.TRV_PARK_ORDER.order) n = c)

/-- Select a swath for an engine: it is claimed, its inputs are read, and a steal is counted. -/
def Mach.select (m : Mach) (e k : Nat) (reads : List BlockRead) : Mach :=
  let c := m.choice e k / 16
  let s := m.swath k
  let m := m.setSwath k { s with claimed := some e, urgent := m.isUrgent k, eligible := true, fails := [] }
  let m := if c = 4 then m.addSat Reg.TRV_STEAL_CLUSTER.cnt 1
           else if c = 5 then m.addSat Reg.TRV_STEAL_RING.cnt 1 else m
  let m := if homeEngine k = e then m else m.addWrap (Reg.TRV_E_STOLEN.cnt e) 1
  let m := (reads.filter (fun r => r.job = keyJob k)).foldl (fun m r => m.blockRead k r) m
  m.setEngine e { m.engine e with next := some k }

/-- Start the swath that an engine has selected: a NORMAL one while a sixteenth of the region is free, an URGENT one
while a slot is free, and otherwise it waits (R242). -/
def Mach.startNext (m : Mach) (e : Nat) : Mach :=
  let g := m.engine e
  match g.cur, g.next with
  | none, some k =>
    let urgent := m.isUrgent k
    let s := { m.swath k with urgent := urgent }
    let free := m.tileFree
    match (if urgent || decide (m.tileCap / 16 ≤ free) then m.tileSlot (tileUnits (m.job (keyJob k)).depth) else none) with
    | some slot =>
      let m := m.setSwath k { s with
        claimed := none, rendering := true, requeue := false, waiting := false, slot := slot, again := false }
      m.setEngine e { g with cur := some k, next := none, epoch := m.epo.counter, stalled := false, state := .busy }
    | none =>
      if urgent && !s.waiting then
        let m := (m.setSwath k { s with waiting := true }).addSat Reg.TRV_TILE_WAIT.cnt 1
        m.raiseRated Ev.tileWait 0 .warning free m.tileWaiters 1 (fun _ n => n)
      else m
  | _, _ => m

/-- An engine may take work. -/
def Mach.mayWork (m : Mach) (e : Nat) : Bool :=
  let g := m.engine e
  g.isActive && !g.parking && m.clusterRuns (e / 8) && !m.isBacksight && m.ptn.restored

/-- A selected swath that needs a broken version is let go. -/
def Mach.letGo (m : Mach) (e : Nat) : Mach :=
  let g := m.engine e
  match g.next with
  | none => m
  | some k =>
    if m.needsBroken k then
      (m.setSwath k { m.swath k with claimed := none }).setEngine e { g with next := none }
    else m

/-- ENGINE_SELECT (R238, R239): an engine that has selected nothing selects its next swath, and starts what it has
selected when it holds none. -/
def execEngineSelect (e : Nat) (reads : List BlockRead) (loads : List TableLoad) (s : State) :
    Host.Outcome State Fault Refusal :=
  s.run fun m =>
    if !m.mayWork e then m
    else
      let m := if (m.engine e).next.isSome then m
        else match m.pick e with
          | none => m
          | some k => (loads.foldl (fun m l => m.tableLoad k l) (m.select e k reads)).letGo e
      if (m.engine e).stalled then m else m.startNext e

/-- Whether some slot that a swath row reads is BLANK (R197, R241). -/
def Mach.rowBlank (m : Mach) (j row : Nat) (epoch : Word) : Bool :=
  let x := m.job j
  (List.range 7).any fun n =>
    x.itemLayer n && (x.rowLines row).any (fun i =>
      match (m.layer n).slotAt j i with
      | none => false
      | some s => ((m.layer n).shownOn s (x.lineChn i) epoch).isNone)

/-- The item blocks whose two reads failed, of every layer (R200). -/
def Mach.failedItems (m : Mach) : List FailedBlock :=
  (List.range 7).flatMap (fun n => (m.layer n).failed.map (fun f => (n, some f.1, f.2)))

/-- The blocks that a swath reads and that have failed without a repair before their horizon: their dots print no drop,
whatever a later read or repair gives (R178). -/
def Mach.blankBlocks (m : Mach) (k : Nat) : List FailedBlock :=
  ((m.badOf k).filter (fun r => r.1.blank || !r.1.repaired)).map (fun r => (r.1.layer, none, r.1.block))

/-- The tile that a render at an epoch makes, with its code records and the dots saturated. -/
def Mach.makeTile (m : Mach) (k : Nat) (epoch : Word) : Tile × List Byte × Nat :=
  let x := m.job (keyJob k)
  let s := m.swath k
  let r := m.renderSwath k epoch (s.fails ++ m.failedItems ++ m.blankBlocks k)
  let recs := r.1.flatMap (fun l => packCodes x.depth l.1)
  ({ epoch := epoch, depth3 := x.depth = 3, drops := (List.range 64).filter (fun i => (r.1.getD i ([], false)).2)
     blankSlot := m.rowBlank (keyJob k) (keyRow k) epoch
     repair := s.repair, slot := s.slot, crc := crc32c recs, units := tileUnits x.depth }, recs, r.2)

/-- A PROOF_REF for a tile of the sample (R430). DESIGN CHOICE (log entry 35). -/
def Mach.proofRef (m : Mach) (k : Nat) (t : Tile) : Mach :=
  if m.flag Reg.PTN_CFG.proof_en && (keyIdx k + keyRow k) % 64 = m.ptn.proofPhase then
    m.mirror false (.proofRef (keyPlane k) (keyJob k) (keyIdx k) (keyRow k) t.epoch t.crc)
  else m

/-- A finished render becomes the swath's tile, or its fallback when a commit has come since it began (R244) or a
block it reads has been repaired (R247). Its bytes go into its slot of the tile region. -/
def Mach.finishSwath (m : Mach) (k : Nat) (epoch : Word) : Mach :=
  let s := m.swath k
  let r := m.makeTile k epoch
  let left := s.pend.filter (fun p => epochNewer p.epoch epoch)
  let s' := { s with
    rendering := false, spent := s.spent ++ tileSpan s.fallback, pend := left, repair := s.again, again := false }
  let m := if left.isEmpty && !s.again then m.setSwath k { s' with tile := some r.1, fallback := none, urgent := false }
    else (m.setSwath k { s' with fallback := some r.1, tile := none, requeue := true, urgent := true }).addSat
      Reg.TRV_REQUEUED.cnt 1
  let m := m.dramWrite (m.tileAddr r.1) (tileHeader k r.1 ++ r.2.1)
  let sl := m.slack k
  let m := { m with trv := { m.trv with
      slackMin := some (match m.trv.slackMin with | none => sl | some a => if sl < a then sl else a) } }
  let m := m.proofRef k r.1
  let p := keyPlane k
  ((m.addWrap Reg.TRV_RENDERED.cnt 1).addSat (Reg.TRV_SCR_P_SAT.cnt p) r.2.2).raiseRated
    Ev.scrSaturated p .warning p 0 r.2.2

/-- SWATH_RENDER_DONE (R240, R241, R244): the tile of the swath an engine holds, unless its deadline came first.
DESIGN CHOICE (log entry 168). -/
def execSwathRenderDone (e : Nat) (s : State) : Host.Outcome State Fault Refusal :=
  s.runMem fun m =>
    let g := m.engine e
    match g.cur with
    | none => m
    | some k =>
      let m := if (m.swath k).rendering then
          if m.reached k then
            (m.setSwath k { m.swath k with rendering := false }).addSat Reg.TRV_ABANDONED.cnt 1
          else ((m.finishSwath k g.epoch).addWrap (Reg.TRV_E_COUNT.cnt e) 1).checked (10 + e / 8) 1 0
        else m
      m.setEngine e { g.drop with stalled := g.next.isSome, ended := m.now }

/-- PREFETCH_STALL_END (R240): the inputs of the selected swath are in scratch, and it starts. -/
def execPrefetchStallEnd (e : Nat) (s : State) : Host.Outcome State Fault Refusal :=
  s.run fun m =>
    let g := m.engine e
    if g.stalled && g.cur.isNone then (m.stallEnds e).startNext e else m

/-- TILE_WAIT_RESUME (R242): an engine that holds nothing tries again to start the swath that it has selected, which
may have become URGENT meanwhile. -/
def execTileWaitResume (e : Nat) (s : State) : Host.Outcome State Fault Refusal :=
  s.run fun m =>
    match (m.engine e).next with
    | some _ => if (m.engine e).stalled then m else m.startNext e
    | none => m

/-! ### Deadlines (R243, R245, R174) -/

/-- The cause of a miss that still holds at the deadline (R243). -/
def Mach.missCause (m : Mach) (k : Nat) : Nat :=
  let x := m.job (keyJob k)
  if x.byStation && chnAtOrAhead x.startAt (m.deadline k) then 3
  else if !m.slotsBound (keyJob k) (keyRow k) then 1
  else if !x.streamsReady (keyPlane k) (keyRow k) then 2
  else 0

/-- The stream lines of a swath row that are not coded, for one stream (R174). -/
def Job.uncoded (x : Job) (n q row : Nat) : Nat :=
  let a := x.alongOf n
  let ls := x.rowLines row
  if x.closed || ls.isEmpty then 0
  else
    let lo := ls.headD 0 / a
    let hi := ls.getLastD 0 / a + 1
    hi - max lo (min hi (x.stream n q).coded)

/-- Count the stream lines of plane `p` that starve in a swath row, at the first deadline of a swath of it (R174). -/
def Mach.starve (m : Mach) (j p row : Nat) : Mach :=
  (((m.job j).streamsRead p).filter (fun s => s.2 = p)).foldl (fun m s =>
    let x := m.job j
    let n := x.uncoded s.1 s.2 row
    let m := m.setJob j { x with starved := min (x.starved + n) (2 ^ 32 - 1) }
    let id := streamId x.tag s.1 s.2
    m.raiseRated Ev.jobStarved id .error id 0 n) m

/-- No swath of a plane's swath row has come to its deadline yet. -/
def Mach.rowFresh (m : Mach) (j p row : Nat) : Bool :=
  (List.range (m.swathCount p)).all (fun idx => (m.swath (swathKey j p idx row)).decided = .undecided)

/-- One swath reaches its deadline. DEDUCED (log entry 243). -/
def Mach.swathDue (m : Mach) (k : Nat) : Mach :=
  if (m.swath k).decided ≠ .undecided || !m.reached k then m else
  let m := if m.rowFresh (keyJob k) (keyPlane k) (keyRow k) then m.starve (keyJob k) (keyPlane k) (keyRow k) else m
  let s := m.swath k
  if s.tile.isSome then m.setSwath k { s with decided := .tile, spent := [], urgent := false, requeue := false }
  else
    let m := m.abandon (fun q => q = k)
    let s := { m.swath k with
      rendering := false, claimed := none, waiting := false, requeue := false, urgent := false, spent := [] }
    if s.fallback.isSome && !m.needsBroken k then
      let m := if s.repair || s.again then m.repairLate k else m
      (m.setSwath k { s with decided := .fallback, whole := true }).fallBack k ((m.job (keyJob k)).rowLines (keyRow k))
        ([], false) (s.pend, true)
    else
      let cause := m.missCause k
      let quiet := m.needsBroken k
      let m := (m.setSwath k { s with decided := .missed, fallback := none }).addSat Reg.TRV_MISS.cnt 1
      if quiet then m
      else m.raiseRated Ev.trvMiss 0 .error
        (keyPlane k + 16 * cause) (keyIdx k * 65536 + keyRow k % 65536) 1

/-- SWATH_DEADLINE (R243, R245): the swaths of a plane's swath row whose deadlines are reached. -/
def execSwathDeadline (job plane row : Nat) (s : State) : Host.Outcome State Fault Refusal :=
  s.run fun m =>
    let x := m.job job
    if m.isBacksight || !x.hasLines || !x.hasPlane plane || (x.rowLines row).isEmpty then m
    else
      (List.range (m.swathCount plane)).foldl (fun m idx => m.swathDue (swathKey job plane idx row)) m

/-- BLOCK_HORIZON_REACHED (R178): a block is unrepaired at its fire horizon. -/
def execBlockHorizonReached (job layer plane block : Nat) (s : State) : Host.Outcome State Fault Refusal :=
  s.run fun m =>
    let hit (q : BadBlock) : Bool :=
      q.job = job && q.layer = layer && q.plane = plane && q.block = block && !q.blank && !q.repaired &&
      chnAtOrAhead m.chainage q.horizon
    if m.isBacksight then m
    else match m.vgp.bad.find? hit with
    | none => m
    | some q =>
      let m := { m with vgp := { m.vgp with bad := m.vgp.bad.map (fun a => if a = q then { a with blank := true } else a) } }
      m.blockBlank q (match m.badStored q with | some b => b.lines * (m.job job).alongOf layer | none => 0)

/-! ### Parking (R249, R250) -/

/-- A park order names clusters 0 to 9, none twice (R249). -/
def parkOrderOk (v : Nat) : Bool :=
  (List.range 8).all (fun i => decide (parkNibble v i < 10) &&
    (List.range i).all (fun k => parkNibble v k ≠ parkNibble v i))

/-- A write of TRV_PARK_ORDER: an order that is not valid is discarded whole (R249). -/
def Mach.parkOrderWrite (m : Mach) (val : Nat) : Mach :=
  if m.glb.locked then m.countDiscard
  else if m.rwsOpen && parkOrderOk val then m.setFld Reg.TRV_PARK_ORDER.order val else m

/-- PARK_ORDER_WRITE (R249). -/
def execParkOrderWrite (val : Nat) (s : State) : Host.Outcome State Fault Refusal := s.run fun m => m.parkOrderWrite val

/-- Order every cluster to park or to run by the steps now asked. An engine ordered to park drops what it had
selected. -/
def Mach.parkUpdate (m : Mach) : Mach :=
  let host := min 8 (m.fld Reg.TRV_PARK_REQ.host_steps)
  let steps := max host (max m.trv.thermalSteps m.trv.supplySteps)
  let src := ofBool (host ≠ 0) + 2 * ofBool (m.trv.thermalSteps ≠ 0) + 4 * ofBool (m.trv.supplySteps ≠ 0) +
    8 * ofBool m.modeParks
  let m := { m with trv := { m.trv with steps := steps, src := src } }
  (List.range 80).foldl (fun m e =>
    let g := m.engine e
    if m.clusterRuns (e / 8) then
      if g.state = .parked then m.setEngine e { g with state := .waking, parking := false }
      else m.setEngine e { g with parking := false }
    else if g.state = .parked then m
    else
      let m := match g.next with
        | some k => m.setSwath k { m.swath k with claimed := none, waiting := false }
        | none => m
      let m := m.stallEnds e
      m.setEngine e { m.engine e with parking := true, next := none }) m

/-- PARK_STEP_CHANGE (R249). -/
def execParkStepChange (s : State) : Host.Outcome State Fault Refusal := s.run fun m => m.parkUpdate

/-- The engines of a cluster. -/
def clusterEngines (c : Nat) : List Nat := (List.range 8).map (fun i => 8 * c + i)

/-- CLUSTER_PARKED (R250): a cluster ordered to park whose engines hold no swath. -/
def execClusterParked (c : Nat) (s : State) : Host.Outcome State Fault Refusal :=
  s.run fun m =>
    if (clusterEngines c).all (fun e => (m.engine e).parking && (m.engine e).cur.isNone) then
      ((clusterEngines c).foldl (fun m e => m.setEngine e {}) m).updateCeiling
    else m

/-- CLUSTER_WOKEN (R250). -/
def execClusterWoken (c : Nat) (s : State) : Host.Outcome State Fault Refusal :=
  s.run fun m =>
    ((clusterEngines c).foldl (fun m e =>
      let g := m.engine e
      if g.state = .waking then m.setEngine e { g with state := .idle } else m) m).updateCeiling

end Sys2Proof.Machine
end

