-- ==== Sys2Proof/Machine/Fire.lean ====
section
/-! DEFINITION. The fire path (R257 to R290) with the thinning and the pulse-width limit of Fire Guard (R294 to R298):
fetching a line of a hub, its packets, the commit of its strobes, the hub-lines that do not fire, the downshift, the
consumables and the proof output. -/

namespace Sys2Proof.Machine

open Sys2Proof

/-! ### Lanes and hubs as the fire path needs them -/

/-- A lane. -/
def Mach.lane (m : Mach) (n : Nat) : Lane := Tab.get {} m.skx.lane n

/-- The lanes with one changed. -/
def Mach.setLane (m : Mach) (n : Nat) (x : Lane) : Mach :=
  { m with skx := { m.skx with lane := Tab.set {} m.skx.lane n x } }

/-- A lane is UP. -/
def Mach.laneUp (m : Mach) (n : Nat) : Bool := (m.lane n).state = .up

/-- The timing lane of a hub (R319). -/
def Mach.timingLane (m : Mach) (hub : Nat) : Nat :=
  let l0 := m.fld (Reg.SKX_HUB_CFG.lane0 hub)
  if m.flag (Reg.SKX_HUB_CFG.bonded hub) && !m.laneUp l0 then m.fld (Reg.SKX_HUB_CFG.lane1 hub) else l0

/-- A hub is used for firing (R325, R328). -/
def Hub.fires (x : Hub) : Bool := x.state = .up || x.state = .degraded

/-- L_H of a hub is above 4 000 ns (R269). -/
def Mach.hubSlow (m : Mach) (hub : Nat) : Bool :=
  decide (4000 * 16 < m.fld (Reg.FGD_HB_LAT.lane_lat hub) + m.fld (Reg.FGD_HB_LAT.hub_lat hub) * 16)

/-- A hub fires: its lanes are good, and its L_H is within 4 000 ns (R269, R325, R328). -/
def Mach.hubFires (m : Mach) (hub : Nat) : Bool := (m.hub hub).fires && !m.hubSlow hub

/-- L_H of a hub in 2^-16 DTM ticks (R269): lane_lat in 1/16 ns and hub_lat in ns. -/
def Mach.hubLead (m : Mach) (hub : Nat) : Nat :=
  m.fld (Reg.FGD_HB_LAT.lane_lat hub) * 2048 + m.fld (Reg.FGD_HB_LAT.hub_lat hub) * 32768

/-- The lanes on which a hub's packets and /F/ sets leave: every lane of its group that is UP (R319, R328).
DEDUCED (log entry 221). -/
def Mach.groupLanes (m : Mach) (hub : Nat) : List Nat := (m.hubLanes hub).filter m.laneUp

/-! ### Lines of a hub -/

/-- The entry of a line of a hub. -/
def Mach.fireLine (m : Mach) (k : Nat) : FireLine := Tab.get {} m.fgd.line k

/-- The lines with one changed. -/
def Mach.setFireLine (m : Mach) (k : Nat) (e : FireLine) : Mach :=
  { m with fgd := { m.fgd with line := Tab.set {} m.fgd.line k e } }

/-- A line of a hub stands in the fire path. -/
def Mach.hasFireLine (m : Mach) (k : Nat) : Bool := m.fgd.line.any (fun e => e.1 = k)

/-- The heads of a hub in a job's planes (R315). -/
def Mach.lineHeads (m : Mach) (x : Job) (hub : Nat) : List HeadRec :=
  (m.hubHeads hub).filter (fun h => x.hasPlane h.plane)

/-- The bit of a row in a row mask (R308). -/
def rowBit (h : HeadRec) (r : Nat) : Nat := 2 ^ (4 * h.slot + r)

/-- The rows of a line of a hub, with their heads. -/
def headRows (hs : List HeadRec) : List (HeadRec × Nat) :=
  hs.flatMap (fun h => (List.range h.rows.length).map (fun r => (h, r)))

/-- The mask of such rows. -/
def rowsMask (l : List (HeadRec × Nat)) : Nat := l.foldl (fun n hr => n ||| rowBit hr.1 hr.2) 0

/-- m_H: the smallest row offset of a hub's enabled heads (R264). -/
def Mach.hubFirst (m : Mach) (hub : Nat) : Nat := listMin (rowOffsets (m.hubHeads hub))

/-- The key of a job on a hub. -/
def jobHubKey (j hub : Nat) : Nat := hub * 8 + j

/-- The next line that a hub fetches of a job (R264). -/
def Mach.nextFetch (m : Mach) (j hub : Nat) : Nat :=
  max (Tab.get 0 m.fgd.next (jobHubKey j hub)) (m.job j).firstLine

/-- The same with the line after `n` next. -/
def Mach.fetched (m : Mach) (j hub n : Nat) : Mach :=
  { m with fgd := { m.fgd with next := Tab.set 0 m.fgd.next (jobHubKey j hub) (n + 1) } }

/-! ### Codes (R266) -/

/-- A remap entry of a head (R260). -/
def Mach.remapEntry (m : Mach) (head k : Nat) : Nat := Tab.get 0 m.fgd.remap (head * 4096 + k)

/-- The code of one nozzle from the tile in use, with whether a miss or CONTENT forced it to 0 (R245). -/
def Mach.tileCode (m : Mach) (s : Swath) (c : Chainage) (line u : Nat) : Nat × Bool × Bool :=
  let get (t : Option Tile) : Nat := match t with
    | some t => m.tileDot t line u
    | none => 0
  match s.decided with
  | .tile => (get s.tile, false, false)
  | .fallback =>
    if (covering c s.pend).any (fun p => p.content) then (0, false, true) else (get s.fallback, false, false)
  | _ => (0, true, false)

/-- A code through the downshift remap of its plane: a result above K is taken as K. -/
def Mach.downCode (m : Mach) (plane K c : Nat) : Nat :=
  if c = 0 then 0
  else min K (bitsOf (m.rd (Reg.FGD_P_DOWN_REMAP plane)) (3 * c - 1) (3 * c - 3))

/-- The codes above 0 of a drop depth. -/
def maxCode (depth : Nat) : Nat := if depth = 3 then 7 else 3

/-- The codes of a head's nozzles on a line through step 3 of R266, with whether a miss or CONTENT forced any to 0. -/
def Mach.headCodes (m : Mach) (j line : Nat) (h : HeadRec) : List Nat × Bool × Bool :=
  let x := m.job j
  let u0 := firstU (m.planeHeads h.plane) h.id
  let down := (m.downStart j line).isSome
  let one (k : Nat) : Nat × Bool × Bool :=
    let u := u0 + k
    let r := m.tileCode (m.swath (swathKey j h.plane (u / 256) (line / 64))) (x.lineChn line) line u
    let c := if bitAt (m.remapEntry h.id k) 13 then 0 else r.1
    (if down then m.downCode h.plane (maxCode x.depth) c else c, r.2)
  let all := (List.range h.noz).map one
  (all.map (fun r => r.1), all.any (fun r => r.2.1), all.any (fun r => r.2.2))

/-! ### Tiles that the fire path has read (R242) -/

/-- The swath indexes that hold a nozzle of a head. -/
def Mach.headSwaths (m : Mach) (h : HeadRec) : List Nat :=
  let u0 := firstU (m.planeHeads h.plane) h.id
  (List.range ((u0 + h.noz - 1) / 256 + 1 - u0 / 256)).map (fun i => u0 / 256 + i)

/-- A failed block dropped a dot of a head's line in the tiles in use (R178, R200). -/
def Mach.headDropped (m : Mach) (j line : Nat) (h : HeadRec) : Bool :=
  (m.headSwaths h).any (fun i =>
    let s := m.swath (swathKey j h.plane i (line / 64))
    let t := match s.decided with | .tile => s.tile | .fallback => s.fallback | _ => none
    t.any (fun t => t.drops.contains (line % 64)))

/-- Release the tiles of a swath row that every hub has read. -/
def Mach.releaseTiles (m : Mach) (j line : Nat) (hs : List HeadRec) : Mach :=
  let x := m.job j
  let row := line / 64
  if line ≠ x.lastOf row then m
  else
    let ks := hs.flatMap (fun h => (m.headSwaths h).map (fun i => swathKey j h.plane i row))
    ks.foldl (fun m k =>
      let s := m.swath k
      let all := (swathHeads (m.planeHeads (keyPlane k)) 0 (keyIdx k)).all
        (fun h => decide (line < Tab.get 0 m.fgd.next (jobHubKey j h.hub)))
      if s.decided ≠ .undecided && !s.released && all then
        m.setSwath k { s with tile := none, fallback := none, released := true }
      else m) m

/-! ### The proof output (R203, R204) -/

/-- The planes of a job's proof mask, ascending. -/
def Job.proofPlanes (x : Job) : List Nat :=
  (List.range 10).filter (fun p => bitAt (x.lfld Reg.CMP_PROOF_CFG.planes) p)

/-- The weight of a code. -/
def Job.proofWeight (x : Job) (c : Nat) : Nat :=
  if c = 0 then 0
  else if c ≤ 4 then bitsOf (x.latched Reg.CMP_PROOF_WT_LO) (8 * c - 1) (8 * c - 8)
  else bitsOf (x.latched Reg.CMP_PROOF_WT_HI) (8 * (c - 4) - 1) (8 * (c - 4) - 8)

/-- The hubs that hold a head of a plane that the job prints and its proof mask names. -/
def Mach.proofHubs (m : Mach) (x : Job) : List Nat :=
  (List.range 40).filter (fun h => (m.hubHeads h).any (fun r => x.hasPlane r.plane && x.proofPlanes.contains r.plane))

/-- Write a proof record to the ring (R204). A ring of no slot takes none. DEDUCED (log entries 25, 30). -/
def Mach.writeProof (m : Mach) (x : Job) (w : ProofRow) : Mach :=
  let depth := x.lfld Reg.CMP_PROOF_DEPTH.depth
  let rows := m.fld Reg.CMP_PROOF_ROWS.cnt
  if depth = 0 then
    (m.addSat Reg.CMP_PROOF_DROP.cnt 1).raiseRated Ev.proofDrop 0 .error 0 rows 1 (fun _ n => n)
  else
    let cells := x.lfld Reg.CMP_PROOF_CELLS.cells
    let body := (List.range cells).flatMap (fun c =>
      x.proofPlanes.flatMap (fun p => leBytes 2 (Tab.get 0 w.sums (16 * c + p))))
    let head := leBytes 6 (x.lineChn w.first).toNat ++ leBytes 1 (ofBool w.blanked + 2 * ofBool w.thinned) ++
      leBytes 1 0 ++ leBytes 4 w.first ++ leBytes 4 m.epo.counter.toNat ++ leBytes 4 (m.itemOfLine w.job w.first).toNat ++
      leBytes 2 cells ++ leBytes 2 (x.lfld Reg.CMP_PROOF_CFG.planes) ++ leBytes 4 (crc32c body).toNat ++ leBytes 4 rows
    let addr := m.fld Reg.DRM_MAP.cam_base * unit256M + x.lfld Reg.CMP_PROOF_BASE.base * 4096 + rows % depth * x.proofSlot
    let r : ProofRec := { addr := addr, size := x.proofSlot, span := (x.lfld Reg.CMP_PROOF_CFG.cell_y_m1 + 1) * x.pitch }
    let m : Mach := { m with cmp := { m.cmp with recs := r :: m.cmp.recs.filter (fun q =>
      decide (q.addr + q.size ≤ addr) || decide (addr + r.size ≤ q.addr)) } }
    ((m.dramWrite addr (head ++ body)).addWrap Reg.CMP_PROOF_ROWS.cnt 1).checked 20 1 0

/-- A hub-line has come to its end: the codes of the rows that fired go into its proof cell row, which is written once
its last line has fired on every row. `codes` is empty for a line that is skipped. -/
def Mach.proofLine (m : Mach) (j hub line : Nat) (e : FireLine) : Mach :=
  let x := m.job j
  let hubs := m.proofHubs x
  if x.lfld Reg.CMP_PROOF_CFG.en = 0 || !hubs.contains hub then m
  else
    let cy := x.lfld Reg.CMP_PROOF_CFG.cell_y_m1 + 1
    let cx := x.lfld Reg.CMP_PROOF_CFG.cell_x_m1 + 1
    let lo := x.lfld Reg.CMP_PROOF_FIRST.nozzle
    let first := line / cy * cy
    let w := (m.cmp.proof.find? (fun w => w.job = j && w.first = first)).getD { job := j, first := first }
    let hs := (m.lineHeads x hub).filter (fun h => x.proofPlanes.contains h.plane)
    let sums := hs.foldl (fun t h =>
      let cs := ((e.codes.find? (fun c => c.1 = h.id)).getD (h.id, [])).2
      (List.range h.noz).foldl (fun t k =>
        let c := cs.getD k 0
        let col := h.pos + k
        if c = 0 || !bitAt e.fired (4 * h.slot + m.remapEntry h.id k / 16384) || decide (col < lo) ||
            decide (x.lfld Reg.CMP_PROOF_CELLS.cells ≤ (col - lo) / cx) then t
        else Tab.upd 0 t (16 * ((col - lo) / cx) + h.plane) (fun v => min 65535 (v + x.proofWeight c))) t) w.sums
    let w := { w with
      sums := sums, thinned := w.thinned || e.thinned, done := w.done + 1
      blanked := w.blanked || e.cause.isSome || hs.any (fun h => e.dropped.contains h.id) }
    let lines := ((List.range cy).filter (fun i => x.prints (first + i))).length
    let rest := m.cmp.proof.filter (fun v => !(v.job = j && v.first = first))
    if w.done < lines * hubs.length then { m with cmp := { m.cmp with proof := rest ++ [w] } }
    else ({ m with cmp := { m.cmp with proof := rest } }).writeProof x w

/-! ### Fetching a line (R264) -/

/-- The swaths that a line of a hub reads. -/
def Mach.lineSwaths (m : Mach) (j line hub : Nat) : List Nat :=
  (m.lineHeads (m.job j) hub).flatMap (fun h => (m.headSwaths h).map (fun i => swathKey j h.plane i (line / 64)))

/-- The printed chainage has reached the fetch point of a line for a hub, and the deadline of every swath that the
line reads. -/
def Mach.fetchDue (m : Mach) (j line hub : Nat) : Bool :=
  let x := m.job j
  chnAtOrAhead m.chainage
    (x.lineChn line + BitVec.ofNat 48 (m.hubFirst hub) - BitVec.ofNat 48 x.lead) &&
  (m.lineSwaths j line hub).all m.reached

/-- A line of a job on a hub ahead of `line` in job-line order for which `p` holds. -/
def Mach.lineBefore (m : Mach) (j line hub : Nat) (p : FireLine → Bool) : Bool :=
  m.fgd.line.any (fun e => e.1 % 8 = j && e.1 / 8 % 64 = hub && decide (e.1 / 512 < line) && p e.2)

/-- A line waits to be sent: its fetch is not complete, or its LINE has not left (R264). -/
def FireLine.unsent (e : FireLine) : Bool := (e.stage = .fetching || e.stage = .queued) && e.cause ≠ some 7

/-- The last row of a line of a hub has been crossed. -/
def Mach.lineCrossed (m : Mach) (j line hub : Nat) : Bool :=
  let x := m.job j
  chnAtOrAhead m.chainage (x.lineChn line + BitVec.ofNat 48 (listMax (rowOffsets (m.lineHeads x hub))) + 1)

/-- Forget the lines of a job on a hub that are counted and crossed. -/
def Mach.tidyLines (m : Mach) (j hub : Nat) : Mach :=
  { m with fgd := { m.fgd with line := m.fgd.line.filter (fun e =>
      !(e.1 % 8 = j && e.1 / 8 % 64 = hub && e.2.counted && m.lineCrossed j (e.1 / 512) hub)) } }

/-- The next line of a job for a hub is skipped under a downshift: it is counted and not fetched (R282). -/
def Mach.skipLine (m : Mach) (j line hub : Nat) : Mach :=
  let x := m.job j
  let m := m.fetched j hub line
  let m := if (m.jobHubs x).headD 64 = hub then m.addSat Reg.FGD_DOWN_SKIPPED.cnt 1 else m
  (m.proofLine j hub line {}).releaseTiles j line (m.lineHeads x hub)

/-- FIRE_FETCH_START (R264, R266): the next line of a job for a hub is read from the tiles in use and remapped. A line
skipped under a downshift is counted and not fetched. -/
def execFireFetchStart (job line hub : Nat) (s : State) : Host.Outcome State Fault Refusal :=
  s.runMem fun m =>
    let x := m.job job
    if m.isBacksight || !x.hasLines || !(m.jobHubs x).contains hub || !x.prints line || line ≠ m.nextFetch job hub ||
       !m.fetchDue job line hub then m
    else
      let hs := m.lineHeads x hub
      let m := m.tidyLines job hub
      if m.lineSkipped job line then m.skipLine job line hub
      else
        let m := (m.lineSwaths job line hub).foldl (fun m k => m.swathDue k) (m.fetched job hub line)
        let all := hs.map (fun h => (h.id, m.headCodes job line h))
        let e : FireLine :=
          { codes := all.map (fun c => (c.1, c.2.1))
            missBlank := all.any (fun c => c.2.2.1)
            epochBlank := all.any (fun c => c.2.2.2)
            epoch := m.epo.counter
            dropped := (hs.filter (m.headDropped job line)).map HeadRec.id
            lanes := m.groupLanes hub
            cause := if m.hubFires hub then none else some 7 }
        (m.setFireLine (fireKey job line hub) e).releaseTiles job line hs

/-! ### Thinning and pulse widths (R274, R294 to R298) -/

/-- The drop volume of a code of a head type, U8.8 pL (R285). -/
def Mach.codeVolume (m : Mach) (t c : Nat) : Nat :=
  match c with
  | 0 => 0
  | 1 => m.fld (Reg.FGD_HT_VOL_A.c1 t)
  | 2 => m.fld (Reg.FGD_HT_VOL_A.c2 t)
  | 3 => m.fld (Reg.FGD_HT_VOL_B.c3 t)
  | 4 => m.fld (Reg.FGD_HT_VOL_B.c4 t)
  | 5 => m.fld (Reg.FGD_HT_VOL_C.c5 t)
  | 6 => m.fld (Reg.FGD_HT_VOL_C.c6 t)
  | _ => m.fld (Reg.FGD_HT_VOL_D.c7 t)

/-- The volume of a list of codes. -/
def Mach.codesVolume (m : Mach) (t : Nat) (cs : List Nat) : Nat := cs.foldl (fun n c => n + m.codeVolume t c) 0

/-- The codes of a list that are not 0. -/
def liveCodes (cs : List Nat) : Nat := (cs.filter (· ≠ 0)).length

/-- A head's live state. -/
def Mach.headState (m : Mach) (h : Nat) : Head := Tab.get {} m.fgd.head h

/-- The heads' live states with one changed. -/
def Mach.setHead (m : Mach) (h : Nat) (x : Head) : Mach :=
  { m with fgd := { m.fgd with head := Tab.set {} m.fgd.head h x } }

/-- Thin one head's codes on a line (R295, R296): the codes placed, and the dots that each rule zeroed. -/
def Mach.thinHead (m : Mach) (prior : List WinLine) (line : Nat) (h : HeadRec) (cs : List Nat) :
    List Nat × Nat × Nat :=
  let nozMax := min (m.fld Reg.FGD_G_NOZ.nozzle_max) (m.fld Reg.FGD_G_NOZ_CEIL.ceil)
  let volMax := min (m.fld (Reg.FGD_G_T_VOL.head_vol_max h.type)) (m.fld (Reg.FGD_G_T_VOL_CEIL.ceil h.type)) * 256000
  let count (k : Nat) : Nat := (prior.filter (fun w => w.fired.contains k)).length
  let a := (List.range cs.length).map (fun k =>
    let c := cs.getD k 0
    if c ≠ 0 ∧ nozMax < count k + 1 then 0 else c)
  let before := prior.foldl (fun n w => n + w.vol) 0
  let past (l : List Nat) : Bool := decide (volMax < before + m.codesVolume h.type l)
  let b := if past a then (List.range a.length).map (fun k => if (k + line) % 2 = 1 then 0 else a.getD k 0) else a
  let c := if past b then List.replicate b.length 0 else b
  (c, liveCodes cs - liveCodes a, liveCodes a - liveCodes c)

/-- A head's telemetry is stale: none, older than 100 ms, or marked invalid (R275). -/
def Mach.headStale (m : Mach) (h : Nat) : Bool :=
  let x := m.headState h
  match x.tlmTick with
  | none => true
  | some t => !x.tlmValid || decide (t + 50000000 < m.now)

/-- The band of a head in use (R275). -/
def Mach.headBand (m : Mach) (h type : Nat) : Nat :=
  if m.headStale h then m.fld (Reg.FGD_HT_BAND.def_band type)
  else (m.headState h).band.getD (m.fld (Reg.FGD_HT_BAND.def_band type))

/-- The pulse width that R274 yields for a code of a head, before it is limited; negative where it falls below 0. -/
def Mach.pulseWidth (m : Mach) (h : HeadRec) (c : Nat) : Int :=
  let t := h.type
  let base : Int := (Tab.get 0 m.fgd.wave ((t * 7 + (c - 1)) * 16 + m.headBand h.id t) : Nat)
  let dv : Int := if m.headStale h.id then 0
    else (m.fld (Reg.FGD_HT_VOLT.vnom t) : Nat) - ((m.headState h.id).vhead : Nat)
  base + (m.sfld (Reg.FGD_HT_VOLT.k t) * dv + 128000) / 256000

/-- The ceiling on pulse widths of a head type (R298). -/
def Mach.pulseMax (m : Mach) (t : Nat) : Nat :=
  min (m.fld (Reg.FGD_G_T_PW.pw_max t)) (m.fld (Reg.FGD_G_T_PW.pw_ceil t))

/-- A word of 16 bits cut into two bytes for each width, padded to 4 bytes. -/
def widthBytes (ws : List Nat) : List Byte :=
  let d := ws.flatMap (fun w => leBytes 2 w)
  d ++ List.replicate ((4 - d.length % 4) % 4) 0

/-- The LINE section of a head (R315). -/
def Mach.lineSection (m : Mach) (hub depth : Nat) (h : HeadRec) (cs : List Nat) : List Byte :=
  let len := (m.hub hub).rowLen h.slot
  let place := (List.range h.noz).foldl (fun l k =>
    let e := m.remapEntry h.id k
    if bitAt e 13 then l else l.set (e / 16384 * len + e % 4096) (cs.getD k 0)) (List.replicate (h.rows.length * len) 0)
  let w := if depth = 3 then 3 else 2
  leBytes (sectionBytes w h.rows.length len) (place.foldr (fun c n => c % 2 ^ w + 2 ^ w * n) 0)

/-- A line in the guard window of one at `c16` (R294): its line chainage lies in (c - 4 096 x P, c]. -/
def WinLine.within (w : WinLine) (j pitch c16 : Nat) : Bool :=
  w.job = j && decide (0 < diff64 c16 w.at16) && decide (diff64 c16 w.at16 < (4096 * pitch : Nat))

/-- One head of a line as it is formed: thinning, its widths, and what they raise; with the dots that each rule
zeroed. -/
def Mach.formHead (m : Mach) (j line K : Nat) (h : HeadRec) (e : FireLine) : Mach × FireLine × Nat × Nat :=
  let x := m.job j
  let cs := ((e.codes.find? (fun c => c.1 = h.id)).getD (h.id, [])).2
  let st := m.headState h.id
  let c16 := x.fire16 line 0
  let prior := st.window.filter (fun w => w.within j x.pitch c16)
  let r := m.thinHead prior line h cs
  let fired := (List.range r.1.length).filter (fun k => r.1.getD k 0 ≠ 0)
  let m := m.setHead h.id { st with
    window := st.window.filter (fun w => w.job ≠ j) ++ prior ++
      [{ job := j, at16 := c16, fired := fired, vol := m.codesVolume h.type r.1 }] }
  let raw := (List.range K).map (fun c => m.pulseWidth h (c + 1))
  let m := if raw.any (· < 0) then m.raise Ev.fireWave .error h.id 2 else m
  let top := m.pulseMax h.type
  let widest := listMax (raw.map Int.toNat)
  let m := if top < widest then
      m.raiseRated Ev.guardPulse 0 .warning h.type widest 1 (fun old new => if old.2 < new.2 then new else old)
    else m
  (m, { e with
    codes := e.codes.map (fun c => if c.1 = h.id then (c.1, r.1) else c)
    widths := e.widths ++ [(h.id, raw.map (fun w => min top w.toNat))]
    thinned := e.thinned || decide (0 < r.2.1 + r.2.2) }, r.2.1, r.2.2)

/-- The dots of one line of a hub that each rule zeroed (R297). -/
def Mach.countThin (m : Mach) (hub noz vol : Nat) : Mach :=
  let m := ((m.addSat (Reg.FGD_G_HB_THIN_NOZ.cnt hub) noz).addSat (Reg.FGD_G_HB_THIN_VOL.cnt hub) vol).addPair
    Reg.FGD_G_THIN_TOTAL_LO (noz + vol)
  (if noz + vol = 0 then m else m.stripHit hub).raiseRated Ev.guardThin hub .error
    (hub + 256 * ofBool (noz ≠ 0) + 512 * ofBool (vol ≠ 0)) 0 (noz + vol) joinBits

/-- A width of the line would have been cut (R298). -/
def Mach.lineClips (m : Mach) (hs : List HeadRec) (K : Nat) : Bool :=
  hs.any (fun h => (List.range K).any (fun c => decide ((m.pulseMax h.type : Nat) < (m.pulseWidth h (c + 1)).toNat)))

/-- The heads of a line in ascending slot order. -/
def slotOrder (hs : List HeadRec) : List HeadRec :=
  (List.range 10).flatMap (fun s => hs.filter (fun h => h.slot = s))

/-- The LINE and HDR payloads of a line (R314, R315). -/
def Mach.linePayload (m : Mach) (hub depth : Nat) (hs : List HeadRec) (e : FireLine) : List Byte :=
  (slotOrder hs).flatMap (fun h =>
    m.lineSection hub depth h ((e.codes.find? (fun c => c.1 = h.id)).getD (h.id, [])).2)
def hdrPayload (hs : List HeadRec) (e : FireLine) : List Byte :=
  (slotOrder hs).flatMap (fun h => widthBytes ((e.widths.find? (fun c => c.1 = h.id)).getD (h.id, [])).2)

/-- FIRE_FETCH_DONE (R264, R266, R274): the line's codes are thinned, its widths formed, and its HDR and LINE queued. -/
def execFireFetchDone (job line hub : Nat) (s : State) : Host.Outcome State Fault Refusal :=
  s.run fun m =>
    let k := fireKey job line hub
    let e := m.fireLine k
    if !m.hasFireLine k || e.stage ≠ .fetching || m.lineBefore job line hub (fun e => e.stage = .fetching) then m
    else
      let x := m.job job
      let hs := m.lineHeads x hub
      let K := maxCode x.depth
      let clips := m.lineClips hs K
      let r := (slotOrder hs).foldl (fun (r : Mach × FireLine × Nat × Nat) h =>
        let t := r.1.formHead job line K h r.2.1
        (t.1, t.2.1, r.2.2.1 + t.2.2.1, r.2.2.2 + t.2.2.2)) (m, e, 0, 0)
      let e := r.2.1
      let m := (r.1.countThin hub r.2.2.1 r.2.2.2).addSat (Reg.FGD_G_HB_PW_CLIP.cnt hub) (ofBool clips)
      m.setFireLine k { e with
        stage := .queued
        line := crc32c (m.linePayload hub x.depth hs e)
        hdr := crc32c (hdrPayload hs e) }

/-- Send the HDR and LINE packets of a line on the lanes of its hub that its fetch found (R314, R319, R328). -/
def Mach.sendLine (m : Mach) (j line hub : Nat) (e : FireLine) : Mach :=
  let x := m.job j
  let hs := m.lineHeads x hub
  let mask := hs.foldl (fun n h => n ||| 2 ^ h.slot) 0
  let tag := leBytes 2 line
  let K := maxCode x.depth
  let m := m.sendPacket e.lanes 2 (packet 2 (tag ++ leBytes 2 (mask + 4096 * K)) (hdrPayload hs e))
  let m := m.sendPacket e.lanes 1
    (packet 1 (tag ++ leBytes 2 (mask + 4096 * ofBool (x.depth = 3))) (m.linePayload hub x.depth hs e))
  m.checked (m.timingLane hub / 4) 2 0

/-- LINE_PACKET_SENT (R264): the LINE has left; its CRCs go to the partner (R411), and its ECHO is awaited. -/
def execLinePacketSent (job line hub : Nat) (s : State) : Host.Outcome State Fault Refusal :=
  s.run fun m =>
    let k := fireKey job line hub
    let e := m.fireLine k
    if !m.hasFireLine k || e.stage ≠ .queued || e.cause = some 7 || m.lineBefore job line hub FireLine.unsent then m
    else
      let m := m.sendLine job line hub e
      let m := m.setFireLine k { e with stage := .sent, sentAt := m.now }
      m.mirror false (.echoRef hub (line % 65536) e.line e.hdr)

/-! ### Prediction (R268, R269) -/

/-- The predicted instant of a chainage, in 2^-16 DTM ticks, from the advance over the last 512 ticks; none while the
debt is not 0. -/
def Mach.predict (m : Mach) (c16 : Nat) : Option Int :=
  if m.chn.lead < 0 then none else
  match m.fgd.ext with
  | [] => none
  | e :: r =>
    let n := min 512 r.length
    if n = 0 then none
    else
      let adv := diff64 e (r.getD (n - 1) 0)
      if adv ≤ 0 then none
      else some ((m.now * 65536 : Nat) + diff64 c16 e * (n : Nat) * 65536 / adv)

/-- A symbol's time at a lane's rate, in 1/20 of 2^-16 ticks (R306). -/
def symbolTime (rate : Nat) : Int := (if rate = 2 then 8 else if rate = 1 then 16 else 32) * 65536

/-- The symbol slot whose start lies nearest an instant, and the first that starts at or after it (R270). Slots are
numbered from DTM tick 0. DESIGN CHOICE (log entry 23). -/
def slotNear (rate : Nat) (t : Int) : Int := (20 * t + symbolTime rate / 2) / symbolTime rate
def slotFrom (rate : Nat) (t : Int) : Int := -((-(20 * t)) / symbolTime rate)

/-- The instant at which a symbol slot starts, in 2^-16 ticks. -/
def slotStart (rate : Nat) (k : Int) : Int := k * symbolTime rate / 20

/-! ### The commit of a strobe (R270, R271, R276, R277, R280) -/

/-- A lift group after BAR_LIFT up or down with a target (R84). DEDUCED (log entry 84). -/
def Lift.moved (x : Lift) (up : Bool) (t : Chainage) (settle : Nat) : Lift :=
  let lifted := x.up.isSome && x.ends.isNone
  if up then
    if lifted then x
    else match x.up, x.ends with
      | some u, some e => if chnAtOrAhead t e then { up := some t, ends := none } else { up := some u, ends := none }
      | _, _ => { up := some t, ends := none }
  else if lifted then { x with ends := some (t + BitVec.ofNat 48 settle) }
  else x

/-- A number's place in a list that rises by a key. -/
def insertBy {α : Type} (key : α → Int) (a : α) : List α → List α
  | [] => [a]
  | b :: r => if key b ≤ key a then b :: insertBy key a r else a :: b :: r

/-- The BAR_LIFT targets of ARMED slots for a group at or behind a chainage, up or down, the farthest behind first. -/
def Mach.liftsBy (m : Mach) (g : Nat) (c : Chainage) : List (Bool × Chainage) :=
  (m.stn.slot.filter (fun e => e.2.state = .armed && e.2.f.act % 16 = 9 && bitsOf e.2.f.act 15 8 = g &&
    chnAtOrAhead c e.2.target)).foldl
      (fun l e => insertBy (fun (p : Bool × Chainage) => chnDiff p.2 c) (bitAt e.2.f.arg 0, e.2.target) l) []

/-- A lift group as it stands once the printed chainage has come to a place: rows are committed before their slots
act. -/
def Mach.liftBy (m : Mach) (g : Nat) (c : Chainage) : Lift :=
  (m.liftsBy g c).foldl (fun (l : Lift) p => l.moved p.1 p.2 (m.fld (Reg.STN_LIFT_SETTLE.settle g)))
    (Tab.get {} m.stn.lift g)

/-- A row's fire chainage lies in an inhibit of a lift group of its plane (R84). -/
def Mach.liftInhibits (m : Mach) (plane : Nat) (c : Chainage) : Bool :=
  (List.range 4).any (fun g =>
    let l := m.liftBy g c
    bitAt (m.fld (Reg.STN_LIFT_PLANES.planes g)) plane &&
    (match l.up with
     | none => false
     | some u => chnAtOrAhead c u && (match l.ends with | none => true | some e => !chnAtOrAhead c e)))

/-- A swath of a head has come under CONTENT for a line since the line was fetched (R245).
DESIGN CHOICE (log entry 22). -/
def Mach.lateContent (m : Mach) (j line : Nat) (h : HeadRec) (e : FireLine) : Bool :=
  (m.headSwaths h).any (fun i =>
    let s := m.swath (swathKey j h.plane i (line / 64))
    s.decided = .fallback && (covering ((m.job j).lineChn line) s.pend).any (fun p => p.content && epochNewer p.epoch e.epoch))

/-- The payload rate of a lane in Mbit/s (R306). -/
def payloadRate (rate : Nat) : Nat := if rate = 2 then 9700 else if rate = 1 then 4850 else 2425

/-- g_H of a revert: the web travelled in 40 µs plus twice the time to send one HDR and LINE of the hub (R428). -/
def Mach.revertGap (m : Mach) (x : Job) (hub : Nat) : Nat :=
  let K := maxCode x.depth
  let bytes := m.hubLineBytes hub x.planes x.depth + (m.lineHeads x hub).length * (ceilDiv (2 * K) 4 * 4) + 28
  let r := payloadRate (m.lane (m.timingLane hub)).rate * max 1 (m.groupLanes hub).length
  m.fld Reg.CHN_SPEED_LINKS.links * (40 * r + 16 * bytes) / (r * m.chn.speedWindow)

/-- A module sends /F/ to a hub only while it holds it and holds the majority (R402), and in a revert only on its side
of the switch chainage (R428). -/
def Mach.hubHeld (m : Mach) (x : Job) (hub : Nat) (c : Chainage) : Bool :=
  (m.hub hub).held && m.ptn.majority &&
  m.ptn.switched.all (fun w => chnAtOrAhead c (w + BitVec.ofNat 48 (m.revertGap x hub))) &&
  (match (if m.ptn.state = .reverting then m.ptn.cSw else none) with
   | none => true
   | some w => if m.ptn.oldActive then !chnAtOrAhead c w else chnAtOrAhead c (w + BitVec.ofNat 48 (m.revertGap x hub)))

/-- The highest rate at which a head type's rows fire (R16, R280). -/
def Mach.rowRate (m : Mach) (type : Nat) : Nat :=
  min (min 160000 m.headLimit) (m.fld (Reg.FGD_HT_RATE.max_rate type))

/-- A row of a job fires on the partner's side of a revert: its fire chainage lies across the switch chainage from this
module, which neither fires nor counts it (R428). DEDUCED (log entry 235). -/
def Mach.rowTheirs (m : Mach) (c : Chainage) : Bool :=
  m.ptn.switched.any (fun w => !chnAtOrAhead c w) ||
  (m.ptn.state = .reverting && m.ptn.cSw.any (fun w => chnAtOrAhead c w = m.ptn.oldActive))

/-- The rows of a line that this module fires or counts. -/
def Mach.rowsOurs (m : Mach) (x : Job) (line : Nat) (l : List (HeadRec × Nat)) : List (HeadRec × Nat) :=
  l.filter (fun hr => !m.rowTheirs (x.lineChn line + BitVec.ofNat 48 (hr.1.rows.getD hr.2 0)))

/-- The first cause of R277 for which a row-line does not fire, by its order; none where it fires. -/
def Mach.rowCause (m : Mach) (j line hub : Nat) (h : HeadRec) (r : Nat) (e : FireLine) (at16 : Option Int)
    (crossed : Bool) : Option Nat :=
  let x := m.job j
  let off := h.rows.getD r 0
  let slow : Bool := match at16, Tab.get none m.fgd.lastPred (h.id * 4 + r) with
    | some t, some p => decide ((t - p) * 2 * (m.rowRate h.type : Nat) < 65536000000000)
    | _, _ => false
  if m.chn.vote = .lost || m.inMode .halt then some 1
  else if !m.glb.mode.printing then some 2
  else if m.hst.stopped || (!m.fgd.headPwr && bitAt m.pwrOff 1) then some 3
  else if !m.fgd.headPwr then some 2
  else if m.chn.hold then some 5
  else if m.liftInhibits h.plane (x.lineChn line + BitVec.ofNat 48 off) || bitAt m.mot.planes h.plane then some 6
  else if e.cause = some 7 || m.skx.silent || m.hubSlow hub ||
      !m.hubHeld x hub (x.lineChn line + BitVec.ofNat 48 off) then some 7
  else if m.chn.speedLimit || slow then some 8
  else if m.lateContent j line h e then some 9
  else if crossed || e.stage = .late then some 11
  else none

/-- The lesser of two orders of causes. -/
def firstCause (a b : Option Nat) : Option Nat :=
  match a, b with
  | none, c => c
  | c, none => c
  | some c, some d => some (min c d)

/-- What a row's codes add to the consumables (R285). -/
def Mach.consume (m : Mach) (h : HeadRec) (r : Nat) (e : FireLine) : Mach :=
  let cs := ((e.codes.find? (fun c => c.1 = h.id)).getD (h.id, [])).2
  let mine := ((List.range h.noz).filter (fun k => m.remapEntry h.id k / 16384 = r && !bitAt (m.remapEntry h.id k) 13)).map
    (fun k => cs.getD k 0)
  let n := liveCodes mine
  let v := m.codesVolume h.type mine
  let st := m.headState h.id
  let m := m.setHead h.id { st with sinceAct := st.sinceAct + n, sinceVol := st.sinceVol + v }
  ((m.addPairSat (Reg.FGD_HD_ACT_LO h.id) n).addPairSat (Reg.FGD_HD_VOL_LO h.id) v).addPairSat (Reg.FGD_P_VOL_LO h.plane) v

/-- A hub-line whose every row is settled: it is counted under its first cause, and reported (R277, R279, R280). -/
def Mach.finishLine (m : Mach) (j line hub : Nat) (e : FireLine) : Mach :=
  let cause := firstCause e.cause
    (if e.fired = 0 then none else if e.epochBlank then some 9 else if e.missBlank then some 10 else none)
  let e := { e with cause := cause, counted := true }
  let m := m.setFireLine (fireKey j line hub) e
  let m := match cause with
    | none => m
    | some o =>
      let m := m.countBlank hub (causeValue o) 1
      if o = 8 then
        m.raiseRated Ev.fireOverspeed 0 .error (e.fast.getD 0) 0 1
      else if o = 10 ∨ o = 11 then
        m.raiseRated Ev.fireLateBlank hub .error (hub + 256 * ofBool (o = 10)) 0 1 joinBits
      else m
  m.proofLine j hub line e

/-- A line that a hub did not fetch before a row of it came due is late (R267). -/
def Mach.ensureLine (m : Mach) (j line hub : Nat) : Mach :=
  let k := fireKey j line hub
  if m.hasFireLine k || line ≠ m.nextFetch j hub then m
  else if m.lineSkipped j line then m.skipLine j line hub
  else
    let hs := m.lineHeads (m.job j) hub
    let ours := !(m.rowsOurs (m.job j) line (headRows hs)).isEmpty
    let e : FireLine := { stage := .late, cause := if !ours then none else if m.hubFires hub then some 11 else some 7 }
    ((m.fetched j hub line).setFireLine k e).releaseTiles j line hs

/-- A row of a line as the scheduler sees it: its predicted instant, and whether its fire chainage is crossed. -/
abbrev RowSight := (HeadRec × Nat) × Option Int × Bool

/-- What the scheduler sees of a row. -/
def Mach.sight (m : Mach) (x : Job) (line : Nat) (hr : HeadRec × Nat) : RowSight :=
  let c16 := x.fire16 line (hr.1.rows.getD hr.2 0)
  (hr, m.predict c16, decide (diff64 c16 m.ext16 ≤ 0))

/-- The L_H that times a line's /F/ sets on a hub: an update of lane_lat takes effect from the next line (R323).
DEDUCED (log entry 222). -/
def Mach.lineLead (m : Mach) (hub : Nat) (e : FireLine) : Nat := e.lead.getD (m.hubLead hub)

/-- The symbol slot that a row's /F/ is to leave in on a hub for a given L_H (R270). -/
def Mach.rowSlot (m : Mach) (hub lead : Nat) (d : RowSight) : Int :=
  slotNear (m.lane (m.timingLane hub)).rate (d.2.1.getD (m.now * 65536 : Nat) - (lead : Nat))

/-- A row's commit instant has come for a given L_H, and its slot has not passed (R270).
DESIGN CHOICE (log entry 200). -/
def Mach.commitDue (m : Mach) (lead : Nat) (d : RowSight) : Bool :=
  match d.2.1 with
  | none => false
  | some t =>
    let slot := t - (lead : Nat)
    !d.2.2 && decide (slot - 1310720 < ((m.now + 1) * 65536 : Nat)) && decide ((m.now * 65536 : Nat) ≤ slot)

/-- Send the /F/ of the rows of a line that share a symbol slot, on every lane of the hub that is UP (R271, R319): a
set of another line that would overlap the last moves to the first slot after it. -/
def Mach.sendFire (m : Mach) (x : Job) (line hub : Nat) (e : FireLine) (want : Int) (rows : List RowSight) : Mach :=
  let lane := m.timingLane hub
  let rate := (m.lane lane).rate
  let last : Int := match Tab.get none m.fgd.lastSet hub with
    | some (n, t) => if n ≠ line then slotFrom rate t else want
    | none => want
  let slot := max want last
  let m := m.addSat (Reg.FGD_HB_COLLIDE.cnt hub) (ofBool (slot ≠ want))
  let set := checkedSet (leBytes 5 (rowsMask (rows.map (fun d => d.1))) ++ leBytes 2 line)
  let m := (m.groupLanes hub).foldl (fun (m : Mach) n => m.emit (.laneSymbols n kF set)) m
  let off := match rows with | d :: _ => d.1.1.rows.getD d.1.2 0 | [] => 0
  let m : Mach := { m with fgd := { m.fgd with
    lastSet := Tab.set none m.fgd.lastSet hub (some (line, slotStart rate (slot + 9)))
    placed := m.fgd.placed ++
      [{ c16 := x.fire16 line off, at16 := slotStart rate slot + (m.lineLead hub e : Nat), rate := rate }] } }
  let m := match m.ptn.lossTick with
    | some t => ({ m with ptn := { m.ptn with lossTick := none } } : Mach).setFld Reg.PTN_TAKEOVER_US.us ((m.now - t) / 500)
    | none => m
  rows.foldl (fun m d => m.consume d.1.1 d.1.2 e) m

/-- The distinct symbol slots of some rows, ascending. -/
def Mach.rowSlots (m : Mach) (hub lead : Nat) (rows : List RowSight) : List Int :=
  rows.foldl (fun l d => if l.contains (m.rowSlot hub lead d) then l else insertBy id (m.rowSlot hub lead d) l) []

/-- A line whose LINE has not left by the commit of its first /F/ is late, and one in progress is ended with /V/
(R267). -/
def Mach.lineLate (m : Mach) (j line hub : Nat) : Mach :=
  let e := m.fireLine (fireKey j line hub)
  if e.stage = .sent || e.stage = .late then m
  else
    let going := e.stage = .queued && e.cause ≠ some 7 && !m.lineBefore j line hub FireLine.unsent
    let m := if going then m.cutPacket e.lanes else m
    m.setFireLine (fireKey j line hub) { e with stage := .late, cause := firstCause e.cause (some 11) }

/-- Settle rows of a line of a hub: those for which a cause of R277 holds do not fire, and the others fire. -/
def Mach.commitRows (m : Mach) (j line hub : Nat) (due : List RowSight) : Mach :=
  let x := m.job j
  let ours := due.filter (fun d => !(m.rowsOurs x line [d.1]).isEmpty)
  let m := if ours.isEmpty then m else m.lineLate j line hub
  let e := m.fireLine (fireKey j line hub)
  let judged := ours.map (fun d => (d, m.rowCause j line hub d.1.1 d.1.2 e d.2.1 d.2.2))
  let m := due.foldl (fun m d =>
    match d.2.1 with
    | some t => { m with fgd := { m.fgd with
        lastPred := Tab.set none m.fgd.lastPred (d.1.1.id * 4 + d.1.2) (some t) } }
    | none => m) m
  let go := (judged.filter (fun d => d.2.isNone)).map (fun d => d.1)
  let e := { e with
    lead := some (m.lineLead hub e)
    rows := e.rows ||| rowsMask (due.map (fun d => d.1)), fired := e.fired ||| rowsMask (go.map (fun d => d.1))
    cause := judged.foldl (fun c d => firstCause c d.2) e.cause
    fast := match e.fast with
      | some t => some t
      | none => (judged.find? (fun d => d.2 = some 8)).map (fun d => d.1.1.1.type) }
  let m := m.setFireLine (fireKey j line hub) e
  let lead := m.lineLead hub e
  let m := (m.rowSlots hub lead go).foldl (fun (a : Mach) k =>
    a.sendFire x line hub e k (go.filter (fun d => m.rowSlot hub lead d = k))) m
  if e.rows = rowsMask (headRows (m.lineHeads x hub)) then m.finishLine j line hub e else m

/-- Settle rows of a line of a hub, which is late where the hub has not fetched it (R267). -/
def Mach.settleRows (m : Mach) (j line hub : Nat) (due : List RowSight) : Mach :=
  if due.isEmpty then m
  else
    let m := m.ensureLine j line hub
    if !m.hasFireLine (fireKey j line hub) || (m.fireLine (fireKey j line hub)).counted then m
    else m.commitRows j line hub due

/-- The rows of a line of a hub that are not settled. -/
def Mach.openRows (m : Mach) (j line hub : Nat) : List RowSight :=
  let x := m.job j
  let e := m.fireLine (fireKey j line hub)
  ((headRows (m.lineHeads x hub)).filter (fun hr => !bitAt e.rows (4 * hr.1.slot + hr.2))).map (m.sight x line)

/-- A module that becomes active, or joins a revert, takes up the lines of every job where they stand: each hub fetches from
the first line of which it has crossed no row, and a line that it has begun to cross fires no more here; the rows crossed
were the other module's (R421, R428). DEDUCED (log entry 236). -/
def Mach.takeLines (m : Mach) : Mach :=
  let m : Mach := { m with fgd := { m.fgd with line := [] } }
  m.lineJobs.foldl (fun (m : Mach) j =>
    let x := m.job j
    (m.jobHubs x).foldl (fun (m : Mach) h =>
      let hs := m.lineHeads x h
      let lo := x.crossedTo m.chainage (listMax (rowOffsets hs))
      let hi := x.crossedTo m.chainage (listMin (rowOffsets hs))
      let m := { m with fgd := { m.fgd with next := Tab.set 0 m.fgd.next (jobHubKey j h) hi } }
      forRange (hi - lo) (fun i (m : Mach) =>
        if m.lineSkipped j (lo + i) then m
        else m.setFireLine (fireKey j (lo + i) h) {
          stage := .late
          rows := rowsMask ((headRows hs).filter (fun hr => (m.sight x (lo + i) hr).2.2)) }) m) m) m

/-- FIRE_COMMIT (R267, R270, R271, R277, R280): the named rows of a line whose commit instant has come, 40 ns before
t_p - L_H, with every row of the line in the same symbol slot, and those whose fire chainage is crossed. -/
def execFireCommit (job line hub rows : Nat) (s : State) : Host.Outcome State Fault Refusal :=
  s.runMem fun m =>
    let x := m.job job
    if m.isBacksight || !x.hasLines || !x.prints line || !(m.jobHubs x).contains hub then m
    else
      let all := m.openRows job line hub
      let named (d : RowSight) : Bool := bitAt rows (4 * d.1.1.slot + d.1.2)
      let lead := m.lineLead hub (m.fireLine (fireKey job line hub))
      let slots := m.rowSlots hub lead (all.filter (fun d => named d && m.commitDue lead d))
      m.settleRows job line hub (all.filter (fun d =>
        named d && d.2.2 || m.commitDue lead d && slots.contains (m.rowSlot hub lead d)))

/-- The rows that the printed chainage has crossed are settled on every hub of every job (R270, R277): a row not fired
by then does not fire. -/
def Mach.settleCrossed (m : Mach) : Mach :=
  if m.isBacksight then m
  else m.lineJobs.foldl (fun m j =>
    let x := m.job j
    (m.jobHubs x).foldl (fun m h =>
      let stop := x.crossedTo m.chainage (listMin (rowOffsets (m.lineHeads x h)))
      let open_ := (m.fgd.line.filter (fun e =>
        e.1 % 8 = j && e.1 / 8 % 64 = h && !e.2.counted && decide (e.1 / 512 < stop))).map (fun e => e.1 / 512)
      let first := m.nextFetch j h
      (open_ ++ (List.range (stop - first)).map (fun i => first + i)).foldl (fun m n =>
        m.settleRows j n h ((m.openRows j n h).filter (fun d => d.2.2))) m) m) m

/-! ### Placement (R273) -/

/-- The land total of R272 by rate, in fifths of a DTM tick: 2.0, 2.4 and 3.2 ns. -/
def placeBudget (rate : Nat) : Nat := if rate = 2 then 5 else if rate = 1 then 6 else 8

/-- The errors of the last second with more of the present tick: those that a later one exceeds are let go (R273). -/
def placeWorst (now : Nat) (old : List (Nat × Nat)) (new : Option Nat) : List (Nat × Nat) :=
  let kept := old.filter (fun e => decide (now < e.1 + 500000000))
  match new with
  | none => kept
  | some d => kept.filter (fun e => decide (d < e.2)) ++ [(now, d)]

/-- The placement errors, in 2^-16 ticks with their rates, of the strobes that have left and whose fire chainage was
crossed between the last tick and this one. -/
def Mach.placeErrors (m : Mach) : List (Nat × Nat) :=
  match m.fgd.ext with
  | e :: b :: _ =>
    let adv := diff64 e b
    (m.fgd.placed.filter (fun p => decide (diff64 p.c16 e ≤ 0))).map (fun p =>
      let at_ : Int := if adv ≤ 0 then (m.now * 65536 : Nat)
        else ((m.now - 1) * 65536 : Nat) + diff64 p.c16 b * 65536 / adv
      (p.rate, (p.at16 - at_).natAbs))
  | _ => []

/-- Compare each strobe that has left with the instant its fire chainage was crossed, once it is (R273). -/
def Mach.placeCheck (m : Mach) : Mach :=
  let errs := m.placeErrors
  let worst := placeWorst m.now m.fgd.placeErr (if errs.isEmpty then none else some (listMax (errs.map (fun e => e.2))))
  let keep (p : Placed) : Bool := match m.fgd.ext with
    | e :: _ :: _ => !decide (diff64 p.c16 e ≤ 0)
    | _ => true
  let m : Mach := { m with fgd := { m.fgd with placed := m.fgd.placed.filter keep, placeErr := worst } }
  let m := m.setFld Reg.FGD_PLACE_MAX.err (min 65535 (listMax (worst.map (fun e => e.2)) * 32 / 65536))
  let past := (errs.filter (fun e => decide (65536 * placeBudget e.1 < 5 * e.2))).length
  let m := m.addSat Reg.FGD_PLACE_OVER.cnt past
  m.raiseRated Ev.firePlacement 0 .warning (m.fld Reg.FGD_PLACE_MAX.err) (m.fld Reg.FGD_PLACE_OVER.cnt) past
    (fun _ n => n)

/-! ### Rate and downshift (R281 to R284) -/

/-- The job that has a line at a chainage: the last line that the chainage has reached is one of its own. -/
def Mach.jobAt (m : Mach) (c : Chainage) : Option Nat :=
  m.lineJobs.find? (fun j => (m.job j).onWeb c)

/-- The first lines of the slots of a job's layer that station flips open, as far as they are known: of the slots
bound, and of the flips of ARMED stations (R198, R282). DEDUCED (log entry 201). -/
def Mach.flipStarts (m : Mach) (j n : Nat) : List Nat :=
  let x := m.job j
  ((m.layer n).slots.filter (fun s => s.job = j)).map (fun s => s.first) ++
  (m.stn.slot.filter (fun e => e.2.state = .armed && e.2.f.act % 16 = 4 && bitsOf e.2.f.act 15 8 = n)).map
    (fun e => x.lineAt (x.flipStart n e.2.target))

/-- The first boundary at or beyond a distance ahead of the printed chainage: its job and line (R282). None is known
while the layer of R197 takes station flips and the next is not named. -/
def Mach.boundaryBy (m : Mach) (item : Bool) (ahead : Job → Nat) : Option (Nat × Nat) :=
  match m.lineJobs.find? (fun j =>
      let x := m.job j
      x.prints (max x.firstLine (x.lineAt (m.chainage + BitVec.ofNat 48 (ahead x))))) with
  | none => none
  | some j =>
    let x := m.job j
    let n := max x.firstLine (x.lineAt (m.chainage + BitVec.ofNat 48 (ahead x)))
    let up (off step : Nat) : Nat := off + ceilDiv (n - off) step * step
    let rep := up 0 (if x.streamed then 64 else max 1 x.repeatLen)
    match (if item then x.namedLayer else none) with
    | none => some (j, rep)
    | some l =>
      if x.pitchLayer l then some (j, up (x.latched (Reg.CMP_L_ITEM_OFFSET l)) (x.latched (Reg.CMP_L_ITEM_PITCH l)))
      else if x.lfld (layerBoundary l) = 1 then
        match (m.flipStarts j l).filter (fun s => decide (n ≤ s)) with
        | [] => none
        | s => some (j, listMin s)
      else some (j, rep)

/-- The first boundary more than F ahead of the printed chainage (R282). -/
def Mach.boundary (m : Mach) (item : Bool) : Option (Nat × Nat) := m.boundaryBy item (fun x => x.lead + 1)

/-- The boundary that an armed downshift or return waits for, once it is known. -/
def Mach.nextShift (m : Mach) : Option Shift := m.fgd.shifts.head?.filter (fun s => s.down ≠ m.fgd.downActive)

/-- A downshift or return that is armed takes its boundary once that is known (R282, R283). -/
def Mach.seekBoundary (m : Mach) : Mach :=
  if !m.fgd.downPending || m.nextShift.isSome then m
  else match m.boundary (m.flag Reg.FGD_CFG.down_boundary) with
    | none => m
    | some (j, n) => { m with fgd := { m.fgd with
        shifts := { job := j, line := n, chn := (m.job j).lineChn n, down := !m.fgd.downActive } :: m.fgd.shifts } }

/-- Arm a downshift, or the return from one. -/
def Mach.armShift (m : Mach) : Mach := ({ m with fgd := { m.fgd with downPending := true } } : Mach).seekBoundary

/-- The boundaries that every row has passed are let go but for the last, which stays within the range of R31. -/
def Mach.tidyShifts (m : Mach) : Mach :=
  let c := m.chn.printed
  match m.fgd.shifts with
  | [] => m
  | s :: r => { m with fgd := { m.fgd with
      shifts := (if chnDiff c s.chn < 2 ^ 46 then s else { s with chn := c - BitVec.ofNat 48 (2 ^ 45) }) ::
        r.filter (fun s => decide (chnDiff c s.chn < 2 ^ 40)) } }

/-- A new chainage is set up: the last boundary reached lies at it, and one still waited for is sought anew. -/
def Mach.resetShifts (m : Mach) (c : Chainage) : Mach :=
  { m with fgd := { m.fgd with
      shifts := ((m.fgd.shifts.filter (fun s => s.down = m.fgd.downActive)).take 1).map (fun s => { s with chn := c }) } }

/-- Clearing down_en while downshifted returns to full rate at the next boundary (R283). -/
def Mach.downCleared (m : Mach) : Mach :=
  if m.fgd.downActive && !m.fgd.downPending && !m.flag Reg.FGD_CFG.down_en then m.armShift else m

/-- FGD_RATE at the end of a speed window (R281). -/
def Mach.rateNow (m : Mach) : Nat :=
  let p := match (m.lineJobs.map m.job).find? (fun x => x.state = .printing) with
    | some x => x.pitch
    | none => m.pitchNow
  if p = 0 then 0 else m.fld Reg.CHN_SPEED_LINKS.links * 1000000 * 65536 / (m.chn.speedWindow * p)

/-- The rates at the end of a speed window: FGD_RATE, the warning, and what arms a downshift or a return (R281 to R283).
DEDUCED (log entry 122). -/
def Mach.rateWindow (m : Mach) : Mach :=
  let m := m.tidyShifts
  let rate := m.rateNow
  let limit := m.headLimit
  let m := m.setFld Reg.FGD_RATE.rate (min rate (2 ^ 20 - 1))
  let fired2 := if m.fgd.downActive then rate else 2 * rate
  let m := if !m.fgd.warn && limit ≠ 0 && decide (190 * limit ≤ 100 * fired2) then
      ({ m with fgd := { m.fgd with warn := true } }).raise Ev.fireOverspeedWarn .warning (min rate (2 ^ 20 - 1)) limit
    else if m.fgd.warn && decide (100 * fired2 < 180 * limit) then { m with fgd := { m.fgd with warn := false } }
    else m
  let quiet := if m.fgd.downActive && decide (100 * rate ≤ 85 * limit) then m.fgd.quietWindows + 1 else 0
  let m := { m with fgd := { m.fgd with quietWindows := quiet } }
  if m.fgd.downPending then m
  else if m.fgd.downActive then (if decide (10 ≤ quiet) || !m.flag Reg.FGD_CFG.down_en then m.armShift else m)
  else if m.fgd.warn && m.flag Reg.FGD_CFG.down_en then m.armShift
  else m

/-- DOWNSHIFT_BOUNDARY (R282, R283): the printed chainage reaches the pending boundary, or its job has ended. -/
def execDownshiftBoundary (s : State) : Host.Outcome State Fault Refusal :=
  s.run fun m =>
    match m.nextShift with
    | none => m
    | some b =>
      let gone := !(m.job b.job).hasLines
      if !m.fgd.downPending || (!gone && !chnAtOrAhead m.chainage b.chn) then m
      else
        let m := { m with fgd := { m.fgd with
          downPending := false, downActive := b.down, quietWindows := 0
          shifts := (if gone then { b with chn := m.chainage } else b) :: m.fgd.shifts.tail } }
        (m.raise Ev.fireDownshift .info (ofBool b.down) (b.line % 2 ^ 32)).updateCeiling

/-! ### Telemetry (R275) -/

/-- The band of a temperature in 1/16 °C for a head type, from scratch. -/
def Mach.bandOf (m : Mach) (type : Nat) (t : Int) : Nat :=
  (clampInt 0 15 ((t - m.sfld (Reg.FGD_HT_BAND.band_base type) * 16) / 64)).toNat

/-- The band with its hysteresis of 0.5 °C. -/
def Mach.bandFrom (m : Mach) (type old : Nat) (t : Int) : Nat :=
  let lo := m.sfld (Reg.FGD_HT_BAND.band_base type) * 16 + 64 * (old : Nat)
  if t < lo - 8 || lo + 64 + 8 < t then m.bandOf type t else old

/-- FGD_HD<h>_TLM with the band in use. -/
def Mach.showTlm (m : Mach) (h type : Nat) : Mach :=
  let x := m.headState h
  m.wr (Reg.FGD_HD_TLM h) (m.headBand h type * 2 ^ 28 + unsigned 12 x.temp * 65536 + x.vhead % 65536)

/-- A TLM packet's word on one head (R275, R316). -/
def Mach.headTlm (m : Mach) (h : HeadRec) (t : SlotTlm) : Mach :=
  let x := m.headState h.id
  let fresh := m.headStale h.id
  let x := { x with
    tlmTick := some m.now, tlmValid := t.valid, temp := t.temp, vhead := t.vhead
    band := if !t.valid then x.band
            else match x.band with
              | none => some (m.bandOf h.type t.temp)
              | some b => if fresh then some (m.bandOf h.type t.temp) else some (m.bandFrom h.type b t.temp)
    staleRaised := x.staleRaised && !t.valid }
  (m.setHead h.id x).showTlm h.id h.type

/-- TLM_STALE (R275): the head's telemetry is stale, and the event is raised once per excursion. -/
def execTlmStale (head : Nat) (s : State) : Host.Outcome State Fault Refusal :=
  s.run fun m =>
    let x := m.headState head
    if !m.headEn head || !m.headStale head || x.staleRaised then m
    else
      let m := (m.setHead head { x with staleRaised := true }).raise Ev.fireWave .warning head 1
      m.showTlm head (m.headRec head).type

/-! ### Usage records (R286 to R288) -/

/-- The fields of a usage record before its HMAC (R287). -/
def Mach.usageBody (m : Mach) (h seq : Nat) : List Byte :=
  leBytes 2 0x51C3 ++ leBytes 1 1 ++ leBytes 1 0 ++ leBytes 4 seq ++ leBytes 8 m.otp.deviceId.toNat ++
  leBytes 8 (m.pair (Reg.FGD_HD_SER_LO h)) ++ leBytes 8 (m.pair (Reg.FGD_HD_ACT_LO h)) ++
  leBytes 8 (m.pair (Reg.FGD_HD_VOL_LO h)) ++ leBytes 8 m.time.toNat ++ leBytes 6 m.chainage.toNat ++ leBytes 2 0 ++
  leBytes 8 (m.time + m.dtm.epoch).toNat

/-- The usage key in slot 0. -/
def Mach.usageKey (m : Mach) : List Byte := Tab.get [] m.nand.keys 0

/-- Send a CTRL request to a hub for a head slot, to be answered (R314). -/
def Mach.ctrlSend (m : Mach) (hub lane slot op space len : Nat) (use : CtrlUse) (addr : Nat) (data : List Byte) : Mach :=
  let x := m.hub hub
  let id := x.nextReq % 256
  let mid := leBytes 1 id ++ leBytes 1 op ++ leBytes 1 space ++ leBytes 1 slot
  let pad := data ++ List.replicate ((4 - data.length % 4) % 4) 0
  let m := m.sendPacket (if m.laneUp lane then m.groupLanes hub else [lane]) 3
    (packet 3 mid (leBytes 4 addr ++ leBytes 2 len ++ leBytes 2 0 ++ pad))
  m.setHub hub { x with nextReq := x.nextReq + 1, reqs := x.reqs ++ [{ id := id, use := use, lane := lane, slot := slot }] }

/-- Write a usage record to a head's memory where its lane is UP; with the id of the request. -/
def Mach.usageSend (m : Mach) (h : HeadRec) (rec_ : List Byte) : Mach × List Nat :=
  if m.laneUp (m.timingLane h.hub) then
    (m.ctrlSend h.hub (m.timingLane h.hub) h.slot 2 1 96 .usageWrite Config.usageAddress rec_,
     [(m.hub h.hub).nextReq % 256])
  else (m, [])

/-- A periodic usage record is due: every period_s seconds, 0 taken as 1. -/
def Mach.usagePeriod (m : Mach) : Bool :=
  decide (m.fgd.usageTick + max 1 (m.fld Reg.FGD_USAGE_CFG.period_s) * 500000000 ≤ m.now)

/-- One usage record for a head, sent where its lane is UP and pending until it is acknowledged. -/
def Mach.usageOne (m : Mach) (h : HeadRec) : Mach :=
  let seq := (m.fld (Reg.FGD_HD_USEQ.seq h.id) + 1) % 2 ^ 32
  let body := m.usageBody h.id seq
  let rec_ := body ++ hmac m.usageKey body
  let r := (m.setFld (Reg.FGD_HD_USEQ.seq h.id) seq).usageSend h rec_
  let x := r.1.headState h.id
  r.1.setHead h.id { x with usagePend := x.usagePend ++ [{ data := rec_, tick := m.now, ids := r.2 }] }

/-- USAGE_RECORD_WRITE (R288): where one is due, by the period or for a stop or a JOB_END, a record for each head, or
EV_FIRE_USAGE once with no key. DEDUCED (log entry 202). -/
def execUsageRecordWrite (s : State) : Host.Outcome State Fault Refusal :=
  s.run fun m =>
    if !m.flag Reg.FGD_USAGE_CFG.en || m.isBacksight || (m.fgd.usageOwed = 0 && !m.usagePeriod) then m
    else
      let m : Mach := { m with fgd := { m.fgd with
        usageOwed := m.fgd.usageOwed - 1, usageTick := if m.fgd.usageOwed = 0 then m.now else m.fgd.usageTick } }
      if m.usageKey.isEmpty then
        let m := m.setFld Reg.FGD_USAGE_STATUS.no_key 1
        if m.fgd.noKeyRaised then m
        else ({ m with fgd := { m.fgd with noKeyRaised := true } }).raise Ev.fireUsage .warning 0xFFFF 2
      else m.heads.foldl Mach.usageOne m

/-- USAGE_WRITE_RETRY (R288): 10 ms after a write that is not acknowledged it is sent again, twice, and then it fails.
-/
def execUsageWriteRetry (head : Nat) (s : State) : Host.Outcome State Fault Refusal :=
  s.run fun m =>
    match (m.headState head).usagePend.find? (fun w => m.passed w.tick ticks10ms) with
    | none => m
    | some w =>
      if w.tries < 2 then
        let r := m.usageSend (m.headRec head) w.data
        let x := r.1.headState head
        r.1.setHead head { x with usagePend := x.usagePend.map (fun v =>
          if v = w then { w with tries := w.tries + 1, tick := m.now, ids := w.ids ++ r.2 } else v) }
      else
        let x := m.headState head
        (((m.setHead head { x with usagePend := x.usagePend.filter (· ≠ w) }).addSat Reg.FGD_USAGE_STATUS.fail 1).setFld
          (Reg.FGD_HD_USTAT.write_fail head) 1).raise Ev.fireUsage .warning head 3

end Sys2Proof.Machine
end

