-- ==== Sys2Proof/Machine/Skovex.lean ====
section
/-! DEFINITION. The Skovex head link (R306 to R336): training, echoes, telemetry, loss of lock, and the check units. -/

namespace Sys2Proof.Machine

open Sys2Proof

/-! ### What a lane sends -/

/-- A lane sends: it is on, no calibration holds it, and the lane PLL is locked. -/
def Mach.laneDriven (m : Mach) (n : Nat) : Bool :=
  !m.skx.silent && (m.lane n).state ≠ .off && (m.lane n).state ≠ .cal

/-- Send a /C/ set on a lane (R317). DESIGN CHOICE (log entry 23). -/
def Mach.sendC (m : Mach) (lane typ : Nat) (d : List Byte) : Mach :=
  m.emit (.laneSymbols lane kC (checkedSet (leBytes 1 typ ++ d)))

/-- The enabled hub that a lane serves. -/
def Mach.hubOfLane (m : Mach) (lane : Nat) : Option Nat :=
  (List.range 40).find? (fun h => m.flag (Reg.SKX_HUB_CFG.en h) && (m.hubLanes h).contains lane)

/-- The /A/ lane byte of a lane (R308). The two Farsil lanes are one bonded group (R406). -/
def Mach.laneByte (m : Mach) (lane : Nat) : Nat :=
  if 40 ≤ lane then 128 + 64 * (lane - 40) + (lane - 40)
  else match m.hubOfLane lane with
    | none => lane
    | some h =>
      128 * ofBool (m.flag (Reg.SKX_HUB_CFG.bonded h)) +
      64 * ofBool (m.flag (Reg.SKX_HUB_CFG.bonded h) && m.fld (Reg.SKX_HUB_CFG.lane0 h) ≠ lane) + lane % 64

/-- Change a lane's state on the present tick; a Farsil lane's shows in PTN_L<l>_STATUS. -/
def Mach.laneTo (m : Mach) (n : Nat) (x : Lane) : Mach :=
  let m := m.setLane n { x with since := m.now }
  if 40 ≤ n then m.setFld (Reg.PTN_L_STATUS.state (n - 40)) x.state.code else m

/-! ### Lane latency (R323) -/

/-- The mean of the round trips held, in 1/16 ns. -/
def Lane.meanTrip (x : Lane) : Nat := x.loops.foldl (· + ·) 0 / max 1 x.loops.length

/-- The symbol time of a rate in 1/160 ns. -/
def symbol160 (rate : Nat) : Nat := if rate = 2 then 128 else if rate = 1 then 256 else 512

/-- lane_lat of a lane in 1/16 ns under a capability block: the cable and the module's output latency. -/
def Lane.lat (x : Lane) (caps : List Byte) : Nat :=
  (x.meanTrip * 10 - leField caps 8 2 * symbol160 x.rate - Config.receiveLatency * 10) / 20 + Config.outputLatency

/-- lane_lat of a hub's timing lane. -/
def Mach.laneLat (m : Mach) (hub : Nat) : Nat := (m.lane (m.timingLane hub)).lat (m.hub hub).caps

/-- FGD_HB<n>_LAT.lane_lat of a hub once it is measured; an UP lane whose hub's L_H has come above 4 000 ns reports
the cause LATENCY until it is within that again (R269, R325). DEDUCED (log entry 203). -/
def Mach.latUpdate (m : Mach) (hub : Nat) : Mach :=
  let m := m.setFld (Reg.FGD_HB_LAT.lane_lat hub) (min 65535 (m.laneLat hub))
  let n := m.timingLane hub
  let x := m.lane n
  if x.state = .up then m.setLane n { x with trainCause := if m.hubSlow hub then 4 else 0 } else m

/-! ### Hub states (R328) -/

/-- The line bytes of a hub for the job in hand, and its need in thousandths of one lane's payload rate (R328). -/
def Mach.hubNeed (m : Mach) (hub : Nat) : Nat × Nat :=
  match (m.lineJobs.map m.job).head? with
  | none => (0, 0)
  | some x =>
    let bytes := m.hubLineBytes hub x.planes x.depth
    let fired2 := if m.fgd.downActive then m.fld Reg.FGD_RATE.rate else 2 * m.fld Reg.FGD_RATE.rate
    (bytes, bytes * 4 * fired2 / (payloadRate (m.lane (m.timingLane hub)).rate * 1000))

/-- SKX_HUB<n>_NEED. -/
def Mach.showNeed (m : Mach) (hub : Nat) : Mach :=
  let n := m.hubNeed hub
  (m.setFld (Reg.SKX_HUB_NEED.bytes hub) (min 65535 n.1)).setFld (Reg.SKX_HUB_NEED.permille hub) (min 65535 n.2)

/-- The lines of a hub not yet settled count under LANE (R328), and one in progress ends with /V/. -/
def Mach.loseLines (m : Mach) (hub : Nat) : Mach :=
  let mine (e : Nat × FireLine) : Bool := e.1 / 8 % 64 = hub && !e.2.counted
  let m := if m.fgd.line.any (fun e => mine e && e.2.stage = .queued) then
      m.cutPacket (m.hubLanes hub) else m
  { m with fgd := { m.fgd with line := m.fgd.line.map (fun e =>
      if mine e then (e.1, { e.2 with cause := firstCause e.2.cause (some 7) }) else e) } }

/-- A hub's state follows from its lanes (R325, R328); while one lane of two stays lost, only the end of a speed window
changes it. DEDUCED (log entry 161). -/
def Mach.hubUpdate (m : Mach) (hub : Nat) : Mach :=
  let x := m.hub hub
  let lanes := m.hubLanes hub
  let up := lanes.filter m.laneUp
  let m := (m.latUpdate hub).showNeed hub
  let st : HubState :=
    if !m.flag (Reg.SKX_HUB_CFG.en hub) then .unused
    else if up.length = lanes.length then .up
    else if up.isEmpty then .down
    else if x.state = .degraded || x.state = .blank then x.state
    else if (m.hubNeed hub).2 ≤ 920 then .degraded else .blank
  let dark := st = .down || st = .blank
  let m := m.setHub hub { x with
    state := st, wasUp := (x.wasUp || decide (st = .up)) && decide (st ≠ .unused)
    darkSince := if dark then (match x.darkSince with | some t => some t | none => some m.now) else none
    darkDone := x.darkDone && dark }
  let m := if st ≠ .up && st ≠ x.state && (x.state = .up || st = .down || st = .unused) then m.loseLines hub else m
  if (st = .degraded || st = .blank) && x.state = .up then
    m.raise Ev.laneDegraded (if st = .degraded then .warning else .error) hub (up.headD 0 + 256 * ofBool (st = .degraded))
  else if st = .up && x.wasUp && x.state ≠ .up then m.raise Ev.laneRestored .info hub (ofBool (lanes.length = 2))
  else m

/-- The need of every hub with one lane lost is judged at the end of each speed window, for the lines fetched from then on
(R328). -/
def Mach.needWindow (m : Mach) : Mach :=
  (List.range 40).foldl (fun m h =>
    let x := m.hub h
    if x.state = .unused then m
    else
      let m := m.showNeed h
      let n := (m.hubNeed h).2
      if x.state = .degraded && 920 < n then m.setHub h { x with state := .blank, darkSince := some m.now }
      else if x.state = .blank && n ≤ 880 then m.setHub h { x with state := .degraded, darkSince := none, darkDone := false }
      else m) m

/-! ### Training (R322 to R325) -/

/-- The lanes of the group that a lane belongs to: the two Farsil lanes, those of its hub, or itself. -/
def Mach.laneGroup (m : Mach) (lane : Nat) : List Nat :=
  if 40 ≤ lane then [40, 41] else match m.hubOfLane lane with | some h => m.hubLanes h | none => [lane]

/-- A symbol of a rate in fifths of a DTM tick (R306): 0.8, 1.6 or 3.2 ns. -/
def symbolFifths (rate : Nat) : Nat := if rate = 2 then 2 else if rate = 1 then 4 else 8

/-- The hub that a lane's capability block is read for: the enabled hub it serves, or one of its own beyond them.
DEDUCED (log entry 237). -/
def Mach.capsHub (m : Mach) (lane : Nat) : Nat := (m.hubOfLane lane).getD (64 + lane)

/-- A CAPS request that a lane has sent and that is not answered. -/
def CtrlReq.capsOf (lane : Nat) (r : CtrlReq) : Bool := r.lane = lane && r.use = .caps

/-- A lane's training is over: what it asked for is no longer awaited. -/
def Mach.dropCaps (m : Mach) (lane : Nat) : Mach :=
  let drop (m : Mach) (h : Nat) : Mach := m.setHub h { m.hub h with reqs := (m.hub h).reqs.filter (fun r => !r.capsOf lane) }
  if 40 ≤ lane then m else drop m (m.capsHub lane)

/-- Begin a training at a rate: IDLE, /A/ and /S/ are sent and lock is awaited. The /A/ sets of a lane whose group's
other lane sends them follow that one's, in slot and seq (R310, R319). DEDUCED (log entry 212). -/
def Mach.startTraining (m : Mach) (lane : Nat) (full : Bool) (rate : Nat) : Mach :=
  let m := m.dropCaps lane
  let x := { m.lane lane with state := LaneState.lock, full := full, rate := rate }
  m.laneTo lane (match (m.laneGroup lane).find? (fun n => n ≠ lane && m.laneDriven n) with
    | some n => { x with aSeq := (m.lane n).aSeq, aDue := (m.lane n).aDue, sDue := (m.lane n).sDue }
    | none => { x with aDue := 5 * m.now, sDue := 5 * m.now + 1024 * symbolFifths rate })

/-- The highest rate a lane tries. -/
def Mach.topRate (m : Mach) (lane : Nat) : Nat := min 2 (m.fld (Reg.SKX_L_CFG.rate_max lane))

/-- A training fails (R325). -/
def Mach.failTraining (m : Mach) (lane cause : Nat) : Mach :=
  let m := m.laneTo lane { m.lane lane with state := .failed, trainCause := cause }
  if 40 ≤ lane then m else m.raise Ev.laneTrainFail .warning lane cause

/-- A rate is passed over: the next one down, or failure (R322, R406). -/
def Mach.nextRate (m : Mach) (lane : Nat) : Mach :=
  let x := m.lane lane
  if x.full && 0 < x.rate && lane < 40 then m.startTraining lane true (x.rate - 1) else m.failTraining lane 1

/-- A lane with its lock gone: the hub follows, and the lane retrains at the rate in use (R327, R328). -/
def Mach.loseLock (m : Mach) (lane cause : Nat) : Mach :=
  let x := m.lane lane
  if x.state = .off || x.state = .failed || x.state = .lock || x.state = .cal then m
  else if 40 ≤ lane then
    (m.startTraining lane false x.rate).addSat (Reg.PTN_L_STATUS.loss (lane - 40)) 1
  else
    let hub := m.hubOfLane lane
    let hit := match hub with
      | some h => m.fgd.line.any (fun e => e.1 / 8 % 64 = h && !e.2.counted)
      | none => false
    let m := m.startTraining lane (x.full && x.state ≠ .up) x.rate
    let m := (m.addSat (Reg.SKX_L_LOSS.count lane) 1).setFld (Reg.SKX_L_LOSS.cause lane) cause
    let m := m.raise Ev.laneLockLost (if x.state = .up && hit then .error else .warning) lane cause
    match hub with
    | some h => m.hubUpdate h
    | none => m

/-- Start a full training of an enabled lane (R322). A hub on it goes dark. DEDUCED (log entry 33). -/
def Mach.retrain (m : Mach) (lane : Nat) : Mach :=
  if !m.flag (Reg.SKX_L_CFG.en lane) || (m.lane lane).state = .cal then m
  else
    let m := m.startTraining lane true (m.topRate lane)
    match m.hubOfLane lane with
    | some h => m.hubUpdate h
    | none => m

/-- A lane turned off. -/
def Mach.laneOff (m : Mach) (lane : Nat) : Mach :=
  let m := (m.dropCaps lane).laneTo lane {}
  match m.hubOfLane lane with
  | some h => m.hubUpdate h
  | none => m

/-- LANE_RETRAIN (R322): SKX_L<n>_CTRL.retrain of an enabled lane. -/
def execLaneRetrain (lane : Nat) (s : State) : Host.Outcome State Fault Refusal :=
  s.run fun m => if lane < 40 then m.retrain lane else m

/-- RETRAIN_RETRY (R322): a failed retrain is repeated 10 ms after it failed. -/
def execRetrainRetry (lane : Nat) (s : State) : Host.Outcome State Fault Refusal :=
  s.run fun m =>
    let x := m.lane lane
    if x.state = .failed && !x.full && lane < 40 && m.passed x.since ticks10ms then m.startTraining lane false x.rate else m

/-- Send T1 with the next sequence on a lane (R317). -/
def Mach.sendT1 (m : Mach) (lane : Nat) : Mach :=
  let x := m.lane lane
  let q := (x.tSeq + 1) % 256
  (m.setLane lane { x with tSeq := q, t1At := m.now }).sendC lane 1
    (leBytes 1 x.rate ++ leBytes 1 (m.laneByte lane) ++ leBytes 1 q ++ leBytes 1 0)

/-- Every 2 µs a lane in HANDSHAKE sends T1 again (R322). DEDUCED (log entry 218). -/
def Mach.t1Repeats (m : Mach) : Mach :=
  ((m.skx.lane.filter (fun e => e.2.state = .handshake && m.passed e.2.t1At (2 * ticksUs))).map (fun e => e.1)).foldl
    Mach.sendT1 m

/-- LANE_LOCK_ACQUIRED (R322): with CDR lock the lane awaits the /A/ sets, and with three good ones T1 is sent. -/
def execLaneLockAcquired (l : LaneLock) (s : State) : Host.Outcome State Fault Refusal :=
  s.run fun m =>
    let x := m.lane l.lane
    if (x.state ≠ .lock && x.state ≠ .align) || m.skx.silent then m
    else if l.aligned then (m.laneTo l.lane { x with state := .handshake }).sendT1 l.lane
    else (m.laneTo l.lane { x with state := .align }).setLane l.lane { x with state := .align }

/-- Send the next LOOP set of a lane (R323). -/
def Mach.sendLoop (m : Mach) (lane : Nat) : Mach :=
  let x := m.lane lane
  let n := (x.loopNum + 1) % 256
  (m.setLane lane { x with loopNum := n }).sendC lane 3 (leBytes 1 n ++ leBytes 3 0)

/-- A Farsil lane in lock answers the partner's T1 with T2, and its LOOP with LOOP_RET (R322, R323, R406). The port and
the capability hash of a T2 between modules are free values. DESIGN CHOICE (log entry 234). -/
def Mach.answerPartner (m : Mach) (lane : Nat) (t : T2F) : Mach :=
  let st := (m.lane lane).state
  if lane < 40 || m.skx.silent || (st ≠ .handshake && st ≠ .measure && st ≠ .up) then m
  else if t.what = 1 then
    m.sendC lane 2 (leBytes 1 (if t.rate = 2 then 2 else 0xFF) ++ leBytes 1 (Config.openValue 234 0) ++ leBytes 1 t.seq ++
      leBytes 1 (Config.openValue 234 1))
  else if t.what = 3 then m.sendC lane 4 (leBytes 1 t.seq ++ leBytes 3 0)
  else m

/-- T2_RX (R322): the rate is accepted and the round trip measured, or the next rate is tried; on Farsil also the
partner's T1 and LOOP (R406). -/
def execT2Rx (lane : Nat) (t : T2F) (s : State) : Host.Outcome State Fault Refusal :=
  s.run fun m =>
    let x := m.lane lane
    if x.state = .off then m
    else if t.bad then m.discard lane
    else if t.what ≠ 2 then m.answerPartner lane t
    else if x.state ≠ .handshake || t.seq ≠ x.tSeq then m
    else if t.rate = 0xFF then m.nextRate lane
    else (m.laneTo lane { x with state := .measure, port := t.port, t2Hash := t.hash, loops := [] }).sendLoop lane

/-- The geometry hash (R407): over the words of the enabled head records, their remap tables and every
SKX_HUB<n>_CFG. DEDUCED (log entry 95). -/
def Mach.geometryHash (m : Mach) : Word :=
  let words := m.heads.flatMap (fun h =>
      [m.rd (Reg.FGD_HD_CFG h.id), m.rd (Reg.FGD_HD_GEOM h.id)] ++ h.rows ++
      (List.range h.noz).map (m.remapEntry h.id)) ++
    (List.range 40).map (fun n => m.rd (Reg.SKX_HUB_CFG n))
  crc32c (words.flatMap (leBytes 4))

/-- Send HELLO (R407). -/
def Mach.sendHello (m : Mach) : Mach :=
  m.sendFarsil 0x10 (leBytes 4 0) (leBytes 8 m.otp.deviceId.toNat ++ leBytes 1 m.ptn.straps ++ leBytes 1 m.ptn.state.code ++
    leBytes 2 m.level ++ leBytes 4 m.geometryHash.toNat ++ leBytes 4 m.storeSize ++
    leBytes 4 (max m.ptn.claim m.ptn.claimSeen) ++ leBytes 8 0)

/-- The 64 round trips are measured: the capability block is read where the training needs it; a Farsil lane is UP,
and the second of the two starts the HELLO exchange. -/
def Mach.measured (m : Mach) (lane : Nat) : Mach :=
  let x := m.lane lane
  if 40 ≤ lane then
    let m := m.laneTo lane { x with state := .up, trained := x.meanTrip }
    if m.ptn.state = .pairing && m.laneUp 40 && m.laneUp 41 then m.sendHello else m
  else
    let m := (m.laneTo lane { x with state := .caps }).setFld (Reg.SKX_L_RT.rt lane) (min (2 ^ 20 - 1) x.meanTrip)
    if x.full || x.t2Hash ≠ x.hash then m.ctrlSend (m.capsHub lane) lane 0 1 0 144 .caps 0 [] else m

/-- LOOP_RET_RX (R323): a round trip in 1/16 ns. -/
def execLoopRetRx (l : LaneSet) (num rt : Nat) (s : State) : Host.Outcome State Fault Refusal :=
  s.run fun m =>
    let lane := l.lane
    let x := m.lane lane
    if x.state = .off then m
    else if l.bad then m.discard lane
    else if num ≠ x.loopNum then m
    else if x.state = .measure then
      let m := m.setLane lane { x with loops := (rt :: x.loops).take 64 }
      if x.loops.length + 1 < 64 then m.sendLoop lane else m.measured lane
    else if x.state = .up then
      let y := { x with loops := (rt :: x.loops).take 64 }
      let m := m.setLane lane y
      if 40 ≤ lane then m
      else
        let m := m.setFld (Reg.SKX_L_RT.rt lane) (min (2 ^ 20 - 1) y.meanTrip)
        match m.hubOfLane lane with
        | some h => m.latUpdate h
        | none => m
    else m

/-- LOOP_MEASURE (R323): every 10 ms one LOOP on each lane that is UP. -/
def execLoopMeasure (s : State) : Host.Outcome State Fault Refusal :=
  s.run fun m => m.onBeat .loop ticks10ms fun m => ((List.range 42).filter m.laneUp).foldl Mach.sendLoop m

/-- The longest time of a training step, in µs (R322). -/
def LaneState.limit : LaneState → Nat
  | .lock => 500 | .align => 500 | .handshake => 200 | .caps => 1000 | _ => 0

/-- TRAIN_STEP_TIMEOUT (R322, R325): the longest time of the step that a lane is in has passed.
DESIGN CHOICE (log entry 34). -/
def execTrainStepTimeout (lane : Nat) (s : State) : Host.Outcome State Fault Refusal :=
  s.run fun m =>
    let x := m.lane lane
    if m.skx.silent || !m.passed x.since (x.state.limit * ticksUs) then m else
    match x.state with
    | .lock => m.nextRate lane
    | .align => m.nextRate lane
    | .handshake => m.nextRate lane
    | .caps =>
      if (m.hub (m.capsHub lane)).reqs.any (CtrlReq.capsOf lane) then (m.dropCaps lane).failTraining lane 2 else m
    | _ => m

/-- Why a capability block fails its check (R325), with L_H as it is once the lane is UP; 0 where it passes. -/
def Mach.capsCause (m : Mach) (lane hub : Nat) : Nat :=
  let x := m.hub hub
  let c := x.caps
  let lat := (m.setLane lane { m.lane lane with state := .up }).laneLat hub
  let depth3 := m.vgp.job.any (fun e => e.2.state ≠ .free && e.2.depth = 3)
  if c.length ≠ 144 || (crc8 c).toNat ≠ (m.lane lane).t2Hash then 2
  else if leField c 0 2 ≠ 0x5C0B || leField c 2 1 ≠ 1 ||
      (m.flag (Reg.SKX_HUB_CFG.bonded hub) && !bitAt (leField c 4 1) 2) || (depth3 && !bitAt (leField c 4 1) 1) then 5
  else if (m.hubHeads hub).any (fun h =>
      !bitAt (leField c 10 2) h.slot || x.rowsOf h.slot ≠ h.rows.length ||
      (List.range h.noz).any (fun k => decide (x.rowLen h.slot ≤ m.remapEntry h.id k % 4096))) then 3
  else if 4000 * 16 < min 65535 lat + leField c 6 2 * 16 then 4
  else 0

/-- The same for a lane that serves no enabled hub: there are no head records to hold the block against. -/
def Mach.spareCause (m : Mach) (lane : Nat) : Nat :=
  let x := m.lane lane
  let c := (m.hub (m.capsHub lane)).caps
  if c.length ≠ 144 || (crc8 c).toNat ≠ x.t2Hash then 2
  else if leField c 0 2 ≠ 0x5C0B || leField c 2 1 ≠ 1 then 5
  else if 4000 * 16 < min 65535 (x.lat c) + leField c 6 2 * 16 then 4
  else 0

/-- What the module takes from a capability block that passed its check (R325). -/
def Mach.takeCaps (m : Mach) (hub : Nat) (c : List Byte) : Mach :=
  (m.setFld (Reg.FGD_HB_LAT.hub_lat hub) (leField c 6 2)).setFld (Reg.FGD_HB_DEPTH.depth hub) (leField c 5 1)

/-- A hub set in use takes over the capability block that its timing lane has read while it served none.
DEDUCED (log entry 237). -/
def Mach.adoptCaps (m : Mach) (hub : Nat) : Mach :=
  let lane := m.timingLane hub
  let spare := m.hub (64 + lane)
  if !m.flag (Reg.SKX_HUB_CFG.en hub) || !m.laneUp lane || !(m.hub hub).caps.isEmpty || spare.caps.isEmpty then m
  else (m.setHub hub { m.hub hub with caps := spare.caps, hash := (m.lane lane).hash }).takeCaps hub spare.caps

/-- Ask for the newest usage record of each head of a hub, to be verified again under the key in slot 0 (R286). -/
def Mach.readUsage (m : Mach) (hub : Nat) : Mach :=
  let m := m.setHub hub { m.hub hub with readAgain := false }
  (m.hubHeads hub).foldl (fun m h =>
    m.ctrlSend hub (m.timingLane hub) h.slot 1 1 96 .usageAgain Config.usageAddress []) m

/-- Ask for the serial number and the newest usage record of each head of a hub (R286, R325).
DEDUCED (log entry 160). -/
def Mach.readHeads (m : Mach) (hub : Nat) : Mach :=
  let m := m.setHub hub { m.hub hub with readAgain := false }
  (m.hubHeads hub).foldl (fun m h =>
    let m := m.setHead h.id { m.headState h.id with sinceAct := 0, sinceVol := 0 }
    let lane := m.timingLane hub
    (m.ctrlSend hub lane h.slot 1 1 8 .serial Config.serialAddress []).ctrlSend
      hub lane h.slot 1 1 96 .usageRead Config.usageAddress []) m

/-- LANE_UP (R322, R325): the capability block has come, where it was asked for, and is checked. -/
def execLaneUp (lane : Nat) (s : State) : Host.Outcome State Fault Refusal :=
  s.run fun m =>
    let x := m.lane lane
    if x.state ≠ .caps then m
    else if (m.hub (m.capsHub lane)).reqs.any (CtrlReq.capsOf lane) then m
    else match m.hubOfLane lane with
      | none =>
        let cause := m.spareCause lane
        if cause ≠ 0 then m.failTraining lane cause
        else (m.laneTo lane { x with state := .up, trainCause := 0, hash := x.t2Hash }).raise Ev.laneUp .info lane
          (x.rate + 256 * ofBool x.full)
      | some h =>
          let cause := m.capsCause lane h
          if cause ≠ 0 then m.failTraining lane cause
          else
            let y := m.hub h
            let m := m.setHub h { y with hash := x.t2Hash }
            let m := m.takeCaps h y.caps
            let m := m.laneTo lane { x with state := .up, trainCause := 0, hash := x.t2Hash }
            let m := (m.raise Ev.laneUp .info lane (x.rate + 256 * ofBool x.full)).hubUpdate h
            if x.full then m.readHeads h else if y.readAgain then m.readUsage h else m

/-! ### Replies to requests (R286, R314) -/

/-- A usage record as read from a head: its HMAC under the usage key, and its magic. -/
def Mach.usageGood (m : Mach) (d : List Byte) : Bool :=
  !m.usageKey.isEmpty && d.length = 96 && leField d 0 2 = 0x51C3 && hmac m.usageKey (d.take 64) = d.drop 64

/-- A head's newest usage record has been read: at training, or again once a key is stored.
DEDUCED (log entry 27). -/
def Mach.usageTake (m : Mach) (h : Nat) (d : List Byte) (again : Bool) : Mach :=
  let x := m.headState h
  if m.usageGood d then
    let m := m.setPair (Reg.FGD_HD_ACT_LO h) (min (leField d 24 8 + x.sinceAct) (2 ^ 64 - 1))
    let m := m.setPair (Reg.FGD_HD_VOL_LO h) (min (leField d 32 8 + x.sinceVol) (2 ^ 64 - 1))
    let m := (m.setFld (Reg.FGD_HD_USEQ.seq h) (leField d 4 4)).setFld (Reg.FGD_HD_USTAT.unverified h) 0
    if again then m.raise Ev.fireUsage .info h 4 else m
  else if again then m
  else
    let m := (m.setPair (Reg.FGD_HD_ACT_LO h) x.sinceAct).setPair (Reg.FGD_HD_VOL_LO h) x.sinceVol
    (m.setFld (Reg.FGD_HD_USTAT.unverified h) 1).raise Ev.fireUsage .warning h 1

/-- CTRL_REPLY_RX (R314, R322, R286, R288). -/
def execCtrlReplyRx (hub : Nat) (r : CtrlReplyF) (s : State) : Host.Outcome State Fault Refusal :=
  s.run fun m =>
    let hub := match r.lane with | some l => 64 + l % 40 | none => hub
    let x := m.hub hub
    if r.bad then m.discard (match r.lane with | some l => l % 40 | none => m.timingLane hub)
    else match x.reqs.find? (fun q => q.id = r.id && q.slot = r.slot) with
    | none => m
    | some q =>
      let m := m.setHub hub { x with reqs := x.reqs.filter (fun p => p ≠ q) }
      match q.use with
      | .caps =>
        if r.status = 0 then m.setHub hub { m.hub hub with caps := r.data.take 144 } else m.failTraining q.lane 2
      | u =>
        match (m.hubHeads hub).find? (fun h => h.slot = q.slot) with
        | none => m
        | some h =>
          match u with
          | .serial =>
            if r.status = 0 then
              (m.setPair (Reg.FGD_HD_SER_LO h.id) (leNat (r.data.take 8))).setFld (Reg.FGD_HD_USTAT.serial_valid h.id) 1
            else m
          | .usageRead => m.usageTake h.id (if r.status = 0 then r.data.take 96 else []) false
          | .usageAgain => m.usageTake h.id (if r.status = 0 then r.data.take 96 else []) true
          | _ =>
            if r.status = 0 then
              let y := m.headState h.id
              (m.setHead h.id { y with usagePend := y.usagePend.filter (fun w => !w.ids.contains q.id) }).setFld
                (Reg.FGD_HD_USTAT.write_fail h.id) 0
            else m

/-! ### Echoes (R326, R424) -/

/-- The commit instant of a line's first /F/ on a hub lies far enough ahead for its HDR and LINE to be sent again. -/
def Mach.canResend (m : Mach) (j line hub : Nat) : Bool :=
  let x := m.job j
  let hs := m.lineHeads x hub
  let bytes := m.hubLineBytes hub x.planes x.depth + hs.length * (ceilDiv (2 * maxCode x.depth) 4 * 4) + 28
  let r := payloadRate (m.lane (m.timingLane hub)).rate * max 1 (m.fireLine (fireKey j line hub)).lanes.length
  let need : Int := (bytes * 8 * 500 * 65536 / r : Nat)
  (m.fireLine (fireKey j line hub)).rows = 0 &&
  (match m.predict (x.fire16 line (listMin (rowOffsets hs))) with
   | none => true
   | some t => decide ((m.now * 65536 : Nat) + need < t - (m.lineLead hub (m.fireLine (fireKey j line hub)) : Nat) - 1310720))

/-- The line of a hub that awaits the ECHO of a tag. -/
def Mach.echoLine (m : Mach) (hub tag : Nat) : Option Nat :=
  (m.fgd.line.find? (fun e => e.1 / 8 % 64 = hub && e.1 / 512 % 65536 = tag && e.2.stage = .sent && !e.2.echoed)).map
    (fun e => e.1)

/-- An ECHO fails for a line: it is sent again once where there is time, and otherwise withheld.
DESIGN CHOICE (log entry 32). -/
def Mach.echoBad (m : Mach) (k hub code tag : Nat) : Mach :=
  let e := m.fireLine k
  let j := k % 8
  let line := k / 512
  let m := m.addSat (Reg.SKX_HUB_ECHO_BAD.cnt hub) 1
  if code ≠ 3 && !e.resent && m.canResend j line hub then
    ((m.sendLine j line hub e).setFireLine k { e with resent := true, echoCode := code, sentAt := m.now }).addSat
      (Reg.SKX_HUB_RESENT.cnt hub) 1
  else
    ((m.setFireLine k { e with echoed := true, cause := firstCause e.cause (some 7) }).addSat
      (Reg.SKX_HUB_WITHHELD.cnt hub) 1).raise Ev.echoMismatch .error (hub % 64 + 256 * code + 8192) tag

/-- The hubs whose ECHO of the present millisecond matched. -/
def Mach.echoGood (m : Mach) (hub tag : Nat) : Mach :=
  { m with ptn := { m.ptn with echoSeen := m.ptn.echoSeen ++ [(hub, tag)] } }

/-- ECHO_RX (R326): on the active module the line stands, is sent again or is withheld; on a standby the ECHO is held
against its ECHO_REF (R424). -/
def execEchoRx (hub : Nat) (e : EchoF) (s : State) : Host.Outcome State Fault Refusal :=
  s.run fun m =>
    if e.bad then m.discard (m.timingLane hub)
    else if m.isBacksight then
      match m.ptn.echoRefs.find? (fun r => r.1 = hub && r.2.1 = e.tag) with
      | none => m
      | some (_, _, lc, hc) =>
        let m := { m with ptn := { m.ptn with
          echoRefs := m.ptn.echoRefs.filter (fun r => !(r.1 = hub && r.2.1 = e.tag)) } }
        if lc = e.lineCrc ∧ hc = e.hdrCrc then m.echoGood hub e.tag else m.addSat Reg.PTN_ECHO_BAD.cnt 1
    else if e.status = 3 then m
    else match m.echoLine hub e.tag with
      | none => m
      | some k =>
        let l := m.fireLine k
        let same := l.line = e.lineCrc && l.hdr = e.hdrCrc
        let m := m.checked (m.timingLane hub / 4) 0 (ofBool (e.status ≠ 2 && !same))
        if e.status = 0 && same then
          let m := (m.setFireLine k { l with echoed := true }).echoGood hub e.tag
          if l.resent then m.raise Ev.echoMismatch .warning (hub % 64 + 256 * l.echoCode + 4096) e.tag else m
        else m.echoBad k hub (if e.status = 2 then 3 else if e.status = 1 then 1 else 2) e.tag

/-- ECHO_TIMEOUT (R326): no ECHO within 50 µs of the LINE. -/
def execEchoTimeout (job line hub : Nat) (s : State) : Host.Outcome State Fault Refusal :=
  s.run fun m =>
    let k := fireKey job line hub
    let e := m.fireLine k
    if e.stage ≠ .sent || e.echoed || m.now < e.sentAt + 25000 then m
    else
      let m := (m.setFireLine k { e with echoed := true }).addSat (Reg.SKX_HUB_ECHO_MISSING.cnt hub) 1
      let m := m.raiseRated Ev.echoMissing hub .warning hub 0 1
      if e.resent then m.raise Ev.echoMismatch .warning (hub % 64 + 256 * e.echoCode) (line % 65536) else m

/-! ### Telemetry, FOM and what is sent on time -/

/-- HUB_TLM_RX (R316, R275). -/
def execHubTlmRx (hub : Nat) (t : HubTlmF) (s : State) : Host.Outcome State Fault Refusal :=
  s.run fun m =>
    if t.bad then m.discard (m.timingLane hub) else
    let m := m.setHub hub { m.hub hub with tlmTick := some m.now }
    let m := (m.setFld (Reg.SKX_HUB_HUBCNT.noline hub) t.noline).setFld (Reg.SKX_HUB_HUBCNT.fire_bad hub) t.fireBad
    let m := m.setFld (Reg.SKX_HUB_REFUSED.cnt hub) t.refused
    (m.hubHeads hub).foldl (fun m h =>
      match t.slots[h.slot]? with
      | some w => m.headTlm h w
      | none => m) m

/-- The FOMs of the last second with one more: those that a later one is not above are let go (R335). -/
def fomLeast (now : Nat) (old : List (Nat × Nat)) (fom : Nat) : List (Nat × Nat) :=
  (old.filter (fun e => decide (now < e.1 + 500000000) && decide (e.2 < fom))) ++ [(now, fom)]

/-- FOM_WINDOW (R307, R309, R311): the FOM of 1 ms, and the thresholds 96, 64 and 104; with the invalid symbols and the
/S/ inserted or deleted in it. DEDUCED (log entry 31). -/
def execFomWindow (lane : Nat) (w : LaneMs) (s : State) : Host.Outcome State Fault Refusal :=
  s.run fun m =>
    let x := m.lane lane
    let fom := w.fom
    if x.state = .off || x.fomTick.any (fun t => !m.passed t (1000 * ticksUs)) then m
    else
      let m := if lane < 40 then
          (m.addSat (Reg.SKX_L_INVALID.cnt lane) w.invalid).addWrap (Reg.SKX_L_SKIP.cnt lane) w.skips
        else m
      let low := if fom < 64 then 2 else if fom < 96 then max 1 x.fomLow else if 104 ≤ fom then 0 else x.fomLow
      let m := m.setLane lane { x with
        fom := fom
        foms := fomLeast m.now x.foms fom
        fomTick := some m.now
        fomLow := low }
      let m := if 40 ≤ lane then m.setFld (Reg.PTN_L_STATUS.fom (lane - 40)) fom else m
      let m := if x.fomLow = 0 ∧ 1 ≤ low then m.raise Ev.laneFom .warning lane fom else m
      let m := if x.fomLow < 2 ∧ low = 2 then m.raise Ev.laneFom .warning lane (fom + 256) else m
      if 0 < x.fomLow ∧ low = 0 then m.raise Ev.laneFom .info lane (fom + 512) else m

/-- A lane is driven, and its next /A/ set is due: 4 096 symbols after the last (R310). -/
def Mach.alignDue (m : Mach) (n : Nat) : Bool := m.laneDriven n && decide ((m.lane n).aDue < 5 * (m.now + 1))

/-- ALIGN_MARKER_DUE (R310): an /A/ set on every lane on which it is due. -/
def execAlignMarkerDue (s : State) : Host.Outcome State Fault Refusal :=
  s.run fun m =>
    ((List.range 42).filter m.alignDue).foldl (fun m n =>
      let x := m.lane n
      let m := m.emit (.laneSymbols n kA (checkedSet (leBytes 1 (m.laneByte n) ++ leBytes 1 x.aSeq)))
      m.setLane n { x with aSeq := (x.aSeq + 1) % 256, aDue := x.aDue + 4096 * symbolFifths x.rate }) m

/-- SKIP_DUE (R311): an /S/ on a lane on which it is due, 1 024 symbols after the last, and in the same slot on the
other lane of its group. -/
def execSkipDue (lane : Nat) (s : State) : Host.Outcome State Fault Refusal :=
  s.run fun m =>
    if 5 * (m.now + 1) ≤ (m.lane lane).sDue then m
    else ((m.laneGroup lane).filter m.laneDriven).foldl (fun m n =>
      let x := m.lane n
      (m.emit (.laneSymbols n kS [])).setLane n { x with sDue := 5 * m.now + 1024 * symbolFifths x.rate }) m

/-- PTN_STATUS.role (R401). -/
def Mach.role (m : Mach) : Nat :=
  match m.ptn.state with
  | .solo => 0
  | .pairing => if m.isBacksight then 2 else 0
  | .foresight => 1
  | .reverting => if m.ptn.oldActive then 1 else 2
  | _ => 2

/-- The payload of a HEARTBEAT packet of Farsil (R408). -/
def Mach.farsilBeat (m : Mach) : List Byte :=
  let held := ((List.range 40).filter (fun h => (m.hub h).held)).length
  leBytes 1 m.ptn.state.code ++
  leBytes 1 (ofBool m.ptn.inStep + 2 * ofBool m.hst.stopped + 4 * ofBool m.ptn.majority) ++ leBytes 1 held ++ leBytes 1 0 ++
  leBytes 6 m.chn.printed.toNat ++ leBytes 2 0 ++ leBytes 8 m.time.toNat ++ leBytes 4 m.epo.counter.toNat ++
  leBytes 4 (if m.role = 2 then m.ptn.applied else m.ptn.sent).toNat ++ leBytes 4 m.ptn.monNum

/-- A HEARTBEAT on a head lane. -/
def Mach.laneBeat (m : Mach) (n : Nat) : Mach :=
  let x := m.lane n
  (m.sendC n 0x10 (leBytes 1 m.role ++ leBytes 1 x.hbSeq ++ leBytes 2 m.otp.deviceId.toNat)).setLane n
    { x with hbSeq := (x.hbSeq + 1) % 256, hbAt := some m.now }

/-- A lane is driven, and 100 µs have passed since its last HEARTBEAT. -/
def Mach.laneBeatDue (m : Mach) (n : Nat) : Bool :=
  m.laneDriven n && (m.lane n).hbAt.all (fun t => m.passed t (100 * ticksUs))

/-- HEARTBEAT_DUE (R318, R404, R408): every 100 µs a HEARTBEAT on every head lane that is driven, and to the partner once
paired; in BOOT none. -/
def execHeartbeatDue (s : State) : Host.Outcome State Fault Refusal :=
  s.run fun m =>
    if m.inMode .boot then m
    else
      let m := ((List.range 40).filter m.laneBeatDue).foldl Mach.laneBeat m
      if m.ptn.state = .solo || m.ptn.state = .pairing || m.skx.silent then m
      else m.onBeat .heart (100 * ticksUs) fun m =>
        let m := { m with ptn := { m.ptn with hbSeq := (m.ptn.hbSeq + 1) % 2 ^ 32 } }
        m.sendFarsil 0x11 (leBytes 4 m.ptn.hbSeq) m.farsilBeat

/-! ### A dark hub (R329) -/

/-- Every printing job ends as by an ABORT accepted now (R134). -/
def Mach.abortPrinting (m : Mach) : Mach :=
  (List.range 8).foldl (fun m j =>
    if (m.job j).state = .printing then
      let c := m.chainage
      let r := m.cutJob j 9
      r.1.endJob j .aborted c r.2
    else m) m

/-- HUB_DARK_TIMEOUT (R329): with policy HALT, once a hub with heads in a printing job is dark for longer than
dark_ms. -/
def execHubDarkTimeout (hub : Nat) (s : State) : Host.Outcome State Fault Refusal :=
  s.run fun m =>
    let x := m.hub hub
    match x.darkSince with
    | none => m
    | some t =>
      let busy := m.lineJobs.any (fun j =>
        (m.job j).state = .printing && (m.hubHeads hub).any (fun h => (m.job j).hasPlane h.plane))
      if x.darkDone || !busy || m.now ≤ t + m.fld Reg.SKX_CFG.dark_ms * 500000 || m.isBacksight then m
      else
        let m := m.setHub hub { x with darkDone := true }
        if m.flag Reg.SKX_CFG.dark_policy then
          m.abortPrinting.raise Ev.hubDarkHalt .error hub (min ((m.now - t) / 500) (2 ^ 32 - 1))
        else m

/-! ### The self-test of the check units (R333) -/

/-- CHK_SELFTEST (R333): in SETUP or READY every unit computes the check value; `bad` names those that gave another. -/
def execChkSelftest (bad : Nat) (s : State) : Host.Outcome State Fault Refusal :=
  s.run fun m =>
    if !(m.inMode .setup || m.inMode .ready) then m
    else
      let m := (List.range 24).foldl (fun m u => m.checked u 1 (ofBool (bitAt bad u))) m
      let m := m.setFld Reg.CHK_STATUS.fail bad
      if bad % 2 ^ 24 = 0 then m else m.raise Ev.chkSelftest .warning (bad % 2 ^ 24) 0

end Sys2Proof.Machine
end

