-- ==== Sys2Proof/Machine/Camera.lean ====
section
/-! DEFINITION. Camera input and the image pipeline (R337 to R359): devices, lines, frames, correction, outputs and
parameter generations. -/

namespace Sys2Proof.Machine

open Sys2Proof

/-! ### Devices and connections (R337, R338) -/

/-- A device. -/
def Mach.dev (m : Mach) (d : Nat) : Device := Tab.get {} m.cam.dev d

/-- The devices with one changed. -/
def Mach.setDev (m : Mach) (d : Nat) (x : Device) : Mach :=
  { m with cam := { m.cam with dev := Tab.set {} m.cam.dev d x } }

/-- A device is configured in. -/
def Mach.devEn (m : Mach) (d : Nat) : Bool := m.flag (Reg.CAM_D_CFG.en d)

/-- The connections that a device is configured to use. -/
def Mach.devConns (m : Mach) (d : Nat) : List Nat :=
  (List.range (2 ^ m.fld (Reg.CAM_D_CFG.conns d))).map (fun i => m.fld (Reg.CAM_D_CFG.first d) + i)

/-- The enabled device that a connection belongs to: one whose configuration failed has none (R338). -/
def Mach.connDev (m : Mach) (k : Nat) : Option Nat :=
  (List.range 4).find? (fun d => m.devEn d && !((m.dev d).state = .failed && (m.dev d).cause = 5) && (m.devConns d).contains k)

/-- A device's configuration fails with cause CONFIG. DEDUCED (log entry 38). -/
def Mach.devBad (m : Mach) (d : Nat) : Bool :=
  m.fld (Reg.CAM_D_CFG.conns d) = 3 ||
  m.fld (Reg.CAM_D_CFG.first d) % 2 ^ m.fld (Reg.CAM_D_CFG.conns d) ≠ 0 ||
  (List.range 4).any (fun o => o ≠ d && m.devEn o && (m.devConns o).any (m.devConns d).contains)

/-- A change of device state raises EV_CAM_LINK. -/
def Mach.devTo (m : Mach) (d : Nat) (st : DevState) (cause : Nat) : Mach :=
  let x := m.dev d
  let m := m.setDev d { x with state := st, cause := cause, since := m.now }
  if x.state = st then m
  else m.raise Ev.camLink (if st = .down ∨ st = .failed then .warning else .info) d (st.code + 16 * cause)

/-- The connections in lock, with some set or cleared. -/
def Mach.setConns (m : Mach) (ks : List Nat) (up : Bool) : Mach :=
  { m with cam := { m.cam with connUp := ks.foldl (fun n k => withBits n k k (ofBool up)) m.cam.connUp } }

/-! ### Contexts and generations (R356, R357) -/

/-- A context. -/
def Mach.ctx (m : Mach) (c : Nat) : Ctx := Tab.get {} m.cam.ctx c

/-- The contexts with one changed. -/
def Mach.setCtx (m : Mach) (c : Nat) (x : Ctx) : Mach :=
  { m with cam := { m.cam with ctx := Tab.set {} m.cam.ctx c x } }

/-- A field of a generation's registers. -/
def Gen.fld (g : Gen) (f : Fld) : Nat := bitsOf (Tab.getD regReset g.words f.off).toNat f.hi f.lo

/-- A generation's pitch, in 2^-16 links. -/
def Gen.pitch (g : Gen) (c : Nat) : Nat :=
  g.fld (Reg.CAM_C_PITCH_LO.pitch c) + 2 ^ 32 * g.fld (Reg.CAM_C_PITCH_HI.pitch c)

/-- A generation's DIST. -/
def Gen.dist (g : Gen) (c : Nat) : Chainage := BitVec.ofNat 48 (g.fld (Reg.CAM_C_DIST.dist c))

/-- A generation's frame length. -/
def Gen.len (g : Gen) (c : Nat) : Nat := g.fld (Reg.CAM_C_LEN.len c)

/-- The registers of a context that are staged. -/
def stagedRegs (c : Nat) : List Nat :=
  [Reg.CAM_C_LEN c, Reg.CAM_C_PITCH_LO c, Reg.CAM_C_PITCH_HI c, Reg.CAM_C_DIST c, Reg.CAM_C_TIMEOUT c] ++
  (List.range 4).flatMap (fun o =>
    [Reg.CAM_C_OUT_CFG c o, Reg.CAM_C_OUT_COLS c o, Reg.CAM_C_OUT_LINES c o, Reg.CAM_C_OUT_GOLD c o])

/-- The staged set of a context as a generation. -/
def Mach.staged (m : Mach) (c : Nat) : Gen :=
  let x := m.ctx c
  { num := (match x.pending with | some g => g.num | none => x.active.num) + 1
    words := (stagedRegs c).foldl (fun t off => Tab.setD regReset t off (word (m.rd off))) []
    darkFlat := x.stageDf, matrix := x.stageMx }

/-- The device of a context. -/
def Mach.ctxDev (m : Mach) (c : Nat) : Nat := m.fld (Reg.CAM_C_CFG.device c)

/-- A staged set is refused with BAD_PARAM (R357). -/
def Mach.genBad (m : Mach) (c : Nat) (g : Gen) : Bool :=
  g.len c < 16 || decide (65536 < g.len c) || g.pitch c = 0 ||
  (List.range 4).any (fun o =>
    let kind := g.fld (Reg.CAM_C_OUT_CFG.kind c o)
    let dest := g.fld (Reg.CAM_C_OUT_CFG.dest c o)
    let width := g.fld (Reg.CAM_C_OUT_COLS.width c o)
    (g.fld (Reg.CAM_C_OUT_CFG.en c o) = 1 &&
      decide (m.fld (Reg.CAM_D_WIDTH.width (m.ctxDev c)) < g.fld (Reg.CAM_C_OUT_COLS.first c o) + width)) ||
    width % (g.fld (Reg.CAM_C_OUT_CFG.bx_m1 c o) + 1) ≠ 0 ||
    (kind = 0 && dest ≠ 8) || ((kind = 2 || kind = 3) && dest = 8) || decide (8 < dest))

/-- GEN_COMMIT (R356, R357): the staged set is taken for copying, or refused. While a copy runs it is discarded.
DEDUCED (log entry 40). -/
def execGenCommit (ctx : Nat) (s : State) : Host.Outcome State Fault Refusal :=
  s.run fun m =>
    let x := m.ctx ctx
    let g := m.staged ctx
    if x.copying.isSome then m
    else if m.genBad ctx g then m.setCtx ctx { x with result := 1 }
    else m.setCtx ctx { x with result := 0, copying := some g }

/-- GEN_COPY_DONE (R356): the copy becomes the pending generation, and C is recorded. -/
def execGenCopyDone (ctx : Nat) (s : State) : Host.Outcome State Fault Refusal :=
  s.run fun m =>
    let x := m.ctx ctx
    match x.copying with
    | none => m
    | some g => m.setCtx ctx { x with copying := none, pending := some g, pendingAt := m.chainage }

/-- The pending generation serves a frame that starts at `t`: t - C is at least 64 x its pitch, rounded up (R356). -/
def Ctx.pendingServes (x : Ctx) (c : Nat) (t : Chainage) : Bool :=
  match x.pending with
  | none => false
  | some g => decide ((ceilDiv (64 * g.pitch c) 65536 : Nat) ≤ chnDiff t x.pendingAt)

/-- The size of a context table. -/
def camTableSize (table : Nat) : Nat := if table = 1 then 49152 else if table = 2 then 12 else 0

/-- The reset entry of a context table (R350). -/
def camTableReset (table e : Nat) : Nat :=
  if table = 1 then 0x4000 else if e = 0 ∨ e = 5 ∨ e = 10 then 0x1000 else 0

/-- The entry that CAM_TBL_DATA reads. -/
def Mach.camTblEntry (m : Mach) : Nat :=
  let x := m.ctx (m.fld Reg.CAM_TBL_SEL.context)
  let t := m.fld Reg.CAM_TBL_SEL.table
  let i := m.fld Reg.CAM_TBL_IDX.idx
  if camTableSize t ≤ i then 0
  else Tab.getD (camTableReset t) (if t = 1 then x.stageDf else x.stageMx) i

/-- CAM_TBL_DATA_ACCESS (R350): a write lands in the staged set unless a copy of it runs, a read returns the entry; every
access advances the index. -/
def execCamTblDataAccess (write : Bool) (val : Nat) (s : State) : Host.Outcome State Fault Refusal :=
  s.run fun m =>
    let c := m.fld Reg.CAM_TBL_SEL.context
    let t := m.fld Reg.CAM_TBL_SEL.table
    let i := m.fld Reg.CAM_TBL_IDX.idx
    let x := m.ctx c
    let v := val % 2 ^ 32
    let m := if !write then m.emit (.hostRead (leBytes 4 (m.camTblEntry % 2 ^ 32)))
      else if x.copying.isSome || camTableSize t ≤ i then m
      else if t = 1 then m.setCtx c { x with stageDf := Tab.setD (camTableReset 1) x.stageDf i v }
      else m.setCtx c { x with stageMx := Tab.setD (camTableReset 2) x.stageMx i v }
    m.addWrap Reg.CAM_TBL_IDX.idx 1

/-! ### The spill and the camera rings (R354, R355) -/

/-- The units that wait for CAMO ring n. -/
def Mach.spill (m : Mach) (n : Nat) : List OutUnit := Tab.get [] m.cam.spill n

/-- The spills with one changed. -/
def Mach.setSpill (m : Mach) (n : Nat) (l : List OutUnit) : Mach :=
  { m with cam := { m.cam with spill := Tab.set [] m.cam.spill n l } }

/-- The bytes that pieces of a spill area hold. -/
def segBytes (l : List (Nat × Nat)) : Nat := l.foldl (fun a s => a + s.2) 0

/-- The bytes that wait in a spill. -/
def Mach.spillFill (m : Mach) (n : Nat) : Nat := (m.spill n).foldl (fun a u => a + segBytes u.segs) 0

/-- The size of a spill area in bytes; one that does not lie inside the camera region takes nothing (R341).
DESIGN CHOICE (log entry 43). -/
def Mach.spillSize (m : Mach) (n : Nat) : Nat :=
  let size := m.fld (Reg.CAM_SPILL_SIZE.size n) * 4096
  if m.fld (Reg.CAM_SPILL_BASE.base n) * 4096 + size ≤ m.cameraRegion then size else 0

/-- The DRAM address of an offset in a spill area (R354). -/
def Mach.spillAddr (m : Mach) (n off : Nat) : Nat :=
  m.fld Reg.DRM_MAP.cam_base * unit256M + m.fld (Reg.CAM_SPILL_BASE.base n) * 4096 + off

/-- A piece of a spill area put among others in the order of their offsets. -/
def insertSeg (s : Nat × Nat) : List (Nat × Nat) → List (Nat × Nat)
  | [] => [s]
  | t :: r => if s.1 ≤ t.1 then s :: t :: r else t :: insertSeg s r

/-- The pieces from offset `a` up to `size` that the pieces in use, in order, leave free. -/
def freeSegs (size : Nat) : Nat → List (Nat × Nat) → List (Nat × Nat)
  | a, [] => if a < size then [(a, size - a)] else []
  | a, s :: r => if a < s.1 then (a, s.1 - a) :: freeSegs size (s.1 + s.2) r else freeSegs size (max a (s.1 + s.2)) r

/-- The first `n` bytes of pieces, and what is left of them. -/
def cutSegs : Nat → List (Nat × Nat) → List (Nat × Nat) × List (Nat × Nat)
  | _, [] => ([], [])
  | n, s :: r =>
    if n = 0 then ([], s :: r)
    else if n < s.2 then ([(s.1, n)], (s.1 + n, s.2 - n) :: r)
    else ((s :: (cutSegs (n - s.2) r).1), (cutSegs (n - s.2) r).2)

/-- Where `n` more bytes of a spill go: the lowest bytes of its area that are free. DESIGN CHOICE (log entry 43). -/
def Mach.spillPlace (m : Mach) (n k : Nat) : List (Nat × Nat) :=
  let used := ((m.spill n).flatMap (fun u => u.segs)).foldl (fun l s => insertSeg s l) []
  (cutSegs k (freeSegs (m.spillSize n) 0 used)).1

/-- Data goes to pieces of a spill area: the write waits until DRAM accepts it. DESIGN CHOICE (log entry 244). -/
def Mach.spillPost (m : Mach) (n : Nat) (segs : List (Nat × Nat)) (d : List Byte) : Mach :=
  let r := segs.foldl (fun (a : List (Nat × List Byte) × List Byte) s =>
    (a.1 ++ [(m.spillAddr n s.1, a.2.take s.2)], a.2.drop s.2)) ([], d)
  { m with cam := { m.cam with posted := m.cam.posted ++ r.1 } }

/-- DRAM accepts the writes that wait, in their order (R385). -/
def Mach.camFlush (m : Mach) : Mach :=
  let m' := m.cam.posted.foldl (fun m w => m.dramWrite w.1 w.2) m
  { m' with cam := { m'.cam with posted := [] } }

/-- A byte of the camera region as the camera's port reads it: of the newest write to it, accepted or not (R385). -/
def Mach.camByte (m : Mach) (a : Nat) : Byte :=
  match m.cam.posted.reverse.find? (fun w => decide (w.1 ≤ a) && decide (a < w.1 + w.2.length)) with
  | some w => w.2.getD (a - w.1) 0
  | none => m.dramByte a

/-- The bytes of pieces of a spill area. -/
def Mach.spillRead (m : Mach) (n : Nat) (segs : List (Nat × Nat)) : List Byte :=
  segs.flatMap (fun s => (List.range s.2).map (fun i => m.camByte (m.spillAddr n s.1 + i)))

/-- A buffer that is full, or holds the end of a unit, completes (R354). -/
def Mach.bufDone (m : Mach) (b : CamBuffer) (u : OutUnit) (value : Nat) (last : Bool) : Mach :=
  m.complete b.desc { cplOf b.desc .ok with
    chn := some u.web, epoch := u.frame, value := value, continued := !last
    short := last && u.short, long := last && u.long, crcErr := last && u.crcErr }

/-- Move up to `left` bytes of a spill into the posted buffers, one unit after another (R354). A buffer that no window
holds any more completes WINDOW, and the next one takes its place (R113). A refused one completes as it comes first.
DEDUCED (log entry 189). The first argument bounds the steps. -/
def Mach.drainSteps (m : Mach) (n : Nat) : Nat → Nat → Mach
  | 0, _ => m
  | fuel + 1, left =>
    match m.camBufs n, m.spill n with
    | { desc := h, refused := some st, .. } :: bs, _ => ((m.setCamBufs n bs).done h st).drainSteps n fuel left
    | b :: bs, u :: us =>
      let cut := cutSegs (min left (b.len - b.filled)) u.segs
      let chunk := m.spillRead n cut.1
      let rest := cut.2
      let filled := b.filled + chunk.length
      if !chunk.isEmpty && !m.dmaOk true (b.addr + b.filled) chunk.length then
        ((m.setCamBufs n bs).windowFail b.desc).drainSteps n fuel left
      else
        let m := if chunk.isEmpty then m else m.emit (.hostWrite (b.addr + b.filled) chunk)
        if u.closed && rest.isEmpty then
          (((m.setSpill n us).setCamBufs n bs).bufDone b u filled true).drainSteps n fuel (left - chunk.length)
        else
          let m := m.setSpill n ({ u with segs := rest } :: us)
          if filled = b.len then ((m.setCamBufs n bs).bufDone b u filled false).drainSteps n fuel (left - chunk.length)
          else m.setCamBufs n ({ b with filled := filled } :: bs)
    | _, _ => m

/-- Up to `left` bytes of a spill go out. -/
def Mach.drainBytes (m : Mach) (n left : Nat) : Mach :=
  m.drainSteps n ((m.spill n).length + (m.camBufs n).length + 1) left

/-- The bytes of a spill whose writes a stop holds already. -/
def Mach.camHeld (m : Mach) (n : Nat) : Nat :=
  m.hst.held.foldl (fun a w => match w with | .camo k b => if k = n then a + b else a | _ => a) 0

/-- A stop holds the write of what is new in a spill, in its order among the others (R136, R355). -/
def Mach.camHold (m : Mach) (n : Nat) : Mach :=
  let new := m.spillFill n - m.camHeld n
  if new = 0 ∨ (m.camBufs n).all (fun b => b.refused.isSome) then m
  else { m with hst := { m.hst with held := m.hst.held ++ [.camo n new] } }

/-- What the posted buffers take of a spill now. While the link is down nothing leaves, and a stop holds the writes. -/
def Mach.camDrain (m : Mach) (n : Nat) : Mach :=
  if m.pwr.powerFail then m
  else if m.hst.stopped then m.camHold n
  else if !m.linkUp then m
  else m.drainWaiting.drainBytes n (m.spillFill n + 1)

/-- Every spill. -/
def Mach.camDrainAll (m : Mach) : Mach := (List.range 8).foldl Mach.camDrain m

/-- BUFFER (R127): host memory for camera output n, taken in ring order. -/
def execBuffer (h : DescRef) (f : BufferF) (s : State) : Host.Outcome State Fault Refusal :=
  s.run fun m => m.act h 0x80 false false fun m =>
    if f.len % 64 ≠ 0 || decide (f.len < 4096) || decide (2 ^ 24 < f.len) || f.addr % 64 ≠ 0 then m.refuse h .badParam
    else if !m.dmaOk true f.addr f.len then m.windowFail h
    else
      let n := h.ring - 12
      let m := m.mirrorDesc h (.buffer h.ring f)
      (m.setCamBufs n (m.camBufs n ++ [{ desc := h, addr := f.addr, len := f.len }])).camDrain n

/-- A unit is lost or cut short: counted, and EV_CAM_OUT_DROP raised (R355). -/
def Mach.outDrop (m : Mach) (n c o : Nat) (frame : Word) (cut : Bool) : Mach :=
  (m.addSat (Reg.CAM_SPILL_DROP.cnt n) 1).raise Ev.camOutDrop .error (c + 8 * o + 256 * ofBool cut) frame.toNat

/-- The unit of an output of a frame within a spill, changed. -/
def Mach.updUnit (m : Mach) (n c o : Nat) (frame : Word) (f : OutUnit → OutUnit) : Mach :=
  m.setSpill n ((m.spill n).map (fun u => if u.ctx = c && u.out = o && u.frame = frame then f u else u))

/-- What a spill keeps free for the headers and trailers of its units. DESIGN CHOICE (log entry 43). -/
def Mach.spillKept (m : Mach) (n : Nat) : Nat :=
  (m.spill n).foldl (fun a u => a + (if u.headed then 0 else 64) + (if u.closed then 0 else 64)) 0

/-- Bytes of a unit enter its spill, and the unit changes with them. -/
def Mach.unitAdd (m : Mach) (n c o : Nat) (frame : Word) (d : List Byte) (f : OutUnit → OutUnit) : Mach :=
  let segs := m.spillPlace n d.length
  (m.spillPost n segs d).updUnit n c o frame (fun u => f { u with segs := u.segs ++ segs })

/-- A record of a unit enters its spill, or the rest of the unit's payload is discarded (R355). -/
def Mach.unitPut (m : Mach) (n c o : Nat) (frame : Word) (records : Nat) (d : List Byte) : Mach :=
  match (m.spill n).find? (fun u => u.ctx = c && u.out = o && u.frame = frame) with
  | none => m
  | some u =>
    if u.truncated then m
    else if m.spillFill n + d.length + m.spillKept n ≤ m.spillSize n then
      m.unitAdd n c o frame d (fun u => { u with records := u.records + records, payload := u.payload + d.length })
    else (m.updUnit n c o frame (fun u => { u with truncated := true })).outDrop n c o frame true

/-! ### Strips as frames see them (R360, R362) -/

/-- Strip `k` of a job with the settings now in force. -/
def Mach.stripAt (m : Mach) (x : Job) (j k : Nat) (ours : Bool) : StripAt :=
  let row (r : Nat) (p : Option Nat) : StripRow :=
    { row := r, plane := p, first := x.lineChn (x.stripLine k r)
      last := x.lineChn (x.stripLine k r + x.lfld Reg.CAM_CLS_ROW.row_lines - 1) }
  { job := j, tag := x.tag, num := k
    rows := row 0 none :: (List.range x.stripPlanes.length).map (fun i => row (i + 1) x.stripPlanes[i]?)
    pitch := x.pitch, guard := x.lfld Reg.CAM_CLS_ROW.guard_lines, guardCols := x.lfld Reg.CAM_CLS_ROW.guard_cols
    gFirst := x.lfld Reg.CAM_CLS_GROUPS.g_first, gLast := x.lfld Reg.CAM_CLS_GROUPS.g_last
    tint := m.tintOf k, cfg := word (m.rd Reg.CAM_CLS_CFG), loop := word (m.rd Reg.CAM_CLS_LOOP), ours := ours
    run := x.run }

/-- The job whose line holds a web chainage, printing or ended since, with its slot and the slots of the layer of
R197. -/
def Mach.webJob (m : Mach) (web : Chainage) : Option PastJob :=
  match m.lineJobs.find? (fun j => (m.job j).onWeb web) with
  | some j => some { slot := j, job := m.job j, slots := m.namedSlots j }
  | none => m.vgp.past.find? (fun p => p.job.onWeb web)

/-- The strip that a station's frame measures: the first one that ends beyond the web chainage it starts at. -/
def Mach.stripSeen (m : Mach) (web : Chainage) : Option StripAt :=
  match m.webJob web with
  | none => none
  | some p =>
    let x := p.job
    let step := x.lfld Reg.CAM_CLS_STRIP.lines
    if step = 0 then none
    else
      let n := x.lineAt web
      let k := (n - x.stripLine 0 0) / step
      some (m.stripAt x p.slot (if x.stripLine k 0 + x.stripLength ≤ n then k + 1 else k) false)

/-! ### Starting a frame (R343 to R346) -/

/-- The open frame of a context. -/
def Mach.frame (m : Mach) (c : Nat) : Option Frame := (m.ctx c).frame

/-- A frame stored into its context. -/
def Mach.setFrame (m : Mach) (c : Nat) (f : Frame) : Mach := m.setCtx c { m.ctx c with frame := some f }

/-- The contexts with an open frame on a device. -/
def Mach.openOn (m : Mach) (d : Nat) : List Nat :=
  (List.range 8).filter (fun c => m.ctxDev c = d && (m.frame c).isSome)

/-- A context refuses a start as busy (R343). -/
def Mach.startRefused (m : Mach) (c : Nat) (g : Gen) : Bool :=
  let d := m.ctxDev c
  let others := (m.openOn d).filter (· ≠ c)
  !m.flag (Reg.CAM_C_CFG.en c) || (m.dev d).state ≠ .up || (m.frame c).isSome ||
  (if m.fld (Reg.CAM_C_CFG.mode c) = 0 then
    others.any (fun o => (m.frame o).any (fun f => !f.line || f.gen.pitch o ≠ g.pitch c))
  else !others.isEmpty)

/-- The least interval between triggers, in DTM ticks of 2 ns, and whether a trigger now would come too soon. -/
def Mach.trigSoon (m : Mach) (d : Nat) : Bool :=
  match (m.dev d).lastTrig with
  | none => false
  | some t => decide (2 * (m.now - t) < max 1000 (m.fld (Reg.CAM_D_TRIG.trig_min_ns d)))

/-- Triggers of a device were not sent: counted, and EV_CAM_TRIG_SKIP at most once per 10 ms (R345, R358). -/
def Mach.trigSkip (m : Mach) (d n : Nat) : Mach :=
  (m.addSat (Reg.CAM_D_TRIG_SKIP.cnt d) n).raiseRated Ev.camTrigSkip d .error d 0 n

/-- Send a trigger packet on a device's first connection. DEDUCED (log entry 223). -/
def Mach.sendTrig (m : Mach) (d k : Nat) : Mach :=
  let m := m.emit (.trigger (m.fld (Reg.CAM_D_CFG.first d)) k)
  m.setDev d { m.dev d with lastTrig := some m.now }

/-- The CAMO ring that takes an output: its destination, or under owner HOST closure's forwarding ring (R370). -/
def Mach.outRing (m : Mach) (c o : Nat) (g : Gen) : Option Nat :=
  let dest := g.fld (Reg.CAM_C_OUT_CFG.dest c o)
  if dest < 8 then some dest
  else if m.flag Reg.CAM_CLS_CFG.owner then some (m.fld Reg.CAM_CLS_CFG.host_ring) else none

/-- The outputs of a generation in use. -/
def Gen.outs (g : Gen) (c : Nat) : List Nat :=
  (List.range 4).filter (fun o => g.fld (Reg.CAM_C_OUT_CFG.en c o) = 1 && decide (g.fld (Reg.CAM_C_OUT_CFG.kind c o) < 4))

/-- Each output takes its place in its ring's spill, or is discarded whole when the ring is not enabled, or when the
spill cannot keep room for its header and trailer (R355). DESIGN CHOICE (log entry 43). -/
def Mach.openUnits (m : Mach) (c : Nat) (f : Frame) : Mach :=
  (f.gen.outs c).foldl (fun m o =>
    match m.outRing c o f.gen with
    | none => m
    | some n =>
      if m.flag (Reg.HST_RING_CFG.en (12 + n)) && decide (m.spillFill n + m.spillKept n + 128 ≤ m.spillSize n) then
        m.setSpill n (m.spill n ++ [{ ctx := c, out := o, frame := f.num }])
      else m.outDrop n c o f.num false) m

/-- An output of a generation goes to closure as STATS. -/
def Gen.statsOut (g : Gen) (c : Nat) : Option Nat :=
  (g.outs c).find? (fun o => g.fld (Reg.CAM_C_OUT_CFG.kind c o) = 0 && g.fld (Reg.CAM_C_OUT_CFG.dest c o) = 8)

/-- A strip waits for a context's unit. -/
def Mach.awaitUnit (m : Mach) (s : StripAt) (c : Nat) : Mach :=
  let same (t : StripAt) : Bool := t.run = s.run && t.num = s.num
  { m with cls := { m.cls with
      strips := if m.cls.strips.any (fun e => same e.1) then
          m.cls.strips.map (fun e => if same e.1 && !e.2.contains c then (e.1, e.2 ++ [c]) else e)
        else m.cls.strips ++ [(s, [c])] } }

/-- Start a frame on a context at target `t`, for a station or for closure; the flag tells whether it started. -/
def Mach.startFrame (m : Mach) (c : Nat) (t : Chainage) (strip : Option StripAt) : Mach × Bool :=
  let x := m.ctx c
  let next := x.pendingServes c t
  let g := if next then x.pending.getD x.active else x.active
  if m.startRefused c g then (m, false)
  else
    let d := m.ctxDev c
    let line : Bool := m.fld (Reg.CAM_C_CFG.mode c) = 0
    let num := x.frameNum + 1
    let sched := match (m.dev d).sched with
      | some s => s
      | none => { origin := t, pitch := g.pitch c, next := 0 }
    let f : Frame :=
      { num := num, gen := g, start := t, line := line
        firstK := if line then
            max sched.next (if sched.pitch = 0 then 0 else ceilDiv ((chnDiff t sched.origin).toNat * 65536) sched.pitch)
          else 0
        lastTick := m.now, startTime := m.time, epoch := m.epo.counter
        strip := match strip with | some s => some s | none => m.stripSeen (t - g.dist c)
        forward := if m.flag Reg.CAM_CLS_CFG.owner then some (m.fld Reg.CAM_CLS_CFG.host_ring) else none }
    let m := m.setCtx c { x with
      active := g, pending := if next then none else x.pending, frameNum := num, frame := some f }
    let m := if next then m.raise Ev.camGen .info (c + 256 * (num.toNat % 2 ^ 24)) g.num.toNat else m
    let m := m.openUnits c f
    let m := match f.strip, g.statsOut c with
      | some a, some _ => m.awaitUnit a c
      | _, _ => m
    if line then (m.setDev d { m.dev d with sched := some sched }, true)
    else if m.trigSoon d then ((m.setFrame c { f with unsent := 1 }).trigSkip d 1, true)
    else (m.sendTrig d 0, true)

/-! ### Correction (R349) -/

/-- One pixel of a line in measurement space. -/
def correctPixel (g : Gen) (bits : Nat) (rgb : Bool) (x : Nat) (s : List Nat) : List Nat :=
  let f (j : Nat) : Nat :=
    if !rgb && decide (0 < j) then 0
    else
      let a := s.getD j 0 * 2 ^ (16 - bits)
      let e := Tab.getD (camTableReset 1) g.darkFlat (3 * x + j)
      min 65535 (((a - e / 65536) * (e % 65536) + 8192) / 16384)
  let fs : List Int := [f 0, f 1, f 2]
  (List.range 3).map (fun i =>
    let a (j : Nat) : Int := signed 16 (Tab.getD (camTableReset 2) g.matrix (4 * i + j))
    let sum := (List.range 3).foldl (fun n j => n + a j * fs.getD j 0) 0
    (clampInt 0 65535 ((sum + a 3 * 4096 + 2048) / 4096)).toNat)

/-- The bits of a sample from its code in CAM_D<d>_CFG. -/
def sampleBits (code : Nat) : Nat := if code = 0 then 8 else if code = 1 then 10 else if code = 2 then 12 else 16

/-- A line's pixels after correction. PRESUMED (log entry 37). -/
def correctLine (g : Gen) (bits : Nat) (rgb : Bool) (px : List (List Nat)) : List (List Nat) :=
  (List.range px.length).map (fun x => correctPixel g bits rgb x (px.getD x []))

/-! ### Outputs (R351 to R353, R364) -/

/-- The channels of a context's device. -/
def Mach.channels (m : Mach) (c : Nat) : Nat := if m.flag (Reg.CAM_D_CFG.rgb (m.ctxDev c)) then 3 else 1

/-- A channel of a taken line's pixel. -/
def TakenLine.at_ (t : TakenLine) (x ch : Nat) : Nat := (t.px.getD x []).getD ch 0

/-- The mean of a box: columns from x0, and good lines (R351). -/
def boxMean (ls : List TakenLine) (x0 bx ch : Nat) : Nat :=
  let n := ls.length * bx
  let sum := ls.foldl (fun a t => (List.range bx).foldl (fun a i => a + t.at_ (x0 + i) ch) a) 0
  if n = 0 then 0 else (sum + n / 2) / n

/-- The good lines of a frame with indexes from `a`, `b` excluded. -/
def Frame.good (f : Frame) (a b : Nat) : List TakenLine :=
  f.lines.filter (fun t => t.good && decide (a ≤ t.index) && decide (t.index < b))

/-- One output's crop and boxes. -/
structure OutShape where
  kind : Nat
  first : Nat
  width : Nat
  bx : Nat
  lo : Nat
  count : Nat
  by_ : Nat
  u8 : Bool
  deriving DecidableEq, Repr

/-- The shape of output `o` in a generation. -/
def Gen.shape (g : Gen) (c o : Nat) : OutShape :=
  { kind := g.fld (Reg.CAM_C_OUT_CFG.kind c o), first := g.fld (Reg.CAM_C_OUT_COLS.first c o)
    width := g.fld (Reg.CAM_C_OUT_COLS.width c o), bx := g.fld (Reg.CAM_C_OUT_CFG.bx_m1 c o) + 1
    lo := g.fld (Reg.CAM_C_OUT_LINES.line_first c o), count := g.fld (Reg.CAM_C_OUT_LINES.line_count c o)
    by_ := g.fld (Reg.CAM_C_OUT_CFG.by_m1 c o) + 1, u8 := g.fld (Reg.CAM_C_OUT_CFG.u8 c o) = 1 }

/-- The lines of box row `b`: from, to, the end excluded; empty beyond the crop. -/
def OutShape.box (s : OutShape) (b : Nat) : Nat × Nat :=
  let a := s.lo + b * s.by_
  let e := a + s.by_
  if s.count = 0 then (a, e) else (a, min e (s.lo + s.count))

/-- A list of bytes padded with zeros to a multiple of 64. -/
def pad64 (d : List Byte) : List Byte := d ++ List.replicate (ceilDiv d.length 64 * 64 - d.length) 0

/-- The samples of a box row: columns left to right, channels interleaved (R351). -/
def rowSamples (s : OutShape) (chans : Nat) (ls : List TakenLine) : List Nat :=
  (List.range (s.width / s.bx)).flatMap (fun i =>
    (List.range chans).map (fun ch => boxMean ls (s.first + i * s.bx) s.bx ch))

/-- The newest proof record of the ring whose lines hold a web chainage (R352). DEDUCED (log entry 44). -/
def Mach.proofFor (m : Mach) (web : Chainage) : Option (List Byte) :=
  (m.cmp.recs.find? (fun r =>
    let d := chnDiff web (BitVec.ofNat 48 (leField (m.dramRead r.addr 6) 0 6))
    decide (0 ≤ d) && decide (d * 65536 < (r.span : Int)))).map (fun r => m.dramRead r.addr r.size)

/-- A GOLDEN record (R352). DEDUCED (log entry 44). DESIGN CHOICE (log entries 58, 59). -/
def Mach.goldenRecord (m : Mach) (c o : Nat) (g : Gen) (web : Chainage) (samples : List Nat) : List Byte :=
  let c0 := g.fld (Reg.CAM_C_OUT_GOLD.gcell_first c o)
  let n := g.fld (Reg.CAM_C_OUT_GOLD.gcell_count c o)
  let body (head : List Byte) (vals : List Nat) : List Byte :=
    pad64 (head ++ samples.flatMap (leBytes 2) ++ vals.flatMap (leBytes 2))
  match m.proofFor web with
  | some r =>
    let cells := leField r 20 2
    let planes := popCount 10 (leField r 22 2)
    body (r.take 6 ++ leBytes 1 (2 * (leField r 6 1 % 4)) ++ leBytes 1 0 ++ (r.drop 8).take 8)
      ((List.range planes).flatMap (fun p => (List.range n).map (fun i =>
        if cells ≤ c0 + i then Config.openValue 58 (c0 + i) else leField r (32 + 2 * ((c0 + i) * planes + p)) 2)))
  | none =>
    let planes := popCount 10 (m.fld Reg.CMP_PROOF_CFG.planes)
    body (leBytes 6 (Config.openValue 59 0) ++ leBytes 1 1 ++ leBytes 1 0 ++ leBytes 8 (Config.openValue 59 1))
      (List.replicate (n * planes) 0xFFFF)

/-- The record of a box row of IMAGE or GOLDEN. -/
def Mach.boxRecord (m : Mach) (c o b : Nat) (f : Frame) : List Byte :=
  let s := f.gen.shape c o
  let e := s.box b
  let px := rowSamples s (m.channels c) (f.good e.1 e.2)
  if s.kind = 2 then
    pad64 (if s.u8 then px.flatMap (fun v => leBytes 1 (min 255 ((v + 128) / 256))) else px.flatMap (leBytes 2))
  else
    let k := f.firstK + e.1
    let web := match (m.dev (m.ctxDev c)).sched with
      | some d => if f.line then d.origin + BitVec.ofNat 48 (k * d.pitch / 65536) - f.gen.dist c
                  else f.start + BitVec.ofNat 48 (e.1 * f.gen.pitch c / 65536) - f.gen.dist c
      | none => f.start + BitVec.ofNat 48 (e.1 * f.gen.pitch c / 65536) - f.gen.dist c
    m.goldenRecord c o f.gen web px

/-- Write the box rows of an output that end at or before line `upTo`, or at the frame's close those that hold any of
its first `upTo` lines. -/
def Mach.putBoxes (m : Mach) (c o n : Nat) (f : Frame) (upTo : Nat) (final : Bool) : Nat → Nat → Mach
  | 0, b => match m.frame c with
    | some g => m.setFrame c { g with boxes := Tab.set 0 g.boxes o b }
    | none => m
  | fuel + 1, b =>
    let e := (f.gen.shape c o).box b
    if e.1 < e.2 ∧ (e.2 ≤ upTo ∨ (final ∧ e.1 < upTo)) then
      (m.unitPut n c o f.num 1 (m.boxRecord c o b f)).putBoxes c o n f upTo final fuel (b + 1)
    else match m.frame c with
      | some g => m.setFrame c { g with boxes := Tab.set 0 g.boxes o b }
      | none => m

/-- The bytes of a unit's header (R353). DESIGN CHOICE (log entries 60, 61, 62). -/
def Mach.unitHeader (m : Mach) (c o : Nat) (f : Frame) : List Byte :=
  let s := f.gen.shape c o
  let web := match f.lines.head? with | some t => t.web.toNat | none => Config.openValue 60 f.num.toNat
  let time := match f.lines.head? with
    | some t => if f.line || t.index = 0 then f.firstTime.toNat else Config.openValue 61 f.num.toNat
    | none => Config.openValue 61 f.num.toNat
  let bytes := if s.kind = 0 then Config.openValue 62 0 else if s.kind = 1 then 4 else if s.kind = 2 ∧ s.u8 then 1 else 2
  leBytes 2 0xCA3E ++ leBytes 1 1 ++ leBytes 1 (c + 8 * o + 32 * s.kind) ++ leBytes 4 f.num.toNat ++ leBytes 6 web ++
  leBytes 2 0 ++ leBytes 8 time ++ leBytes 4 f.gen.num.toNat ++ leBytes 4 f.epoch.toNat ++
  leBytes 2 (if s.kind = 0 then s.width else s.width / s.bx) ++ leBytes 1 (m.channels c) ++ leBytes 1 bytes ++
  leBytes 2 s.first ++ leBytes 2 s.width ++ leBytes 1 s.bx ++ leBytes 1 s.by_ ++ leBytes 6 (f.gen.pitch c) ++
  leBytes 4 f.jobLine.toNat ++ leBytes 4 f.item.toNat ++ leBytes 8 0

/-- The bytes of a unit's trailer (R353). -/
def Mach.unitTrailer (m : Mach) (c : Nat) (f : Frame) (u : OutUnit) (halted : Bool) : List Byte :=
  let last := match f.lines.getLast? with | some t => t.web.toNat | none => Config.openValue 60 f.num.toNat
  leBytes 2 0xCA3F ++
  leBytes 1 (ofBool u.short + 2 * ofBool u.long + 4 * ofBool u.crcErr + 8 * ofBool (!f.line) + 16 * ofBool halted +
    32 * ofBool u.truncated) ++
  leBytes 1 0 ++ leBytes 4 f.num.toNat ++ leBytes 4 (f.gen.len c) ++ leBytes 4 f.lines.length ++ leBytes 4 f.excess ++
  leBytes 4 f.bad ++ leBytes 4 f.unsent ++ leBytes 4 f.overflow ++ leBytes 6 last ++ leBytes 2 0 ++
  leBytes 8 m.time.toNat ++ leBytes 4 u.records ++ leBytes 4 u.payload ++ leBytes 8 0

/-- A PROFILE payload (R351): for each output column and channel, the sum over the good lines of the bx-average. -/
def Mach.profilePayload (m : Mach) (c o : Nat) (f : Frame) : List Byte :=
  let s := f.gen.shape c o
  let ls := f.good s.lo (if s.count = 0 then 131072 else s.lo + s.count)
  (List.range (s.width / s.bx)).flatMap (fun i =>
    (List.range (m.channels c)).flatMap (fun ch =>
      leBytes 4 (ls.foldl (fun a t => a + boxMean [t] (s.first + i * s.bx) s.bx ch) 0)))

/-- The column of a camera pixel, c(x), given the crop's first pixel (R363). -/
def mapColumn (base : Int) (k first x : Nat) : Int := (base + ((x : Int) - first) * k) / 65536

/-- BASE of a context's map, signed. -/
def Mach.mapBase (m : Mach) (c : Nat) : Int := signed 64 (m.pair (Reg.CAM_CLS_C_BASE_LO c))

/-- K of a context's map. -/
def Mach.mapK (m : Mach) (c : Nat) : Nat := m.fld (Reg.CAM_CLS_C_K.k c)

/-- The good lines of a frame that belong to a strip row (R363). -/
def Frame.rowLines (f : Frame) (s : StripAt) (r : StripRow) : List TakenLine :=
  f.lines.filter (fun t => t.good &&
    decide (((s.guard * s.pitch : Nat) : Int) ≤ chnDiff t.web r.first * 65536) &&
    decide (chnDiff t.web r.last * 65536 < (s.pitch : Int) - ((s.guard * s.pitch : Nat) : Int)))

/-- The groups of a strip on a plane: from g_first to g_last, as far as the plane has them. -/
def Mach.stripGroups (m : Mach) (s : StripAt) (p : Nat) : List Nat :=
  let n := nozzleCount (m.planeHeads p)
  if n = 0 then []
  else (List.range (min s.gLast ((n - 1) / 32) + 1 - s.gFirst)).map (fun i => s.gFirst + i)

/-- The measurement channel of a plane. -/
def Mach.planeChannel (m : Mach) (p : Nat) : Nat := m.fld (Reg.CAM_CLS_P_CFG.ch p)

/-- The sums of a cell over pixels and lines, for one channel (R364). -/
def cellOf (ls : List TakenLine) (xs : List Nat) (ch : Nat) : Cell :=
  ls.foldl (fun a t => xs.foldl (fun a x =>
    let v := if ch < 3 then t.at_ x ch else Config.openValue 63 x
    { n := a.n + 1, sum := a.sum + v, sum2 := a.sum2 + v * v }) a) { n := 0, sum := 0, sum2 := 0 }

/-- The sections of a STATS unit (R363, R364). The paper row's groups are those of the lowest strip plane.
DESIGN CHOICE (log entry 63). -/
def Mach.statRows (m : Mach) (c o : Nat) (f : Frame) : List StatRow :=
  match f.strip with
  | none => []
  | some s =>
    let sh := f.gen.shape c o
    let base := m.mapBase c
    let k := m.mapK c
    let xs := (List.range sh.width).map (fun i => sh.first + i)
    let low := match s.rows with | _ :: r :: _ => r.plane.getD 0 | _ => 0
    s.rows.map (fun r =>
      let p := r.plane.getD low
      let ls := f.rowLines s r
      let chans := match r.plane with | none => [0, 1, 2] | some p => [m.planeChannel p]
      let hs := m.planeHeads p
      { row := r.row, plane := r.plane, lines := ls.length, first := r.first
        cells := (m.stripGroups s p).map (fun g =>
          let inside := match groupSpan hs g with
            | none => []
            | some (a, b) => xs.filter (fun x =>
                let cx := mapColumn base k sh.first x
                decide ((a : Int) + s.guardCols ≤ cx) && decide (cx ≤ (b : Int) - s.guardCols))
          chans.map (cellOf ls inside))
        profiles := chans.map (fun ch => xs.map (fun x => (cellOf ls [x] ch).sum)) })

/-- The payload of a STATS unit (R364). -/
def Mach.statsPayload (m : Mach) (s : StripAt) (rows : List StatRow) : List Byte :=
  rows.flatMap (fun r =>
    let cells := r.cells.flatMap (fun l => l)
    leBytes 1 r.row ++ leBytes 1 (r.plane.getD 0xFF) ++ leBytes 1 s.tint ++
    leBytes 1 (match r.plane with | none => 0xFF | some p => m.planeChannel p) ++
    leBytes 4 r.lines ++ leBytes 4 cells.length ++ leBytes 4 ((r.profiles.getD 0 []).length) ++
    cells.flatMap (fun x => leBytes 4 x.n ++ leBytes 4 0 ++ leBytes 8 x.sum ++ leBytes 8 x.sum2) ++
    r.profiles.flatMap (fun l => l.flatMap (leBytes 4)))

/-! ### Lines into frames, and closing (R346, R347) -/

/-- After a line or trigger: the box rows that are complete enter their spills, the header first.
DEDUCED (log entry 45). -/
def Mach.produce (m : Mach) (c : Nat) (f : Frame) (upTo : Nat) (final : Bool) : Mach :=
  (f.gen.outs c).foldl (fun m o =>
    let s := f.gen.shape c o
    match (if f.gen.fld (Reg.CAM_C_OUT_CFG.dest c o) < 8 then some (f.gen.fld (Reg.CAM_C_OUT_CFG.dest c o)) else none) with
    | none => m
    | some n =>
      let waits := (m.spill n).any (fun u => u.ctx = c && u.out = o && u.frame = f.num && !u.headed)
      let m := if !waits || (f.lines.isEmpty && !final) then m
        else m.unitAdd n c o f.num (m.unitHeader c o f) (fun u => { u with
          headed := true
          web := match f.lines.head? with
            | some t => t.web
            | none => BitVec.ofNat 48 (Config.openValue 60 f.num.toNat) })
      let m := if s.kind = 2 ∨ s.kind = 3 then
          m.putBoxes c o n f upTo final (upTo / s.by_ + 2) (Tab.get 0 f.boxes o)
        else if s.kind = 1 ∧ final then m.unitPut n c o f.num 1 (m.profilePayload c o f)
        else m
      m.camDrain n) m

/-- A frame is SHORT that closes by TIMEOUT or because its device goes DOWN, or that took fewer lines than LEN (R347).
DESIGN CHOICE (log entry 42). -/
def Frame.isShort (f : Frame) (c : Nat) (w : FrameEnd) : Bool :=
  w = .timeout || w = .down || decide (f.lines.length < f.gen.len c)

/-- A unit's flags as its frame closes. -/
def OutUnit.flagged (u : OutUnit) (c : Nat) (f : Frame) (w : FrameEnd) : OutUnit :=
  { u with closed := true, short := f.isShort c w, long := decide (0 < f.excess), crcErr := decide (0 < f.bad) }

/-- Hand a frame's closure outputs to closure (R353, R370). -/
def Mach.toClosure (m : Mach) (c : Nat) (f : Frame) (w : FrameEnd) : Mach :=
  (f.gen.outs c).foldl (fun m o =>
    let s := f.gen.shape c o
    if f.gen.fld (Reg.CAM_C_OUT_CFG.dest c o) ≠ 8 ∨ (s.kind ≠ 0 ∧ f.forward.isNone) then m
    else
      let rows := if s.kind = 0 then m.statRows c o f else []
      let pay := if s.kind = 0 then (match f.strip with | some a => m.statsPayload a rows | none => [])
        else m.profilePayload c o f
      let u : OutUnit := OutUnit.flagged
        { ctx := c, out := o, frame := f.num, records := if s.kind = 0 then rows.length else 1, payload := pay.length
          headed := true
          web := match f.lines.head? with
            | some t => t.web
            | none => BitVec.ofNat 48 (Config.openValue 60 f.num.toNat) } c f w
      let su : StatUnit :=
        { ctx := c, out := o, frame := f.num, strip := f.strip, first := s.first, base := m.mapBase c, k := m.mapK c
          stats := s.kind = 0, rows := rows, ring := f.forward, header := m.unitHeader c o f, payload := pay
          trailer := m.unitTrailer c f u (w = .halted), unit := u }
      { m with cls := { m.cls with units := m.cls.units ++ [su] } }) m

/-- A device's schedule stops when no LINE frame is open on it (R344). The triggers that still wait for their lines belong
to no frame from then on. DEDUCED (log entry 41). -/
def Mach.schedUpdate (m : Mach) (d : Nat) : Mach :=
  if (m.openOn d).any (fun c => (m.frame c).any (fun f => f.line)) then m
  else m.setDev d { m.dev d with sched := none, trigs := (m.dev d).trigs.map (fun t => { t with gone := true }) }

/-- A trigger of a device is one of a frame's. -/
def Frame.hasTrig (f : Frame) (c : Nat) (t : Trig) : Bool :=
  f.line && !t.gone && decide (f.firstK ≤ t.k) && decide (t.k < f.firstK + f.gen.len c)

/-- The unanswered triggers of a frame that closes on TIMEOUT are written off, but for those of another open frame
(R347). -/
def Mach.writeOff (m : Mach) (c : Nat) (f : Frame) : Mach :=
  let d := m.ctxDev c
  let x := m.dev d
  m.setDev d { x with trigs := x.trigs.filter (fun t =>
    !f.hasTrig c t || ((m.openOn d).filter (· ≠ c)).any (fun o => (m.frame o).any (fun g => g.hasTrig o t))) }

/-- Close a frame (R347): what remains of its outputs, the trailers, and the events. -/
def Mach.closeFrame (m : Mach) (c : Nat) (w : FrameEnd) : Mach :=
  match m.frame c with
  | none => m
  | some f =>
    let m := if w = .timeout then m.writeOff c f else m
    let upTo := match f.lines.getLast? with | some t => t.index + 1 | none => 0
    let m := (m.produce c f upTo true).toClosure c f w
    let m := (f.gen.outs c).foldl (fun m o =>
      if f.gen.fld (Reg.CAM_C_OUT_CFG.dest c o) < 8 then
        let n := f.gen.fld (Reg.CAM_C_OUT_CFG.dest c o)
        match (m.spill n).find? (fun u => u.ctx = c && u.out = o && u.frame = f.num) with
        | none => m
        | some u =>
          (m.unitAdd n c o f.num (m.unitTrailer c f (u.flagged c f w) (w = .halted)) (fun u => u.flagged c f w)).camDrain n
      else m) m
    let m := m.setCtx c { m.ctx c with frame := none }
    let id := c + 256 * (f.num.toNat % 2 ^ 24)
    let m := if f.isShort c w then m.raise Ev.camFrameShort .error id f.lines.length else m
    let m := if 0 < f.excess then m.raise Ev.camFrameLong .error id f.excess else m
    m.schedUpdate (m.ctxDev c)

/-- A LINE frame closes once each of its LEN triggers is answered or counted as not sent (R347). -/
def Mach.closeIfDone (m : Mach) (c : Nat) : Mach :=
  match m.frame c with
  | some f => if f.line ∧ f.gen.len c ≤ f.answered + f.unsent then m.closeFrame c .ended else m
  | none => m

/-- A line of web chainage `web` and frame index `i` enters a frame (R346, R349). -/
def Mach.takeLine (m : Mach) (c i : Nat) (web : Chainage) (time : DWord) (good : Bool) (l : CamLine) : Mach :=
  match m.frame c with
  | none => m
  | some f =>
    let d := m.ctxDev c
    let bits := sampleBits (m.fld (Reg.CAM_D_CFG.bits d))
    let t : TakenLine :=
      { index := i, web := web, good := good
        px := if good then correctLine f.gen bits (m.flag (Reg.CAM_D_CFG.rgb d)) l.px else [] }
    let f := if f.lines.isEmpty then
        match m.webJob web with
        | none => { f with firstTime := time }
        | some p =>
          let n := p.job.lineIn web
          { f with firstTime := time, jobLine := word n, item := p.job.itemAt p.slots n }
      else f
    let f := { f with
      lines := f.lines ++ [t], answered := f.answered + 1, bad := f.bad + ofBool (!good)
      lastTick := if f.line then f.lastTick else m.now }
    let m := { m with cam := { m.cam with pixels := m.cam.pixels + l.px.length } }
    (m.setFrame c f).produce c f (i + 1) false

/-- The bytes that lines waiting for the pipeline take in the line store of 2 MB (R342). -/
def Mach.storeFill (m : Mach) : Nat := m.cam.store.foldl (fun a s => a + s.1) 0

/-- The bytes of a line of a device as received (R341). -/
def Mach.lineBytes (m : Mach) (d : Nat) : Nat :=
  let chans := if m.flag (Reg.CAM_D_CFG.rgb d) then 3 else 1
  ceilDiv (m.fld (Reg.CAM_D_WIDTH.width d) * chans * sampleBits (m.fld (Reg.CAM_D_CFG.bits d))) 8

/-- The raw ring keeps every line of a device as received (R341): samples packed from the least significant bit.
DEDUCED (log entry 39). -/
def Mach.rawStore (m : Mach) (d : Nat) (l : CamLine) : Mach :=
  let bytes := m.lineBytes d
  let base := m.fld (Reg.CAM_D_RAW_BASE.base d) * 4096
  let size := m.fld (Reg.CAM_D_RAW_SIZE.size d) * 4096
  let cap := size / bytes
  if bytes = 0 || cap = 0 || decide (m.cameraRegion < base + size) then m
  else
    let n := l.px.foldr (fun p acc => p.foldr (fun v acc => v % 2 ^ l.bits + 2 ^ l.bits * acc) acc) 0
    m.dramWrite (m.fld Reg.DRM_MAP.cam_base * unit256M + base + m.fld (Reg.CAM_D_LINES.cnt d) % cap * bytes)
      (leBytes bytes n)

/-- A line of a device finds the line store full (R342). DEDUCED (log entry 245). -/
def Mach.storeFull (m : Mach) (d : Nat) : Bool := decide (2 ^ 21 < m.storeFill + m.lineBytes d)

/-- `work` fifths of a pixel done on the lines that wait, the oldest first. -/
def pipeWork : Nat → List (Nat × Nat) → List (Nat × Nat)
  | _, [] => []
  | work, s :: r => if s.2 ≤ work then pipeWork (work - s.2) r else (s.1, s.2 - work) :: r

/-- What the pipeline does on a DTM tick: 6.4 pixels, at 3 200 Mpixels/s (R342). -/
def Mach.camTick (m : Mach) : Mach := { m with cam := { m.cam with store := pipeWork 32 m.cam.store } }

/-- Orphan lines of a device, or lines lost to overflow: EV_CAM_ORPHAN at most once per 10 ms (R348, R358). -/
def Mach.orphan (m : Mach) (d : Nat) (overflow : Bool) : Mach :=
  let m := if overflow then m.addSat (Reg.CAM_D_OVF.cnt d) 1 else m.addSat (Reg.CAM_D_ORPHAN.cnt d) 1
  m.raiseRated Ev.camOrphan d .error (d + 256 * ofBool overflow) 0 1 joinBits

/-- A line of a device in LINE mode: it answers the oldest trigger, for every frame that covers it (R344, R347). -/
def Mach.lineModeRx (m : Mach) (d : Nat) (good : Bool) (l : CamLine) : Mach :=
  let x := m.dev d
  match x.trigs with
  | [] => m.orphan d (m.storeFull d)
  | t :: r =>
    let m := m.setDev d { x with trigs := r }
    let takes := (m.openOn d).filter (fun c => (m.frame c).any (fun f =>
      f.hasTrig c t))
    if m.storeFull d then
      takes.foldl (fun m c => match m.frame c with
        | some f => (m.setFrame c { f with answered := f.answered + 1, overflow := f.overflow + 1 }).closeIfDone c
        | none => m) (m.orphan d true)
    else if takes.isEmpty then m.orphan d false
    else takes.foldl (fun m c => match m.frame c with
      | some f => (m.takeLine c (t.k - f.firstK) (t.chn - f.gen.dist c) t.time good l).closeIfDone c
      | none => m) m

/-- A line of a device with a FRAME-mode frame on context `c`: one line of its image (R345, R347). -/
def Mach.frameModeRx (m : Mach) (d c : Nat) (f : Frame) (good : Bool) (l : CamLine) : Mach :=
  let i := f.answered
  let m := if m.storeFull d then
      (m.orphan d true).setFrame c { f with answered := i + 1, overflow := f.overflow + 1, lastTick := m.now }
    else if f.gen.len c ≤ i then
      m.setFrame c { f with answered := i + 1, excess := f.excess + 1, lastTick := m.now }
    else m.takeLine c i (f.start + BitVec.ofNat 48 (i * f.gen.pitch c / 65536) - f.gen.dist c) f.startTime good l
  if l.last then m.closeFrame c .ended else m

/-- CAMERA_LINE_RX (R340 to R348): one line of an UP device. -/
def execCameraLineRx (d : Nat) (l : CamLine) (s : State) : Host.Outcome State Fault Refusal :=
  s.runMem fun m =>
    if (m.dev d).state ≠ .up then m
    else
      let m := m.camFlush
      let before := m.cam.pixels
      let m := l.packets.foldl (fun m k => m.addWrap (Reg.CAM_X_PKT.cnt (k % 8)) 1) m
      let m := l.failed.foldl (fun m k =>
        (m.addSat (Reg.CAM_X_CRC.cnt (k % 8)) 1).raiseRated Ev.camCrc (k % 8) .warning (k % 8) 0 1) m
      let good := l.failed.isEmpty && l.width = m.fld (Reg.CAM_D_WIDTH.width d) &&
        l.bits = sampleBits (m.fld (Reg.CAM_D_CFG.bits d)) && l.rgb = m.flag (Reg.CAM_D_CFG.rgb d)
      let m := if good then m else m.addSat (Reg.CAM_D_BAD_LINES.cnt d) 1
      let m := (m.rawStore d l).addWrap (Reg.CAM_D_LINES.cnt d) 1
      let m := match (m.openOn d).find? (fun c => (m.frame c).any (fun f => !f.line)) with
        | some c => match m.frame c with
          | some f => m.frameModeRx d c f good l
          | none => m
        | none => m.lineModeRx d good l
      let work := 5 * (m.cam.pixels - before)
      { m with cam := { m.cam with store := if work = 0 then m.cam.store else m.cam.store ++ [(m.lineBytes d, work)] } }

/-! ### Triggers and timeouts -/

/-- The chainage of a scheduled trigger: the whole-link part (R344). -/
def Sched.chn (s : Sched) (k : Nat) : Chainage := s.origin + BitVec.ofNat 48 (k * s.pitch / 65536)

/-- How many triggers from the next one on have been crossed. -/
def Sched.crossed (s : Sched) (c : Chainage) : Nat :=
  if s.pitch = 0 then 0
  else
    let d := chnDiff c s.origin
    if d < 0 then 0 else (d.toNat * 65536 + 65535) / s.pitch + 1 - s.next

/-- Triggers k to k + n - 1 of a device were crossed, of which the last was sent or not: every LINE frame counts
its own, and one whose last trigger is crossed dates its timeout. -/
def Mach.countTrigs (m : Mach) (d k n : Nat) (sent : Bool) : Mach :=
  (m.openOn d).foldl (fun m c => match m.frame c with
    | some f =>
      if !f.line then m
      else
        let mine := (List.range n).filter (fun i => decide (f.firstK ≤ k + i) && decide (k + i < f.firstK + f.gen.len c))
        let skipped := mine.filter (fun i => !(sent && i + 1 = n))
        let f := { f with
          crossed := f.crossed + mine.length, unsent := f.unsent + skipped.length
          lastTick := if mine.isEmpty then f.lastTick else m.now }
        (m.setFrame c f).closeIfDone c
    | none => m) m

/-- LINE_TRIGGER (R344, R345): of the triggers crossed since the last, only the newest may be sent, and only when
the least interval has passed. -/
def execLineTrigger (d : Nat) (s : State) : Host.Outcome State Fault Refusal :=
  s.run fun m =>
    let x := m.dev d
    match x.sched with
    | none => m
    | some sch =>
      let n := sch.crossed m.chainage
      if n = 0 || !chnAtOrAhead m.chainage (sch.chn sch.next) then m
      else
        let k := sch.next + n - 1
        let x := { x with sched := some { sch with next := k + 1 } }
        if m.trigSoon d then ((m.setDev d x).trigSkip d n).countTrigs d sch.next n false
        else
          let t : Trig := { k := k, chn := sch.chn k, tick := m.now, time := m.time }
          let m := (m.setDev d { x with trigs := x.trigs ++ [t] }).sendTrig d k
          let m := if 1 < n then m.trigSkip d (n - 1) else m
          m.countTrigs d sch.next n true

/-- FRAME_TIMEOUT (R347): TIMEOUT has passed since the frame's last trigger, or since its last line in FRAME mode. -/
def execFrameTimeout (ctx : Nat) (s : State) : Host.Outcome State Fault Refusal :=
  s.run fun m =>
    match m.frame ctx with
    | none => m
    | some f =>
      if m.now < f.lastTick + 500 * f.gen.fld (Reg.CAM_C_TIMEOUT.us ctx) || (f.line && decide (f.crossed < f.gen.len ctx))
      then m
      else m.closeFrame ctx .timeout

/-! ### Devices up and down -/

/-- Close every frame on a device. -/
def Mach.closeOn (m : Mach) (d : Nat) : Mach := (m.openOn d).foldl (fun m c => m.closeFrame c .down) m

/-- Bring a device up (R338): CONFIG fails at once; otherwise discovery begins. -/
def Mach.devBringup (m : Mach) (d : Nat) : Mach :=
  let m := m.closeOn d
  let m := m.setDev d { m.dev d with trigs := [] }
  if m.devBad d then m.devTo d .failed 5
  else m.devTo d .discovery 0

/-- A device is configured out: OFF, its connections no longer in lock. -/
def Mach.devOff (m : Mach) (d : Nat) (conns : List Nat) : Mach :=
  ((m.closeOn d).setConns conns false).devTo d .off 0

/-- CAM_DEVICE_ENABLE (R338): setting CAM_D<d>_CFG.en, in SETUP before the lock. -/
def execCamDeviceEnable (d : Nat) (s : State) : Host.Outcome State Fault Refusal :=
  s.run fun m =>
    if m.glb.locked then m.countDiscard
    else if !m.rwsOpen then m
    else (m.setFld (Reg.CAM_D_CFG.en d) 1).devBringup d

/-- CAM_BRINGUP_RETRY (R338): a FAILED device is tried again, but for cause CONFIG. -/
def execCamBringupRetry (d : Nat) (s : State) : Host.Outcome State Fault Refusal :=
  s.run fun m =>
    let x := m.dev d
    if m.devEn d && x.state = .failed && x.cause ≠ 5 && m.passed x.since 500000000 then m.devBringup d else m

/-- DEVICE_BRINGUP_DONE (R338): cause 0 leaves the device UP, 1 to 4 FAILED. -/
def execDeviceBringupDone (d : Nat) (cause : Nat) (s : State) : Host.Outcome State Fault Refusal :=
  s.run fun m =>
    if (m.dev d).state ≠ .discovery || decide (4 < cause) then m
    else if cause ≠ 0 then m.devTo d .failed cause
    else ((m.setConns (m.devConns d) true).setDev d { m.dev d with lost := [], lastTrig := none }).devTo d .up 0

/-- CXP_LOCK_LOST (R338): the device of the connection becomes DOWN, and its open frames close. -/
def execCxpLockLost (conn : Nat) (s : State) : Host.Outcome State Fault Refusal :=
  s.run fun m =>
    match m.connDev conn with
    | none => m
    | some d =>
      let x := m.dev d
      let m := m.setConns [conn] false
      if x.state = .up then
        ((m.setDev d { x with lost := [conn] }).devTo d .down 0).closeOn d
      else if x.state = .down && !x.lost.contains conn then m.setDev d { x with lost := x.lost ++ [conn] }
      else m

/-- CXP_CONNECTION_RETURN (R338): a lost connection returns, and the device is brought up again. -/
def execCxpConnectionReturn (conn : Nat) (s : State) : Host.Outcome State Fault Refusal :=
  s.run fun m =>
    match m.connDev conn with
    | none => m
    | some d =>
      let x := m.dev d
      if !x.lost.contains conn then m
      else
        let m := (m.setConns [conn] true).setDev d { x with lost := x.lost.filter (· ≠ conn) }
        if x.state = .discovery then m else m.devBringup d

/-- CXP_EVENT_PACKET (R337): counted and discarded. -/
def execCxpEventPacket (conn : Nat) (s : State) : Host.Outcome State Fault Refusal :=
  s.run fun m => if (m.connDev conn).isSome then m.addSat (Reg.CAM_X_EVPKT.cnt conn) 1 else m

/-! ### The mailbox (R339) -/

/-- Begin a mailbox access: a control packet goes to an UP device; with no link it completes at once. -/
def Mach.mailbox (m : Mach) (write : Bool) : Mach :=
  let d := m.fld Reg.CAM_MBX_CMD.device
  if m.cam.mbx.isSome then m
  else if (m.dev d).state ≠ .up then m.setFld Reg.CAM_MBX_CMD.result 3
  else
    let m := m.setFld Reg.CAM_MBX_CMD.busy 1
    ({ m with cam := { m.cam with mbx := some { device := d, write := write } } }).emit
      (.mailbox d write (word (m.rd Reg.CAM_MBX_ADDR)) (word (m.rd Reg.CAM_MBX_DATA)))

/-- MAILBOX_READ. -/
def execMailboxRead (s : State) : Host.Outcome State Fault Refusal := s.run fun m => m.mailbox false

/-- MAILBOX_WRITE. -/
def execMailboxWrite (s : State) : Host.Outcome State Fault Refusal := s.run fun m => m.mailbox true

/-- MAILBOX_DONE: the result, and for a read that went well the data. DEDUCED (log entry 46). -/
def execMailboxDone (result : Nat) (data : Word) (s : State) : Host.Outcome State Fault Refusal :=
  s.run fun m =>
    match m.cam.mbx with
    | none => m
    | some x =>
      let m := (m.setFld Reg.CAM_MBX_CMD.busy 0).setFld Reg.CAM_MBX_CMD.result result
      let m := { m with cam := { m.cam with mbx := none } }
      if !x.write && result = 0 then m.setFld Reg.CAM_MBX_DATA.data data.toNat else m

/-! ### Load (R342, R359) -/

/-- At the end of each 10 ms: the pipeline's load against 3 200 Mpixels/s, and its peak over a second. -/
def Mach.camWindow (m : Mach) : Mach :=
  let l := min 255 (m.cam.pixels * 100 / 32000000)
  let loads := (l :: m.cam.loads).take 100
  let m := { m with cam := { m.cam with pixels := 0, loads := loads } }
  (m.setFld Reg.CAM_LOAD.load_pct l).setFld Reg.CAM_LOAD.peak_pct (listMax loads)

end Sys2Proof.Machine
end

