-- ==== Sys2Proof/Machine/Closure.lean ====
section
/-! DEFINITION. Closure (R360 to R379): starting strip frames, the gain loop, streaks, overrides and the print
calibration. -/

namespace Sys2Proof.Machine

open Sys2Proof

/-! ### Arithmetic (R365) -/

/-- `a / b` to the nearest integer, an exact half away from zero. -/
def roundAway (a : Int) (b : Nat) : Int :=
  if a < 0 then -((2 * a.natAbs + b) / (2 * b) : Nat) else ((2 * a.natAbs + b) / (2 * b) : Nat)

/-- The signal of an accepted cell as a fraction, from the plane's cell and the paper cell (R365). -/
def acceptCell (cell paper : Cell) (noise : Nat) : Option (Nat × Nat) :=
  let den := cell.n * paper.n
  let num : Int := (paper.sum * cell.n : Nat) - (cell.sum * paper.n : Nat)
  let var := cell.sum2 * cell.n - cell.sum * cell.sum
  if 16 ≤ cell.n ∧ 16 ≤ paper.n ∧ 0 < num ∧
      var * 1000000 * (den * den) ≤ noise * noise * (num.toNat * num.toNat) * (cell.n * cell.n) then
    some (num.toNat, den)
  else none

/-- The error of a signal against target `t`, in 0.01 %. A target of 0 leaves it open.
DESIGN CHOICE (log entry 64). -/
def signalError (s : Nat × Nat) (t : Nat) : Int :=
  if t = 0 then (signed 16 (Config.openValue 64 s.1) : Int)
  else roundAway (10000 * ((s.1 : Int) - t * s.2)) (t * s.2)

/-- d of a gain update: 16 x loop_gain x (t - s) / s, rounded (R366). -/
def gainStep (s : Nat × Nat) (t loopGain : Nat) : Int := roundAway (16 * loopGain * ((t * s.2 : Nat) - (s.1 : Int))) s.1

/-! ### Commits of closure (R367, R369, R376) -/

/-- The job that prints, else one armed: what the FGD and TRV registers call the printing job.
DEDUCED (log entry 159). -/
def Mach.jobNow (m : Mach) : Option Job :=
  let js := (List.range 8).map m.job
  (js.find? (fun x => x.state = .printing)).or (js.find? Job.active)

/-- TRV_FIRE_LEAD_EFF: the fire lead of the printing job (R237, R256), 0 with none. -/
def Mach.leadEff (m : Mach) : Nat := (m.jobNow.map Job.lead).getD 0

/-- The effect chainage that a closure commit for a plane names (R367). -/
def Mach.closureEffect (m : Mach) (p : Nat) : Chainage :=
  m.chainage - BitVec.ofNat 48 (listMin (rowOffsets (m.planeHeads p))) +
    BitVec.ofNat 48 (m.leadEff + m.fld Reg.TRV_RUNAHEAD_EFF.links + m.fld Reg.CAM_CLS_LAG.links)

/-- The epoch that the next commit submitted will take. -/
def Mach.nextEpoch (m : Mach) : Word := m.epo.counter + 1 + word m.ptn.held.length

/-- Submit one partial commit of closure. A status other than OK raises EV_CLOSURE_REFUSED (R368). -/
def Mach.closureCommit (m : Mach) (table p first : Nat) (entries : List Nat) (strip : Nat) : Mach × Option Word :=
  let f : TableF :=
    { table := table, plane := p, isPartial := true, now := false, first := first, count := entries.length
      byteLen := 4 * entries.length, addr := 0, effect := (m.closureEffect p).toNat }
  let c : Change := .closure f entries strip
  let refuse (st : Status) : Mach × Option Word :=
    let m := m.raise Ev.closureRefused .warning (p + 256 * table + 65536 * st.code) strip
    (match m.closureDesc strip with
     | some h => m.cplQueue h.target (cplOf h st)
     | none => m, none)
  if m.stagingFull then (m, none)
  else if m.hst.stopped then refuse .stopped
  else if m.inMode .boot || m.inMode .setup || m.inMode .halt || m.isBacksight then refuse .badState
  else if !m.tableOk f entries then refuse .badParam
  else if !m.hasRoom (m.scopeOf c) then refuse .versionsFull
  else (m.submit c, some m.nextEpoch)

/-- Write a log entry (R376). -/
def Mach.closureLog (m : Mach) (p u cause : Nat) (epoch : Word) : Mach :=
  let i := m.fld Reg.CAM_CLS_LOG_PTR.ptr
  let m := ((m.wr (Reg.CAM_CLS_LOG_A i) (p * 2 ^ 28 + cause * 2 ^ 24 + u)).wr (Reg.CAM_CLS_LOG_B i) epoch.toNat).addWrap
    Reg.CAM_CLS_LOG_PTR.ptr 1
  m.decide_ 6 m.chainage (p + 4096 * u) (16 + cause)

/-- A version of a table in use now. -/
def Mach.inUse (m : Mach) (table p : Nat) : Version := (m.inForce (tableId table p) (2 ^ p)).headD {}

/-- The nozzles of a plane that closure disabled, in the version in force: CAM_CLS_P<p>_ND (R376). -/
def Mach.closureDown (m : Mach) (p : Nat) : Nat := (m.inUse 2 p).closed.length

/-! ### Starting strip frames (R362) -/

/-- The start target of strip `k` on a context. -/
def Mach.stripTarget (m : Mach) (job : Job) (k c : Nat) : Chainage :=
  let first := job.lineChn (job.stripLine k 0)
  let x := m.ctx c
  let t (g : Gen) : Chainage := first + g.dist c
  match x.pending with
  | some g => if x.pendingServes c (t g) then t g else t x.active
  | none => t x.active

/-- The next strip of a job to start on a context: those whose start target was crossed while the context started
none are passed over. -/
def Mach.nextStrip (m : Mach) (x : Job) (c : Nat) : Nat :=
  let step := x.lfld Reg.CAM_CLS_STRIP.lines
  let line := match Tab.get none m.cls.since c with
    | some s => max x.firstLine (x.lineAt (s + 1 - (m.ctx c).active.dist c))
    | none => x.firstLine
  max (Tab.get 0 m.cls.nextStrip (8 * x.run + c)) (if step = 0 then 0 else ceilDiv (line - x.stripLine 0 0) step)

/-- Contexts start strips from the present chainage on: nothing was crossed before, as with a station (R66, R68). -/
def Mach.stripsSince (m : Mach) (cs : List Nat) : Mach :=
  { m with cls := { m.cls with since := cs.foldl (fun t c => Tab.set none t c (some m.chn.printed)) m.cls.since } }

/-- Start a strip's frame on one context, once its start target is reached. A start refused is lost. -/
def Mach.stripFrame (m : Mach) (x : Job) (j c : Nat) : Mach :=
  let k := m.nextStrip x c
  let t := m.stripTarget x k c
  if !chnAtOrAhead m.chainage t || !x.prints (x.stripLine k 0) then m
  else
    let s := m.stripAt x j k true
    let m := { m with cls := { m.cls with nextStrip := Tab.set 0 m.cls.nextStrip (8 * x.run + c) (k + 1) } }
    let r := m.startFrame c t (some s)
    if r.2 then r.1
    else
      let m := { m with cls := { m.cls with strips := m.cls.strips.filterMap (fun (e : StripAt × List Nat) =>
        if e.1.run = x.run && e.1.num = k then
          (let l := e.2.filter (· ≠ c)
           if l.isEmpty then none else some (e.1, l))
        else some e) } }
      m.raise Ev.closureMissed .error c k

/-- The contexts that measure strips. -/
def Mach.measuring (m : Mach) : List Nat := (List.range 8).filter (fun c => bitAt (m.fld Reg.CAM_CLS_CFG.ctx_mask) c)

/-- Each measuring context whose start target for the next strip of a job is reached starts its frame (R362). -/
def Mach.stripStarts (m : Mach) (x : Job) (j : Nat) : Mach :=
  if x.lfld Reg.CAM_CLS_STRIP.lines = 0 then m
  else
    let cs := m.measuring
    let due := cs.filter (fun c => let k := m.nextStrip x c
      chnAtOrAhead m.chainage (m.stripTarget x k c) && x.prints (x.stripLine k 0))
    let m := due.foldl (fun m d =>
      let s := m.stripAt x j (m.nextStrip x d) true
      if m.cls.strips.any (fun e => e.1.run = x.run && e.1.num = s.num) then m
      else (cs.filter (fun c => ((m.ctx c).active.statsOut c).isSome)).foldl (fun m c => m.awaitUnit s c) m) m
    due.foldl (fun m c => m.stripFrame x j c) m

/-- STRIP_FRAME_START (R362): the strips of the job in a slot, and before them those of the jobs that have ended there and
whose web still passes the cameras. Stations, and so strip frames, act in SETUP, READY, RUN and BENCHMARK while the vote
holds. -/
def execStripFrameStart (job : Nat) (s : State) : Host.Outcome State Fault Refusal :=
  s.run fun m =>
    if !m.flag Reg.CAM_CLS_CFG.trig || !m.glb.mode.working || !m.chn.vote.valid then m
    else
      let m := ((m.vgp.past.filter (fun p => p.slot = job)).reverse).foldl (fun m p => m.stripStarts p.job job) m
      if (m.job job).hasLines then m.stripStarts (m.job job) job else m

/-! ### The gain loop (R365 to R370) -/

/-- The settings of the gain loop as a strip found them. -/
structure LoopSet where
  tints : Nat
  noise : Nat
  deadband : Nat
  gain : Nat
  deriving DecidableEq, Repr

/-- The loop settings of a strip. -/
def StripAt.loopSet (s : StripAt) : LoopSet :=
  let w := s.loop.toNat
  { tints := bitsOf w 31 28, noise := bitsOf w 23 16, deadband := bitsOf w 15 8, gain := bitsOf w 7 0 }

/-- A group's cell: the context whose cell has the larger n, the lower one on equal n. DEDUCED (log entry 47). -/
def bestCell (us : List StatUnit) (p i ch : Nat) : Cell × Cell :=
  let zero : Cell := { n := 0, sum := 0, sum2 := 0 }
  us.foldl (fun (a : Cell × Cell) u =>
    let cell := match u.rows.find? (fun r => r.plane = some p) with
      | some r => (r.cells.getD i []).getD 0 zero
      | none => zero
    let paper := match u.rows.find? (fun r => r.plane = none) with
      | some r => (r.cells.getD i []).getD ch zero
      | none => zero
    if a.1.n < cell.n then (cell, paper) else a) (zero, zero)

/-- The accepted groups of a plane row with their signals. -/
def Mach.acceptRow (m : Mach) (s : StripAt) (us : List StatUnit) (p noise : Nat) : List (Nat × Option (Nat × Nat)) :=
  let gs := m.stripGroups s p
  (List.range gs.length).map (fun i =>
    let b := bestCell us p i (m.planeChannel p)
    (gs.getD i 0, acceptCell b.1 b.2 noise))

/-- Report the mean and the largest error of a row's accepted signals against target `t`, the mean rounded once (R365,
R371). DESIGN CHOICE (log entry 65). -/
def Mach.reportErrors (m : Mach) (p : Nat) (ss : List (Nat × Nat)) (t : Nat) : Mach :=
  if ss.isEmpty then m
  else
    let sum := ss.foldl (fun (a : Nat × Nat) s => (a.1 * s.2 + s.1 * a.2, a.2 * s.2)) (0, 1)
    let mean := signalError (sum.1, sum.2 * ss.length) t
    let top := listMax (ss.map (fun s => (signalError s t).natAbs))
    let m := m.setFld (Reg.CAM_CLS_P_ERR.err p)
      (if -32768 ≤ mean ∧ mean < 32768 then unsigned 16 mean else Config.openValue 65 mean.natAbs)
    m.setFld (Reg.CAM_CLS_P_ERR_MAX.err p) (if top < 65536 then top else Config.openValue 65 top)

/-- A plane's gain must wait for its previous gain commit to take effect before a row (R368).
DEDUCED (log entry 48). -/
def Mach.gainWaits (m : Mach) (p : Nat) (row : Chainage) : Bool :=
  m.ptn.held.any (fun h => match h.change with
    | .closure f _ _ => f.table = 1 && f.plane = p
    | _ => false) ||
  (match Tab.get none m.cls.gain p with
   | none => false
   | some g => match g.actual with
     | none => true
     | some a => !chnAtOrAhead row a)

/-- The nozzles of a group of a plane. -/
def groupNozzles (n g : Nat) : List Nat := (List.range 32).filterMap (fun i => if 32 * g + i < n then some (32 * g + i) else none)

/-- One gain update of a plane from its accepted groups that lie outside the dead band (R366, R369). -/
def Mach.gainUpdate (m : Mach) (p strip loopGain : Nat) (groups : List (Nat × (Nat × Nat))) (t : Nat) : Mach :=
  let id := tableId 1 p
  let n := nozzleCount (m.planeHeads p)
  let v := m.newest id
  let range := m.gainRange
  let raw (g : Nat) (s : Nat × Nat) : Int := (g * (4096 + gainStep s t loopGain) + 2048) / 4096
  let lim (x : Int) : Nat := (clampInt range.1 range.2 x).toNat
  let new (u : Nat) : Nat :=
    let e := v.entry id u
    match groups.find? (fun g => g.1 = u / 32) with
    | some g => e - e % 8192 + lim (raw (e % 8192) g.2)
    | none => e
  let us := groups.flatMap (fun g => groupNozzles n g.1)
  let first := listMin us
  let entries := (List.range (listMax us + 1 - first)).map (fun i => new (first + i))
  let ranged := groups.filter (fun g => (groupNozzles n g.1).any (fun u =>
    let x := raw (v.entry id u % 8192) g.2
    (lim x : Int) ≠ x))
  let f : TableF :=
    { table := 1, plane := p, isPartial := true, now := false, first := first, count := entries.length
      byteLen := 4 * entries.length, addr := 0, effect := (m.closureEffect p).toNat }
  let e := m.fixEffect (m.scopeOf (.closure f entries strip)) false (m.closureEffect p)
  let rated := (m.limitGain f e.1 entries).1
  let slowed := groups.filter (fun g => (groupNozzles n g.1).any (fun u => rated.getD (u - first) 0 ≠ entries.getD (u - first) 0))
  let r := m.closureCommit 1 p first entries strip
  match r.2 with
  | none => r.1
  | some ep =>
    let m := r.1.addWrap Reg.CAM_CLS_UPDATES.cnt 1
    let both := groups.filter (fun g => ranged.contains g || slowed.contains g)
    if both.isEmpty then m
    else m.raise Ev.closureLimited .warning (p + 16 * (if slowed.isEmpty then 1 else 2) + 256 * both.length) ep.toNat

/-- The gain loop on one plane row: cells judged, errors reported, and an update when one is due. The flag tells that
the row had an accepted cell and did not wait. -/
def Mach.gainRow (m : Mach) (s : StripAt) (us : List StatUnit) (r : StripRow) (p : Nat) (set : LoopSet) (live : Bool) :
    Mach × Bool :=
  let cells := m.acceptRow s us p set.noise
  let bad := (cells.filter (fun c => c.2.isNone)).length
  let m := if bad = 0 then m else m.addSat Reg.CAM_CLS_REJECTED.cnt bad
  let t := m.tgt p s.tint
  let good : List (Nat × (Nat × Nat)) := cells.filterMap (fun c => c.2.map (fun x => (c.1, x)))
  let m := m.reportErrors p (good.map (fun g => g.2)) t
  if m.gainWaits p r.first then (m.addSat Reg.CAM_CLS_WAITED.cnt 1, false)
  else if !live || !bitAt set.tints s.tint then (m, false)
  else
    let out := good.filter (fun g => decide (set.deadband < (signalError g.2 t).natAbs))
    (if out.isEmpty then m else m.gainUpdate p s.num set.gain out t, !good.isEmpty)

/-! ### Streaks (R372 to R374) -/

/-- A number put into a list in rising order. -/
def insertNat (x : Nat) : List Nat → List Nat
  | [] => [x]
  | y :: r => if x ≤ y then x :: y :: r else y :: insertNat x r

/-- Twice the median of a list: the mean of the middle two where their number is even. -/
def median2 (l : List Nat) : Nat :=
  let s := l.foldl (fun a x => insertNat x a) []
  s.getD ((s.length - 1) / 2) 0 + s.getD (s.length / 2) 0

/-- Pixel `x` of a plane row is flagged, and its centroid column (R372, R373). `i` is its index within the crop;
`prof` and `paper` are the plane's and the paper's profiles over L and L0 lines. -/
def pixelFlag (base : Int) (k : Nat) (prof paper : List Nat) (L L0 sMin thresh i : Nat) : Option Int :=
  let win := (prof.drop (i - 15)).take (min i 15 + 16)
  let med := median2 win
  let dev (i : Nat) : Nat := (2 * (prof.getD i 0 : Int) - med).natAbs
  let s : Int := (2 * L * paper.getD i 0 : Nat) - (med * L0 : Nat)
  if L = 0 ∨ L0 = 0 ∨ s < (512 * sMin * L * L0 : Nat) ∨ ((dev i * 1000 * L0 : Nat) : Int) ≤ thresh * s then none
  else
    let near := (List.range 3).filterMap (fun d => if 1 ≤ i + d ∧ i + d - 1 < prof.length then some (i + d - 1) else none)
    let num := near.foldl (fun (a : Int) j => a + dev j * (base + (j : Int) * k)) 0
    let den := near.foldl (fun a j => a + dev j) 0
    some (roundAway num (65536 * den))

/-- The nozzle at a column of a plane: in an overlap the one with the larger stitch weight in the version in force, or
the right-hand one on equal weights (R373). -/
def Mach.nozzleOfColumn (m : Mach) (p : Nat) (col : Int) : Option Nat :=
  let hs := m.planeHeads p
  let w : PlaneLine := { heads := hs, gain := {}, map := m.inUse 2 p, stitch := m.inUse 3 p, thr := {}, plane := p }
  let here : List (Nat × Nat) := (List.range hs.length).filterMap (fun rank => hs[rank]?.bind (fun h =>
    if (h.pos : Int) ≤ col ∧ col < (h.pos + h.noz : Nat) then
      (let k := col.toNat - h.pos
       let u := firstU hs h.id + k
       some (u, stitchWeight w rank h k u))
    else none))
  (here.foldl (fun (a : Option (Nat × Nat)) n => match a with
    | none => some n
    | some b => if b.2 ≤ n.2 then some n else some b) none).map (fun n => n.1)

/-- The entry that disables a nozzle: disabled set, and use_def when its four weights are all 0 (R373). -/
def disabledEntry (e : Nat) : Nat :=
  let e := withBits e 31 31 1
  if e % 2 ^ 28 = 0 then withBits e 30 30 1 else e

/-- Disable a confirmed nozzle unless R374 forbids it. -/
def Mach.disableNozzle (m : Mach) (p u strip : Nat) (col : Int) : Mach :=
  let id := tableId 2 p
  let e := (m.newest id).entry id u
  if m.cls.keep.contains (p, u) || bitAt e 31 then m
  else if m.fld Reg.CAM_CLS_STREAK.nout_max ≤ m.closureDown p then m.raise Ev.nozzleLimit .warning p u
  else
    let r := m.closureCommit 2 p u [disabledEntry e] strip
    match r.2 with
    | none => r.1
    | some ep =>
      let m := r.1
      let w : NozzleWait := { plane := p, col := col.toNat, wait := { epoch := ep, actual := none } }
      let m := { m with cls := { m.cls with nozzles := m.cls.nozzles ++ [w] } }
      (m.closureLog p u 1 ep).raise Ev.nozzleDisabled .warning (p + 16 + 4096 * u) ep.toNat

/-- The key of a plane's pixel on a context. -/
def streakKey (p c x : Nat) : Nat := (p * 8 + c) * 65536 + x

/-- Pixel `x` lies within 3 pixels of the one whose centre is nearest a column (R363, R374).
DEDUCED (log entry 232). -/
def nearColumn (base : Int) (k first x col : Nat) : Bool :=
  if k = 0 then mapColumn base k first x = col
  else decide (((x : Int) - first - roundAway (65536 * (col : Int) - base) k).natAbs ≤ 3)

/-- Examine one pixel of a plane row on one context. DESIGN CHOICE (log entry 66). -/
def Mach.examinePixel (m : Mach) (s : StripAt) (u : StatUnit) (r : StripRow) (p i : Nat) (prof paper : List Nat)
    (L L0 : Nat) : Mach :=
  let x := u.first + i
  let key := streakKey p u.ctx x
  let st := Tab.get {} m.cls.streak key
  let put (m : Mach) (t : Streak) : Mach := { m with cls := { m.cls with streak := Tab.set {} m.cls.streak key t } }
  let near := m.cls.nozzles.filter (fun w => w.plane = p && nearColumn u.base u.k u.first x w.col)
  let clear : Bool := near.all (fun w => match w.wait.actual with | some a => chnAtOrAhead r.first a | none => false)
  let st : Streak := if near.isEmpty then st else {}
  if !clear then put m st
  else
    let f := pixelFlag u.base u.k prof paper L L0 (m.fld Reg.CAM_CLS_STREAK.s_min)
      (m.fld Reg.CAM_CLS_STREAK.thresh) i
    let flags := (f :: st.flags).take 5
    let cols := flags.filterMap (fun f => f)
    let suspect : Bool := decide (4 ≤ cols.length)
    let m := put m { flags := flags, suspect := suspect }
    match cols with
    | [] => m
    | c :: _ =>
      if !suspect then m
      else
        let noz := m.nozzleOfColumn p c
        let m := if st.suspect then m
          else m.raise Ev.streakSuspect .warning (p + 4096 * (noz.getD (Config.openValue 66 c.natAbs) % 2 ^ 20))
            (x % 65536 + 65536 * u.ctx)
        if !cols.all (fun d => decide ((d - c).natAbs ≤ 1)) then m
        else match noz with
          | some n => m.disableNozzle p n s.num c
          | none => m

/-- Examine a plane row for streaks on every context that measured it (R372). -/
def Mach.streakRow (m : Mach) (s : StripAt) (us : List StatUnit) (r : StripRow) (p : Nat) : Mach :=
  let ch := m.planeChannel p
  let m := us.foldl (fun m u =>
    match u.rows.find? (fun a => a.plane = some p), u.rows.find? (fun a => a.plane = none) with
    | some a, some b =>
      let prof := a.profiles.getD 0 []
      let paper := b.profiles.getD ch []
      let hs := m.planeHeads p
      let spans := (m.stripGroups s p).filterMap (groupSpan hs)
      (List.range prof.length).foldl (fun m i =>
        let c := mapColumn u.base u.k u.first (u.first + i)
        if spans.any (fun e => decide ((e.1 : Int) ≤ c) && decide (c ≤ (e.2 : Int))) then
          m.examinePixel s u r p i prof paper a.lines b.lines
        else m) m
    | _, _ => m) m
  { m with cls := { m.cls with nozzles := m.cls.nozzles.filter (fun w =>
      !(w.plane = p && w.wait.actual.any (fun a => chnAtOrAhead r.first a))) } }

/-! ### Print calibration (R377) -/

/-- The candidates S of a seam of a plane: S + L within the overlap, and every nozzle that blends usable and
redundant in its remap entry. -/
def Mach.seamCandidates (m : Mach) (hs : List HeadRec) (j ramp : Nat) : List Nat :=
  let w := seamOverlap hs j
  if w ≤ ramp then []
  else match hs[j]?, hs[j + 1]? with
    | some a, some b =>
      let usable (h : HeadRec) (k : Nat) : Bool :=
        let e := m.remapEntry h.id k
        !bitAt e 13 && bitAt e 12
      ((List.range ((w - ramp) / 2 + 1)).map (fun i => 2 * i)).filter (fun s => decide (s < 256) &&
        (List.range ramp).all (fun o => usable a (b.pos - a.pos + s + o) && usable b (s + o)))
    | _, _ => []

/-- The seams of a plane under calibration, with their candidates. -/
def Mach.benchSeams (m : Mach) (p ramp : Nat) : List (Nat × List Nat) :=
  let hs := m.planeHeads p
  ((List.range (hs.length - 1)).map (fun j => (j, m.seamCandidates hs j ramp))).filter (fun s => !s.2.isEmpty)

/-- The planes of a job's strips that closure works on. -/
def Mach.benchPlanes (m : Mach) (j : Nat) : List Nat :=
  (m.job j).stripPlanes.filter (fun p => m.flag (Reg.CAM_CLS_P_CFG.en p))

/-- Commit S for each seam of every plane, with L = ramp; the strip is the one that led to the commit. -/
def Mach.benchStitch (m : Mach) (b : Bench) (strip : Nat) (choose : Nat → Nat → List Nat → Nat) : Mach :=
  (m.benchPlanes b.job).foldl (fun m p =>
    let seams := m.benchSeams p b.ramp
    if seams.isEmpty then m
    else
      let id := tableId 3 p
      let js := seams.map (fun s => s.1)
      let first := listMin js
      let entries := (List.range (listMax js + 1 - first)).map (fun i =>
        match seams.find? (fun s => s.1 = first + i) with
        | some s => choose p s.1 s.2 + 256 * b.ramp
        | none => (m.newest id).entry id (first + i))
      let r := m.closureCommit 3 p first entries strip
      match r.2 with
      | none => r.1
      | some ep => { r.1 with cls := { r.1.cls with bench := r.1.cls.bench.map (fun x =>
          { x with waits := x.waits.filter (fun w => w.1 ≠ p) ++ [(p, { epoch := ep, actual := none })] }) } }) m

/-- The run ends: EV_BENCH_DONE with the number of seams whose S or L changed. -/
def Mach.benchEnd (m : Mach) (result : Nat) : Mach :=
  match m.cls.bench with
  | none => m
  | some b =>
    let n := (b.before.filter (fun e => (m.newest (tableId 3 e.1)).entry (tableId 3 e.1) e.2.1 ≠ e.2.2)).length
    ({ m with cls := { m.cls with bench := none, benchStatus := if result = 0 then 2 else 3 } }).raise Ev.benchDone
      (if result = 2 then .warning else .info) result n

/-- The run's gain step, or its end when no gain is asked for. -/
def Mach.benchGain (m : Mach) (b : Bench) : Mach :=
  if bitAt b.what 1 then { m with cls := { m.cls with bench := some { b with step := .gain } } }
  else m.benchEnd 0

/-- Candidate `i` of a seam: one with fewer keeps its last. -/
def nthCandidate (i : Nat) (l : List Nat) : Nat := l.getD (min i (l.length - 1)) 0

/-- BENCH_START (R377): in BENCHMARK, with a job PRINTING and strips configured. With owner HOST closure computes nothing
(R370). DESIGN CHOICE (log entry 67). -/
def execBenchStart (s : State) : Host.Outcome State Fault Refusal :=
  s.run fun m =>
    match (List.range 8).find? (fun j => (m.job j).state = .printing && (m.job j).lfld Reg.CAM_CLS_STRIP.lines ≠ 0) with
    | none => m
    | some j =>
      if !m.inMode .benchmark || m.cls.bench.isSome || m.flag Reg.CAM_CLS_CFG.owner then m
      else
        let ramp := m.fld Reg.CAM_CLS_BENCH.ramp
        let what := m.fld Reg.CAM_CLS_BENCH.what
        let b : Bench :=
          { what := what, ramp := ramp, iter := max 1 (m.fld Reg.CAM_CLS_BENCH.iter), job := j, step := .stitch
            before := (m.benchPlanes j).flatMap (fun p => (m.benchSeams p ramp).map (fun s =>
              (p, s.1, (m.newest (tableId 3 p)).entry (tableId 3 p) s.1))) }
        let m := { m with cls := { m.cls with bench := some b, benchStatus := 1 } }
        if bitAt what 0 && !b.before.isEmpty then m.benchStitch b (Config.openValue 67 1) (fun _ _ l => nthCandidate 0 l)
        else m.benchGain b

/-- BENCH_ABORT (R377). -/
def execBenchAbort (s : State) : Host.Outcome State Fault Refusal := s.run fun m => m.benchEnd 1

/-- The mean of a profile over columns a to b, as a sum and a count of pixels, on one context. -/
def profileMean (u : StatUnit) (prof : List Nat) (a b : Int) : Nat × Nat :=
  (List.range prof.length).foldl (fun (n : Nat × Nat) i =>
    let c := mapColumn u.base u.k u.first (u.first + i)
    if a ≤ c ∧ c ≤ b then (n.1 + prof.getD i 0, n.2 + 1) else n) (0, 0)

/-- Measure a seam: the difference between the mean profile over its overlap columns and over the 64 columns on either
side, as a fraction, on the first context that sees both. -/
def Mach.seamMeasure (m : Mach) (us : List StatUnit) (p j : Nat) : Option (Nat × Nat) :=
  let hs := m.planeHeads p
  match hs[j]?, hs[j + 1]? with
  | some a, some b =>
    let lo : Int := b.pos
    let hi : Int := a.pos + a.noz - 1
    us.findSome? (fun u => match u.rows.find? (fun r => r.plane = some p) with
      | none => none
      | some r =>
        let prof := r.profiles.getD 0 []
        let mid := profileMean u prof lo hi
        let left := profileMean u prof (lo - 64) (lo - 1)
        let right := profileMean u prof (hi + 1) (hi + 64)
        let n := left.2 + right.2
        if r.lines = 0 ∨ mid.2 = 0 ∨ n = 0 then none
        else some (((mid.1 * n : Nat) - ((left.1 + right.1) * mid.2 : Nat) : Int).natAbs, mid.2 * n * r.lines))
  | _, _ => none

/-- The candidate of a seam with the smallest measure, the first on equal ones. -/
def bestSeam (ms : List SeamMeasure) (p j : Nat) (l : List Nat) : Nat :=
  let mine := ms.filter (fun x => x.plane = p && x.seam = j)
  match mine.foldl (fun (a : Option SeamMeasure) x => match a with
      | none => some x
      | some y => if x.num * y.den < y.num * x.den then some x else some y) none with
  | some x => x.s
  | none => l.getLastD 0

/-- A strip of tint 0 measured during a calibration run: the candidate under test, then the gain updates. -/
def Mach.benchStrip (m : Mach) (b : Bench) (s : StripAt) (us : List StatUnit) (rejected : Nat → Bool) : Mach :=
  let planes := m.benchPlanes b.job
  let rows := s.rows.filterMap (fun r => r.plane.bind (fun p => if planes.contains p then some (r, p) else none))
  let early := rows.filter (fun r => !b.waits.all (fun w =>
    w.1 ≠ r.2 || w.2.actual.any (fun a => chnAtOrAhead r.1.first a)))
  if s.tint ≠ 0 then m
  else if !early.isEmpty then m.addSat Reg.CAM_CLS_WAITED.cnt early.length
  else match b.step with
  | .stitch =>
    let ok := rows.filter (fun r => !rejected r.2)
    if ok.isEmpty then m.benchEnd 2
    else
      let ms : List SeamMeasure := ok.flatMap (fun r => (m.benchSeams r.2 b.ramp).filterMap (fun e =>
        (m.seamMeasure us r.2 e.1).map (fun (v : Nat × Nat) =>
          { plane := r.2, seam := e.1, s := nthCandidate b.candidate e.2, num := v.1, den := v.2 })))
      let b := { b with measures := b.measures ++ ms, candidate := b.candidate + 1 }
      let m := { m with cls := { m.cls with bench := some b } }
      if planes.any (fun p => (m.benchSeams p b.ramp).any (fun e => decide (b.candidate < e.2.length))) then
        m.benchStitch b s.num (fun _ _ l => nthCandidate b.candidate l)
      else
        let m := m.benchStitch b s.num (fun p j l => bestSeam b.measures p j l)
        match m.cls.bench with
        | some b => m.benchGain b
        | none => m
  | _ =>
    let set : LoopSet := { tints := 1, noise := s.loopSet.noise, deadband := 0, gain := 256 }
    let m := rows.foldl (fun (m : Mach) r =>
      if rejected r.2 || decide (b.iter ≤ Tab.get 0 b.updates r.2) then m
      else
        let g := m.gainRow s us r.1 r.2 set true
        if g.2 then { g.1 with cls := { g.1.cls with bench := g.1.cls.bench.map (fun x =>
            { x with updates := Tab.upd 0 x.updates r.2 (· + 1) }) } }
        else g.1) m
    match m.cls.bench with
    | some b => if planes.all (fun p => decide (b.iter ≤ Tab.get 0 b.updates p)) then m.benchEnd 0 else m
    | none => m

/-! ### A strip measured, and the units of closure -/

/-- Every context has reported on a strip: the rows rejected under R365, then the loop and the streaks, or the
calibration run. -/
def Mach.measureStrip (m : Mach) (s : StripAt) (us : List StatUnit) : Mach :=
  let m := m.addWrap Reg.CAM_CLS_STRIPS.cnt 1
  let hits := m.cls.rowHits.filter (fun h => h.1 = s.run && h.2.1 = s.num)
  let m := { m with cls := { m.cls with rowHits := m.cls.rowHits.filter (fun h => !(h.1 = s.run && h.2.1 = s.num)) } }
  let rejected (p : Nat) : Bool := hits.any (fun h => h.2.2 = p)
  let x := m.job s.job
  let running := x.state = .printing && x.run = s.run
  let cfg := s.cfg.toNat
  let bench := match m.cls.bench with
    | some b => if m.inMode .benchmark && b.job = s.job then some b else none
    | none => none
  if bitAt cfg 30 || (!bitAt cfg 31 && bench.isNone) then m
  else
    let planes := s.rows.filterMap (fun r => r.plane.map (fun p => (r, p)))
    let m := (planes.filter (fun r => rejected r.2)).foldl (fun m r =>
      (m.addSat Reg.CAM_CLS_REJECTED.cnt 1).raise Ev.closureRowReject .warning (r.2 + 16) s.num) m
    let m := match bench with | some b => m.benchStrip b s us rejected | none => m
    (planes.filter (fun r => !rejected r.2 && m.flag (Reg.CAM_CLS_P_CFG.en r.2))).foldl (fun m r =>
      let m := if bench.isSome then m else (m.gainRow s us r.1 r.2 s.loopSet (m.inMode .run && running)).1
      if bitAt cfg 31 && bitAt cfg 29 then m.streakRow s us r.1 r.2 else m) m

/-- Forward a unit, unchanged, to closure's CAMO ring (R370). -/
def Mach.forwardUnit (m : Mach) (n : Nat) (u : StatUnit) : Mach :=
  let m := m.unitAdd n u.ctx u.out u.frame u.header (fun x =>
    { u.unit with segs := x.segs, headed := true, closed := false, records := 0, payload := 0 })
  let m := m.unitPut n u.ctx u.out u.frame u.unit.records u.payload
  let cut := (m.spill n).any (fun x => x.ctx = u.ctx && x.out = u.out && x.frame = u.frame && x.truncated)
  let t := if cut then u.trailer.take 2 ++ leBytes 1 (leField u.trailer 2 1 + 32) ++ (u.trailer.drop 3).take 45 ++
      leBytes 8 0 ++ u.trailer.drop 56
    else u.trailer
  (m.unitAdd n u.ctx u.out u.frame t (fun x => { x with closed := true })).camDrain n

/-- STATS_UNIT (R365, R370): the oldest unit reaches closure. -/
def execStatsUnit (s : State) : Host.Outcome State Fault Refusal :=
  s.run fun m =>
    match m.cls.units with
    | [] => m
    | u :: r =>
      if m.drm.coresHeld then m else
      let m := { m with cls := { m.cls with units := r } }
      let m := match u.ring with | some n => m.forwardUnit n u | none => m
      match u.stats, u.strip with
      | true, some a =>
        let same (t : StripAt) : Bool := t.run = a.run && t.num = a.num
        match m.cls.strips.find? (fun e => same e.1) with
        | none => m
        | some e =>
          let left := e.2.filter (· ≠ u.ctx)
          let arrived := m.cls.arrived ++ [u]
          if !left.isEmpty then
            { m with cls := { m.cls with
                arrived := arrived, strips := m.cls.strips.map (fun e => if same e.1 then (e.1, left) else e) } }
          else
            let ours (v : StatUnit) : Bool := v.strip.any same
            let us := (List.range 8).flatMap (fun c => arrived.filter (fun v => ours v && v.ctx = c))
            let m := { m with cls := { m.cls with
              arrived := arrived.filter (fun v => !ours v), strips := m.cls.strips.filter (fun e => !same e.1) } }
            m.measureStrip a us
      | _, _ => m

/-! ### Overrides (R375) -/

/-- The keep list holds 256 entries. -/
def keepMax : Nat := 256

/-- KEEP (R375): the nozzle goes on the keep list, and is enabled again if closure disabled it. With owner HOST closure
commits nothing (R370). DESIGN CHOICE (log entry 67). -/
def execKeep (s : State) : Host.Outcome State Fault Refusal :=
  s.run fun m =>
    let p := m.fld Reg.CAM_CLS_OVR.plane
    let u := m.fld Reg.CAM_CLS_OVR.u
    let listed := m.cls.keep.contains (p, u)
    if !listed && decide (keepMax ≤ m.cls.keep.length) then { m with cls := { m.cls with ovrResult := 1 } }
    else
      let m := { m with cls := { m.cls with
        ovrResult := 0, keep := if listed then m.cls.keep else m.cls.keep ++ [(p, u)] } }
      let m := m.decide_ 6 m.chainage (p + 4096 * u) 1
      let id := tableId 2 p
      let e := (m.newest id).entry id u
      if !(m.closedOf p).contains u || m.flag Reg.CAM_CLS_CFG.owner then m
      else
        let r := m.closureCommit 2 p u [withBits e 31 31 0] (Config.openValue 67 0)
        match r.2 with
        | none => r.1
        | some ep =>
          (r.1.closureLog p u 2 ep).raise Ev.nozzleDisabled .info (p + 4096 * u) ep.toNat

/-- RELEASE (R375): the nozzle comes off the keep list. DESIGN CHOICE (log entry 67). -/
def execRelease (s : State) : Host.Outcome State Fault Refusal :=
  s.run fun m =>
    let n := (m.fld Reg.CAM_CLS_OVR.plane, m.fld Reg.CAM_CLS_OVR.u)
    if m.cls.keep.contains n then
      ({ m with cls := { m.cls with ovrResult := 0, keep := m.cls.keep.filter (· ≠ n) } }).decide_ 6 m.chainage
        (n.1 + 4096 * n.2) 2
    else { m with cls := { m.cls with ovrResult := 2 } }

end Sys2Proof.Machine
end

