-- ==== Sys2Proof/Machine/Memory.lean ====
section
/-! DEFINITION. The memory subsystem (R380 to R399): requests, arbitration, panic, refresh and code pages. -/

namespace Sys2Proof.Machine

open Sys2Proof

/-- DRAM holds 32 GB (R380). -/
def dramSize : Nat := 2 ^ 35

/-- A channel. -/
def Mach.dramCh (m : Mach) (c : Nat) : DramCh := Tab.get {} m.drm.ch c

/-- The channels with one changed. -/
def Mach.setDramCh (m : Mach) (c : Nat) (x : DramCh) : Mach :=
  { m with drm := { m.drm with ch := Tab.set {} m.drm.ch c x } }

/-- DRAM is set up: BOOT has passed stage D (R390, R489). -/
def Mach.dramUp (m : Mach) : Bool := !(m.inMode .boot && decide (m.glb.stage ≤ 4))

/-- TARGET arbitration (R389). -/
def Mach.qosTarget (m : Mach) : Bool := m.flag Reg.DRM_CFG.qos_mode

/-! ### Arbitration (R386 to R389) -/

/-- The class of a port: 0 RT, 1 BULK, 2 BE (R383). -/
def portClass (port : Nat) : Nat := if port < 3 then 0 else if port < 6 then 1 else 2

/-- DRM_P<p>_CFG.target_ns, .panic_off and .panic_on (R399): one register a port, of one layout for the fields it has.
-/
def portTarget (p : Nat) : Fld := ⟨0xE0100 + 0x20 * p, 31, 16⟩
def portOff (p : Nat) : Fld := ⟨0xE0100 + 0x20 * p, 15, 8⟩
def portOn (p : Nat) : Fld := ⟨0xE0100 + 0x20 * p, 7, 0⟩

/-- The urgency of a piece in TARGET mode, from its age against its port's target. -/
def Mach.urgency (m : Mach) (p : Piece) : Nat :=
  let t := m.fld (portTarget p.port)
  let age := 2 * (m.now - p.tick)
  if t = 0 ∨ 2 * age < t then 0 else if 4 * age < 3 * t then 1 else if age < t then 2 else 3

/-- Postponement applies to a channel: a port is in panic, or a piece of urgency 3 waits (R388, R389). -/
def Mach.postpones (m : Mach) (c : Nat) : Bool :=
  if m.qosTarget then (m.dramCh c).queue.any (fun p => m.urgency p = 3) else m.drm.panic ≠ 0

/-- The piece that R386 takes: RT ahead of BULK ahead of BE; within a class the oldest that hits an open row and is
less than 128 ns old, else the oldest. -/
def Mach.nextByClass (m : Mach) (l : List Piece) : Option Piece :=
  (List.range 3).findSome? (fun k =>
    let mine := l.filter (fun p => portClass p.port = k)
    match mine.find? (fun p => p.hit && decide (m.now - p.tick < 64)) with
    | some p => some p
    | none => mine.head?)

/-- The piece that a channel issues next. -/
def Mach.nextPiece (m : Mach) (c : Nat) : Option Piece :=
  let x := m.dramCh c
  let low := x.queue.filter (fun p => portClass p.port ≠ 0)
  let l := if 15 ≤ x.sinceLow ∧ !low.isEmpty then low else x.queue
  if m.qosTarget then
    let top := listMax (l.map m.urgency)
    m.nextByClass (l.filter (fun p => m.urgency p = top))
  else
    match (List.range 3).findSome? (fun k => if bitAt m.drm.panic k then l.find? (fun p => p.port = k) else none) with
    | some p => some p
    | none => m.nextByClass l

/-- A list without the first occurrence of an element. -/
def dropFirst (p : Piece) : List Piece → List Piece
  | [] => []
  | q :: r => if q = p then r else q :: dropFirst p r

/-- A channel issues a piece. -/
def Mach.issuePiece (m : Mach) (c : Nat) : Mach :=
  match m.nextPiece c with
  | none => m
  | some p =>
    let x := m.dramCh c
    m.setDramCh c { x with
      queue := dropFirst p x.queue, sinceLow := if portClass p.port = 0 then x.sinceLow + 1 else 0 }

/-- The number of 512-byte-aligned blocks that a request covers (R384). -/
def pieceCount (addr len : Nat) : Nat := if len = 0 then 0 else (addr + len - 1) / 512 - addr / 512 + 1

/-- Piece i of a request: the bytes of it within one 512-byte-aligned block (R384). -/
def Piece.cut (p : Piece) (addr len i : Nat) : Piece :=
  let lo := max addr (512 * (addr / 512 + i))
  { p with addr := lo, len := min (addr + len) (512 * (addr / 512 + i + 1)) - lo }

/-- A write that waits in a channel's queue, accepted before MEM cycle `cycle`, covers bytes of a request (R385). -/
def Mach.writeWaits (m : Mach) (cycle addr len : Nat) : Bool :=
  m.drm.ch.any (fun e => e.2.queue.any (fun p =>
    p.write && p.cycle ≠ cycle && decide (p.addr < addr + len) && decide (addr < p.addr + p.len)))

/-- The requests of a MEM cycle begin, unless it has begun already: no write of it has replaced a byte. -/
def Mach.memCycle (m : Mach) (cycle : Nat) : Mach :=
  if m.drm.cycle = some cycle then m else { m with drm := { m.drm with cycle := some cycle, replaced := [] } }

/-- A byte as a read of the present MEM cycle finds it: before the writes of that cycle (R385). -/
def Mach.cycleByte (m : Mach) (a : Nat) : Byte :=
  match Tab.get none m.drm.replaced a with
  | some r => r.1
  | none => m.dramByte a

/-- A byte written on the present MEM cycle: of the writes of one cycle to it that of the highest port wins (R385). -/
def Mach.cycleWrite (m : Mach) (port a : Nat) (b : Byte) : Mach :=
  match Tab.get none m.drm.replaced a with
  | some r =>
    if port < r.2 then m
    else ({ m with drm := { m.drm with replaced := Tab.set none m.drm.replaced a (some (r.1, port)) } } : Mach).dramWrite a [b]
  | none =>
    ({ m with drm := { m.drm with
      replaced := Tab.set none m.drm.replaced a (some (m.dramByte a, port)) } } : Mach).dramWrite a [b]

/-- A request past its port's target: counted, and EV_DRM_TARGET_MISS names the port with the most misses (R389). -/
def Mach.targetMiss (m : Mach) (port : Nat) : Mach :=
  let m := m.addSat (Reg.DRM_P_MISS.cnt port) 1
  let r : RateSrc := Tab.get {} m.evt.rate (rateKey Ev.drmTargetMiss.code 0)
  let t := Tab.upd 0 (if r.count = 0 then [] else m.drm.misses) port (· + 1)
  let m := { m with drm := { m.drm with misses := t } }
  let top := (List.range 12).foldl (fun a p => if Tab.get 0 t a < Tab.get 0 t p then p else a) 0
  m.raiseRated Ev.drmTargetMiss 0 .warning top (Tab.get 0 t top) 1 (fun _ n => n)

/-- DRAM_REQUEST_ACCEPT (R384, R385): data takes effect in acceptance order and a read returns its bytes; the requests of
one MEM cycle come to the same in whatever order they are sent, reads first and then writes by rising port. The pieces
join their channels' queues, and the channels named issue meanwhile.
DEDUCED (log entry 220). DESIGN CHOICE (log entry 51). -/
def execDramRequestAccept (port : Nat) (write : Bool) (addr len : Nat) (data : List Byte) (t : DramTiming) (s : State) :
    Host.Outcome State Fault Refusal :=
  s.runMem fun m =>
    if dramSize < addr + len || !m.dramUp || m.thm.latch.isSome then m
    else
      let m := m.memCycle t.cycle
      let m : Mach := if write then
          (List.range (min len data.length)).foldl (fun m i => m.cycleWrite port (addr + i) (data.getD i 0)) m
        else (m.addWrap Reg.DRM_FWD.cnt (ofBool (m.writeWaits t.cycle addr len))).emit
          (.dramRead addr ((List.range len).map (fun i => m.cycleByte (addr + i))))
      let m := m.addPair (Reg.DRM_P_BYTES_LO port) len
      let m := { m with drm := { m.drm with bytes := m.drm.bytes + len } }
      let m : Mach := (List.range (pieceCount addr len)).foldl (fun m i =>
        let e := t.chans.getD i (0, false)
        let c := e.1 % 16
        let x := m.dramCh c
        let p := Piece.cut { port := port, tick := m.now, hit := e.2, write := write, cycle := t.cycle } addr len i
        m.setDramCh c { x with queue := x.queue ++ [p] }) m
      let m : Mach := t.issues.foldl (fun (m : Mach) c => m.issuePiece (c % 16)) m
      let m : Mach := { m with drm := { m.drm with
        lats := Tab.set [] m.drm.lats port (placeWorst m.now (Tab.get [] m.drm.lats port) (some t.ns)) } }
      let target := m.fld (portTarget port)
      if m.qosTarget && target ≠ 0 && decide (target < t.ns) then m.targetMiss port else m

/-! ### Panic (R387, R388) -/

/-- The FIRE level: over hubs with heads in a printing job, the fewest lines from the hub's next line due to fire on its
first row to the oldest line whose fetch is not complete. A hub whose fetch has completed every line of the job has no
such line. -/
def Mach.fireLevel (m : Mach) : Option Nat :=
  let ls := m.lineJobs.flatMap (fun j =>
    let x := m.job j
    if x.state ≠ .printing then []
    else (m.jobHubs x).filterMap (fun h =>
      let back := m.chainage - BitVec.ofNat 48 (m.hubFirst h)
      let due := if chnAtOrAhead back x.origin then x.lineAt (back + 1) else 0
      let due := max due x.firstLine
      let open_ := (m.fgd.line.filter (fun e => e.1 % 8 = j && e.1 / 8 % 64 = h && e.2.stage = .fetching)).map
        (fun e => e.1 / 512)
      let left := match x.endLine with | some e => decide (m.nextFetch j h < e) | none => true
      if !left && open_.isEmpty then none
      else some (listMin (m.nextFetch j h :: open_) - due)))
  if ls.isEmpty then none else some (listMin ls)

/-- Whether a port in panic or not is in panic now, from its level and its thresholds. -/
def inPanic (was : Bool) (level on off : Nat) (low : Bool) : Bool :=
  if low then (if was then decide (level < off) else decide (level ≤ on))
  else (if was then decide (off < level) else decide (on ≤ level))

/-- Judge the panic of the RT ports. In TARGET mode there is none. -/
def Mach.panicUpdate (m : Mach) : Mach :=
  let judge (k : Nat) (level : Option Nat) (low : Bool) : Nat :=
    match level with
    | none => 0
    | some l => ofBool (inPanic (bitAt m.drm.panic k) l (m.fld (portOn k)) (m.fld (portOff k)) low) * 2 ^ k
  let p := if m.qosTarget then 0
    else judge 0 m.fireLevel true + judge 1 (some (m.storeFill * 100 / 2 ^ 21)) false + judge 2 (some (m.stagingFill * 100 / 2 ^ 26)) false
  { m with drm := { m.drm with panic := p } }

/-- A tick of a port in panic counts towards its time in µs. -/
def Mach.panicTime (m : Mach) : Mach :=
  (List.range 3).foldl (fun m k =>
    if !bitAt m.drm.panic k then m
    else
      let n := Tab.get 0 m.drm.panicTicks k + 1
      let m := { m with drm := { m.drm with panicTicks := Tab.set 0 m.drm.panicTicks k (n % 500) } }
      if n = 500 then m.addSat (Reg.DRM_P_PANIC_TIME.us k) 1 else m) m

/-! ### Refresh (R390, R391) -/

/-- tREFIpb of a channel in DTM ticks, by the band of its package (R390, R392). DESIGN CHOICE (log entry 216). -/
def Mach.refreshInterval (m : Mach) (ch : Nat) : Nat :=
  match (Tab.get ({} : Package) m.drm.pkg (ch / 4)).band with | 0 => 244 | 1 => 122 | _ => 61

/-- REFRESH_DUE: every tREFIpb one is issued, postponed as owed, or forced. -/
def execRefreshDue (ch : Nat) (s : State) : Host.Outcome State Fault Refusal :=
  s.run fun m =>
    let x := m.dramCh ch
    if !m.dramUp || decide (m.now < x.due) then m
    else
    let x := { x with due := m.now + m.refreshInterval ch }
    let m := m.setDramCh ch x
    if !m.postpones ch then m
    else if x.owed < 8 then m.setDramCh ch { x with owed := x.owed + 1, paid := m.now }
    else (m.addSat (Reg.DRM_CH_FORCED.cnt ch) 1).raiseRated Ev.drmRefreshForced 0 .warning ch 0 1

/-- After postponement each channel pays its owed refreshes, one every 90 ns. -/
def Mach.payRefreshes (m : Mach) : Mach :=
  m.drm.ch.foldl (fun m (e : Nat × DramCh) =>
    if e.2.owed = 0 then m
    else if m.postpones e.1 then m.setDramCh e.1 { e.2 with paid := m.now }
    else if e.2.paid + 45 ≤ m.now then m.setDramCh e.1 { e.2 with owed := e.2.owed - 1, paid := m.now }
    else m) m

/-- ZQ_LATCH (R393): impedance upkeep. The channel's pause of 30 ns is all it does. -/
def execZqLatch (s : State) : Host.Outcome State Fault Refusal := s.run fun m => m.onBeat .zq 32000000 fun m => m

/-! ### Code pages (R396), and load -/

/-- CODE_PAGE_CHECK: once a second each page that fails is reloaded; one that fails again holds the Surveyor cores in
reset. The checks go on while the cores are held. DESIGN CHOICE (log entry 50). -/
def execCodePageCheck (bad lost : List Nat) (s : State) : Host.Outcome State Fault Refusal :=
  s.run fun m =>
    if !m.dramUp then m
    else m.onBeat .pages 500000000 fun m => bad.foldl (fun m p =>
      let m := m.raise Ev.drmCheck .warning 1 p
      if lost.contains p then
        ({ m with drm := { m.drm with coresHeld := true } }).raise Ev.drmCheck .error 3 p
      else m.addSat Reg.DRM_CHECK_CNT.cnt 1) m

/-- At the end of each 10 ms: the bytes moved against 204.8 GB/s, and the highest over a second (R397, R399). -/
def Mach.dramWindow (m : Mach) : Mach :=
  let l := min 255 (m.drm.bytes * 100 / 2048000000)
  let loads := (l :: m.drm.loads).take 100
  let m := { m with drm := { m.drm with bytes := 0, loads := loads } }
  (m.setFld Reg.DRM_LOAD.load_pct l).setFld Reg.DRM_LOAD.peak_pct (listMax loads)

/-- What the memory subsystem does on a DTM tick, and the camera's pipeline before it. -/
def Mach.dramTick (m : Mach) : Mach := m.camFlush.camTick.panicUpdate.panicTime.payRefreshes

end Sys2Proof.Machine
end

