-- ==== Sys2Proof/Machine/Motion.lean ====
section
/-! DEFINITION. Station outputs (R81), and the motion axes: planner, states, gearing, compare units and print windows
(R434 to R457). -/

namespace Sys2Proof.Machine

open Sys2Proof

/-! ### Station outputs (R68, R81) -/

/-- A station output. -/
def Mach.stnOut (m : Mach) (n : Nat) : StnOut := Tab.get {} m.stn.out n

/-- The level of an output: its own in the modes where stations may act, once it has acted; else, and in power-fail or
thermal shutdown (R461, R468), its safe level. -/
def Mach.outLevel (m : Mach) (n : Nat) : Bool :=
  let x := m.stnOut n
  if m.glb.mode.working && !m.shed && x.driven then x.active else m.flag (Reg.STN_OUT_CFG.safe n)

/-- The level at the land of an output: CFG.invert makes an active output low (R86). -/
def Mach.outLand (m : Mach) (n : Nat) : Bool := m.outLevel n != m.flag (Reg.STN_OUT_CFG.invert n)

/-- The land of an output changes where its level differs from that it had. DESIGN CHOICE (log entry 184). -/
def Mach.driveLand (m : Mach) (n : Nat) (was : Bool) : Mach :=
  if m.outLand n = was then m else m.emit (.station n (m.outLand n))

/-- The outputs with one changed, and its land with it. -/
def Mach.setOut (m : Mach) (n : Nat) (x : StnOut) : Mach :=
  ({ m with stn := { m.stn with out := Tab.set {} m.stn.out n x } } : Mach).driveLand n (m.outLand n)

/-- Every output is back at its safe level, as before its first action (R68). -/
def Mach.outputsSafe (m : Mach) : Mach := forRange 16 (fun n (m : Mach) => m.setOut n {}) m

/-- An output is in a pulse or in its min_gap (R77). -/
def StnOut.busy (x : StnOut) : Bool := x.pulse.isSome || x.gap.isSome

/-- Drive a pulse on a free output: cut to max_width, and not driven at all where that is 0 (R81). -/
def Mach.outPulse (m : Mach) (n width : Nat) : Mach :=
  let max := m.fld (Reg.STN_OUT_LIM.max_width n)
  let m := if max < width then m.raise Ev.stnPulseClipped .warning n width else m
  if min width max = 0 then m
  else m.setOut n { driven := true, active := true, pulse := some (m.now + min width max) }

/-- The min_gap of an output in ticks. -/
def Mach.minGap (m : Mach) (n : Nat) : Nat := 500 * m.fld (Reg.STN_OUT_LIM.min_gap n)

/-- An output takes a level: a pulse in progress ends, and its min_gap counts from tick `t`. -/
def Mach.endPulse (m : Mach) (n : Nat) (active : Bool) (t : Nat) : Mach :=
  let x := m.stnOut n
  m.setOut n { x with
    active := active, pulse := none, gap := if x.pulse.isSome && decide (m.minGap n ≠ 0) then some (t + m.minGap n) else x.gap }

/-- PULSE_END (R81): the width of the pulse has passed. -/
def execPulseEnd (out : Nat) (s : State) : Host.Outcome State Fault Refusal :=
  s.run fun m => match (m.stnOut out).pulse with
    | some t => if t ≤ m.now then m.endPulse out false t else m
    | none => m

/-- MIN_GAP_END (R81): the output is free again. -/
def execMinGapEnd (out : Nat) (s : State) : Host.Outcome State Fault Refusal :=
  s.run fun m => match (m.stnOut out).gap with
    | some t => if t ≤ m.now then m.setOut out { m.stnOut out with gap := none } else m
    | none => m

/-! ### Slots (R72, R77) -/

/-- A station slot. -/
def Mach.slot (m : Mach) (n : Nat) : Slot := Tab.get {} m.stn.slot n

/-- The slots with one changed. -/
def Mach.setSlot (m : Mach) (n : Nat) (x : Slot) : Mach :=
  { m with stn := { m.stn with slot := Tab.set {} m.stn.slot n x } }

/-- `n` occurrences of a slot are skipped: counted, with EV_STN_SKIPPED at most once per 10 ms. -/
def Mach.slotSkips (m : Mach) (n k : Nat) : Mach :=
  let x := m.slot n
  ((m.setSlot n { x with skips := min (x.skips + k) (2 ^ 24 - 1) }).addSat Reg.STN_SKIP_CNT.cnt k).raiseRated
    Ev.stnSkipped n .error n 0 k

/-- An occurrence that had acted is skipped after all: it is counted, and a one-shot slot retires SKIPPED (R77). -/
def Mach.slotUndone (m : Mach) (n : Nat) : Mach :=
  let m := m.slotSkips n 1
  let x := m.slot n
  if x.state = .done ∧ x.f.ivl = 0 then
    (m.setSlot n { x with state := .skipped }).decide_ 2 m.chainage n SlotState.skipped.code
  else m

/-! ### Axes -/

/-- One microstep in the unit of an axis position (R436). -/
def ustep : Int := 65536

/-- An axis. -/
def Mach.axis (m : Mach) (a : Nat) : Axis := Tab.get {} m.mot.axis a

/-- The axes with one changed, its state kept. -/
def Mach.setAxis (m : Mach) (a : Nat) (x : Axis) : Mach :=
  { m with mot := { m.mot with axis := Tab.set {} m.mot.axis a x } }

/-- The commanded position in whole microsteps. -/
def Axis.at (x : Axis) : Int := x.pos / ustep

/-- A position in 2^-16 microstep, held to the signed 32 bits of R435. DESIGN CHOICE (log entry 248). -/
def wrapPos (p : Int) : Int := signed 48 (unsigned 48 p)

/-- The axis with its commanded position set to a whole microstep. -/
def Axis.put (x : Axis) (p : Int) : Axis := { x with pos := wrapPos (p * ustep), posLow := 0 }

/-- The position in 2^-16 x 10^-15 microsteps and the velocity in 2^-16 x 10^-9 microsteps/s, with what is carried. -/
def Axis.finePos (x : Axis) : Int := x.pos * 1000000000000000 + x.posLow
def Axis.fineVel (x : Axis) : Int := x.vel * 1000000000 + x.velLow

/-- A planner tick moves the axis: velocity and position are kept to 2^-16 microstep, and what lies below is carried to
the next tick, so that the slowest move still ends at its target (R436). DESIGN CHOICE (log entry 72). -/
def Axis.moved (x : Axis) (v a : Int) : Axis :=
  let p := x.finePos + v
  { x with
    vel := v / 1000000000, velLow := v % 1000000000, acc := a
    pos := wrapPos (p / 1000000000000000), posLow := p % 1000000000000000 }

/-- The axis with no velocity. -/
def Axis.still (x : Axis) : Axis := { x with vel := 0, velLow := 0, acc := 0 }

/-- An axis that is not driven has all four gates low (R435). -/
def Mach.setCoils (m : Mach) (a : Nat) (x : Axis) : Mach :=
  if x.driven then m.setAxis a x
  else
    let m := if (m.axis a).gatesOn then m.emit (.gates a 0) else m
    m.setAxis a x.undriven

/-- The type 7 record of an axis as it stands (R412, R449). -/
def Mach.axisRecord (m : Mach) (a : Nat) : Mach :=
  let x := m.axis a
  m.decide_ 7 m.chainage (a + 16 * x.state.code + 256 * ofBool x.posValid) (unsigned 32 x.at)

/-- An axis takes a state: a change is mirrored (R412 type 7), and raises EV_MOT_STATE when a fault, a mode or a role
caused it (R449). -/
def Mach.axisTo (m : Mach) (a : Nat) (x : Axis) (reported : Bool) : Mach :=
  let old := (m.axis a).state
  let m := m.setCoils a x
  if old = x.state then m else
  let m := m.axisRecord a
  if reported then m.raise Ev.motState (if x.state = .fault then .error else .info)
      (a + 16 * x.state.code + 256 * old.code) x.faultCause
  else m

/-- An axis at rest where it is. -/
def Axis.rest (x : Axis) : Axis :=
  { x.still with
    next := none, past := none, returning := false, stopping := false, byMode := false, lagOver := 0, lagRaised := false
    req := [] }

/-- An axis enters HOLD at rest. -/
def Mach.axisHold (m : Mach) (a : Nat) (x : Axis) : Mach := m.axisTo a { x.rest with state := .hold } x.byMode

/-! ### The S-curve (R436)

Positions in 2^-16 x 10^-15 microsteps, velocities in 2^-16 x 10^-9 microsteps/s and accelerations in 2^-16 x 10^-3
microsteps/s², so that on each 1 µs tick the velocity gains the acceleration and the position gains the velocity. -/

/-- `k` more bits of a square root. -/
def isqrtGo : Nat → Nat → Nat → Nat
  | 0, r, _ => r
  | k + 1, r, n => isqrtGo k (if (r + 2 ^ k) * (r + 2 ^ k) ≤ n then r + 2 ^ k else r) n

/-- The whole square root of a number below 2^128. -/
def isqrt (n : Nat) : Nat := isqrtGo 64 0 n

/-- The distance to standstill from velocity `v` with no acceleration, under deceleration `d` and jerk `j`. -/
def restDist (v d j : Int) : Int :=
  if v ≤ 0 then 0
  else if d * d ≤ v * j then v * v / (2 * d) + v * d / (2 * j)
  else v * (isqrt (v * j).toNat : Nat) / j

/-- The distance to standstill from velocity `v` with deceleration `b`, at most `d`. -/
def slowDist (v b d j : Int) : Int :=
  if 2 * j * v ≤ b * b then v * b / j - b * b * b / (3 * j * j)
  else
    let v1 := v + b * b / (2 * j)
    restDist v1 d j - (v1 * b / j - b * b * b / (6 * j * j))

/-- The distance to standstill from velocity `v` with acceleration `a`. A deceleration above `d` is first brought back
to it at the jerk limit. -/
def stopDist (v a d j : Int) : Int :=
  if 0 ≤ a then v * a / j + a * a * a / (3 * j * j) + restDist (v + a * a / (2 * j)) d j
  else if -a ≤ d ∨ 2 * j * v ≤ a * a then slowDist v (-a) d j
  else
    let e := -a - d
    v * e / j + a * e * e / (2 * j * j) + e * e * e / (6 * j * j) + slowDist (v - (a * a - d * d) / (2 * j)) d d j

/-- `n` halvings towards the greatest value from `lo` up to `hi` that meets `f`, which `lo` meets. -/
def bisect (f : Int → Bool) : Nat → Int → Int → Int
  | 0, lo, _ => lo
  | n + 1, lo, hi =>
    let mid := (lo + hi) / 2
    if f mid then bisect f n mid hi else bisect f n lo mid

/-- Limits in the planner's units. -/
structure Dyn where
  v : Int
  a : Int
  d : Int
  j : Int
  deriving DecidableEq, Repr

def Limits.dyn (l : Limits) : Dyn :=
  { v := 65536000000000 * (l.vmax : Int), a := 65536000 * (l.amax : Int), d := 65536000 * (l.dmax : Int)
    j := 65536 * (l.jmax : Int) }

/-- The limits lie in the ranges of R436. -/
def Limits.ok (l : Limits) : Bool :=
  decide (1 ≤ l.vmax) && decide (l.vmax ≤ 400000) && decide (1 ≤ l.amax) && decide (l.amax < 2 ^ 31) &&
  decide (1 ≤ l.dmax) && decide (l.dmax < 2 ^ 31) && decide (1 ≤ l.jmax) && decide (l.jmax < 2 ^ 31)

/-- An acceleration keeps a velocity within `L.v` once it is released under the jerk limit. -/
def Dyn.speedOk (L : Dyn) (v c : Int) : Bool := decide (v + c + c * c.natAbs / (2 * L.j) ≤ L.v)

/-- The greatest acceleration from `down` to `up` that keeps to the speed limit, or `down`. -/
def Dyn.cruise (L : Dyn) (v down up : Int) : Int :=
  if L.speedOk v up then up else if L.speedOk v down then bisect (L.speedOk v) 32 down up else down

/-- The hardest deceleration that the next tick can have from acceleration `a`: `d`, approached at the jerk limit from
either side. -/
def Dyn.slow (L : Dyn) (a : Int) : Int := if a < -L.d then min (a + L.j) (-L.d) else max (a - L.j) (-L.d)

/-- The next acceleration towards a point at distance `w` ahead, at velocity `v` and acceleration `a`: the greatest from
which the axis can still stop there; none where it can no longer. -/
def Dyn.towards (L : Dyn) (w v a : Int) : Option Int :=
  let down := L.slow a
  let top := L.cruise v down (min (a + L.j) (max L.a down))
  let good (c : Int) : Bool := decide (0 ≤ v + c) && decide (stopDist (v + c) c L.d L.j ≤ w - (v + c))
  if good top then some top else if good down then some (bisect good 32 down top) else none

/-- The next acceleration of a stop from velocity `v` > 0: deceleration, released so that it ends at standstill. -/
def Dyn.brake (L : Dyn) (v a : Int) : Int :=
  if a < 0 ∧ 2 * L.j * v ≤ a * a then min (a + L.j) 0 else L.slow a

/-- Where one tick of a planner ends: the velocity and acceleration, and whether the axis stands still or has arrived.
-/
structure Tick where
  vel : Int
  acc : Int
  still : Bool := false
  arrived : Bool := false
  deriving DecidableEq, Repr

/-- 2^-16 microstep, and 2^-16 microstep/s, in the planner's units. -/
def ustep16 : Int := 1000000000000000
def speed16 : Int := 1000000000

/-- One tick of a stop. -/
def Dyn.stopTick (L : Dyn) (u a : Int) : Tick :=
  let s : Int := if u < 0 then -1 else 1
  let c := L.brake (s * u) (s * a)
  if s * u + c ≤ 0 then { vel := 0, acc := 0, still := true } else { vel := s * (s * u + c), acc := s * c }

/-- One tick towards a point at signed distance `r`, which itself moves at `vt`; `u` is the velocity against it.
DESIGN CHOICE (log entry 73). -/
def Dyn.followTick (L : Dyn) (r u a vt : Int) : Tick :=
  let s : Int := if r < 0 then -1 else 1
  let w := s * r
  let v := s * u
  let L' : Dyn := { L with v := L.v - s * vt }
  if v < 0 then
    let c := L'.cruise v (L.slow (s * a)) (-(L.brake (-v) (-(s * a))))
    if 0 ≤ v + c then { vel := 0, acc := 0, still := true } else { vel := s * (v + c), acc := s * c }
  else
    match L'.towards w v (s * a) with
    | none =>
      let t := L.stopTick u a
      if t.still && decide (w ≤ ustep16) then { t with arrived := true } else t
    | some c =>
      let v1 := v + c
      let w1 := w - v1
      if w1 ≤ 0 ∨ (w1 ≤ ustep16 ∧ v1 ≤ speed16) then { vel := 0, acc := 0, still := true, arrived := true }
      else { vel := s * v1, acc := s * c }

/-! ### Results and classes (R441, R448) -/

/-- The limits in the staging registers. -/
def Mach.stagedLimits (m : Mach) (a : Nat) : Limits :=
  { vmax := m.fld (Reg.MOT_A_STG_VMAX.vmax a), amax := m.fld (Reg.MOT_A_STG_AMAX.amax a)
    dmax := m.fld (Reg.MOT_A_STG_DMAX.dmax a), jmax := m.fld (Reg.MOT_A_STG_JMAX.jmax a) }

/-- The move in the staging registers (R437). -/
def Mach.stagedMove (m : Mach) (a : Nat) : MoveReq :=
  { target := m.sfld (Reg.MOT_A_STG_TARGET.target a), rel := m.flag (Reg.MOT_A_STG_CFG.rel a)
    lim := m.stagedLimits a, notify := m.flag (Reg.MOT_A_STG_CFG.notify a), cls := m.fld (Reg.MOT_A_STG_CFG.class a) }

/-- The move of a preset. -/
def Mach.presetMove (m : Mach) (a n : Nat) : MoveReq :=
  { target := m.sfld (Reg.MOT_PRE_TARGET.target a n), rel := m.flag (Reg.MOT_PRE_CFG.rel a n)
    lim := { vmax := m.fld (Reg.MOT_PRE_VMAX.vmax a n), amax := m.fld (Reg.MOT_PRE_AMAX.amax a n)
             dmax := m.fld (Reg.MOT_PRE_DMAX.dmax a n), jmax := m.fld (Reg.MOT_PRE_JMAX.jmax a n) }
    notify := m.flag (Reg.MOT_PRE_CFG.notify a n), cls := m.fld (Reg.MOT_PRE_CFG.class a n) }

/-- The class of a move that starts now (R441): its own, or class_mode, where AUTO is QUIET in RUN or while a job
prints. -/
def Mach.fastClass (m : Mach) (a cls : Nat) : Bool :=
  let c := if cls = 1 ∨ cls = 2 then cls else m.fld (Reg.MOT_A_CFG.class_mode a)
  if c = 1 then false else if c = 2 then true
  else !(m.inMode .run || (List.range 8).any (fun j => (m.job j).state = .printing))

/-- The result of a command, the first that applies (R448). `move` is the move that it would start. -/
def Mach.motResult (m : Mach) (a : Nat) (op : AxOp) (lim : Limits) : Nat :=
  let x := m.axis a
  let moves := op = .move || op = .preset
  let limited := moves || op = .limits || op = .gearOn || op = .home
  if !m.glb.mode.working || !m.flag (Reg.MOT_A_CFG.en a) then 5
  else if x.state = .fault && op ≠ .clear then 3
  else if (x.state = .cal || x.state = .homing) && op ≠ .stop then 1
  else if x.state = .geared && (moves || op = .home) then 1
  else if (moves || op = .gearOn) && !x.posValid then 2
  else if limited && !lim.ok then 4
  else 0

/-- The limits that a command brings. HOME takes the live ones at its own speed (R447). -/
def Mach.opLimits (m : Mach) (a : Nat) : AxOp → Limits
  | .preset => (m.presetMove a (m.fld (Reg.MOT_A_CMD.preset a))).lim
  | .home => { (m.axis a).live with vmax := m.fld (Reg.MOT_A_HOME_CFG.speed a) }
  | _ => m.stagedLimits a

/-- A MOVE action refuses (R448). -/
def Mach.moveRefused (m : Mach) (a n : Nat) : Bool :=
  decide (11 < a) || decide (m.motResult a .preset (m.presetMove a n).lim ≠ 0)

/-! ### Moves (R437 to R440) -/

/-- The target of a move: a relative one counts from the present target. The spec names none outside 32 bits.
DESIGN CHOICE (log entry 68). -/
def moveTarget (x : Axis) (r : MoveReq) : Int :=
  let t := if r.rel then x.target + r.target else r.target
  if t < -(2 ^ 31) ∨ 2 ^ 31 ≤ t then signed 32 (Config.openValue 68 (unsigned 64 t)) else t

/-- The distance from the axis to a target along its motion. -/
def Axis.ahead (x : Axis) (t : Int) : Int :=
  if x.fineVel < 0 then x.finePos - t * ustep * ustep16 else t * ustep * ustep16 - x.finePos

/-- The axis cannot stop at a target ahead under some limits. -/
def Axis.tooNear (x : Axis) (t : Int) (L : Dyn) : Bool :=
  let s : Int := if x.fineVel < 0 then -1 else 1
  decide (x.ahead t < stopDist (s * x.fineVel) (s * x.acc) L.d L.j)

/-- Start or retarget a move whose result is OK. -/
def Mach.takeMove (m : Mach) (a : Nat) (r : MoveReq) : Mach :=
  let x := m.axis a
  let t := moveTarget x r
  if x.state = .moving then
    let x := { x with target := t, notify := r.notify, stopping := false, byMode := false, past := none, returning := false }
    if x.fineVel = 0 then m.setAxis a { x with lim := r.lim, next := none }
    else if x.ahead t ≤ 0 then m.setAxis a { x with next := some r }
    else m.setAxis a { x with lim := r.lim, next := none, past := if x.tooNear t r.lim.dyn then some 2 else none }
  else
    m.axisTo a { x.rest with
      state := .moving, target := t, lim := r.lim, notify := r.notify, fast := m.fastClass a r.cls
      req := x.req } false

/-- Stop an axis under its live limits (R447, R449, R450). -/
def Mach.stopAxisNow (m : Mach) (a : Nat) (byMode : Bool) : Mach :=
  let x := m.axis a
  let y := { x with stopping := true, byMode := byMode, lim := x.live, next := none, past := none, returning := false
                    state := if x.state = .geared then .moving else x.state }
  if x.state = .moving ∨ x.state = .geared ∨ x.state = .homing then m.axisTo a y byMode else m

/-- The source position of an axis's gearing (R450). -/
def Mach.gearSource (m : Mach) (a : Nat) : Chainage :=
  let aux (c : Nat) : Chainage := BitVec.ofInt 48 ((Tab.get ({} : Channel) m.chn.ch c).pos / 2 ^ 17)
  match m.fld (Reg.MOT_A_CFG.gear_src a) with
  | 1 => aux 3
  | 2 => aux 4
  | _ => m.chn.printed

/-- How far the source has moved since GEAR_ON. -/
def Mach.gearDelta (m : Mach) (a : Nat) : Int := chnDiff (m.gearSource a) (m.axis a).s0

/-- The target of a geared axis (R450). -/
def Mach.gearTarget (m : Mach) (a : Nat) : Int :=
  signed 32 (unsigned 32 ((m.axis a).g0 + m.sfld (Reg.MOT_A_GEAR_RATIO.ratio a) * m.gearDelta a / 2 ^ 24))

/-- What a command does when its result is OK (R437, R439, R447, R450). DEDUCED (log entries 75, 79). -/
def Mach.doOp (m : Mach) (a : Nat) (op : AxOp) : Mach :=
  let x := m.axis a
  match op with
  | .move => m.takeMove a (m.stagedMove a)
  | .preset => m.takeMove a (m.presetMove a (m.fld (Reg.MOT_A_CMD.preset a)))
  | .stop => m.stopAxisNow a false
  | .limits =>
    let l := m.stagedLimits a
    let x := { x with live := l }
    if !m.flag (Reg.MOT_A_CMD.immediate a) then m.setAxis a x
    else if x.state = .moving ∧ !x.stopping ∧ x.next.isNone ∧ x.past.isNone ∧ x.fineVel ≠ 0 then
      m.setAxis a { x with lim := l, past := if x.tooNear x.target l.dyn then some 1 else none }
    else if x.state = .moving ∨ x.state = .geared then
      m.setAxis a { x with lim := l, next := x.next.map (fun r => { r with lim := l }) }
    else m.setAxis a x
  | .home =>
    m.axisTo a { x with
      state := .homing, lim := m.opLimits a .home, homeDir := m.flag (Reg.MOT_A_HOME_CFG.dir a), atCeil := 0
      next := none, past := none, returning := false, stopping := false, byMode := false, fast := m.fastClass a 0 } false
  | .setPos =>
    let p := m.sfld (Reg.MOT_A_STG_TARGET.target a)
    let y := { x.put p with posValid := true }
    m.setAxis a (if x.state = .moving then y else { y with target := p })
  | .gearOn =>
    m.axisTo a { x with
      state := .geared, s0 := m.gearSource a, g0 := x.at, gPrev := 0, lim := m.stagedLimits a, next := none, past := none
      returning := false, stopping := false, byMode := false, lagOver := 0, lagRaised := false
      fast := m.fastClass a (m.fld (Reg.MOT_A_STG_CFG.class a)) } false
  | .gearOff => if x.state = .geared then m.stopAxisNow a false else m
  | .clear => if x.state = .fault then m.axisTo a { x.rest with state := .off, faultCause := 0 } false else m
  | .off => if x.state = .hold then m.axisTo a { x.rest with state := .off } false else m

/-- Take the register command of an axis (R440, R448). A STOP waits for calibration to end (R455). -/
def Mach.takeCmd (m : Mach) (a : Nat) : Mach :=
  let x := m.axis a
  match x.cmd with
  | none => m
  | some op =>
    if x.state = .cal ∧ op = .stop then m else
    let r := m.motResult a op (m.opLimits a op)
    let m := m.setAxis a { x with cmd := none }
    let m := (m.setFld (Reg.MOT_A_CMD.busy a) 0).setFld (Reg.MOT_A_CMD.result a) r
    if r = 0 then m.doOp a op else m

/-- A move in its place among those that wait (R440). -/
def insertMove (r : MoveReq) : List MoveReq → List MoveReq
  | [] => [r]
  | x :: l => if r.src.rank < x.src.rank then r :: x :: l else x :: insertMove r l

/-- A move waits for the next planner tick of an axis. -/
def Mach.askMove (m : Mach) (a : Nat) (r : MoveReq) : Mach :=
  let x := m.axis a
  m.setAxis a { x with req := insertMove r x.req }

/-! ### Currents and load (R444, R446) -/

/-- The ceiling in force: i_ceil within i_ceil_max. -/
def Mach.motCeiling (m : Mach) (a : Nat) : Nat := min (m.fld (Reg.MOT_A_CEIL.i_ceil a)) (m.fld (Reg.MOT_A_CEIL.i_ceil_max a))

/-- The set current of an axis: i_hold at standstill, i_home in HOME, else by its load; never above the ceiling. -/
def Mach.setCurrent (m : Mach) (a : Nat) (x : Axis) : Nat :=
  let ceil := m.motCeiling a
  let floor := m.fld (Reg.MOT_A_CUR.i_floor a)
  let i : Int :=
    if x.state = .homing then (m.fld (Reg.MOT_A_HOME_CUR.i_home a) : Int)
    else if (x.state = .moving ∨ x.state = .geared) ∧ x.fineVel ≠ 0 then
      (floor : Int) + (((ceil : Int) - (floor : Int)) * (x.load : Int) + 127) / 255
    else (m.fld (Reg.MOT_A_CUR.i_hold a) : Int)
  min i.toNat ceil

/-- The electrical angle of an axis in microsteps, and its velocity as the coils see it (R435). -/
def Mach.coilAngle (m : Mach) (a : Nat) (x : Axis) : Int := if m.flag (Reg.MOT_A_CFG.invert a) then -x.at else x.at
def Mach.coilSpeed (m : Mach) (a : Nat) (x : Axis) : Int := if m.flag (Reg.MOT_A_CFG.invert a) then -x.vel else x.vel

/-- The load figure of an axis as a full step ends (R444). -/
def Mach.stepLoad (m : Mach) (a : Nat) (x : Axis) : Nat :=
  if x.fast then fastLoad x.coilA x.coilB
  else quietLoad (m.coilAngle a x) (decide (m.coilSpeed a x < 0)) x.coilA.meas x.coilB.meas

/-- The figures of one full step: its load, and the run of steps with the set current at the ceiling. In HOME the
current is fixed, and the step counts when the load marks the loss of step. -/
def Mach.fullStep (m : Mach) (a : Nat) (x : Axis) : Axis :=
  let x := { x with load := m.stepLoad a x }
  let high := if x.state = .homing then decide (x.load = 255) else decide (m.motCeiling a ≤ m.setCurrent a x)
  let hyst := m.fld (Reg.MOT_A_CHOP.hyst_ma a)
  { x with
    atCeil := if high then x.atCeil + 1 else 0
    coilA := if x.fast then x.coilA.stepEnd hyst else x.coilA, coilB := if x.fast then x.coilB.stepEnd hyst else x.coilB }

/-! ### The coils (R434, R442, R443, R446, R521) -/

/-- What drives the coils of an axis. -/
def Mach.coilDrive (m : Mach) (a : Nat) : CoilDrive :=
  { full := m.fld (Reg.MOT_A_SENSE.full_scale_ma a), blank := m.fld (Reg.MOT_A_SENSE.blank a)
    mohm := m.fld (Reg.MOT_A_DRIVE.coil_mohm a), ke := m.fld (Reg.MOT_A_DRIVE.ke a)
    hyst := m.fld (Reg.MOT_A_CHOP.hyst_ma a), bus := m.fld Reg.PWR_VMOT.mv
    khz := clampNat 20 80 (m.fld Reg.MOT_CFG.pwm_khz) }

/-- ke x v_fs ÷ 1 000 times a figure in 2^-16, in 2^-16 mV (R442). -/
def CoilDrive.emf (d : CoilDrive) (vel f16 : Int) : Int := (d.ke : Int) * vel * f16 / 16777216000

/-- A PWM period has ended: the periods in a row above 5/4 of the ceiling are counted (R446). -/
def Axis.periodEnd (x : Axis) (ceiling : Nat) : Axis :=
  { x with above := if 5 * ceiling < 4 * x.peak then x.above + 1 else 0, peak := 0 }

/-- A quarter microsecond of the coils of a driven axis, with the currents sampled, in mA. An axis in calibration
keeps its duty (R455). -/
def Axis.coilQuarter (x : Axis) (d : CoilDrive) (angle vel : Int) (i ceiling : Nat) (now : Option (Int × Int)) : Axis × Bool :=
  let setA := (i : Int) * cosine16 angle
  let setB := (i : Int) * sine16 angle
  let next := x.phase + d.khz
  let wrap := decide (4000 ≤ next)
  let centre := decide (x.phase < 2000) && decide (2000 ≤ next)
  let held := x.state = .cal
  let taken (c : Coil) : Bool := now.isSome && !held &&
    (if x.fast then decide (d.blank ≤ min 16 (c.edge + 1)) else if c.sampledAtCentre then centre else wrap)
  let y : Axis :=
    if x.fast then
      if held then x
      else { x with
        coilA := x.coilA.fast.chop d (setA / 65536) (d.dutyOf setA (d.emf vel (-(sine16 angle))) 0) (now.map (fun p => p.1))
        coilB := x.coilB.fast.chop d (setB / 65536) (d.dutyOf setB (d.emf vel (cosine16 angle)) 0) (now.map (fun p => p.2)) }
    else
      let take (c : Coil) (set16 : Int) (v : Option Int) : Coil :=
        match v with
        | some v => if taken c then c.quietSample d set16 v else c
        | none => c
      let a := take x.coilA.quiet setA (now.map (fun p => p.1))
      let b := take x.coilB.quiet setB (now.map (fun p => p.2))
      if wrap && !held then
        { x with
          coilA := { a with duty := d.dutyOf setA (d.emf vel (-(sine16 angle))) a.integral }
          coilB := { b with duty := d.dutyOf setB (d.emf vel (cosine16 angle)) b.integral } }
      else { x with coilA := a, coilB := b }
  let top (was c : Coil) : Nat := if taken was then c.meas.natAbs else 0
  let y := { y with
    phase := if wrap then next - 4000 else next, peak := max y.peak (max (top x.coilA y.coilA) (top x.coilB y.coilB)) }
  (if wrap then y.periodEnd ceiling else y, wrap)

/-- One quarter microsecond of an axis: its gates follow its coils. -/
def Mach.coilStep (m : Mach) (a : Nat) (code : Option (Int × Int)) : Mach :=
  let x := m.axis a
  let d := m.coilDrive a
  let r := x.coilQuarter d (m.coilAngle a x) (m.coilSpeed a x) (m.setCurrent a x) (m.motCeiling a)
    (code.map (fun c => (d.mA c.1, d.mA c.2)))
  let m := m.setAxis a r.1
  if x.fast then
    if r.1.gateLevels = x.gateLevels ∧ x.coilA.duty = 0 ∧ x.coilB.duty = 0 then m else m.emit (.gates a r.1.gateLevels)
  else
    let m := if x.gateLevels = 0 then m else m.emit (.gates a 0)
    if r.2 then m.emit (.pwm a r.1.coilA.duty r.1.coilB.duty) else m

/-- One microsecond of an axis's coils, with the codes of its sense inputs: MOT_A<a>_CUR_NOW shows the currents
measured. -/
def Mach.driveCoils (m : Mach) (a : Nat) (codes : List (Int × Int)) : Mach :=
  if !(m.axis a).driven then m
  else
    let m : Mach := forRange 4 (fun q (m : Mach) => m.coilStep a codes[q]?) m
    let x := m.axis a
    (m.setFld (Reg.MOT_A_CUR_NOW.a a) (unsigned 16 x.coilA.meas)).setFld (Reg.MOT_A_CUR_NOW.b a) (unsigned 16 x.coilB.meas)

/-! ### One planner tick -/

/-- An axis standing still with a stop, an overshoot or a reversal to finish (R438, R439). -/
def Mach.atStandstill (m : Mach) (a : Nat) (x : Axis) : Mach :=
  if x.stopping then m.axisHold a { x with target := x.at }
  else
    match x.next with
    | some r =>
      (m.addSat (Reg.MOT_A_REVERSALS.cnt a) 1).setAxis a { x.still with next := none, lim := r.lim }
    | none =>
      match x.past with
      | some c =>
        let beyond := (x.pos - x.target * ustep).natAbs / ustep.natAbs
        ((m.addSat (Reg.MOT_A_OVERSHOOTS.cnt a) 1).raise Ev.motOvershoot .warning (a + 256 * c) beyond).setAxis a
          { x.still with past := none, returning := true }
      | none => m.setAxis a x.still

/-- A move ends at its target (R436). -/
def Mach.arrive (m : Mach) (a : Nat) (x : Axis) : Mach :=
  let x := x.put x.target
  let m := m.axisHold a x
  if x.notify then m.raise Ev.motDone .info a (unsigned 32 x.at) else m

/-- One tick of an axis's planner. DESIGN CHOICE (log entry 72). -/
def Mach.planAxis (m : Mach) (a : Nat) : Mach :=
  let x := m.axis a
  let L := x.lim.dyn
  let go (t : Tick) (vt : Int) : Axis :=
    let y := x.moved (t.vel + vt) t.acc
    if y.at / 256 = x.at / 256 then y else m.fullStep a y
  match x.state with
  | .moving =>
    if x.stopping ∨ x.next.isSome ∨ x.past.isSome then
      let t := L.stopTick x.fineVel x.acc
      if t.still then m.atStandstill a x.still else m.setAxis a (go t 0)
    else
      let t := L.followTick (x.target * ustep * ustep16 - x.finePos) x.fineVel x.acc 0
      if t.arrived then m.arrive a x else m.setAxis a (go t 0)
  | .homing =>
    if x.stopping then
      let t := L.stopTick x.fineVel x.acc
      if t.still then m.atStandstill a x.still else m.setAxis a (go t 0)
    else
      let far : Int := if x.homeDir then 10 ^ 40 else -(10 ^ 40)
      m.setAxis a (go (L.followTick far x.fineVel x.acc 0) 0)
  | .geared =>
    let d := m.gearDelta a
    let vt := m.sfld (Reg.MOT_A_GEAR_RATIO.ratio a) * (d - x.gPrev) * ustep * ustep16 / 2 ^ 24
    let t := m.gearTarget a
    let r := L.followTick (wrapPos (t * ustep - x.pos) * ustep16 - x.posLow - vt) (x.fineVel - vt) x.acc vt
    let y := go r vt
    let y := if r.arrived then y.put t else y
    let past := decide (m.fld (Reg.MOT_A_CFG.lag_max a) < (signed 32 (unsigned 32 (t - y.at))).natAbs)
    m.setAxis a { y with
      gPrev := d, lagOver := if past then y.lagOver + 1 else 0, lagRaised := past && y.lagRaised
      target := t }
  | _ => m

/-! ### Compare units (R452, R453) -/

/-- A compare unit. -/
def Axis.cmp (x : Axis) (u : Nat) : CmpUnit := if u = 0 then x.cmp0 else x.cmp1

/-- The axis with one compare unit changed. -/
def Axis.setCmp (x : Axis) (u : Nat) (c : CmpUnit) : Axis := if u = 0 then { x with cmp0 := c } else { x with cmp1 := c }

/-- How far a compare value lies ahead in the unit's direction, as a signed 32-bit value. -/
def Mach.cmpDist (m : Mach) (a u : Nat) : Int :=
  let v := m.sfld (Reg.MOT_A_CMP_VAL.val a u)
  let x := m.axis a
  signed 32 (unsigned 32 (if m.flag (Reg.MOT_A_CMP_CFG.dir a u) then -((-x.pos) / ustep) - v else v - x.at))

/-- EV_MOT_CMP of a unit. -/
def Mach.cmpEvent (m : Mach) (a u kind arg1 : Nat) : Mach :=
  m.raise Ev.motCmp (if kind = 1 ∨ kind = 3 then .error else if kind = 2 then .warning else .info)
    (a + 16 * u + 256 * kind) arg1

/-- A compare unit's action is skipped. -/
def Mach.cmpSkip (m : Mach) (a u : Nat) : Mach :=
  let x := m.axis a
  (m.setAxis a (x.setCmp u { state := .skipped })).cmpEvent a u 3 (unsigned 32 x.at)

/-- A move that its axis refuses on the planner tick: its source counts the occurrence as skipped after all, and an axis
of a lift group stays where it is (R84, R448). DEDUCED (log entry 249). -/
def Mach.dropMove (m : Mach) (r : MoveReq) : Mach :=
  match r.src with
  | .station n => m.slotUndone n
  | .compare a u => m.cmpSkip a u
  | _ => m

/-- Take the station moves of an axis, then the compare moves (R440). -/
def Mach.takeMoves (m : Mach) (a : Nat) : Mach :=
  let x := m.axis a
  x.req.foldl (fun m r => if m.motResult a .preset r.lim = 0 then m.takeMove a r else m.dropMove r)
    (m.setAxis a { x with req := [] })

/-- A compare unit acts, or its action is skipped. DEDUCED (log entry 76). -/
def Mach.cmpAct (m : Mach) (a u : Nat) (caughtUp : Bool) : Mach :=
  let x := m.axis a
  let sel := m.fld (Reg.MOT_A_CMP_CFG.sel a u)
  let arg := m.fld (Reg.MOT_A_CMP_ARG.arg a u)
  let action := m.fld (Reg.MOT_A_CMP_CFG.action a u)
  let skip :=
    if action = 1 then decide (15 < sel) || (m.stnOut sel).busy || (m.stnOut sel).byStn = some m.now
    else if action = 3 then m.moveRefused sel (arg % 16)
    else false
  if skip then m.cmpSkip a u else
  let m := (m.setAxis a (x.setCmp u { state := .done })).setFld (Reg.MOT_A_CMP_ACT.pos a u) (unsigned 32 x.at)
  let m := if caughtUp then m.cmpEvent a u 2 (unsigned 32 x.at) else m
  match action with
  | 1 =>
    let was := m.stnOut sel
    let m := m.outPulse sel arg
    m.setOut sel { m.stnOut sel with
      byCmp := some { tick := m.now, axis := a, unit := u, driven := was.driven, active := was.active } }
  | 2 => m.cmpEvent a u 0 arg
  | 3 => m.askMove sel { m.presetMove sel (arg % 16) with src := .compare a u }
  | _ => m

/-- One planner tick of a compare unit. DEDUCED (log entry 77). -/
def Mach.cmpTick (m : Mach) (a u : Nat) : Mach :=
  let x := m.axis a
  let c := x.cmp u
  if c.arming then
    if 1 ≤ m.cmpDist a u then m.setAxis a (x.setCmp u { state := .armed })
    else if m.flag (Reg.MOT_A_CMP_CFG.catch_up a u) then m.cmpAct a u true
    else (m.setAxis a (x.setCmp u { state := .late })).cmpEvent a u 1 (unsigned 32 x.at)
  else if c.state = .armed && decide (m.cmpDist a u ≤ 0) then m.cmpAct a u false
  else m

/-! ### Print windows (R454) -/

/-- The commanded position lies from WIN_LO to WIN_HI. -/
def Mach.inWindow (m : Mach) (a : Nat) : Bool :=
  let p := (m.axis a).pos
  decide (m.sfld (Reg.MOT_A_WIN_LO.lo a) * ustep ≤ p) && decide (p ≤ m.sfld (Reg.MOT_A_WIN_HI.hi a) * ustep)

/-- Judge one axis's print window. -/
def Mach.windowTick (m : Mach) (a : Nat) : Mach :=
  let x := m.axis a
  let planes := m.fld (Reg.MOT_A_WIN_PLANES.planes a)
  let on := m.flag (Reg.MOT_A_CFG.en a) && decide (planes ≠ 0) && (!x.posValid || !m.inWindow a)
  let m := m.setAxis a { x with inhibit := on, within := m.inWindow a }
  if on = x.inhibit then m else m.raise Ev.motWindow .info (a + 256 * ofBool on) planes

/-- The planes that print windows inhibit. -/
def Mach.windowPlanes (m : Mach) : Nat :=
  (List.range 12).foldl (fun n a => if (m.axis a).inhibit then n ||| m.fld (Reg.MOT_A_WIN_PLANES.planes a) else n) 0

/-- PLANNER_TICK (R436, R440): commands and moves are taken, every planner runs, then compare units and print windows
are judged. `senses` holds what each axis's sense inputs bring. In power-fail and thermal shutdown the gates stay low (R461, R468). -/
def execPlannerTick (senses : List AxisSense) (s : State) : Host.Outcome State Fault Refusal :=
  s.run fun m =>
    if m.shed then m else
    m.onBeat .plan ticksUs fun m =>
    let m : Mach := forRange 12 (fun a (m : Mach) => (m.takeCmd a).takeMoves a) m
    let m : Mach := forRange 12 (fun a (m : Mach) => m.planAxis a) m
    let m : Mach := if m.glb.mode.working then forRange 12 (fun a (m : Mach) => (m.cmpTick a 0).cmpTick a 1) m else m
    let m : Mach := forRange 12 (fun a (m : Mach) => m.windowTick a) m
    let m : Mach := forRange 12 (fun a (m : Mach) => m.driveCoils a (senses.getD a {}).codes) m
    { m with mot := { m.mot with planes := m.windowPlanes } }

/-! ### Commands (R447, R457) -/

/-- An op written to MOT_A<a>_CMD waits for the next planner tick; one written while another waits is discarded. In
BOOT the block answers no access (R490). -/
def Mach.writeOp (m : Mach) (a : Nat) (op : AxOp) : Mach :=
  let x := m.axis a
  if m.inMode .boot || x.cmd.isSome then m
  else (m.setAxis a { x with cmd := some op }).setFld (Reg.MOT_A_CMD.busy a) 1

/-- MOVE (R437): the staging registers give the move. -/
def execMove (a : Nat) (s : State) : Host.Outcome State Fault Refusal := s.run fun m => m.writeOp a .move
/-- PRESET (R437): one of the axis's presets gives the move. -/
def execPreset (a : Nat) (s : State) : Host.Outcome State Fault Refusal := s.run fun m => m.writeOp a .preset
/-- STOP of an axis (R447). -/
def execStopAxis (a : Nat) (s : State) : Host.Outcome State Fault Refusal := s.run fun m => m.writeOp a .stop
/-- LIMITS (R439). -/
def execLimits (a : Nat) (s : State) : Host.Outcome State Fault Refusal := s.run fun m => m.writeOp a .limits
/-- HOME (R447). -/
def execHome (a : Nat) (s : State) : Host.Outcome State Fault Refusal := s.run fun m => m.writeOp a .home
/-- SET_POS (R447). -/
def execSetPos (a : Nat) (s : State) : Host.Outcome State Fault Refusal := s.run fun m => m.writeOp a .setPos
/-- GEAR_ON (R450). -/
def execGearOn (a : Nat) (s : State) : Host.Outcome State Fault Refusal := s.run fun m => m.writeOp a .gearOn
/-- GEAR_OFF (R450). -/
def execGearOff (a : Nat) (s : State) : Host.Outcome State Fault Refusal := s.run fun m => m.writeOp a .gearOff
/-- CLEAR (R447). -/
def execClear (a : Nat) (s : State) : Host.Outcome State Fault Refusal := s.run fun m => m.writeOp a .clear
/-- OFF (R447). -/
def execOff (a : Nat) (s : State) : Host.Outcome State Fault Refusal := s.run fun m => m.writeOp a .off

/-- Set en of an axis: from 0 it enters HOLD with its position unknown (R447); BACKSIGHT drives it OFF (R449). -/
def Mach.enableAxis (m : Mach) (a : Nat) : Mach :=
  if m.inMode .boot || m.flag (Reg.MOT_A_CFG.en a) then m
  else
    let m := m.setFld (Reg.MOT_A_CFG.en a) 1
    let x := { (m.axis a).rest with posValid := false, faultCause := 0, state := .hold }
    m.axisTo a (if m.isBacksight then { x with state := .off } else x) false

/-- Clear en of an axis: its coils are no longer driven. -/
def Mach.disableAxis (m : Mach) (a : Nat) : Mach :=
  let m := m.setFld (Reg.MOT_A_CFG.en a) 0
  m.axisTo a { (m.axis a).rest with state := .off, faultCause := 0 } false

/-- AXIS_ENABLE (R447). -/
def execAxisEnable (a : Nat) (s : State) : Host.Outcome State Fault Refusal := s.run fun m => m.enableAxis a

/-- CMP_ARM (R452): the unit is armed on the next planner tick. -/
def execCmpArm (a m : Nat) (s : State) : Host.Outcome State Fault Refusal :=
  s.run fun k =>
    if k.inMode .boot then k
    else
      let x := k.axis a
      k.setAxis a (x.setCmp m { x.cmp m with arming := true })

/-- CMP_CANCEL (R452): an ARMED unit becomes CANCELLED. -/
def execCmpCancel (a m : Nat) (s : State) : Host.Outcome State Fault Refusal :=
  s.run fun k =>
    let x := k.axis a
    if (x.cmp m).state = .armed then k.setAxis a (x.setCmp m { x.cmp m with state := .cancelled }) else k

/-! ### Faults of an axis (R445, R446, R451) -/

/-- STALL (R445, R447): eight full steps at the ceiling end the move in FAULT, are only reported under WARN, and in HOME
are the home position. DEDUCED (log entries 74, 78). -/
def execStall (a : Nat) (s : State) : Host.Outcome State Fault Refusal :=
  s.run fun m =>
    let x := m.axis a
    let moving := x.state = .moving || x.state = .geared || x.state = .homing
    if !moving || decide (x.atCeil < 8) then m
    else
      let homing := x.state = .homing
      let stop := homing || !m.flag (Reg.MOT_A_CFG.stall_action a)
      let m := (m.addSat (Reg.MOT_A_STALLS.cnt a) 1).raise Ev.motStall
        (if homing then .info else if stop then .error else .warning)
        (a + 256 * ofBool stop + 512 * ofBool homing) (unsigned 32 x.at)
      if homing then
        let p := m.sfld (Reg.MOT_A_HOME_POS.pos a)
        let m := m.axisHold a { x.put p with target := p, posValid := true, atCeil := 0 }
        m.raise Ev.motDone .info (a + 256) (unsigned 32 p)
      else if stop then
        m.axisTo a { x.rest with state := .fault, faultCause := 1, posValid := false, atCeil := 0 } true
      else m.setAxis a { x with atCeil := 0 }

/-- OVERCURRENT (R446): two PWM periods in a row above 5/4 of the ceiling drive the gates low. The operands are the
measured currents in mA, as MOT_A<a>_CUR_NOW shows them. -/
def execOvercurrent (a : Nat) (coilA coilB : Int) (s : State) : Host.Outcome State Fault Refusal :=
  s.run fun m =>
    let x := m.axis a
    if !x.driven ∨ x.above < 2 ∨ coilA ≠ x.coilA.meas ∨ coilB ≠ x.coilB.meas then m
    else
      let m := m.raise Ev.motOvercurrent .error a (unsigned 16 coilA + 65536 * unsigned 16 coilB)
      m.axisTo a { x.rest with state := .fault, faultCause := 2, posValid := false, atCeil := 0 } true

/-- GEAR_LAG (R451): the lag has stood above lag_max for 1 ms. -/
def execGearLag (a : Nat) (s : State) : Host.Outcome State Fault Refusal :=
  s.run fun m =>
    let x := m.axis a
    if x.state ≠ .geared ∨ x.lagOver < 1000 ∨ x.lagRaised then m
    else (m.setAxis a { x with lagRaised := true }).raise Ev.motGearLag .warning a
      (unsigned 32 (clampInt (-(2 ^ 31)) (2 ^ 31 - 1) (m.gearTarget a - x.at)))

/-! ### Modes and roles (R449) -/

/-- HALT stops every moving, geared or homing axis under its live limits. -/
def Mach.motHalt (m : Mach) : Mach := forRange 12 (fun a (m : Mach) => m.stopAxisNow a true) m

/-- A stop stops the axes of MOT_CFG.stop_axes. -/
def Mach.motStop (m : Mach) : Mach :=
  forRange 12 (fun a (m : Mach) => if bitAt (m.fld Reg.MOT_CFG.stop_axes) a then m.stopAxisNow a false else m) m

/-- BOOT and BACKSIGHT drive every axis OFF. -/
def Mach.motOff (m : Mach) : Mach :=
  forRange 12 (fun a (m : Mach) => m.axisTo a { (m.axis a).rest with state := .off } true) m

/-- At a revert's RELEASED (R449): a record of every axis as it is at rest, and then the axes go OFF with no further
record, which would undo the first. DEDUCED (log entry 217). -/
def Mach.motYield (m : Mach) : Mach :=
  let m : Mach := forRange 12 (fun a (m : Mach) => m.axisRecord a) m
  forRange 12 (fun a (m : Mach) =>
    let x := m.axis a
    let m := m.setCoils a { x.rest with state := .off }
    if x.state = .off then m else m.raise Ev.motState .info (a + 256 * x.state.code) 0) m

/-- The axes as records hold them. -/
def Mach.motShadow (m : Mach) : List (Nat × Bool × Int) :=
  (List.range 12).map (fun a => ((m.axis a).state.code, (m.axis a).posValid, (m.axis a).at))

/-- A standby notes the recorded state of an axis. -/
def Mach.noteAxis (m : Mach) (a : Nat) (x : AxShadow) : Mach :=
  { m with mot := { m.mot with shadow := Tab.set {} m.mot.shadow a x } }

/-- Every enabled axis takes the state that the records show; one recorded in motion is OFF, its position unknown. -/
def Mach.motRestore (m : Mach) : Mach :=
  forRange 12 (fun a (m : Mach) =>
    if !m.flag (Reg.MOT_A_CFG.en a) then m
    else
      let h : AxShadow := Tab.get {} m.mot.shadow a
      let known := h.state = 0 || h.state = 1 || h.state = 6
      let x := { ((m.axis a).rest.put h.pos) with
        target := h.pos, posValid := known && h.posValid
        state := if h.state = 1 then .hold else if h.state = 6 then .fault else .off }
      m.axisTo a x true) m

/-- The axis as calibration takes and leaves it (R455). -/
def Mach.calAxis (m : Mach) (a : Nat) (start : Bool) : Mach :=
  let x := m.axis a
  if start then m.axisTo a { x with state := .cal, calOff := x.state = .off } false
  else if x.state = .cal then m.axisTo a { x with state := if x.calOff then .off else .hold } false
  else m

end Sys2Proof.Machine
end

