-- ==== Sys2Proof/Machine/Station.lean ====
section
/-! DEFINITION. Stations (R66 to R86): commits and cancels, arming, crossing, occurrences, actions, chains and lift
groups. -/

namespace Sys2Proof.Machine

open Sys2Proof

/-! ### Slots -/

/-- The fields of STN_ACT (R86). -/
def SlotFields.action (f : SlotFields) : Nat := bitsOf f.act 3 0
def SlotFields.catchUp (f : SlotFields) : Bool := bitAt f.act 7
def SlotFields.sel (f : SlotFields) : Nat := bitsOf f.act 15 8
def SlotFields.armSrc (f : SlotFields) : Nat := bitsOf f.act 17 16
def SlotFields.probe (f : SlotFields) : Nat := bitsOf f.act 20 18
def SlotFields.rearm (f : SlotFields) : Bool := bitAt f.act 21
def SlotFields.notify (f : SlotFields) : Bool := bitAt f.act 22
def SlotFields.chainEn (f : SlotFields) : Bool := bitAt f.act 23
def SlotFields.chainSlot (f : SlotFields) : Nat := bitsOf f.act 31 24

/-- The station output that a slot's action drives. -/
def SlotFields.output (f : SlotFields) : Option Nat := if f.action = 1 ∨ f.action = 2 then some f.sel else none

/-- The fields as STN_COMMIT brings them (R124), each to its width in the staging registers. -/
def slotFields (tgt act arg ivl count : Nat) : SlotFields :=
  { tgt := tgt % 2 ^ 48, act := act % 2 ^ 32, arg := arg % 2 ^ 32, ivl := ivl % 2 ^ 40, count := count % 2 ^ 32 }

/-- The fields in the staging registers. -/
def Mach.stagedSlot (m : Mach) : SlotFields :=
  slotFields (m.rd Reg.STN_TGT_LO + 2 ^ 32 * m.rd Reg.STN_TGT_HI) (m.rd Reg.STN_ACT) (m.rd Reg.STN_ARG)
    (m.rd Reg.STN_IVL_LO + 2 ^ 32 * m.rd Reg.STN_IVL_HI) (m.rd Reg.STN_COUNT)

/-- The BAD_PARAM causes of R71. -/
def SlotFields.bad (f : SlotFields) (n : Nat) : Bool :=
  let selBad := match f.action with
    | 0 => false | 6 => false | 7 => false | 8 => false
    | 1 => decide (15 < f.sel) | 2 => decide (15 < f.sel)
    | 3 => decide (7 < f.sel) | 4 => decide (7 < f.sel)
    | 5 => decide (11 < f.sel) | 9 => decide (3 < f.sel)
    | _ => true
  selBad || (f.action = 2 && f.arg % 4 = 3) || f.armSrc = 3 || (f.armSrc = 1 && decide (2 ^ 47 ≤ f.tgt)) ||
  (f.action = 1 && f.arg % 2 ^ 24 = 0) || (decide (1 ≤ f.ivl) && decide (f.ivl ≤ 63)) ||
  (f.chainEn && f.chainSlot = n) || (f.armSrc = 2 && f.ivl ≠ 0)

/-- Stations act, and slots are armed from stakes and chains: the working modes with a vote (R67, R68), once a
takeover has restored its state (R421). -/
def Mach.stnActive (m : Mach) : Bool :=
  m.glb.mode.working && m.chn.vote.valid && !m.shed && m.ptn.restored

/-- In a revert the old active module acts on targets behind the switch chainage, the new one on the others (R428). -/
def Mach.targetOurs (m : Mach) (t : Chainage) : Bool :=
  m.ptn.switched.all (chnAtOrAhead t) &&
  (match m.ptn.cSw with
   | some w => if m.ptn.state = .reverting then chnAtOrAhead t w = !m.ptn.oldActive else true
   | none => true)

/-- A slot as it retires: with rearm a one-shot STAKE slot waits for the next stake (R82). -/
def Mach.retired (m : Mach) (x : Slot) (st : SlotState) : Slot :=
  if x.f.rearm && x.f.armSrc = 1 && x.f.ivl = 0 && st ≠ .cancelled then
    { x with taken := 0, stakeAfter := (Tab.get ({} : Probe) m.chn.probe x.f.probe).issued, state := .waitStake }
  else { x with state := st }

/-- A slot that has acted or was skipped goes on periodic, or it retires; the state is mirrored (R412 type 2).
DEDUCED (log entry 226). -/
def Mach.slotTo (m : Mach) (n : Nat) (x : Slot) (st : SlotState) : Mach :=
  (m.setSlot n (if st.retired then m.retired x st else { x with state := st })).decide_ 2 m.chainage n st.code

/-- The saturated lateness of a target in links (R74). -/
def Mach.lateness (m : Mach) (t : Chainage) : Nat := min (2 ^ 32 - 1) (-chnDiff t m.chn.printed).toNat

/-- A slot retires LATE or CANCELLED, and so does the slot chained to it, and so on (R83). `t` is the slot's target. -/
def Mach.retireChain : Nat → Mach → Nat → SlotState → Chainage → Mach
  | 0, m, _, _, _ => m
  | k + 1, m, n, st, t =>
    let x := m.slot n
    let m := if st = .late then
        (m.addSat Reg.STN_LATE_CNT.cnt 1).raise Ev.stnLate .error n (m.lateness t)
      else m
    let m := m.slotTo n x st
    let c := x.f.chainSlot
    if x.f.chainEn && (m.slot c).state = .waitChain then
      m.retireChain k c st (t + BitVec.ofNat 48 (m.slot c).f.tgt)
    else m

/-! ### Actions (R79) -/

/-- Start the presets of a lift group on its axes. An axis that refuses is left (R84). -/
def Mach.liftMoves (m : Mach) (n g preset : Nat) : Mach :=
  forRange 12 (fun a (m : Mach) =>
    if bitAt (m.fld (Reg.STN_LIFT_CFG.axes g)) a && !m.moveRefused a preset then
      m.askMove a { m.presetMove a preset with src := .lift n }
    else m) m

/-- The inhibit of a lift group after BAR_LIFT up or down with a target (R84). -/
def Mach.liftInhibit (m : Mach) (g : Nat) (up : Bool) (t : Chainage) : Mach :=
  let x := (Tab.get ({} : Lift) m.stn.lift g).moved up t (m.fld (Reg.STN_LIFT_SETTLE.settle g))
  { m with stn := { m.stn with lift := Tab.set {} m.stn.lift g x } }

/-- JOB_STOP: the job of a tag, ARMED or PRINTING, ends at a chainage (R173); one that waits for its station has no line
yet and ends at once. DEDUCED (log entry 80). -/
def Mach.stopJobAt (m : Mach) (tag : Nat) (t : Chainage) : Mach :=
  match m.jobSlot tag with
  | none => m
  | some j =>
    let x := m.job j
    if x.state = .armed && !x.started then
      (if m.endBusy then m.setJob j { x with stop := some t } else m.endTaken.endJob j .ok m.chainage 0)
    else if x.active then m.stopLines j (match x.stop with | none => t | some s => chnMin s t)
    else m

/-- LAYER_FLIP for a target: the change, unless the layer refuses (R198). -/
def Mach.flipChange (m : Mach) (layer planes : Nat) (t : Chainage) : Option Change :=
  (m.flipJob layer (fun x => x.flipStart layer t)).map (fun j =>
    let x := m.job j
    .flip layer planes (x.lineChn (x.lineAt (x.flipStart layer t))))

/-- JOB_START for a target: the change, unless the tag is not ARMED with BY_STATION (R171). -/
def Mach.startChange (m : Mach) (tag : Nat) (t : Chainage) : Option Change :=
  (m.jobSlot tag).bind (fun j =>
    let x := m.job j
    if x.state = .armed && x.byStation && !x.started then some (.station j (t + BitVec.ofNat 48 x.offset)) else none)

/-- Submit a station's change; a change that would need a fifth version is refused as busy (R26). -/
def Mach.stationChange (m : Mach) (c : Option Change) : Mach × Bool :=
  match c with
  | none => (m, false)
  | some c => if m.hasRoom (m.scopeOf c) then (m.submit c, true) else (m, false)

/-- A station acts on an output: a compare unit that pulsed it on this tick loses it, and it stands as before that pulse
(R453). -/
def Mach.takeFromCmp (m : Mach) (out : Nat) : Mach :=
  let x := { m.stnOut out with byStn := some m.now }
  match x.byCmp with
  | some c =>
    if c.tick = m.now then
      (m.setOut out { x with driven := c.driven, active := c.active, pulse := none, gap := none, byCmp := none }).cmpSkip
        c.axis c.unit
    else m.setOut out x
  | none => m.setOut out x

/-- The action of slot `n` for a target; the flag tells whether it acted or was skipped (R77, R79). -/
def Mach.slotAct (m : Mach) (n : Nat) (x : Slot) (t : Chainage) : Mach × Bool :=
  let sel := x.f.sel
  let arg := x.f.arg
  match x.f.action with
  | 1 =>
    let m := m.takeFromCmp sel
    if (m.stnOut sel).busy then (m, false) else (m.outPulse sel (arg % 2 ^ 24), true)
  | 2 =>
    let m := m.takeFromCmp sel
    let level := if arg % 4 = 2 then !m.outLevel sel else arg % 4 = 1
    let m := m.endPulse sel level m.now
    (m.setOut sel { m.stnOut sel with driven := true }, true)
  | 3 => m.startFrame sel t none
  | 4 => m.stationChange (m.flipChange sel (arg % 1024) t)
  | 5 =>
    if m.moveRefused sel (arg % 16) then (m, false)
    else (m.askMove sel { m.presetMove sel (arg % 16) with src := .station n }, true)
  | 6 => (m.raise Ev.stnMark .info sel arg, true)
  | 7 => m.stationChange (m.startChange sel t)
  | 8 => (m.stopJobAt sel t, true)
  | 9 =>
    let up := bitAt arg 0
    let preset := if up then m.fld (Reg.STN_LIFT_CFG.up_preset sel) else m.fld (Reg.STN_LIFT_CFG.down_preset sel)
    ((m.liftInhibit sel up t).liftMoves n sel preset, true)
  | _ => (m, true)

/-! ### Occurrences (R75 to R77) -/

/-- How a slot goes on once an occurrence has been taken: a periodic slot takes the next target that lies ahead, with
the occurrences between counted as skipped; the count and how many were skipped come with it. -/
def Slot.advance (x : Slot) (printed : Chainage) : Slot × Nat × Bool :=
  let left := x.f.count - x.taken
  let t := x.target + BitVec.ofNat 48 x.f.ivl
  let behind := chnDiff printed t
  let k := if behind < 0 then 0 else behind.toNat / x.f.ivl + 1
  if x.f.count ≠ 0 ∧ left ≤ k then ({ x with taken := x.f.count }, left, true)
  else ({ x with taken := x.taken + k, target := t + BitVec.ofNat 48 (k * x.f.ivl) }, k, false)

/-- A slot takes the occurrence of its target: it acts, unless `allowed` is clear or its output or block is busy. Its
first occurrence arms the chained slot by `chain` (R83). The flag tells whether it acted. -/
def Mach.occur (m : Mach) (n : Nat) (allowed : Bool) (chain : Mach → Nat → Chainage → Mach) : Mach × Bool :=
  let x := m.slot n
  let t := x.target
  let r := if allowed then m.slotAct n x t else (m, false)
  let m := r.1
  let y := { x with taken := x.taken + 1, lastTick := some m.now, actual := if r.2 then m.chn.printed else x.actual }
  let m := m.setSlot n y
  let m := if r.2 then (if x.f.notify then m.raise Ev.stnActed .info n (m.chn.printed.toNat % 2 ^ 32) else m)
    else m.slotSkips n 1
  let y := m.slot n
  let m :=
    if x.f.ivl = 0 then m.slotTo n y (if r.2 then .done else .skipped)
    else if x.f.count ≠ 0 ∧ x.f.count ≤ y.taken then m.slotTo n y .done
    else
      let a := y.advance m.chn.printed
      let m := m.slotTo n a.1 (if a.2.2 then .done else .armed)
      if a.2.1 = 0 then m else m.slotSkips n a.2.1
  let c := x.f.chainSlot
  (if x.f.chainEn && x.taken = 0 && (m.slot c).state = .waitChain then chain m c t else m, r.2)

/-- A slot whose target lies behind takes its occurrence by catch_up, with EV_STN_CAUGHT_UP where it acts (R74).
DEDUCED (log entry 227). -/
def Mach.catchUp (m : Mach) (n : Nat) (chain : Mach → Nat → Chainage → Mach) : Mach :=
  let r := m.occur n true chain
  if r.2 then r.1.raise Ev.stnCaughtUp .warning n (m.lateness (m.slot n).target) else r.1

/-- Arm a slot with a target (R74): ahead it waits, behind it retires LATE or, with catch_up, acts at once. The first
argument bounds a run of chained slots. -/
def Mach.armSlot : Nat → Mach → Nat → Chainage → Mach
  | 0, m, _, _ => m
  | k + 1, m, n, t =>
    let x := m.slot n
    let x := { x with target := t, first := t, formed := true, taken := 0 }
    if 0 < chnDiff t m.chn.printed then m.setSlot n { x with state := .armed }
    else if x.f.catchUp then
      (m.setSlot n { x with state := .armed }).catchUp n
        (fun m c u => m.armSlot k c (u + BitVec.ofNat 48 (m.slot c).f.tgt))
    else (m.setSlot n x).retireChain 256 n .late t

/-- Arm a chained slot from its predecessor's target. -/
def Mach.armChained (m : Mach) (c : Nat) (t : Chainage) : Mach :=
  m.armSlot 256 c (t + BitVec.ofNat 48 (m.slot c).f.tgt)

/-- A slot is crossed now (R66). -/
def Mach.slotCrossed (m : Mach) (n : Nat) : Bool :=
  let x := m.slot n
  m.stnActive && x.state = .armed && chnAtOrAhead m.chn.printed x.target && m.targetOurs x.target

/-- The slots crossed now, in ascending order. -/
def Mach.crossedSlots (m : Mach) : List Nat := (m.stn.slot.map (fun e => e.1)).filter m.slotCrossed

/-- One crossed slot takes its occurrence; a higher one of `all` that drives the same output wins it (R78). -/
def Mach.crossOne (m : Mach) (all : List Nat) (n : Nat) : Mach :=
  let out := (m.slot n).f.output
  let lost := out.isSome && all.any (fun k => decide (n < k) && (m.slot k).f.output = out)
  (m.occur n (!lost) Mach.armChained).1

/-- Every crossed slot takes its occurrence on this tick, in ascending order (R66, R78). -/
def Mach.crossAll (m : Mach) : Mach :=
  let all := m.crossedSlots
  all.foldl (fun m n => if m.slotCrossed n then m.crossOne all n else m) m

/-- STATION_CROSSING (R66). -/
def execStationCrossing (s : State) : Host.Outcome State Fault Refusal := s.run fun m => m.crossAll

/-- LIFT_INHIBIT_END (R84): the printed chainage has reached the end of a group's inhibit. -/
def execLiftInhibitEnd (group : Nat) (s : State) : Host.Outcome State Fault Refusal :=
  s.run fun m =>
    let x : Lift := Tab.get {} m.stn.lift group
    match x.ends with
    | some e => if chnAtOrAhead m.chn.printed e then { m with stn := { m.stn with lift := Tab.set {} m.stn.lift group {} } } else m
    | none => m

/-! ### Commits and cancels (R70 to R73) -/

/-- The result of a commit: refused, or the state its arming leaves (R71, R74). DEDUCED (log entry 83). -/
def Mach.commitSlot (m : Mach) (n : Nat) (f : SlotFields) : Mach × Nat :=
  if m.inMode .halt ∨ m.isBacksight then (m, 7)
  else if !m.chn.vote.valid then (m, 5)
  else if f.bad n then (m, 4)
  else
    let x : Slot := { f := f }
    match f.armSrc with
    | 1 => ((m.setSlot n { x with
              state := .waitStake, stakeAfter := (Tab.get ({} : Probe) m.chn.probe f.probe).issued }), 0)
    | 2 => (m.setSlot n { x with state := .waitChain }, 0)
    | _ =>
      let t := BitVec.ofNat 48 f.tgt
      let ahead := decide (0 < chnDiff t m.chn.printed)
      ((m.setSlot n x).armSlot 256 n t, if ahead then 0 else if f.catchUp then 2 else 1)

/-- The result of a cancel (R73). A standby's slots change only as its mirror and its CTRL ring say (R68, R414): an op
of STN_CMD changes none there. DEDUCED (log entry 83). -/
def Mach.cancelSlot (m : Mach) (n : Nat) (byOp : Bool) : Mach × Nat :=
  let x := m.slot n
  let cancelled (m : Mach) : Mach := m.retireChain 256 n .cancelled x.target
  if m.inMode .halt ∨ (byOp = true ∧ m.isBacksight = true) then (m, 7)
  else if x.lastTick = some m.now then (if x.f.ivl ≠ 0 ∧ x.state.waiting then cancelled m else m, 3)
  else if x.state.waiting then (cancelled m, 0)
  else (m, 6)

/-- A commit by descriptor as its DESC record carries it (R411). -/
def SlotFields.desc (f : SlotFields) (n : Nat) : StnCommitF :=
  { slot := n, act := f.act, arg := f.arg, tgt := f.tgt, ivl := f.ivl, count := f.count }

/-- The R130 status whose name matches a result of STN_CMD. -/
def stnStatus (r : Nat) : Status :=
  match r with
  | 0 => .ok | 1 => .late | 2 => .caughtUp | 3 => .alreadyActed | 4 => .badParam | 5 => .noChainage | 6 => .noEffect
  | _ => .badState

/-- A command to DTM ends with a result: in STN_CMD, or in the completion of its descriptor (R71, R129). -/
def Mach.stnResult (m : Mach) (d : Option DescRef) (r : Nat) (chn : Option Chainage) : Mach :=
  match d with
  | none => { m with stn := { m.stn with busy := false, result := r } }
  | some h => m.complete h { cplOf h (stnStatus r) with chn := chn }

/-- STN_COMMAND_TAKEN (R70): the oldest commit or cancel takes effect. Where its slot is crossed on this tick, every
crossed slot takes its occurrence first. -/
def execStnCommandTaken (s : State) : Host.Outcome State Fault Refusal :=
  s.run fun m =>
    match m.stn.cmds with
    | [] => m
    | c :: rest =>
      let m := { m with stn := { m.stn with cmds := rest } }
      let due (m : Mach) (n : Nat) : Mach := if m.slotCrossed n then m.crossAll else m
      match c with
      | .commit n f d =>
        let m := due m n
        let m := match d with | some h => m.mirrorDesc h (.stnCommit (f.desc n)) | none => m
        let r := m.commitSlot n f
        let x := r.1.slot n
        r.1.stnResult d r.2 (if r.2 = 2 then some x.actual else if r.2 < 2 ∧ x.formed then some x.first else none)
      | .cancel n d =>
        let m := due m n
        let m := match d with | some h => m.mirrorDesc h (.stnCancel n) | none => m
        let r := m.cancelSlot n d.isNone
        r.1.stnResult d r.2 none

/-- An op of STN_CMD goes to DTM; one written while busy is discarded. In BOOT the block answers no access (R490). -/
def Mach.stnOp (m : Mach) (c : StnCmd) : Mach :=
  if m.inMode .boot || m.stn.busy then m
  else { m with stn := { m.stn with busy := true, cmds := m.stn.cmds ++ [c] } }

/-- The slot field of STN_CMD as an op leaves it. DEDUCED (log entry 89). -/
def Mach.stnField (m : Mach) (slot : Nat) : Mach := if m.inMode .boot then m else m.setFld Reg.STN_CMD.slot slot

/-- STN_CMD_COMMIT (R70): the staging registers go to a slot. -/
def execStnCmdCommit (slot : Nat) (s : State) : Host.Outcome State Fault Refusal :=
  s.run fun m => (m.stnOp (.commit slot m.stagedSlot none)).stnField slot

/-- STN_CMD_CANCEL (R73). -/
def execStnCmdCancel (slot : Nat) (s : State) : Host.Outcome State Fault Refusal :=
  s.run fun m => (m.stnOp (.cancel slot none)).stnField slot

/-- STN_CMD_READ (R86): the staging registers take a slot's contents, in place of a _LO half that waits.
DESIGN CHOICE (log entry 183). -/
def execStnCmdRead (slot : Nat) (s : State) : Host.Outcome State Fault Refusal :=
  s.run fun m =>
    if m.inMode .boot then m
    else if m.stn.busy then m.stnField slot
    else
      let x := m.slot slot
      let tgt := if x.formed && x.state ≠ .waitStake then x.first.toNat else x.f.tgt
      let m := m.stnField slot
      let m := (m.wr Reg.STN_TGT_LO (tgt % 2 ^ 32)).wr Reg.STN_TGT_HI (tgt / 2 ^ 32)
      let m := ((m.wr Reg.STN_ACT x.f.act).wr Reg.STN_ARG x.f.arg).wr Reg.STN_COUNT x.f.count
      let m := (m.wr Reg.STN_IVL_LO (x.f.ivl % 2 ^ 32)).wr Reg.STN_IVL_HI (x.f.ivl / 2 ^ 32)
      let m := m.wr Reg.STN_STATE (x.skips + 2 ^ 28 * x.state.code)
      let m := (m.wr Reg.STN_ACTUAL_LO (x.actual.toNat % 2 ^ 32)).wr Reg.STN_ACTUAL_HI (x.actual.toNat / 2 ^ 32)
      let m := { m with loStage := Tab.set none (Tab.set none m.loStage Reg.STN_TGT_LO none) Reg.STN_IVL_LO none }
      { m with stn := { m.stn with result := 0 } }

/-- STN_COMMIT (R124): as an op COMMIT. -/
def execStnCommit (h : DescRef) (f : StnCommitF) (s : State) : Host.Outcome State Fault Refusal :=
  s.run fun m =>
    m.act h 0x25 false false fun m =>
      { m with stn := { m.stn with
          cmds := m.stn.cmds ++ [.commit (f.slot % 256) (slotFields f.tgt f.act f.arg f.ivl f.count) (some h)] } }

/-- STN_CANCEL (R124): as an op CANCEL. A standby acts on it too (R414). -/
def execStnCancel (h : DescRef) (slot : Nat) (s : State) : Host.Outcome State Fault Refusal :=
  s.run fun m =>
    m.act h 0x26 false true fun m =>
      { m with stn := { m.stn with cmds := m.stn.cmds ++ [.cancel (slot % 256) (some h)] } }

/-! ### Stakes, modes and the mirror (R68, R82, R412, R421) -/

/-- A stake of a probe arms the slots that wait for it (R82). DEDUCED (log entry 120). -/
def Mach.stakeArms (m : Mach) (probe num : Nat) (invalid : Bool) (t : Chainage) : Mach :=
  if !m.stnActive || invalid then m
  else
    let ns := (m.stn.slot.filter (fun e =>
      e.2.state = .waitStake && e.2.f.probe = probe && decide (e.2.stakeAfter < num))).map (fun e => e.1)
    ns.foldl (fun m n => m.armSlot 256 n (t + BitVec.ofNat 48 (m.slot n).f.tgt)) m

/-- Every output goes to its safe level as HALT or BACKSIGHT is entered: EV_STN_STATE names those whose level changed
(R68). The mode is still the one left. -/
def Mach.stnSafe (m : Mach) (why : Nat) : Mach :=
  let changed := (List.range 16).foldl (fun a n =>
    if m.outLevel n = m.flag (Reg.STN_OUT_CFG.safe n) then a else a + 2 ^ n) 0
  m.outputsSafe.raise Ev.stnState .info changed why

/-- Slots armed before a role change are judged on the tick of a takeover (R68, R421), in ascending order: those behind
act or retire LATE. DESIGN CHOICE (log entry 229). -/
def Mach.stnJudge (m : Mach) : Mach :=
  let ns := (m.stn.slot.filter (fun e => e.2.state = .armed)).map (fun e => e.1)
  ns.foldl (fun m n =>
    let x := m.slot n
    if x.state = .armed && decide (chnDiff x.target m.chn.printed ≤ 0) then
      if x.f.catchUp then m.catchUp n Mach.armChained else m.retireChain 256 n .late x.target
    else m) m

/-- A standby applies a mirrored stake: the slots it arms wait for their targets (R412 type 3). -/
def Mach.followStake (m : Mach) (probe : Nat) (t : Chainage) : Mach :=
  m.stn.slot.foldl (fun m (e : Nat × Slot) =>
    if e.2.state = .waitStake && e.2.f.probe = probe then
      let u := t + BitVec.ofNat 48 e.2.f.tgt
      m.setSlot e.1 { e.2 with state := .armed, target := u, first := u, formed := true, taken := 0 }
    else m) m

/-- A mirrored act, skip or retirement as it moves the slots (R412 type 2): the slot takes the recorded state and its
next target, and its first occurrence arms the chained slot. DEDUCED (log entry 226). -/
def Mach.followState (m : Mach) (n : Nat) (st : SlotState) (c : Chainage) : Mach :=
  let x := m.slot n
  if st = .late ∨ st = .cancelled ∨ x.state ≠ .armed then m.setSlot n (m.retired x st)
  else
    let y := { x with taken := x.taken + 1, actual := if st = .skipped then x.actual else c }
    let y := if x.f.ivl = 0 then y else (y.advance c).1
    let m := m.setSlot n (if st.retired then m.retired y st else { y with state := st })
    let k := x.f.chainSlot
    let y := m.slot k
    if x.f.chainEn && x.taken = 0 && y.state = .waitChain then
      let u := x.target + BitVec.ofNat 48 y.f.tgt
      m.setSlot k { y with state := .armed, target := u, first := u, formed := true, taken := 0 }
    else m

/-- A standby applies a mirrored act, skip or retirement: JOB_STOP and BAR_LIFT leave what a later takeover needs. -/
def Mach.followSlot (m : Mach) (n : Nat) (st : SlotState) (c : Chainage) : Mach :=
  let x := m.slot n
  let m := if st = .late ∨ st = .cancelled ∨ x.state ≠ .armed then m
    else match x.f.action with
      | 8 => m.stopJobAt x.f.sel x.target
      | 9 => m.liftInhibit x.f.sel (bitAt x.f.arg 0) x.target
      | _ => m
  m.followState n st c

end Sys2Proof.Machine
end

