-- ==== Sys2Proof/Machine/Modes.lean ====
section
/-! DEFINITION. Modes and their transitions (R494, R495), HALT (R498), stops and their release (R135 to R137), GLB_LOCK
(R496, R497), and the Fire Guard's watchdog, ceilings and head power (R293, R301, R302). -/

namespace Sys2Proof.Machine

open Sys2Proof

/-! ### Mode changes -/

/-- GLB_MODE takes a mode: EV_MODE with its source, the clusters ordered for it (R249), and lock checks under way
abandoned when SETUP is left (R496). -/
def Mach.modeTo (m : Mach) (k : Mode) (source : Nat) : Mach :=
  let old := m.glb.mode
  if old = k then m else
  let m := if old = .benchmark && m.cls.bench.isSome then m.benchEnd 1 else m
  let m := if k.working && !old.working then m.stripsSince (List.range 8) else m
  let cut := old = .setup && m.glb.lockBusy
  let m := { m with glb := { m.glb with
    mode := k, previous := old, lockBusy := m.glb.lockBusy && !cut, lockResult := if cut then 5 else m.glb.lockResult } }
  let m := m.raise Ev.mode (if k = .halt then .fatal else .info) (k.code + 16 * old.code) source
  let m := if cut then m.raise Ev.lockRefused .warning 5 0 else m
  m.parkUpdate

/-- Jobs end with status STOPPED; their lines in flight count under a cause value of R277 (R136, R278). `all` takes the
jobs that wait for their station too. -/
def Mach.endActive (m : Mach) (cause : Nat) (all : Bool) : Mach :=
  forRange 8 (fun j (m : Mach) =>
    let x := m.job j
    if x.active && (x.hasLines || all) then
      let n := m.jobRepeats x
      let r := m.cutJob j cause
      r.1.endJob j .stopped r.1.chainage n
    else m) m

/-! ### HALT (R498) -/

/-- The bits of GLB_HALT.also. -/
def alsoField : Fld := Reg.GLB_HALT.also

/-- A cause occurs once HALT is entered. On the entry tick the lowest value is the recorded one. -/
def Mach.haltCause (m : Mach) (c : HaltCause) : Mach :=
  let rec_ := m.fld Reg.GLB_HALT.cause
  let also (v : Nat) (m : Mach) : Mach := m.setFld alsoField (m.fld alsoField ||| 2 ^ (v - 1))
  if m.glb.haltTick = some m.now then
    if c.code < rec_ then (also rec_ m).setFld Reg.GLB_HALT.cause c.code
    else if rec_ < c.code then also c.code m
    else m
  else also c.code m

/-- Enter HALT from any mode with the causes of one tick, the lowest first. DEDUCED (log entry 82). -/
def Mach.enterHalt (m : Mach) (c : HaltCause) (others : List HaltCause) : Mach :=
  let m := m.stnSafe 1
  let m := { m with glb := { m.glb with haltTick := some m.now } }
  let m := others.foldl Mach.haltCause (m.setFld Reg.GLB_HALT.cause c.code)
  let m := if m.isBacksight then m else m.endActive 8 true
  let m := m.discardSwaths (fun _ => true)
  let m : Mach := forRange 8 (fun c (m : Mach) => m.closeFrame c .halted) m
  let m := m.motHalt.modeTo .halt 4
  m.raise Ev.halt .fatal (m.fld Reg.GLB_HALT.cause) (m.fld alsoField)

/-- A cause of HALT occurs. In BOOT there is none but the end of BOOT's own (R495). -/
def Mach.halt (m : Mach) (c : HaltCause) : Mach :=
  if m.inMode .boot then m else if m.inMode .halt then m.haltCause c else m.enterHalt c []

/-! ### Stops (R135, R136) -/

/-- A stop acts. Further stops while stopped add their source bits and are counted. DEDUCED (log entries 81, 87). -/
def Mach.stop (m : Mach) (src : StopSrc) : Mach :=
  if m.inMode .boot then m else
  let bits := m.hst.stopSrc ||| (1#5 <<< src.bit)
  let m := { m with hst := { m.hst with stopSrc := bits } }.addSat Reg.HST_STOP_CNT.cnt 1
  if m.hst.stopped then m.decide_ 5 m.chainage bits.toNat 1 else
  let m := { m with hst := { m.hst with stopped := true } }
  let prints := m.glb.mode.printing
  let lost := prints && (List.range 8).any (fun j => (m.job j).state = .printing)
  let m := m.motStop.oweUsage
  let m := if prints then (m.endActive 6 false).modeTo .ready 2 else m
  let m := m.raise Ev.hstStop (if lost then .error else .info) bits.toNat (m.fld Reg.HST_STOP_CNT.cnt)
  m.decide_ 5 m.chainage bits.toNat 1

/-- A write held by a stop goes out. A telemetry record for which there is no room is dropped (R120). -/
def Mach.sendHeld (m : Mach) : HeldWrite → Mach
  | .cpl t c => m.cplSend t c
  | .tlm e =>
    if m.ringRoom 21 then (m.drainFirst.ringWrite 21 e).ringNotify 21 (m.fld (Reg.HST_RING_CFG.irq 21) = 2)
    else (m.addSat Reg.HST_TLM_DROP.cnt 1).ringBarred 21 .error
  | .camo n k => if !m.linkUp || m.pwr.powerFail then m else m.drainBytes n k

/-- How many writes to host memory have gone out. -/
def Mach.hostWrites (m : Mach) : Nat := m.out.countP Output.toHost

/-- A held write goes out, with how many have been sent: a completion of FIELDBOOK by its record.
DEDUCED (log entry 191). -/
def Mach.sendCounted (r : Mach × Nat) (w : HeldWrite) : Mach × Nat :=
  let m := r.1.sendHeld w
  (m, r.2 + (m.hostWrites - r.1.hostWrites) + (match w with | .cpl 20 _ => 1 | _ => 0))

/-- Release a stop (R137): the held writes go out in their order, and EV_HST_RELEASE says how many. DEDUCED (log
entry 191). -/
def Mach.release (m : Mach) : Mach :=
  if !m.hst.stopped || !m.hst.stopN then m else
  let held := m.hst.held
  let src := m.hst.stopSrc.toNat
  let m := { m with hst := { m.hst with stopped := false, stopSrc := 0, held := [] } }
  let r := held.foldl Mach.sendCounted (m, 0)
  let m := r.1.camDrainAll.raise Ev.hstRelease .info r.2 0
  m.decide_ 5 m.chainage src 0

/-- STOP_PAGE_WRITE (R135): any write to BAR2 page 0. -/
def execStopPageWrite (s : State) : Host.Outcome State Fault Refusal := s.run fun m => m.stop .page

/-- HST_STOP (R135): HST_STOP.stop. -/
def execHstStop (s : State) : Host.Outcome State Fault Refusal := s.run fun m => m.stop .ring

/-- STOP_RELEASE (R137): HST_STOP.release. -/
def execStopRelease (s : State) : Host.Outcome State Fault Refusal :=
  s.run fun m => if m.inMode .boot then m else m.release

/-- CTRL STOP (R124): a stop with source RING; its completion is held with the others. -/
def execStop (h : DescRef) (s : State) : Host.Outcome State Fault Refusal :=
  s.run fun m => m.act h 0x22 true true fun m => ((m.mirrorDesc h .stop).stop .ring).done h .ok

/-- STOP_N_FALL (R301, R530): the land goes low. In BOOT the stop waits for SETUP. -/
def execStopNFall (s : State) : Host.Outcome State Fault Refusal :=
  s.runAon fun m =>
    if !m.hst.stopN then m
    else
      let m := { m with hst := { m.hst with stopN := false } }
      if m.alive then m.stop .land else m

/-- STOP_N_RISE (R301): a stop from LAND may be released again. -/
def execStopNRise (s : State) : Host.Outcome State Fault Refusal :=
  s.runAon fun m => { m with hst := { m.hst with stopN := true } }

/-! ### Mode requests (R494) -/

/-- Every enabled hub is UP. -/
def Mach.hubsUp (m : Mach) : Bool :=
  (List.range 40).all (fun h => !m.flag (Reg.SKX_HUB_CFG.en h) || (m.hub h).state = .up)

/-- The first condition of a transition that fails; 0 where all hold. -/
def Mach.modeCause (m : Mach) (t : Nat) : Nat :=
  let job (p : Job → Bool) : Bool := (List.range 8).any (fun j => p (m.job j))
  match m.glb.mode, t with
  | .setup, 2 =>
    if !m.glb.locked then 1 else if !m.chn.vote.valid then 2 else if !m.hubsUp then 3
    else if !job (fun x => x.state = .stored || (x.streamed && x.state = .opened)) then 4
    else if m.hst.stopped then 5 else 0
  | .ready, 3 => if !m.chn.vote.valid then 2 else if !job Job.active then 4 else if m.hst.stopped then 5 else 0
  | .ready, 4 => if !m.chn.vote.valid then 2 else if !job Job.active then 4 else if m.hst.stopped then 5 else 0
  | .run, 2 => if job (fun x => x.state = .printing) then 6 else 0
  | .benchmark, 2 => if job (fun x => x.state = .printing) then 6 else 0
  | .setup, 6 => 0
  | .ready, 6 => 0
  | .run, 6 => 0
  | .benchmark, 6 => 0
  | _, _ => 7

/-- A mode request: its result (0 OK, 1 refused, 2 BAD_PARAM) and the failed condition. -/
def Mach.modeAsk (m : Mach) (t : Nat) : Mach × Nat × Nat :=
  if t = 0 ∨ 6 < t then (m, 2, 0)
  else if t = m.glb.mode.code then (m, 0, 0)
  else
    let c := m.modeCause t
    if c ≠ 0 then (m, 1, c)
    else if t = 6 then (m.halt .host, 0, 0)
    else (m.modeTo (if t = 2 then .ready else if t = 3 then .run else .benchmark) 1, 0, 0)

/-- MODE_REQUEST (R494): a write of GLB_MODE_REQ.target. -/
def execModeRequest (target : Nat) (s : State) : Host.Outcome State Fault Refusal :=
  s.run fun m =>
    let r := m.modeAsk target
    (r.1.setFld Reg.GLB_MODE_REQ.result r.2.1).setFld Reg.GLB_MODE_REQ.cause r.2.2

/-- CTRL MODE (R494): the same rules; a refused request completes BAD_STATE. DEDUCED (log entry 88). -/
def execMode (h : DescRef) (target : Nat) (s : State) : Host.Outcome State Fault Refusal :=
  s.run fun m =>
    m.act h 0x24 false false fun m =>
      let m := m.mirrorDesc h (.mode target)
      let r := m.modeAsk target
      (r.1.setFld Reg.GLB_MODE_REQ.cause r.2.2).done h
        (if r.2.1 = 0 then .ok else if r.2.1 = 1 then .badState else .badParam)

/-- A write of GLB_COMPAT.pin_level (R4): a value above max_level is discarded. -/
def Mach.pinWrite (m : Mach) (val : Nat) : Mach :=
  if m.glb.locked then m.countDiscard
  else if !m.rwsOpen || decide (m.fld Reg.GLB_COMPAT.max_level < val) then m
  else m.setFld Reg.GLB_COMPAT.pin_level val

/-- PIN_LEVEL_WRITE (R4). -/
def execPinLevelWrite (val : Nat) (s : State) : Host.Outcome State Fault Refusal := s.run fun m => m.pinWrite val

/-! ### GLB_LOCK (R496, R497) -/

/-- The DRAM regions' failure (R381): a size out of range, or an image store under 2 GB. -/
def Mach.regionCause (m : Mach) : Nat :=
  let t := m.fld Reg.DRM_REGION.tile_256m
  let c := m.fld Reg.DRM_REGION.cam_256m
  if t < 4 ∨ 64 < t ∨ c < 1 ∨ 32 < c ∨ 120 < t + c + 8 then 1 else 0

/-- Two entries of a remap table, without the disabled flag, name one row and index. -/
def Mach.remapTwice (m : Mach) (h : HeadRec) : Bool :=
  ((List.range h.noz).foldl (fun (a : Nat × Bool) k =>
    let e := m.remapEntry h.id k
    if bitAt e 13 then a
    else
      let i := e / 16384 * 4096 + e % 4096
      (a.1 ||| 2 ^ i, a.2 || a.1.testBit i)) (0, false)).2

/-- A head's remap table breaks R260. -/
def Mach.remapBad (m : Mach) (h : HeadRec) : Bool :=
  (List.range h.noz).any (fun k =>
    let e := m.remapEntry h.id k
    decide (h.rows.length ≤ e / 16384 % 4) || decide (h.noz ≤ e % 4096)) || m.remapTwice h

/-- The first heads of a plane's ranks that overlap a head of rank two or more higher (R211). -/
def coverBad : List HeadRec → Option Nat
  | a :: b :: r => if r.any (fun c => decide (c.pos < a.pos + a.noz)) then some a.id else coverBad (b :: r)
  | _ => none

/-- The head at which the nozzles of a list of heads exceed the store of remap entries. -/
def countBad : List HeadRec → Nat → Option Nat
  | [], _ => none
  | h :: r, n => if 1048576 < n + h.noz then some h.id else countBad r (n + h.noz)

/-- The first failure of R259's table but for LANES: its cause and its head. DEDUCED (log entries 85, 86). -/
def Mach.geoFailure (m : Mach) : Option (Nat × Nat) :=
  let hs := m.heads
  let first (p : HeadRec → Bool) : Option Nat := (hs.find? p).map (fun h => h.id)
  let tag (c : Nat) (o : Option Nat) : Option (Nat × Nat) := o.map (fun h => (c, h))
  (tag 1 (first (fun h => m.fld (Reg.FGD_HT_RATE.max_rate h.type) = 0 || decide (39 < h.hub) || decide (9 < h.slot) ||
    decide (9 < h.plane)))).or <|
  (tag 2 (first (fun h => hs.any (fun k => k.id ≠ h.id && k.hub = h.hub && k.slot = h.slot)))).or <|
  (tag 3 ((List.range 10).findSome? (fun p => coverBad (m.planeHeads p)))).or <|
  (tag 4 (countBad hs 0)).or (tag 6 (first m.remapBad))

/-- The first hub that breaks the lane allocation (R320): hubs in ascending order, then heads of hubs not enabled. -/
def Mach.laneFailure (m : Mach) : Option Nat :=
  let en (h : Nat) : Bool := m.flag (Reg.SKX_HUB_CFG.en h)
  let hubs := (List.range 40).filter en
  let lanes (h : Nat) : List Nat :=
    m.fld (Reg.SKX_HUB_CFG.lane0 h) :: (if m.flag (Reg.SKX_HUB_CFG.bonded h) then [m.fld (Reg.SKX_HUB_CFG.lane1 h)] else [])
  (hubs.find? (fun h =>
    let ls := lanes h
    ls.any (fun l => decide (39 < l)) || (ls.length = 2 && ls.getD 0 0 = ls.getD 1 0) ||
    hubs.any (fun k => decide (k < h) && (lanes k).any (fun l => ls.contains l)))).or
  ((m.heads.find? (fun h => !en h.hub)).map (fun h => h.hub))

/-- FGD_GEO_STATUS for a failure, with EV_FIRE_GEOMETRY. -/
def Mach.geoRefuse (m : Mach) (cause head : Nat) : Mach :=
  ((m.setFld Reg.FGD_GEO_STATUS.cause cause).setFld Reg.FGD_GEO_STATUS.head head).raise Ev.fireGeometry .warning cause head

/-- DRM_STATUS: the lock cause, the ports in panic, and each package's band. -/
def Mach.drmStatus (m : Mach) : Nat :=
  let bands := (List.range 4).foldl (fun n k => n + (Tab.get ({} : Package) m.drm.pkg k).band % 4 * 4 ^ k) 0
  m.drm.lockCause * 2 ^ 28 + m.drm.panic % 8 * 2 ^ 12 + bands

/-- FGD_G_STATUS (R305). -/
def Mach.guardStatus (m : Mach) : Nat :=
  ofBool m.fgd.locked * 2 ^ 31 + ofBool m.fgd.headPwr * 2 ^ 30 + m.fgd.fatalCause * 2 ^ 20 + m.pwrOff * 2 ^ 16 +
  m.fgd.lockCause * 256

/-- The lock is refused with a result and the detail register of the failing check. -/
def Mach.lockRefuse (m : Mach) (result detail : Nat) : Mach :=
  ({ m with glb := { m.glb with lockResult := result } }).raise Ev.lockRefused .warning result detail

/-- Begin a Farsil pairing attempt (R405, R406): both lanes train at 12.5 Gbaud. -/
def Mach.startPairing (m : Mach) : Mach :=
  let ok := m.flag Reg.PTN_CFG.en && (m.ptn.straps = 1 || m.ptn.straps = 2) && m.glb.locked &&
    (m.ptn.state = .solo || m.ptn.state = .detached) && [40, 41].all (fun l => (m.lane l).state ≠ .cal)
  if !ok then m else
  let m := { m with ptn := { m.ptn with state := .pairing, pairTick := some m.now } }
  [40, 41].foldl (fun (m : Mach) l => if (m.lane l).state = .cal then m else m.startTraining l true 2) m

/-- The lock takes force on one tick (R497). -/
def Mach.lockNow (m : Mach) : Mach :=
  let t := m.fld Reg.DRM_REGION.tile_256m
  let c := m.fld Reg.DRM_REGION.cam_256m
  let m := { m with
    glb := { m.glb with locked := true, lockResult := 0 }
    fgd := { m.fgd with locked := true, geoOk := true, lockCause := 0, wdgRefreshed := false, wdgTick := m.now, wdgExpired := false }
    drm := { m.drm with lockCause := 0 } }
  let m := ((m.setFld Reg.DRM_MAP.image (120 - t - c)).setFld Reg.DRM_MAP.tile_base (120 - t - c)).setFld
    Reg.DRM_MAP.cam_base (120 - c)
  let m := (m.setFld Reg.FGD_GEO_STATUS.cause 0).setFld Reg.FGD_GEO_STATUS.head 0
  (m.updateRunahead.updateCeiling.startPairing).raise Ev.locked .info m.level 0

/-- LOCK (R496): GLB_LOCK.lock starts the checks in SETUP. -/
def execLock (s : State) : Host.Outcome State Fault Refusal :=
  s.run fun m =>
    if m.glb.locked || m.glb.lockBusy then m
    else if !m.inMode .setup then { m with glb := { m.glb with lockResult := 5 } }
    else { m with glb := { m.glb with lockBusy := true } }

/-- LOCK_CHECKS_DONE (R496, R497): the checks in their order; the lock is refused at the first failure. -/
def execLockChecksDone (s : State) : Host.Outcome State Fault Refusal :=
  s.run fun m =>
    if !m.glb.lockBusy then m else
    let m := { m with glb := { m.glb with lockBusy := false } }
    if m.regionCause ≠ 0 then
      let m := { m with drm := { m.drm with lockCause := m.regionCause } }
      m.lockRefuse 1 m.drmStatus
    else if m.fld Reg.FGD_G_GAIN.gain_max < m.fld Reg.FGD_G_GAIN.gain_min then
      let m := { m with drm := { m.drm with lockCause := 0 }, fgd := { m.fgd with lockCause := 1 } }
      m.lockRefuse 2 m.guardStatus
    else
      let m := { m with drm := { m.drm with lockCause := 0 }, fgd := { m.fgd with lockCause := 0 } }
      match m.geoFailure with
      | some (c, h) =>
        let m := m.geoRefuse c h
        m.lockRefuse 3 (m.rd Reg.FGD_GEO_STATUS)
      | none =>
        match m.laneFailure with
        | some hub =>
          let m := m.geoRefuse 5 (((m.hubHeads hub).map (fun h => h.id)).headD 0x1FF)
          m.lockRefuse 4 (m.rd Reg.FGD_GEO_STATUS)
        | none => m.lockNow

/-! ### The Fire Guard's watchdog, ceilings and head power (R293, R301, R302) -/

/-- WATCHDOG_REFRESH (R302): a write to FGD_G_WDG, from firmware or from the host. Cores held in reset write nothing
(R396). -/
def execWatchdogRefresh (val : Nat) (firmware : Bool) (s : State) : Host.Outcome State Fault Refusal :=
  s.run fun m =>
    if m.inMode .boot || (firmware && m.drm.coresHeld) then m
    else if val % 65536 = 0xC3A5 && firmware = !m.flag Reg.FGD_G_CFG.wdg_src then
      if m.glb.locked && !m.fgd.wdgExpired then { m with fgd := { m.fgd with wdgRefreshed := true, wdgTick := m.now } } else m
    else m.addSat Reg.FGD_G_WDG_BAD.cnt 1

/-- WATCHDOG_EXPIRY (R302): the period has passed without a refresh. DEDUCED (log entry 162). -/
def execWatchdogExpiry (s : State) : Host.Outcome State Fault Refusal :=
  s.run fun m =>
    if !m.glb.locked || m.fgd.wdgExpired || !m.passed m.fgd.wdgTick (clampNat 1 1000 (m.fld Reg.FGD_G_CFG.wdg_ms) * 500000) then m
    else
      let m := { m with fgd := { m.fgd with wdgExpired := true } }
      (m.raise Ev.guardWatchdog (if m.inMode .halt then .warning else .fatal) (clampNat 1 1000 (m.fld Reg.FGD_G_CFG.wdg_ms))
        (m.fld Reg.FGD_G_WDG_BAD.cnt)).halt .watchdog

/-- The ceiling fields that the NAND record holds (R292, R293), by register. -/
def ceilingRegs : List Nat :=
  [Reg.FGD_G_NOZ_CEIL, Reg.FGD_G_GAIN_CEIL] ++ (List.range 16).map (fun t => Reg.FGD_G_T_VOL_CEIL t)

/-- The ceiling fields that share a register with a limit. -/
def ceilingFields : List Fld :=
  [Reg.FGD_G_GAIN_RATE.rate_ceil] ++ (List.range 16).map (fun t => Reg.FGD_G_T_PW.pw_ceil t) ++
  (List.range 12).map (fun a => Reg.MOT_A_CEIL.i_ceil_max a)

/-- The CRC-32C of a ceiling record: over the offset and the word of each register it holds.
DESIGN CHOICE (log entry 204). -/
def ceilingCrc (w : Tab Word) : Word := crc32c (w.flatMap (fun e => leBytes 4 e.1 ++ leBytes 4 e.2.toNat))

/-- A copy of the ceiling record, closed by its CRC; and whether a copy passes its check (R293). -/
def closeRecord (w : Tab Word) : CeilingRecord := { words := w, crc := ceilingCrc w }
def CeilingRecord.good (c : CeilingRecord) : Bool := c.crc = ceilingCrc c.words

/-- The present ceiling fields as the record holds them: by register, the ceiling alone of a shared one. -/
def Mach.ceilingWords (m : Mach) : Tab Word :=
  ceilingFields.foldl (fun t f => Tab.insert t f.off (word (m.fld f)))
    (ceilingRegs.foldl (fun t r => Tab.insert t r (word (m.rd r))) [])

/-- The registers that hold Fire Guard limits and ceilings (R292). -/
def guardRegs : List Nat :=
  ceilingRegs ++ [Reg.FGD_G_NOZ, Reg.FGD_G_GAIN, Reg.FGD_G_GAIN_RATE] ++
  (List.range 16).flatMap (fun t => [Reg.FGD_G_T_PW t, Reg.FGD_G_T_VOL t]) ++ (List.range 12).map (fun a => Reg.MOT_A_CEIL a)

/-- The copy in AON follows one register, and all of them (R303). -/
def Mach.guardNote (m : Mach) (r : Nat) : Mach :=
  if guardRegs.contains r then
    { m with fgd := { m.fgd with guardCopy := Tab.insert m.fgd.guardCopy r (word (m.rd r)) } }
  else m
def Mach.guardSync (m : Mach) : Mach := guardRegs.foldl Mach.guardNote m

/-- The copy in AON, with what it has come to hold at some registers, differs from a limit or ceiling in force (R303). -/
def Mach.copyDiffers (m : Mach) (upset : List (Nat × Word)) : Bool :=
  (upset.foldl (fun t e => Tab.insert t e.1 e.2) m.fgd.guardCopy).any (fun e =>
    guardRegs.contains e.1 && decide (e.2 ≠ word (m.rd e.1)))

/-- Put the ceilings of a record into force; a register it does not list keeps its own. -/
def Mach.loadCeilings (m : Mach) (w : Tab Word) : Mach :=
  let has (k : Nat) : Bool := w.any (fun e => e.1 = k)
  let m := ceilingRegs.foldl (fun (m : Mach) r => if has r then m.wr r (Tab.get 0 w r).toNat else m) m
  ceilingFields.foldl (fun (m : Mach) f => if has f.off then m.setFld f (Tab.get 0 w f.off).toNat else m) m

/-- Every ceiling at its tightest value (R293). -/
def tightestCeilings : Tab Word :=
  ceilingFields.foldl (fun t f => Tab.insert t f.off 0)
    (ceilingRegs.foldl (fun t r => Tab.insert t r (if r = Reg.FGD_G_GAIN_CEIL then 0x10001000 else 0)) [])

/-- Limits looser than their ceilings are taken as the ceilings (R292). -/
def Mach.tightenLimits (m : Mach) : Mach :=
  let top (m : Mach) (f c : Fld) : Mach := m.setFld f (min (m.fld f) (m.fld c))
  let m := top m Reg.FGD_G_NOZ.nozzle_max Reg.FGD_G_NOZ_CEIL.ceil
  let m := top m Reg.FGD_G_GAIN.gain_max Reg.FGD_G_GAIN_CEIL.max
  let m := m.setFld Reg.FGD_G_GAIN.gain_min (max (m.fld Reg.FGD_G_GAIN.gain_min) (m.fld Reg.FGD_G_GAIN_CEIL.min))
  let m := top m Reg.FGD_G_GAIN_RATE.rate Reg.FGD_G_GAIN_RATE.rate_ceil
  let m : Mach := forRange 16 (fun t (m : Mach) =>
    top (top m (Reg.FGD_G_T_PW.pw_max t) (Reg.FGD_G_T_PW.pw_ceil t)) (Reg.FGD_G_T_VOL.head_vol_max t) (Reg.FGD_G_T_VOL_CEIL.ceil t)) m
  forRange 12 (fun a (m : Mach) => top m (Reg.MOT_A_CEIL.i_ceil a) (Reg.MOT_A_CEIL.i_ceil_max a)) m

/-- Scope CEILINGS of the survey lock is open (R499). -/
def Mach.ceilingsOpen (m : Mach) : Bool := m.sec.opened.getLsbD 2

/-- CEILING_SAVE (R293): under the survey lock, both copies of the record take the present ceilings. -/
def execCeilingSave (s : State) : Host.Outcome State Fault Refusal :=
  s.run fun m =>
    if m.inMode .boot || !m.ceilingsOpen then m
    else
      let c := closeRecord m.ceilingWords
      ({ m with nand := { m.nand with ceilA := c, ceilB := c } } : Mach).checked 23 2 0

/-- HEAD_PWR_CHANGE (R301): once every condition holds the land goes high. Its fall follows every command at once. -/
def execHeadPwrChange (s : State) : Host.Outcome State Fault Refusal :=
  s.run fun m =>
    if m.fgd.headPwr || m.pwrOff ≠ 0 || m.thm.latch.isSome then m
    else ({ m with fgd := { m.fgd with headPwr := true } }).raise Ev.guardPwr .info 1 0

/-- A Fire Guard fatal condition (R303). -/
def Mach.guardFatal (m : Mach) (cause : Nat) : Mach :=
  let m := if m.fgd.fatalCause = 0 then { m with fgd := { m.fgd with fatalCause := cause } } else m
  (m.raise Ev.guardFatal (if m.inMode .halt then .warning else .fatal) cause 0).halt .guard

end Sys2Proof.Machine
end

