-- ==== Sys2Proof/Machine/Reset.lean ====
section
/-! DEFINITION. A reset of every domain but AON (R488). -/

namespace Sys2Proof.Machine

/-- The number of failures after which a back-off runs, and its length in s (R501). -/
def failMax : Nat := 8
/-- DEDUCED (log entry 135). -/
def backoffLength : Nat := 600

/-- Whether VBACK carries the load as the inputs stand (R458, R459, R462): in power-fail the OR-ing passes the higher
one; else VBACK carries it once VMAIN is bad, and VMAIN takes it back at once only from an input that is bad.
DEDUCED (log entry 251). -/
def Pwr.bearer (p : Pwr) : Bool :=
  if p.powerFail then (if p.onBack then decide (p.mainMv ≤ p.backMv) else decide (p.mainMv < p.backMv))
  else if p.onBack then p.vbackGood || !p.vmainGood
  else !p.vmainGood && p.vbackGood

/-- Every domain but AON returns to its reset state and BOOT starts at stage A (R488). What AON holds stays: the
thermal shutdown latch, the failure count and its back-off; a count of 8 starts a full back-off (R501). A final monument
not completed is lost (R463), and the survey lock closes. DEDUCED (log entry 108). -/
def Mach.restart (m : Mach) (c : ResetCause) (straps : Nat) : Mach :=
  let fails := if c = .power then m.nand.fails else m.sec.fails
  let backoff := m.sec.backoff || decide (failMax ≤ fails)
  let finals : Finals := if m.finals.writing.isSome then { slots := m.finals.slots.take 1, last := 2 } else m.finals
  let m' : Mach := {
    otp := m.otp, nand := m.nand, finals := finals, out := m.out
    thm := { latch := if c = .power then none else m.thm.latch }
    pwr := { vmainGood := m.pwr.vmainGood, vbackGood := m.pwr.vbackGood, vmainHigh := m.pwr.vmainHigh
             vbackHigh := m.pwr.vbackHigh, mainMv := m.pwr.mainMv, backMv := m.pwr.backMv
             onBack := ({ m.pwr with powerFail := false } : Pwr).bearer, holdupOk := m.pwr.holdupOk }
    hst := { stopN := m.hst.stopN }
    ptn := { straps := straps % 4 }
    sec := { fails := fails, backoff := backoff } }
  let m' := m'.setFld Reg.GLB_RESET.cause c.code
  if m.sec.opened = 0 then m' else m'.raise Ev.lockClose .info m.sec.opened.toNat 0

end Sys2Proof.Machine
end

