-- ==== Sys2Proof/Machine/Partner.lean ====
section
/-! DEFINITION. Redundant pairs (R400 to R433): the hub majority, the Farsil link, the mirror and its monuments,
takeover, handover and revert. -/

namespace Sys2Proof.Machine

open Sys2Proof

/-! ### The hub majority (R402 to R404) -/

/-- The enabled hubs. -/
def Mach.hubsEn (m : Mach) : List Nat := (List.range 40).filter (fun h => m.flag (Reg.SKX_HUB_CFG.en h))

/-- The majority of the enabled hubs. -/
def Mach.majorityN (m : Mach) : Nat := m.hubsEn.length / 2 + 1

/-- The hubs held. -/
def Mach.hubsHeld (m : Mach) : List Nat := m.hubsEn.filter (fun h => (m.hub h).held)

/-- Whether the majority is held, and since when it is not (R402, R423). -/
def Mach.tallyHubs (m : Mach) : Mach :=
  let maj := decide (m.majorityN ≤ m.hubsHeld.length)
  { m with ptn := { m.ptn with
      majority := maj
      reclaim := m.ptn.reclaim && !maj
      noMajSince := if maj then none else m.ptn.noMajSince.or (some m.now) } }

/-- Send CLAIM to hubs, each with the next claim number (R403). DEDUCED (log entry 93). -/
def Mach.claimHubs (m : Mach) (hubs : List Nat) : Mach :=
  hubs.foldl (fun (m : Mach) h =>
    let n := (max m.ptn.claim m.ptn.claimSeen + 1) % 2 ^ 32
    let lane := m.timingLane h
    let m : Mach := { m with ptn := { m.ptn with claim := n } }
    let m := m.setHub h { m.hub h with claimNo := n }
    if m.laneDriven lane then m.sendC lane 0x20 (leBytes 4 n) else m) m

/-- Send RELEASE to the hubs held, a HEARTBEAT before each in the same gap (R404). A hub released is no longer held.
DEDUCED (log entry 92). -/
def Mach.releaseHubs (m : Mach) : Mach :=
  (m.hubsHeld.foldl (fun (m : Mach) h =>
    let lane := m.timingLane h
    let m := if m.laneDriven lane then (m.laneBeat lane).sendC lane 0x21 (leBytes 4 m.ptn.claim) else m
    m.setHub h { m.hub h with held := false }) m).tallyHubs

/-- A hub whose newest GRANT reports its master silent for 2 ms or more (R420). -/
def Mach.hubSilent (m : Mach) (h : Nat) : Bool :=
  let x := m.hub h
  x.seen && x.masterPort.isSome && decide (2000 ≤ x.silence)

/-- A hub whose newest GRANT names no master, or one silent for 2 ms or more (R403). -/
def Mach.hubFree (m : Mach) (h : Nat) : Bool := (m.hub h).seen && ((m.hub h).masterPort.isNone || m.hubSilent h)

/-! ### States -/

/-- A CONTROL packet (R407). -/
def Mach.sendControl (m : Mach) (op : Nat) (c : Chainage) (result : Nat) : Mach :=
  m.sendFarsil 0x16 (leBytes 1 op ++ leBytes 3 0) (leBytes 6 c.toNat ++ leBytes 1 result ++ leBytes 1 0)

/-- PTN_STATUS.state takes a state, with EV_PTN_STATE for a cause of R432. A module that becomes active without the
majority lacks it from now on (R423). DEDUCED (log entry 103). -/
def Mach.ptnTo (m : Mach) (st : PtnState) (cause : Nat) : Mach :=
  let old := m.ptn.state
  let m := { m with ptn := { m.ptn with
    state := st
    noMajSince := if st = .foresight && !m.ptn.majority then m.ptn.noMajSince.or (some m.now) else m.ptn.noMajSince } }
  if cause = 0 then m
  else m.raise Ev.ptnState (if cause = 2 ∨ cause = 3 then .info else .warning) (st.code + 16 * old.code) cause

/-- The module becomes a standby: outputs safe, axes OFF, GLB_MODE BACKSIGHT (R68, R401, R449). -/
def Mach.toStandby (m : Mach) : Mach := if m.isBacksight then m else ((m.stnSafe 2).motOff).modeTo .backsight 3

/-- EV_REVERT (R432). -/
def Mach.revertEvent (m : Mach) (what : Nat) : Mach :=
  m.raise Ev.revert (if what = 2 then .warning else .info) (what + 256 * m.hubsHeld.length)
    ((m.ptn.cSw.getD 0).toNat % 2 ^ 32)

/-- A revert ends without the switch (R428, R429): the old active module prints on, the other is BACKSIGHT again. -/
def Mach.revertEnds (m : Mach) : Mach :=
  let m := m.revertEvent 2
  if m.ptn.oldActive then
    let m := m.ptnTo .foresight 0
    { m with ptn := { m.ptn with
        oldActive := false, cSw := none, reclaim := m.ptn.revertTick.isSome && !m.ptn.majority, revertTick := none } }
  else
    let m := (m.ptnTo .backsight 0).toStandby
    { m with ptn := { m.ptn with cSw := none, revertTick := none, stepTick := some m.now } }

/-! ### Monuments (R417) -/

/-- The registers of section 6: head and plane accumulators and usage sequences. -/
def Mach.monumentRegs (m : Mach) : List Nat :=
  m.heads.flatMap (fun h => [Reg.FGD_HD_ACT_LO h.id, Reg.FGD_HD_ACT_LO h.id + 4, Reg.FGD_HD_VOL_LO h.id,
    Reg.FGD_HD_VOL_LO h.id + 4, Reg.FGD_HD_USEQ h.id]) ++
  (List.range 10).flatMap (fun p => [Reg.FGD_P_VOL_LO p, Reg.FGD_P_VOL_LO p + 4])

/-- A monument of the present tick. Blocks and item data are no part of it. -/
def Mach.takeMonument (m : Mach) : Monument where
  num := m.ptn.monNum
  printed := m.chn.printed
  lead := m.chn.lead
  slew := m.chn.slew
  vote := m.chn.vote.code
  time := m.time
  counter := m.epo.counter
  versions := m.epo.versions.foldl (fun t (e : Nat × List Version) =>
    Tab.set [] t e.1 (e.2.map (fun v => { v with cells := [] }))) []
  jobs := m.vgp.job.foldl (fun t (e : Nat × Job) => Tab.set {} t e.1 { e.2 with streams := [] }) []
  layers := m.cmp.layer.foldl (fun t (e : Nat × Layer) =>
    Tab.set {} t e.1 { e.2 with
      wait := none, incoming := none
      items := e.2.items.map (fun i => { i with parts := i.parts.map (fun p => { p with data := [], code := [] }) }) }) []
  slots := m.stn.slot
  counters := m.monumentRegs.foldl (fun t r => Tab.set 0 t r (word (m.rd r))) []
  held := m.hubsHeld.foldl (fun n h => n + 2 ^ h) 0
  hubs := (List.range 40).map (fun h => (m.hub h).state.code)
  claim := m.ptn.claim
  gain := m.cls.gain
  nozzles := m.cls.nozzles
  keep := m.cls.keep
  logPtr := m.fld Reg.CAM_CLS_LOG_PTR.ptr
  mirrorSeq := m.ptn.sent
  axes := m.motShadow
  shutdownCh := none

/-- Section 6 of a monument: the head and plane accumulators and the usage sequences. -/
def Mach.takeUsage (m : Mach) (p : Monument) : Mach :=
  p.counters.foldl (fun (m : Mach) (e : Nat × Word) => m.wr e.1 e.2.toNat) m

/-- Closure's state of a section 8 (R417): its waits, keep list and log pointer. A wait whose commit the module does not
know is taken to be in effect from now. -/
def Mach.takeClosure (m : Mach) (gain : Tab (Option GainWait)) (nozzles : List NozzleWait) (keep : List (Nat × Nat))
    (logPtr : Nat) : Mach :=
  let known (g : GainWait) : GainWait :=
    if g.actual.isNone && !m.epo.commits.any (fun c => c.epoch = g.epoch) then { g with actual := some m.chainage } else g
  ({ m with cls := { m.cls with
    keep := keep
    gain := gain.map (fun (e : Nat × Option GainWait) => (e.1, e.2.map known))
    nozzles := nozzles.map (fun (w : NozzleWait) => { w with wait := known w.wait }) } } : Mach).setFld
      Reg.CAM_CLS_LOG_PTR.ptr logPtr

/-- Sections 6 and 8 of a monument come into force (R421, R505). A wait for a commit that no longer waits here ends at the
present chainage. DEDUCED (log entry 231). -/
def Mach.takeCounters (m : Mach) (p : Monument) : Mach :=
  let m := m.takeUsage p
  let m := forRange 10 (fun a (m : Mach) =>
    match (Tab.get [] p.versions (tableId 2 a)).getLast? with
    | some v => if v.closed = m.closedOf a then m
        else m.setClosed a (v.closed.filter (fun u => bitAt ((m.newest (tableId 2 a)).entry (tableId 2 a) u) 31))
    | none => m) m
  m.takeClosure p.gain p.nozzles p.keep p.logPtr

/-- The axes as a monument records them. -/
def Mach.takeAxes (m : Mach) (p : Monument) : Mach :=
  forRange p.axes.length (fun a (m : Mach) =>
    match p.axes[a]? with
    | some (st, valid, pos) => m.noteAxis a { state := st, posValid := valid, pos := pos }
    | none => m) m

/-- The slots as a monument records them. Those that wait for a stake take the next one of their probe. -/
def Mach.takeSlots (m : Mach) (p : Monument) : Mach :=
  { m with stn := { m.stn with slot := p.slots.map (fun e =>
      (e.1, { e.2 with stakeAfter := (Tab.get ({} : Probe) m.chn.probe e.2.f.probe).issued })) } }

/-- The chainages at which jobs end, as a monument records them. -/
def Mach.takeStops (m : Mach) (p : Monument) : Mach :=
  p.jobs.foldl (fun (m : Mach) (e : Nat × Job) =>
    let x := m.job e.1
    match e.2.stop with
    | some s => if x.active && e.2.active && x.tag = e.2.tag && x.stop ≠ some s then m.stopLines e.1 s else m
    | none => m) m

/-- A standby takes a whole monument as the start of its resynchronisation (R416): jobs, layers and stations as
recorded; the blocks, items and table versions follow as records. -/
def Mach.takeWhole (m : Mach) (p : Monument) : Mach :=
  let m : Mach := { m with epo := { counter := p.counter } }
  let m := ((m.takeCounters p).takeAxes p).takeSlots p
  { m with
    vgp := { m.vgp with job := p.jobs, bad := [], imageWait := none }
    cmp := { m.cmp with layer := p.layers, proof := [] }
    ptn := { m.ptn with applied := p.mirrorSeq, after := [] } }

/-- Send a monument in parts, whose CRCs check unit 23 forms (R407, R417). -/
def Mach.sendMonument (m : Mach) : Mach :=
  let m := { m with ptn := { m.ptn with monNum := (m.ptn.monNum + 1) % 2 ^ 32 } }
  let parts := cutPayload payloadMax m.takeMonument.encode
  (List.range parts.length).foldl (fun (m : Mach) k =>
    (m.checked 23 1 0).sendFarsil 0x15 (leBytes 2 m.ptn.monNum ++ leBytes 1 k ++ leBytes 1 parts.length)
      (parts.getD k [])) m

/-- Commits that the standby has acknowledged come to their commit point (R413). -/
def Mach.commitHeld (m : Mach) (hs : List Held) : Mach :=
  hs.foldl (fun (m : Mach) h => m.commitNow h.change h.effect h.moved) m

/-- Every commit that waits commits now. -/
def Mach.releaseHeld (m : Mach) : Mach :=
  let held := m.ptn.held
  ({ m with ptn := { m.ptn with held := [] } } : Mach).commitHeld held

/-- The resynchronisation as the active module sends it (R416): one monument, every stored block, every item, every
table version in use or pending; the live records follow. Commits do not wait meanwhile (R413).
DESIGN CHOICE (log entry 98). -/
def Mach.sendResync (m : Mach) : Mach :=
  let m := m.releaseHeld
  let m := { m with ptn := { m.ptn with staging := [], stagedAt := [] } }
  let m := m.sendMonument
  let m := if m.flag Reg.PTN_CFG.image_src then m
    else m.vgp.job.foldl (fun (m : Mach) (e : Nat × Job) =>
      e.2.streams.foldl (fun (m : Mach) (t : Nat × Stream) => m.mirrorBlocks e.2 (t.1 / 16) (t.1 % 16) t.2.blocks) m) m
  let m := if m.flag Reg.PTN_CFG.image_src then m
    else m.cmp.layer.foldl (fun (m : Mach) (e : Nat × Layer) =>
      e.2.items.foldl (fun (m : Mach) i => m.mirrorItem e.1 i) m) m
  m.epo.versions.foldl (fun (m : Mach) (e : Nat × List Version) =>
    e.2.foldl (fun (m : Mach) v =>
      if e.2.length = 1 && v.effect.isNone && v.cells.isEmpty then m
      else m.mirror false (.commit 1 (e.1 / 16) (e.1 % 16) 0 v.epoch (v.effect.getD 0) 0
        ((List.range (m.tableSize (e.1 / 16) (e.1 % 16))).map (v.entry e.1)))) m) m

/-! ### A standby applies records (R412, R414) -/

/-- Run what would queue completions, and queue none: they are the active module's. -/
def Mach.quietly (m : Mach) (f : Mach → Mach) : Mach :=
  { f { m with hst := { m.hst with stopped := true } } with hst := m.hst }

/-- A mirrored job ends. -/
def Mach.followEnd (m : Mach) (j : Nat) : Mach := m.quietly (fun m => m.endJob j .ok m.chainage 0)

/-- A mirrored job takes a state (R412 type 4). -/
def Mach.followJob (m : Mach) (tag st : Nat) : Mach :=
  match m.jobSlot tag with
  | none => m
  | some j =>
    let x := m.job j
    if x.state.code = st then m
    else match st with
      | 0 => m.freeJob j
      | 1 => m.jobState j .opened
      | 2 => if x.active then m.followEnd j else m.jobState j .stored
      | 3 => m.jobState j .armed
      | 4 => m.jobState j .printing
      | _ => m

/-- A mirrored station commit (R414): the slot waits as it does on the active module. -/
def Mach.followCommit (m : Mach) (f : StnCommitF) : Mach :=
  let g := slotFields f.tgt f.act f.arg f.ivl f.count
  let x : Slot := { f := g }
  let n := f.slot % 256
  if g.bad n then m
  else match g.armSrc with
    | 1 => m.setSlot n { x with
        state := .waitStake, stakeAfter := (Tab.get ({} : Probe) m.chn.probe g.probe).issued }
    | 2 => m.setSlot n { x with state := .waitChain }
    | _ =>
      let t := BitVec.ofNat 48 g.tgt
      m.setSlot n { x with state := .armed, target := t, first := t, formed := true }

/-- The number of a mirrored stake, from its 8-bit sequence, after those known. -/
def stakeNumber (issued seq : Nat) : Nat := issued + (seq + 256 - issued % 256) % 256

/-- A chainage from its low 32 bits, the nearest to the printed one. -/
def Mach.nearChainage (m : Mach) (lo : Nat) : Chainage :=
  m.chainage + BitVec.ofInt 48 (signed 32 ((lo + (2 ^ 32 - m.chainage.toNat % 2 ^ 32)) % 2 ^ 32))

/-- A mirrored slot binding (R412 type 1): the next PITCH slot that was due, or what a flip's slot shows. -/
def Mach.followBind (m : Mach) (n : Nat) (blank : Bool) (item : Word) (c : Chainage) : Mach :=
  let shown := if blank then none else some item
  let due := (List.range 8).find? (fun j =>
    let x := m.job j
    let first := x.latched (Reg.CMP_L_ITEM_OFFSET n) + m.slotNext j n * x.latched (Reg.CMP_L_ITEM_PITCH n)
    x.hasLines && x.pitchLayer n &&
      chnAtOrAhead c (x.lineChn first - BitVec.ofNat 48 (x.latched (Reg.CMP_L_BIND_LEAD n))))
  let l := m.layer n
  match due with
  | some j =>
    let x := m.job j
    let k := m.slotNext j n
    let m := m.setLayer n { l with slots := l.slots ++ [
      { job := j, k := k, first := x.latched (Reg.CMP_L_ITEM_OFFSET n) + k * x.latched (Reg.CMP_L_ITEM_PITCH n)
        len := x.latched (Reg.CMP_L_ITEM_PITCH n), item := word (x.latched (Reg.CMP_L_ITEM_BASE n) + k)
        shown := shown, planes := 0 }] }
    m.tidyLayer n (word (x.latched (Reg.CMP_L_ITEM_BASE n) + k))
  | none =>
    match l.slots.getLast? with
    | none => m
    | some s => m.setLayer n { l with slots := l.slots.dropLast ++ [{ s with shown := shown }] }

/-- A DECISION record (R412). -/
def Mach.followDecision (m : Mach) (typ : Nat) (c : Chainage) (v1 v2 : Nat) : Mach :=
  match typ with
  | 1 => m.followBind (v1 % 8) (bitAt v1 3) (word v2) c
  | 2 => m.followSlot (v1 % 256)
      (([.free, .armed, .waitStake, .waitChain, .done, .late, .cancelled, .skipped] : List SlotState).getD v2 .free) c
  | 3 =>
    let p := v1 % 8
    let x := Tab.get ({} : Probe) m.chn.probe p
    let n := stakeNumber x.issued (v1 / 256 % 256)
    let m := { m with chn := { m.chn with probe := Tab.set {} m.chn.probe p { x with issued := n } } }
    m.followStake p (m.nearChainage v2)
  | 4 => m.followJob (v1 % 65536) v2
  | 5 => { m with ptn := { m.ptn with partnerStopped := v2 = 1, partnerSrc := if v2 = 1 then v1 % 32 else 0 } }
  | 6 =>
    let n := (v1 % 16, v1 / 4096)
    let keep := m.cls.keep.filter (· ≠ n)
    if v2 = 1 then { m with cls := { m.cls with keep := keep ++ [n] } }
    else if v2 = 2 then { m with cls := { m.cls with keep := keep } }
    else
      let i := m.fld Reg.CAM_CLS_LOG_PTR.ptr
      ((m.wr (Reg.CAM_CLS_LOG_A i) (n.1 * 2 ^ 28 + v2 % 16 * 2 ^ 24 + n.2)).wr (Reg.CAM_CLS_LOG_B i)
        m.epo.counter.toNat).addWrap Reg.CAM_CLS_LOG_PTR.ptr 1
  | 7 => m.noteAxis (v1 % 16) { state := v1 / 16 % 16, posValid := bitAt v1 8, pos := signed 32 v2 }
  | _ => m

/-- A mirrored commit takes its recorded epoch and effect chainage (R414). -/
def Mach.followChange (m : Mach) (c : Change) (epoch : Word) (effect : Chainage) : Mach :=
  m.quietly (fun m => ({ m with epo := { m.epo with counter := epoch - 1 } } : Mach).applyChange c effect false false)

/-- A version that the resynchronisation carries. -/
def Mach.followVersion (m : Mach) (id : Nat) (epoch : Word) (effect : Chainage) (entries : List Nat) : Mach :=
  let kept := match m.ptn.monument with
    | some p => ((Tab.get [] p.versions id).find? (fun (v : Version) => v.epoch = epoch)).map Version.closed
    | none => none
  let v : Version := {
    epoch := epoch, effect := if epoch = 0 then none else some effect, cells := putEntries id entries 0 []
    closed := kept.getD [] }
  let m := { m with epo := { m.epo with
    versions := Tab.set [] m.epo.versions id ((Tab.get [] m.epo.versions id).filter (fun w => w.epoch ≠ epoch) ++ [v]) } }
  if id / 16 = 4 then
    m.setFld Reg.TRV_SCR_STATUS.thr_loaded (m.fld Reg.TRV_SCR_STATUS.thr_loaded ||| 2 ^ (id % 16))
  else m

/-- A DESC record: the descriptor acts as it did on the active module. -/
def Mach.followDesc (m : Mach) (h : DescRef) (epoch : Word) (effect : Chainage) : DescBody → Mach
  | .jobOpen f =>
    match (List.range 8).find? (fun j => (m.job j).state = .free) with
    | none => m
    | some j => m.openJob j f
  | .jobClose tag =>
    match m.jobSlot tag with
    | none => m
    | some j =>
      let x := m.job j
      let y := { x.closeStreams with closed := true, reserve := if x.streamed then x.reserve else 0 }
      let m := m.setJob j y
      if x.state = .opened then m.jobState j .stored else m
  | .jobArm f =>
    match m.jobSlot f.jobTag with
    | none => m
    | some j =>
      let m := m.armJob j h f
      if f.start = 1 then m else m.followChange (.arm h f) epoch effect
  | .jobDelete tag => match m.jobSlot tag with | none => m | some j => m.freeJob j
  | .abort tag => match m.jobSlot tag with | none => m | some j => if (m.job j).active then m.followEnd j else m
  | .revoke f => m.followChange (.revoke h f) epoch effect
  | .stnCommit f => m.followCommit f
  | .stnCancel slot =>
    let x := m.slot slot
    if x.state.waiting then m.setSlot slot { x with state := .cancelled } else m
  | .fence layer v =>
    let l := m.layer layer
    if epochNewer v l.fence then m.setLayer layer { l with fence := v } else m
  | .tableCommit f entries => m.followChange (.table h f entries) epoch effect
  | .jobImage _ => m
  | .blockData _ => m
  | .item f =>
    let n := h.ring - 2
    if m.hostImage then m else m.setLayer n { m.layer n with incoming := some (f, []) }
  | .nop => m
  | .stop => m
  | .mode _ => m
  | .buffer _ _ => m

/-- A stored block of a job's stream. -/
def Mach.followBlock (m : Mach) (layer plane tag idx : Nat) (b : Block) : Mach :=
  match m.jobSlot tag with
  | none => m
  | some j =>
    let x := m.job j
    let t := x.stream layer plane
    let cols := x.blockCols layer
    let same (c : Block) : Bool := c.row * cols + c.col = idx
    let blocks := if t.blocks.any same then t.blocks.map (fun c => if same c then b else c) else t.blocks ++ [b]
    m.setJob j (x.setStream layer plane { t with
      blocks := blocks, rows := max t.rows (b.row + 1), coded := max t.coded (b.first + b.lines) })

/-- The ITEM that would bring a part as its stored blocks. -/
def Part.descOf (p : Part) (i : Item) : ItemF :=
  { item := i.number, fence := p.fence, format := 1, channels := p.channels, width := p.width, height := p.height
    byteLen := 0, addr := 0, xOff := p.xOff, yOff := p.yOff, last := i.complete }

/-- A stored block of an item: it joins those of the part that awaits it, or of the mirrored ITEM, and the last of them
makes the part (R414). -/
def Mach.followItem (m : Mach) (n : Nat) (i : Word) (code : List Byte) : Mach :=
  let l := m.layer n
  let keep (m : Mach) (q : Part) : Mach := m.setLayer n { l with items := l.items.map (fun x =>
    if x.number = i then { x with parts := putPart q x.parts } else x) }
  match (l.item i).bind (fun x => (x.parts.find? (fun p => p.data = [])).map (fun p => (x, p))) with
  | some (x, p) =>
    let d := p.code ++ code
    match itemPart (p.descOf x) d with
    | some q => keep m q
    | none => keep m { p with code := d }
  | none =>
    match l.incoming with
    | none => m
    | some (f, d) =>
      if f.item ≠ i then m
      else match itemPart { f with format := 1 } (d ++ code) with
        | some p => (m.setLayer n { l with incoming := none }).storePart n f p
        | none => m.setLayer n { l with incoming := some (f, d ++ code) }

/-- An epoch is held for a swath: it has been reached, and of each table that the swath reads a version that it reaches is
held. -/
def Mach.epochHeld (m : Mach) (k : Nat) (epoch : Word) : Bool :=
  let x := m.job (keyJob k)
  !epochNewer epoch m.epo.counter &&
  m.epo.versions.all (fun e =>
    let reads := if e.1 / 16 ≤ 4 then e.1 % 16 = keyPlane k else if e.1 / 16 ≤ 6 then x.hasLayer (e.1 % 16) else false
    !reads || e.2.isEmpty || e.2.any (fun v => !epochNewer v.epoch epoch))

/-- The standby renders a sampled swath under the recorded epoch and compares (R430). One whose epoch it does not hold
is skipped. -/
def Mach.proofCompare (m : Mach) (k : Nat) (epoch crc : Word) : Mach :=
  let x := m.job (keyJob k)
  if !m.flag Reg.PTN_CFG.proof_en || !x.hasLines || !m.epochHeld k epoch ||
      !m.clusterRuns (m.fld Reg.PTN_CFG.proof_cluster) && !m.isBacksight then m
  else
    let bad := (m.makeTile k epoch).1.crc ≠ crc
    let m := (m.checked 21 1 (ofBool bad)).addWrap Reg.PTN_PROOF_CMP.cnt 1
    if bad then
      let m := m.addSat Reg.PTN_PROOF_MISMATCH.cnt 1
      if m.ptn.state = .backsight then
        { m.ptnTo .syncing 10 with ptn := { (m.ptnTo .syncing 10).ptn with inStep := false, stepTick := none } }
      else m.ptnTo m.ptn.state 10
    else m

/-- One record. -/
def Mach.followRec (m : Mach) : MirrorRec → Mach
  | .desc h body epoch effect =>
    let m := m.followDesc h epoch effect body
    if h.ring < 12 then m.wr (Reg.PTN_LAST h.ring) (h.tag % 65536 * 65536 + h.index % 65536) else m
  | .data layer plane tag idx b => m.followBlock layer plane tag idx b
  | .itemData layer _ item _ code => m.followItem layer item code
  | .commit source table plane _ epoch effect first entries =>
    match source with
    | 1 =>
      if epochNewer epoch m.epo.counter then
        m.followChange (.closure
          { table := table, plane := plane, isPartial := entries.length ≠ m.tableSize table plane, now := false
            first := first, count := entries.length, byteLen := 0, addr := 0, effect := effect.toNat } entries 0) epoch effect
      else m.followVersion (tableId table plane) epoch effect entries
    | 2 => m.followChange (.flip plane (entries.getD 0 0) effect) epoch effect
    | 3 => m.followChange (.station plane (BitVec.ofNat 48 (entries.getD 0 0 + 2 ^ 32 * entries.getD 1 0))) epoch effect
    | _ => m
  | .decision typ c v1 v2 => m.followDecision typ c v1.toNat v2.toNat
  | .echoRef hub tag lc hc => { m with ptn := { m.ptn with echoRefs := m.ptn.echoRefs ++ [(hub, tag, lc, hc)] } }
  | .proofRef plane job idx row epoch crc => m.proofCompare (swathKey job plane idx row) epoch crc

/-- The module receives records: a standby of any kind. -/
def Mach.follows (m : Mach) : Bool :=
  m.ptn.paired && (m.isBacksight || (m.ptn.state = .reverting && !m.ptn.oldActive))

/-- Records in sequence; what comes behind the next one expected has been applied. With whether all fitted, and
whether a commit was among them. -/
def Mach.followAll : List MirrorItem → Mach → Mach × Bool × Bool
  | [], m => (m, true, false)
  | i :: r, m =>
    let d := epochDiff i.seq (m.ptn.applied + 1)
    if 0 < d then (m, false, false)
    else if d < 0 then Mach.followAll r m
    else
      let m := m.followRec i.body
      let t := Mach.followAll r { m with ptn := { m.ptn with applied := i.seq, after := m.ptn.after ++ [i] } }
      (t.1, t.2.1, t.2.2 || i.isCommit)

/-- MIRROR_RX (R410, R413, R414): the records apply in sequence; a gap or a failed CRC is answered with NAK, and a
commit applied with ACK. -/
def execMirrorRx (rs : List MirrorItem) (crcOk : Bool) (s : State) : Host.Outcome State Fault Refusal :=
  s.run fun m =>
    if !m.follows then m else
    let m := m.checked 22 1 (ofBool (!crcOk))
    let nak (m : Mach) : Mach := m.sendFarsil 0x14 (leBytes 4 (m.ptn.applied + 1).toNat) []
    if !crcOk then nak m
    else if m.ptn.resync && m.ptn.monument.isNone then m
    else
      let r := Mach.followAll rs m
      let m := if r.2.2 then r.1.sendFarsil 0x13 (leBytes 4 r.1.ptn.applied.toNat) [] else r.1
      if r.2.1 then m else nak m

/-- An acknowledgement frees what it covers (R410). -/
def Mach.acknowledge (m : Mach) (seq : Word) : Mach :=
  if epochDiff seq m.ptn.acked ≤ 0 || epochNewer seq m.ptn.sent then m
  else
    let n := (m.ptn.staging.filter (fun i => !epochNewer i.seq seq)).length
    let due := m.ptn.held.filter (fun h => !epochNewer h.seq seq)
    let m := { m with ptn := { m.ptn with
      acked := seq, staging := m.ptn.staging.drop n, stagedAt := m.ptn.stagedAt.drop n
      held := m.ptn.held.filter (fun h => epochNewer h.seq seq) } }
    m.commitHeld due

/-- ACK_RX (R410, R413). -/
def execAckRx (seq : Word) (s : State) : Host.Outcome State Fault Refusal :=
  s.run fun m => if m.mirroring && !m.ptn.commitHold then m.acknowledge seq else m

/-- NAK_RX (R410): the records from the one named on go out again; where they are no longer held, the standby is
resynchronised. -/
def execNakRx (seq : Word) (s : State) : Host.Outcome State Fault Refusal :=
  s.run fun m =>
    if !m.mirroring || m.ptn.commitHold then m
    else
      let rs := m.ptn.staging.filter (fun i => !epochNewer seq i.seq)
      match rs.head? with
      | some i => if i.seq = seq then m.sendMirror rs else m.sendResync
      | none => if seq = m.ptn.sent + 1 then m else m.sendResync

/-- MONUMENT_RX (R417): the standby keeps the newest monument whose parts all passed their check. -/
def execMonumentRx (p : Monument) (part parts : Nat) (crcOk : Bool) (s : State) : Host.Outcome State Fault Refusal :=
  s.run fun m =>
    if !m.follows then m else
    let m := m.checked 23 1 (ofBool (!crcOk))
    if !crcOk then m
    else
      let got := (match m.ptn.monParts with | some (n, b) => if n = p.num then b else 0 | none => 0) ||| 2 ^ (part % 256)
      if got = 2 ^ parts - 1 then
        let start := m.ptn.resync && m.ptn.monument.isNone
        let m := { m with ptn := { m.ptn with
          monParts := none, monument := some p, monNum := p.num, claimSeen := max m.ptn.claimSeen p.claim
          after := m.ptn.after.filter (fun i => epochNewer i.seq p.mirrorSeq) } }
        if start then m.takeWhole p else m
      else { m with ptn := { m.ptn with monParts := some (p.num, got) } }

/-- MONUMENT_DUE (R417): every 10 ms while paired. -/
def execMonumentDue (s : State) : Host.Outcome State Fault Refusal :=
  s.run fun m =>
    if m.ptn.paired && m.mirroring && !m.ptn.commitHold then m.onBeat .monument ticks10ms Mach.sendMonument else m

/-- The swaths that may be rendered are rendered at URGENT priority (R421). DEDUCED (log entry 214). -/
def Mach.urgeAll (m : Mach) : Mach :=
  m.queue.foldl (fun (m : Mach) k => m.setSwath k { m.swath k with eligible := true, urgent := true }) m

/-- A record applied after the newest monument acts again on what is restored from it: slots, axes and closure's lists. -/
def Mach.replay (m : Mach) : MirrorRec → Mach
  | .desc _ (.stnCommit f) _ _ => m.followCommit f
  | .desc h (.stnCancel slot) e c => m.followDesc h e c (.stnCancel slot)
  | .decision 3 _ v1 v2 => m.followStake (v1.toNat % 8) (m.nearChainage v2.toNat)
  | .decision typ c v1 v2 => if typ = 2 ∨ typ = 6 ∨ typ = 7 then m.followDecision typ c v1.toNat v2.toNat else m
  | _ => m

/-- The state restored from the newest monument and the records applied after it (R419). Jobs, layers, tables and epochs
stand as the records left them (R414). DEDUCED (log entry 231). -/
def Mach.restoreState (m : Mach) : Mach :=
  match m.ptn.monument with
  | some p => m.ptn.after.foldl (fun (m : Mach) i => m.replay i.body)
      ((((m.takeCounters p).takeAxes p).takeSlots p).takeStops p)
  | none => m

/-- What a takeover that is not stale does once its state is restored (R421): the slots in states 1 to 3 are judged on
one tick, the axes stand as recorded, the outputs leave their safe levels (R68), and lines are rendered as urgent. -/
def Mach.resume (m : Mach) : Mach :=
  (m.restoreState.motRestore.raise Ev.stnState .info 0 0).stnJudge.urgeAll.takeLines

/-- Every job the module holds ends as by an ABORT accepted on this tick (R134, R420). -/
def Mach.abortAll (m : Mach) : Mach :=
  (List.range 8).foldl (fun (m : Mach) j =>
    if (m.job j).active then
      let r := m.cutJob j 9
      r.1.endTaken.endJob j .aborted m.chainage r.2
    else m) m

/-- A stale standby becomes active: its slots are judged and its axes stand as last recorded (R68, R449).
DEDUCED (log entry 228). -/
def Mach.resumeStale (m : Mach) : Mach := (m.restoreState.motRestore.raise Ev.stnState .info 0 0).stnJudge

/-- A DETACHED module strapped A that pairs while neither holds the majority becomes FORESIGHT (R405) as by a stale
takeover (R420): its jobs end, and the mode is READY. DEDUCED (log entry 233). -/
def Mach.takeStale (m : Mach) : Mach :=
  let m := m.abortAll.modeTo .ready 3
  ({ m with ptn := { m.ptn with restored := true } } : Mach).resumeStale

/-- A revert's switch chainage is let go once all rows have passed it. -/
def Mach.switchPast (m : Mach) : Mach :=
  if m.ptn.switched.any (fun w => decide (2 ^ 32 ≤ chnDiff m.chn.printed w)) then
    { m with ptn := { m.ptn with switched := none } }
  else m

/-! ### Pairing (R405 to R408) -/

/-- PAIRING_ATTEMPT (R406): tried again a second after the last attempt until it succeeds.
DEDUCED (log entry 102). -/
def execPairingAttempt (s : State) : Host.Outcome State Fault Refusal :=
  s.run fun m => if m.ptn.pairTick.all (fun t => m.passed t 500000000) then m.startPairing else m

/-- A pairing attempt ends without a pair: SOLO, or DETACHED where it was a standby's. -/
def Mach.attemptEnds (m : Mach) (cause : Nat) : Mach :=
  let first := !m.ptn.attemptDone
  let m := { m with ptn := { m.ptn with
    attemptDone := true, waitB := m.ptn.waitB || (first && m.ptn.straps = 2)
    waitTick := if first then m.now else m.ptn.waitTick } }
  m.ptnTo (if m.isBacksight then .detached else .solo) cause

/-- PAIRING_TIMEOUT (R406): 10 ms after the attempt began; cause 1 on the first failure after a success or after
reset. -/
def execPairingTimeout (s : State) : Host.Outcome State Fault Refusal :=
  s.run fun m =>
    if m.ptn.state ≠ .pairing || m.ptn.pairTick.any (fun t => !m.passed t ticks10ms) then m
    else
      let raised := m.ptn.failRaised
      let m := [40, 41].foldl (fun (m : Mach) l =>
        if (m.lane l).state = .cal then m else m.laneTo l { m.lane l with state := .off }) m
      ({ m with ptn := { m.ptn with failRaised := true } } : Mach).attemptEnds (if raised then 0 else 1)

/-- HELLO_RX (R405, R407): the pairing is refused, or the module that holds the majority becomes FORESIGHT.
DEDUCED (log entry 101). -/
def execHelloRx (p : Hello) (s : State) : Host.Outcome State Fault Refusal :=
  s.run fun m =>
    if m.ptn.state ≠ .pairing || !m.laneUp 40 || !m.laneUp 41 then m
    else
      let m := (m.wr Reg.PTN_PARTNER_ID_LO (p.deviceId.toNat % 2 ^ 32)).wr Reg.PTN_PARTNER_ID_HI (p.deviceId.toNat / 2 ^ 32)
      let m := { m with ptn := { m.ptn with claimSeen := max m.ptn.claimSeen p.claim } }
      if p.straps = m.ptn.straps then m.attemptEnds 8
      else if p.geometry ≠ m.geometryHash ∨ p.level ≠ m.level ∨ p.storeSize.toNat ≠ m.storeSize then m.attemptEnds 9
      else
        let active := m.ptn.majority || (!p.majority && m.ptn.straps = 1)
        let m := { m with ptn := { m.ptn with
          attemptDone := true, waitB := false, failRaised := false, paired := true, beatTick := m.now
          unmirrored := false, stale := false, inStep := false, first := true, badBeats := 0, lagSince := none
          sent := 0, acked := 0, applied := 0, staging := [], stagedAt := [], monument := none, monParts := none
          resync := !active, partner := if active then PtnState.syncing.code else PtnState.foresight.code
          echoRefs := [], echoSeen := [], echoWait := false, lackEcho := false, handover := false, cSw := none
          switched := none } }
        if active then
          let m := m.ptnTo .foresight 2
          (if m.isBacksight then m.takeStale.sendResync else m.sendResync)
        else ((m.setFld Reg.PTN_SYNC.pct 0).ptnTo .syncing 2).toStandby

/-! ### The standby's chainage and step (R415, R416) -/

/-- The standby falls out of step. -/
def Mach.outOfStep (m : Mach) (cause : Nat) : Mach :=
  let m := m.ptnTo .syncing cause
  { m with ptn := { m.ptn with inStep := false, stepTick := none, badBeats := 0 } }

/-- With image_src HOST a closed mirrored job has all its streams stored before the standby is in step (R414). -/
def Mach.imagesStored (m : Mach) : Bool :=
  !m.flag Reg.PTN_CFG.image_src ||
  (List.range 8).all (fun j =>
    let x := m.job j
    x.state = .free || !x.closed || x.streamed ||
    [0, 6].all (fun n => !x.hasLayer n || x.itemLayer n || (List.range 10).all (fun p =>
      !x.hasPlane p || !x.takesStream n p || decide (x.repeatLen ≤ (x.stream n p).coded * x.alongOf n))))

/-- d of R415: the sent chainage and the web of the link's one-way latency, less the own printed chainage.
DEDUCED (log entry 107). -/
def Mach.chnDeviation (m : Mach) (c : Chainage) : Int :=
  let ns := (m.lane 40).trained / 32
  let run := m.fld Reg.CHN_SPEED_LINKS.links * ns / (m.chn.speedWindow * 1000)
  chnDiff (c + BitVec.ofNat 48 run) m.chn.printed

/-- A standby takes a HEARTBEAT of the active module. DESIGN CHOICE (log entries 99, 100). -/
def Mach.standbyBeat (m : Mach) (b : Heartbeat) : Mach :=
  let d := m.chnDeviation b.chn
  let m := m.wr Reg.PTN_CHN_DEV (unsigned 32 (clampInt (-(2 ^ 31)) (2 ^ 31 - 1) d))
  let armed := m.chn.vote ≠ .disarmed
  let m : Mach :=
    if !armed then m
    else if m.ptn.first then
      { m with
        chn := { m.chn with printed := m.chn.printed + BitVec.ofInt 48 d }
        ptn := { m.ptn with first := false } }
    else { m with chn := { m.chn with slew := m.chn.slew + d } }
  let synced := m.ptn.resync && m.ptn.monument.isSome && m.ptn.applied = b.seq
  let behind := m.ptn.applied ≠ b.seq
  let m := { m with ptn := { m.ptn with
    resync := m.ptn.resync && !synced
    lagSince := if behind then m.ptn.lagSince.or (some m.now) else none } }
  let m := m.setFld Reg.PTN_SYNC.pct (if !m.ptn.resync then 100
    else if m.ptn.monument.isNone then 0 else min 99 (100 * m.ptn.applied.toNat / max 1 b.seq.toNat))
  let lag := match m.ptn.lagSince with | some t => m.now - t | none => 0
  let ok := !m.ptn.resync && decide (d.natAbs ≤ 1024) && decide (lag < ticks10ms) && m.chn.vote.valid && m.imagesStored
  if m.ptn.state = .syncing then
    if ok then
      let m := m.ptnTo .backsight 3
      { m with ptn := { m.ptn with inStep := true, stepTick := some m.now, badBeats := 0 } }
    else m
  else if m.ptn.state = .backsight then
    if ok then { m with ptn := { m.ptn with badBeats := 0 } }
    else if m.ptn.badBeats + 1 < 3 then { m with ptn := { m.ptn with badBeats := m.ptn.badBeats + 1 } }
    else m.outOfStep 4
  else m

/-- PARTNER_HEARTBEAT_RX (R408, R413, R415, R416, R428). -/
def execPartnerHeartbeatRx (b : Heartbeat) (s : State) : Host.Outcome State Fault Refusal :=
  s.run fun m =>
    if !m.ptn.paired || m.ptn.commitHold || m.ptn.state = .claiming then m
    else
      let m := { m with ptn := { m.ptn with partner := b.state, beatTick := m.now } }
      if m.follows then
        ({ m with ptn := { m.ptn with partnerStopped := b.stopped } } : Mach).standbyBeat b
      else if m.mirroring then
        let m := m.acknowledge b.seq
        let m := if b.state = PtnState.syncing.code then m.releaseHeld else m
        if m.ptn.state = .reverting && b.state = PtnState.foresight.code then
          let m := (m.ptnTo .backsight 0).toStandby
          { m with ptn := { m.ptn with
              oldActive := false, cSw := none, revertTick := none, inStep := true, stepTick := some m.now
              applied := b.seq, badBeats := 0, first := false } }
        else m
      else m

/-! ### Loss of the partner and takeover (R409, R418 to R421) -/

/-- The restored mode: RUN while a mirrored job prints and the mirrored state is not stopped, else READY. -/
def Mach.takeoverMode (m : Mach) : Mode :=
  if !m.ptn.partnerStopped && (List.range 8).any (fun j => (m.job j).state = .printing) then .run else .ready

/-- The module takes over, or takes over stale (R420, R421). DEDUCED (log entry 228). -/
def Mach.takeOverPair (m : Mach) : Mach :=
  let stale := m.ptn.stale
  let lost := (List.range 8).any (fun j => (m.job j).state = .printing)
  let m := if stale then m.abortAll else m
  let mode := if stale then .ready else m.takeoverMode
  let handover := m.ptn.handover
  let m := m.ptnTo .solo 0
  let m := { m with ptn := { m.ptn with
    paired := false, inStep := false, stale := false, handover := false, restored := m.ptn.restored || stale
    staging := [], stagedAt := [], held := [] } }
  let m := m.modeTo mode 3
  let m := m.raise Ev.takeover (if lost then .error else .warning)
    (ofBool stale + 2 * ofBool handover + 256 * m.hubsHeld.length) m.epo.counter.toNat
  if stale then m.resumeStale else if m.ptn.restored then m.resume else m

/-- The newest GRANT of a hub is in: a claiming standby with the majority takes over, and a reverting module with it is
FORESIGHT (R419, R428). -/
def Mach.judgeMajority (m : Mach) : Mach :=
  let m := m.tallyHubs
  if !m.ptn.majority then m
  else if m.ptn.state = .claiming && m.isBacksight && !m.hst.stopped then m.takeOverPair
  else if m.ptn.state = .reverting && !m.ptn.oldActive && m.ptn.revertTick.isSome then
    let m := match m.ptn.monument with | some p => m.takeUsage p | none => m
    let m := (m.motRestore.ptnTo .foresight 0).revertEvent 1
    let q := m.ptn.applied
    { m with ptn := { m.ptn with
        cSw := none, switched := m.ptn.cSw, revertTick := none, inStep := false, stepTick := none
        partner := PtnState.backsight.code
        sent := q, acked := q, staging := [], stagedAt := [] } }
  else m

/-- GRANT_RX (R331, R402, R403): the hub names its master, and the majority is counted again. A GRANT that answers a claim
takes the hub only with the number of the claim sent to it. DEDUCED (log entry 93). -/
def execGrantRx (hub : Nat) (g : GrantF) (s : State) : Host.Outcome State Fault Refusal :=
  s.run fun m =>
    if g.bad then m.discard (m.timingLane hub) else
    let x := m.hub hub
    let mine := decide (g.masterPort = g.port)
    let answers := g.result = 0 || g.result = 2
    let m := m.setHub hub { x with
      seen := true, master := mine, silence := g.silence
      held := mine && (!answers || g.claim.toNat = x.claimNo || x.held)
      masterPort := if g.masterPort = 255 then none else some g.masterPort }
    ({ m with ptn := { m.ptn with claimSeen := max m.ptn.claimSeen g.claim.toNat } } : Mach).judgeMajority

/-- Claims of a module that is no standby wait for the first pairing attempt, and 50 ms more where it is strapped B
(R405). DEDUCED (log entry 106). -/
def Mach.mayClaim (m : Mach) : Bool :=
  !((m.ptn.straps = 1 || m.ptn.straps = 2) && m.flag Reg.PTN_CFG.en && (!m.ptn.attemptDone || m.ptn.waitB))

/-- Hubs not held. -/
def Mach.hubsOpen (m : Mach) : List Nat := m.hubsEn.filter (fun h => !(m.hub h).held)

/-- A standby in step that loses its partner, or a DETACHED one that sees a majority of hubs silent, claims (R419,
R420). Its clusters unpark, and its state is restored. -/
def Mach.startClaiming (m : Mach) (loss : Nat) : Mach :=
  let m := m.ptnTo .claiming 0
  let m := { m with ptn := { m.ptn with lossTick := some loss, restored := false, inStep := false, stepTick := none } }
  let m := if m.hst.stopped || !m.isBacksight then m else (m.beaten .claim).claimHubs m.hubsOpen
  m.parkUpdate

/-- CLAIM_ROUND (R403, R419, R420): every 1 ms, or every 200 µs while CLAIMING. -/
def execClaimRound (s : State) : Host.Outcome State Fault Refusal :=
  s.run fun m =>
    if m.inMode .boot then m
    else m.onBeat .claim (if m.ptn.state = .claiming then 200 * ticksUs else 1000 * ticksUs) fun m =>
    if m.isBacksight then
      if m.hst.stopped then m
      else if m.ptn.state = .claiming then m.claimHubs m.hubsOpen
      else if m.ptn.state = .detached || m.ptn.state = .pairing then
        if decide (m.majorityN ≤ (m.hubsEn.filter m.hubSilent).length) then m.startClaiming m.now else m
      else m
    else
      let open_ := match m.ptn.state with
        | .solo => m.mayClaim
        | .pairing => m.mayClaim
        | .foresight => m.ptn.majority || m.ptn.reclaim
        | _ => false
      if open_ then m.claimHubs (m.hubsOpen.filter m.hubFree) else m

/-- CLAIM_HOLDOFF_EXPIRY (R405): a module strapped B may claim 50 ms after its first attempt. -/
def execClaimHoldoffExpiry (s : State) : Host.Outcome State Fault Refusal :=
  s.run fun m => if m.passed m.ptn.waitTick 25000000 then { m with ptn := { m.ptn with waitB := false } } else m

/-- CLAIM_WINDOW_EXPIRY (R419): without the majority 5 ms after the loss. -/
def execClaimWindowExpiry (s : State) : Host.Outcome State Fault Refusal :=
  s.run fun m =>
    if m.ptn.state ≠ .claiming || m.ptn.lossTick.any (fun t => !m.passed t 2500000) then m
    else
      let m := m.releaseHubs.ptnTo .detached 7
      let m := { m with ptn := { m.ptn with
        stale := true, paired := false, lossTick := none, restored := true, handover := false } }
      m.parkUpdate

/-- An active module goes on without its partner (R418). -/
def Mach.goSolo (m : Mach) : Mach :=
  let m := m.ptnTo .solo 0
  ({ m with ptn := { m.ptn with
    paired := false, commitHold := false, unmirrored := true, staging := [], stagedAt := [] } } : Mach).releaseHeld

/-- The partner is lost: by a lane of Farsil, or for want of its HEARTBEAT (R409, R418, R419). -/
def Mach.partnerGone (m : Mach) (lane : Bool) : Mach :=
  if !m.ptn.paired || m.ptn.commitHold || m.ptn.state = .claiming then m
  else
    let m := if m.ptn.state = .reverting then m.revertEnds else m
    let hold := m.ptn.state = .foresight && m.ptn.partner = PtnState.backsight.code
    let m := m.raise Ev.partnerLinkLost .warning (ofBool (!lane) + 2 * ofBool lane + 4 * ofBool hold)
      (if m.isBacksight then m.ptn.applied else m.ptn.acked).toNat
    match m.ptn.state with
    | .foresight => if hold then { m with ptn := { m.ptn with commitHold := true, holdTick := m.now } } else m.goSolo
    | .backsight => m.startClaiming m.now
    | .syncing =>
      let m := m.ptnTo .detached 0
      { m with ptn := { m.ptn with stale := true, paired := false, inStep := false } }
    | _ => m

/-- A lane loses lock; with a Farsil lane that was UP the partner is lost (R327, R406, R409). -/
def Mach.loseLane (m : Mach) (lane cause : Nat) : Mach :=
  if decide (40 ≤ lane) && m.laneUp lane then (m.loseLock lane cause).partnerGone true else m.loseLock lane cause

/-- LANE_LOCK_LOST (R327). -/
def execLaneLockLost (lane cause : Nat) (s : State) : Host.Outcome State Fault Refusal :=
  s.run fun m => m.loseLane lane cause

/-- RXLOST_RX (R327): cause 4. -/
def execRxlostRx (l : LaneSet) (s : State) : Host.Outcome State Fault Refusal :=
  s.run fun m => if l.bad && (m.lane l.lane).state ≠ .off then m.discard l.lane else m.loseLane l.lane 4

/-- PARTNER_LOST (R409, R418, R419): no HEARTBEAT for 500 µs, or Farsil lane `lane` has lost lock. -/
def execPartnerLost (lane : Option Nat) (s : State) : Host.Outcome State Fault Refusal :=
  s.run fun m => match lane with
    | some l => m.loseLane (40 + l % 2) 1
    | none => if m.passed m.ptn.beatTick (500 * ticksUs) then m.partnerGone false else m

/-- COMMIT_HOLD_EXPIRY (R418): 6 ms after the loss the module is SOLO, and what waited commits without the mirror. -/
def execCommitHoldExpiry (s : State) : Host.Outcome State Fault Refusal :=
  s.run fun m => if m.ptn.commitHold && m.passed m.ptn.holdTick 3000000 then m.goSolo else m

/-- STATE_RESTORED (R419, R421): the state is restored from the monument and the records after it. -/
def execStateRestored (s : State) : Host.Outcome State Fault Refusal :=
  s.run fun m =>
    if m.ptn.restored then m
    else
      let m := { m with ptn := { m.ptn with restored := true } }
      if m.ptn.state = .claiming then m else m.resume

/-! ### Handover and echoes (R423, R424) -/

/-- The active module hands over: HANDOVER, RELEASE to every hub it holds, RELEASED; it is SYNCING.
DEDUCED (log entry 105). -/
def Mach.handOver (m : Mach) : Mach :=
  let m := (m.sendControl 4 0 0).releaseHubs
  let m := ((m.sendControl 7 0 0).ptnTo .syncing 5).toStandby
  { m with ptn := { m.ptn with
      held := [], staging := [], stagedAt := [], inStep := false, resync := true, monument := none, first := true } }

/-- MAJORITY_LOSS_TIMEOUT (R423): an active module without the majority for 2 ms, its partner BACKSIGHT. -/
def execMajorityLossTimeout (s : State) : Host.Outcome State Fault Refusal :=
  s.run fun m =>
    let late := match m.ptn.noMajSince with | some t => decide (t + 1000000 ≤ m.now) | none => false
    if m.ptn.state = .foresight && m.ptn.partner = PtnState.backsight.code && !m.ptn.commitHold && late then m.handOver
    else m

/-- HANDOVER_RX (R423). -/
def execHandoverRx (s : State) : Host.Outcome State Fault Refusal :=
  s.run fun m =>
    if m.ptn.state = .backsight then { m with ptn := { m.ptn with handover := true } } else m

/-- RELEASED_RX (R423, R428): every hub is claimed. -/
def execReleasedRx (s : State) : Host.Outcome State Fault Refusal :=
  s.run fun m =>
    if m.ptn.state = .backsight then
      ({ m with ptn := { m.ptn with handover := true } } : Mach).startClaiming m.now
    else if m.ptn.state = .reverting && !m.ptn.oldActive then
      ({ m with ptn := { m.ptn with revertTick := some m.now } } : Mach).claimHubs m.hubsEn
    else m

/-- The hubs without a matching ECHO in the present millisecond are a majority while a job prints. -/
def Mach.echoesLacking (m : Mach) : Bool :=
  (List.range 8).any (fun j => (m.job j).state = .printing) &&
  decide (m.majorityN ≤ (m.hubsEn.filter (fun h => !m.ptn.echoSeen.any (fun e => e.1 = h))).length)

/-- ECHO_WINDOW (R424): a millisecond ends; a standby that lacked a majority raises the alarm. -/
def execEchoWindow (s : State) : Host.Outcome State Fault Refusal :=
  s.run fun m => m.onBeat .echoes (1000 * ticksUs) fun m =>
    let lack := m.echoesLacking
    let m := { m with ptn := { m.ptn with lackEcho := lack, echoSeen := [] } }
    if lack && m.ptn.state = .backsight then
      ({ m with ptn := { m.ptn with echoWait := true } } : Mach).sendControl 5 0 0
    else m

/-- ECHO_ALARM_RX (R424): the active module answers by its own check units of that millisecond. -/
def execEchoAlarmRx (s : State) : Host.Outcome State Fault Refusal :=
  s.run fun m =>
    if m.ptn.state ≠ .foresight then m
    else
      let agree := m.ptn.lackEcho
      let m := m.sendControl 6 0 (ofBool agree)
      if agree then m.handOver else m

/-- ALARM_REPLY_RX (R424): with result 0 the views differ, and the standby falls out of step. -/
def execAlarmReplyRx (result : Nat) (s : State) : Host.Outcome State Fault Refusal :=
  s.run fun m =>
    if m.ptn.state ≠ .backsight || !m.ptn.echoWait then m
    else
      let m := { m with ptn := { m.ptn with echoWait := false } }
      if result = 0 then m.outOfStep 6 else m

/-- HALT_RESET_TIMER (R425): a paired module that entered HALT resets itself 1 ms after.
DESIGN CHOICE (log entry 5). -/
def execHaltResetTimer (s : State) : Host.Outcome State Fault Refusal :=
  s.runMem fun m =>
    let due := match m.glb.haltTick with | some t => decide (t + 500000 ≤ m.now) | none => false
    if m.inMode .halt && m.ptn.paired && m.flag Reg.PTN_CFG.halt_reset && due then m.restart .haltReset m.ptn.straps else m

/-! ### Revert (R427 to R429) -/

/-- The switch chainage: the line chainage of the first boundary at least D_eff + F + 2 x 64 x P ahead (R427). -/
def Mach.switchPoint (m : Mach) : Option Chainage :=
  (m.boundaryBy (m.flag Reg.PTN_CFG.revert_boundary)
    (fun x => m.fld Reg.TRV_RUNAHEAD_EFF.links + x.lead + ceilDiv (128 * x.pitch) 65536)).map
    (fun b => (m.job b.1).lineChn b.2)

/-- Plan a revert: REVERT_REQ with the switch chainage. The hold starts again. -/
def Mach.planRevert (m : Mach) : Mach :=
  let m := { m with ptn := { m.ptn with stepTick := some m.now } }
  match m.switchPoint with
  | none => m
  | some c => ({ m with ptn := { m.ptn with cSw := some c } } : Mach).sendControl 1 c 0

/-- A standby strapped A, in step, with revert_en set. -/
def Mach.mayRevert (m : Mach) : Bool :=
  m.ptn.state = .backsight && m.ptn.inStep && m.ptn.straps = 1 && m.flag Reg.PTN_CFG.revert_en

/-- REVERT_HOLD_EXPIRY (R427). -/
def execRevertHoldExpiry (s : State) : Host.Outcome State Fault Refusal :=
  s.run fun m =>
    let hold := max 1 (m.fld Reg.PTN_CFG.revert_hold_s) * 500000000
    let due := match m.ptn.stepTick with | some t => decide (t + hold ≤ m.now) | none => false
    if m.mayRevert && due then m.planRevert else m

/-- REVERT_NOW (R427, R433): ignored unless strapped A and in step. DEDUCED (log entry 97). -/
def execRevertNow (s : State) : Host.Outcome State Fault Refusal :=
  s.run fun m => if m.mayRevert then m.planRevert else m

/-- REVERT_REQ_RX (R427): the active module accepts while it prints, is not stopped, its partner is in step, and no
axis is busy. DEDUCED (log entry 96). -/
def execRevertReqRx (c : Chainage) (s : State) : Host.Outcome State Fault Refusal :=
  s.run fun m =>
    let ok := m.ptn.state = .foresight && m.ptn.partner = PtnState.backsight.code && !m.ptn.commitHold &&
      m.glb.mode.printing && (List.range 8).any (fun j => (m.job j).state = .printing) && !m.hst.stopped &&
      (List.range 12).all (fun a => !(m.axis a).state.busy)
    if !ok then m
    else
      let m := (m.sendControl 2 c 0).ptnTo .reverting 0
      ({ m with ptn := { m.ptn with cSw := some c, oldActive := true, revertTick := none } } : Mach).revertEvent 0

/-- REVERT_ACK_RX (R427): the standby enters REVERTING, sets RUN and unparks. -/
def execRevertAckRx (c : Chainage) (s : State) : Host.Outcome State Fault Refusal :=
  s.run fun m =>
    if m.ptn.state ≠ .backsight || m.ptn.cSw ≠ some c then m
    else
      let m := m.restoreState.ptnTo .reverting 0
      let m := { m with ptn := { m.ptn with oldActive := false, revertTick := none } }
      (((m.modeTo .run 3).takeLines.raise Ev.stnState .info 0 0)).revertEvent 0

/-- REVERT_SWITCH (R428): 10 µs of web past c_sw the active module releases its hubs, or aborts with an axis not at
rest. -/
def execRevertSwitch (s : State) : Host.Outcome State Fault Refusal :=
  s.run fun m =>
    match m.ptn.cSw with
    | none => m
    | some w =>
      let at_ := w + BitVec.ofNat 48 (m.fld Reg.CHN_SPEED_LINKS.links * 10 / m.chn.speedWindow)
      if m.ptn.state ≠ .reverting || !m.ptn.oldActive || m.ptn.revertTick.isSome || !chnAtOrAhead m.chainage at_ then m
      else if (List.range 12).any (fun a => (m.axis a).state.busy) then (m.sendControl 3 w 0).revertEnds
      else
        let m := m.motYield.releaseHubs.sendControl 7 0 0
        { m with ptn := { m.ptn with revertTick := some m.now } }

/-- REVERT_ABORT_RX (R428, R429). -/
def execRevertAbortRx (s : State) : Host.Outcome State Fault Refusal :=
  s.run fun m => if m.ptn.state = .reverting then m.revertEnds else m

/-- REVERT_MAJORITY_TIMEOUT (R429): the reverting module has no majority 5 ms after RELEASED.
DEDUCED (log entry 94). -/
def execRevertMajorityTimeout (s : State) : Host.Outcome State Fault Refusal :=
  s.run fun m =>
    let due := match m.ptn.revertTick with | some t => decide (t + 2500000 ≤ m.now) | none => false
    if m.ptn.state = .reverting && !m.ptn.oldActive && due && !m.ptn.majority then
      (m.releaseHubs.sendControl 3 (m.ptn.cSw.getD 0) 0).revertEnds
    else m

/-- RESYNC (R416): PTN_CTRL.resync on a standby. -/
def execResync (s : State) : Host.Outcome State Fault Refusal :=
  s.run fun m =>
    if m.ptn.state = .syncing || m.ptn.state = .backsight then
      let m := m.ptnTo .syncing 0
      let m := { m with ptn := { m.ptn with
        inStep := false, stepTick := none, resync := true, monument := none, monParts := none } }
      (m.setFld Reg.PTN_SYNC.pct 0).sendFarsil 0x14 (leBytes 4 0) []
    else m

/-- PROOF_PHASE_ADVANCE (R430): each second. -/
def execProofPhaseAdvance (s : State) : Host.Outcome State Fault Refusal :=
  s.run fun m => m.onBeat .phase 500000000 fun m =>
    { m with ptn := { m.ptn with proofPhase := (m.ptn.proofPhase + 1) % 64 } }

end Sys2Proof.Machine
end

