-- ==== Sys2Proof/Machine/Chainage.lean ====
section
/-! DEFINITION. Chainage (R32 to R65, R529): the five channels, the voter, debt and backstep, indexes, speed, probes,
and what each DTM tick does. Positions are kept in 2^-17 links. -/

namespace Sys2Proof.Machine

open Sys2Proof

/-! ### Channels (R34 to R36) -/

/-- A channel. -/
def Mach.chan (m : Mach) (c : Nat) : Channel := Tab.get {} m.chn.ch c

/-- The channels with one changed. -/
def Mach.setChan (m : Mach) (c : Nat) (x : Channel) : Mach :=
  { m with chn := { m.chn with ch := Tab.set {} m.chn.ch c x } }

/-- The type of a channel: 0 OFF, 1 SINCOS, 2 PULSE, 3 ABS. -/
def Mach.chanType (m : Mach) (c : Nat) : Nat := m.fld (Reg.CHN_CFG.type c)

/-- The scale in 2^-16 links. -/
def Mach.chanScale (m : Mach) (c : Nat) : Nat :=
  m.rd (Reg.CHN_SCALE_LO c) + 2 ^ 32 * m.fld (Reg.CHN_SCALE_HI.scale c)

/-- A count as CFG.invert has it. -/
def Mach.chanSign (m : Mach) (c : Nat) (n : Int) : Int := if m.flag (Reg.CHN_CFG.invert c) then -n else n

/-- The bits of an ABS word, 13 to 32 (R43). -/
def Mach.absBits (m : Mach) (c : Nat) : Nat := clampNat 13 32 (m.fld (Reg.CHN_CFG.abs_bits c))

/-- The request period of an ABS channel in µs, 1 to 64 (R43). -/
def Mach.ssiPeriod (m : Mach) (c : Nat) : Nat := clampNat 1 64 (m.fld (Reg.CHN_SSI.req_period c))

/-- The SSI recovery time in 0.25 µs, 1 to 160 (R45). -/
def Mach.ssiRecovery (m : Mach) (c : Nat) : Nat := clampNat 1 160 (m.fld (Reg.CHN_SSI.recovery c))

/-- The ticks for which a channel goes on at its measured speed: those since its last sample, at most 1.5 request
periods for ABS (R43), and its input latency, with the filter length by which a PULSE edge is dated back (R36, R40).
-/
def Mach.chanElapsed (m : Mach) (c : Nat) (x : Channel) : Nat :=
  match m.chanType c with
  | 2 => x.ticksSince + x.latency + m.fld (Reg.CHN_CFG.glitch c)
  | 3 => min x.ticksSince (m.ssiPeriod c * 750) + x.latency
  | _ => x.ticksSince + x.latency

/-- The advance since the last sample at the measured speed, in 2^-16 links (R36): a PULSE channel never passes its next
edge less one link (R42). DEDUCED (log entry 121). -/
def Mach.chanExt (m : Mach) (c : Nat) (x : Channel) : Int :=
  let e := if x.span = 0 then 0 else (x.step * (m.chanScale c * m.chanElapsed c x : Nat)).tdiv x.span
  if m.chanType c = 2 then
    let lim : Int := ((m.chanScale c - 65536 : Nat) : Int)
    clampInt (-lim) lim e
  else e

/-- offset + adjustment + net count x scale, with the advance since the last sample (R35, R36, R51). -/
def Mach.chanRaw (m : Mach) (c : Nat) (x : Channel) : Int :=
  2 * (m.sfld (Reg.CHN_OFFSET.offset c) * 65536 + x.net * (m.chanScale c : Nat) + m.chanExt c x) + x.adj

/-- A channel checks its index. -/
def Mach.indexed (m : Mach) (c : Nat) : Bool :=
  decide (c < 5) && m.flag (Reg.CHN_CFG.index_en c) && m.fld (Reg.CHN_INDEX_PITCH.pitch c) ≠ 0 &&
  (m.chanType c = 1 || m.chanType c = 2)

/-- A channel that checks its index recognises one at its net count (R40, R41). -/
def Mach.noteIndex (m : Mach) (c : Nat) (seen : Bool) : Mach :=
  if seen && m.indexed c then m.setChan c { m.chan c with mark := some (m.chan c).net } else m

/-- A native sample moves the net count by `n` counts, which with the ticks since the one before is the measured speed.
DESIGN CHOICE (log entry 178). -/
def Channel.moved (x : Channel) (n : Int) : Channel :=
  { x with
    net := x.net + n, step := n, span := if x.sampled then x.ticksSince else 0, sampled := true, ticksSince := 0 }

/-- The channels 0 to 2 that vote. -/
def Mach.voters (m : Mach) : List Nat :=
  (List.range 3).filter (fun c => m.chanType c ≠ 0 && (m.chan c).state = .voting)

/-- Their mask. -/
def Mach.voteMask (m : Mach) : Nat := m.voters.foldl (fun n c => n + 2 ^ c) 0

/-- The voted chainage in 2^-17 links. -/
def Mach.voted17 (m : Mach) : Int := m.chn.printed.toNat * 131072 + m.chn.lead

/-- A channel with its position moved to a place, through the adjustment (R51). -/
def Mach.chanAt (m : Mach) (c : Nat) (x : Channel) (pos : Int) : Channel :=
  { x with adj := x.adj + (pos - m.chanRaw c x), pos := pos }

/-- The counts that lead to a fault, cleared (R51, R52). -/
def Channel.cleared (x : Channel) : Channel :=
  { x with
    cause := .none, ampRun := 0, illegal := [], noted := false, badTeeth := 0, reqFrom := none, devOver := 0, devHist := [] }

/-! ### Loss of the vote and faults (R47 to R49, R52) -/

/-- The vote is lost. -/
def Mach.voteLost (m : Mach) (why mask : Nat) : Mach :=
  let m := { m with chn := { m.chn with vote := .lost } }
  let halts := !(m.inMode .boot || m.inMode .setup)
  let m := m.raise Ev.chVoteLost (if halts && !m.inMode .halt then .fatal else .warning) mask why
  if halts then m.halt .vote else m

/-- The vote counts its channels again after one has left it. -/
def Mach.recount (m : Mach) (mask : Nat) : Mach :=
  if !m.chn.vote.valid then m
  else
    let n := m.voters.length
    if n < 2 then m.voteLost 2 mask
    else { m with chn := { m.chn with vote := if n = 3 then .three else .two } }

/-- A channel becomes FAULTY with a cause and its record (R47, R64); its deviation ends with its window.
DESIGN CHOICE (log entry 172). -/
def Mach.faultOne (m : Mach) (c : Nat) (cause : ChFault) : Mach :=
  let x := m.chan c
  if 5 ≤ c ∨ x.state = .faulty ∨ m.chanType c = 0 then m
  else
    (m.setChan c { x with
      state := .faulty, cause := cause, devHist := [], devOver := 0, cleanTicks := 0, noted := false }).raise
        Ev.chChannelFault .warning c cause.code

/-- Channels that fault on one tick leave the vote together (R48, R49). -/
def Mach.chanFaults (m : Mach) (cs : List Nat) (cause : Nat → ChFault) : Mach :=
  let m' := cs.foldl (fun (m : Mach) c => m.faultOne c (cause c)) m
  if m'.voters = m.voters then m' else m'.recount m.voteMask

/-- Sixteen illegal transitions within 65 536 counted edges, the last of them new (R40), or 4 bad intervals in a row
(R41). -/
def Channel.transitionsBad (x : Channel) : Bool :=
  let near : Bool := match x.illegal[0]?, x.illegal[15]? with
    | some a, some b => decide (a - b < 65536)
    | _, _ => false
  x.noted && (near || decide (4 ≤ x.badTeeth))

/-- Three whole request periods have passed since the first request that no good word answered (R44).
DEDUCED (log entry 114). -/
def Mach.wordsLate (m : Mach) (c : Nat) : Bool :=
  match (m.chan c).reqFrom with
  | some t => decide (t + 1500 * m.ssiPeriod c ≤ m.now)
  | none => false

/-- The fault condition that holds for a channel now: of several, the first in the order of R44. -/
def Mach.causeNow (m : Mach) (c : Nat) : ChFault :=
  let x := m.chan c
  if m.chanType c = 1 ∧ 16 < x.ampRun then .amplitude
  else if m.chanType c = 2 ∧ x.transitionsBad = true then .transitions
  else if m.chanType c = 3 ∧ m.wordsLate c = true then .words
  else if c < 3 ∧ 64 < x.devOver then .disagree
  else .none

/-- A channel that meets a fault condition faults with the cause that comes first (R44, R64). -/
def Mach.chanFault (m : Mach) (c : Nat) : Mach := m.chanFaults [c] m.causeNow

/-! ### SINCOS (R37, R38) -/

/-- 1 % of the nominal sin² + cos², in squared ADC codes. DESIGN CHOICE (log entry 110). -/
def ampUnit : Nat := 16384

/-- The cosines and sines of the angles 256/4096, 128/4096, … 1/4096 of a period, times 2^60. -/
def octantAngles : List (Nat × Nat × Nat) :=
  [(256, 1065160580698383124, 441203958630471860), (128, 1130768441178740757, 224923827593068887),
   (64, 1147369872436662991, 113006068906017470), (32, 1151532760162549490, 56571176913125535),
   (16, 1152574266204915294, 28294110113536504), (8, 1152834691737939372, 14148120384212745),
   (4, 1152899801185339687, 7074193361797233), (2, 1152916078738702569, 3537113327227485),
   (1, 1152920148139012899, 1768558744408523)]

/-- The angle of (`x`, `y`) with y below x, in whole 1/4096 periods: turned back by each angle that it holds. -/
def octant (x y : Nat) : Nat :=
  (octantAngles.foldl (fun (p : Nat × Nat × Nat) a =>
    if p.1 * a.2.2 ≤ p.2.1 * a.2.1 then
      (p.1 * a.2.1 + p.2.1 * a.2.2, p.2.1 * a.2.1 - p.1 * a.2.2, p.2.2 + a.1)
    else p) (x, y, 0)).2.2

/-- The angle of a vector of the first quadrant: an eighth of a period and more is turned back by it. -/
def quadrant (x y : Nat) : Nat := if y < x then octant x y else 512 + octant (x + y) (y - x)

/-- A sample interpolated to 1/4096 of a signal period, rounded down (R37). DESIGN CHOICE (log entry 177). -/
def interpolate (sin cos : Int) : Nat :=
  if sin = 0 ∧ cos = 0 then 0
  else if 0 < cos ∧ 0 ≤ sin then quadrant cos.toNat sin.toNat
  else if cos ≤ 0 ∧ 0 < sin then 1024 + quadrant sin.toNat (-cos).toNat
  else if cos < 0 then 2048 + quadrant (-cos).toNat (-sin).toNat
  else 3072 + quadrant (-sin).toNat cos.toNat

/-- A code of the 12-bit ADC (R37). -/
def adcCode (v : Int) : Int := clampInt (-2048) 2047 v

/-- The counts from one phase of a period to the next, the shorter way. -/
def phaseStep (p q : Nat) : Int := (((q + 6144 - p % 4096) % 4096 : Nat) : Int) - 2048

/-- SINCOS_SAMPLE (R34, R37, R38): one sample of the ADC pair, with the level of the reference mark, whose rise is the
index. -/
def execSincosSample (ch : Nat) (sin cos : Int) (mark : Bool) (s : State) : Host.Outcome State Fault Refusal :=
  s.run fun m =>
    let x := m.chan ch
    if 5 ≤ ch ∨ m.chanType ch ≠ 1 ∨ x.state = .cal then m
    else
      let a := adcCode sin
      let b := adcCode cos
      let sum := (a * a + b * b).toNat
      let bad := decide (sum < m.fld (Reg.CHN_SINCOS.amp_lo ch) * ampUnit) ||
        decide (m.fld (Reg.CHN_SINCOS.amp_hi ch) * ampUnit < sum)
      let q := interpolate a b
      let step : Int := match x.phase with
        | none => 0
        | some p => phaseStep p q
      let m := m.setChan ch { x.moved (m.chanSign ch step) with
        phase := some q, levelZ := mark, amp := min 255 (sum / ampUnit), ampBad := bad, ampRun := if bad then x.ampRun + 1 else 0 }
      (m.noteIndex ch (mark && !x.levelZ)).addSat (Reg.CHN_ERR_CNT.amp ch) (ofBool bad)

/-- AMPLITUDE_FAULT (R38): more than 16 consecutive samples outside the window. -/
def execAmplitudeFault (ch : Nat) (s : State) : Host.Outcome State Fault Refusal :=
  s.run fun m => if m.chanType ch = 1 ∧ 16 < (m.chan ch).ampRun then m.chanFault ch else m

/-! ### PULSE (R40, R41) -/

/-- What the glitch filter of a pair passes: its level once it has been stable for the filter's length, else the level
it passed last (R40). DESIGN CHOICE (log entry 182). -/
def PairIn.filtered (p : PairIn) (glitch : Nat) (was : Bool) : Bool := if glitch ≤ p.stable then p.level else was

/-- QUAD_EDGE (R40): the levels of A, B and Z, each through its filter. An edge of A that leads B counts up, and a
rising edge of Z is the index. PRESUMED (log entry 111). -/
def execQuadEdge (ch : Nat) (a b z : PairIn) (s : State) : Host.Outcome State Fault Refusal :=
  s.run fun m =>
    let x := m.chan ch
    if 5 ≤ ch ∨ m.chanType ch ≠ 2 ∨ m.fld (Reg.CHN_CFG.pulse_mode ch) ≠ 0 then m
    else
      let n := m.fld (Reg.CHN_CFG.glitch ch)
      let a := a.filtered n x.levelA
      let b := b.filtered n x.levelB
      let z := z.filtered n x.levelZ
      let ea := x.levelA ≠ a
      let eb := x.levelB ≠ b
      let y := { x with levelA := a, levelB := b, levelZ := z }
      let m := if ea && eb then
          (m.setChan ch { y with illegal := (x.edges :: x.illegal).take 16, noted := true }).addSat
            (Reg.CHN_ERR_CNT.bad ch) 1
        else if ea || eb then
          let up := if ea then a ≠ b else a = b
          m.setChan ch { y.moved (m.chanSign ch (if up then 1 else -1)) with edges := x.edges + 1 }
        else m.setChan ch y
      m.noteIndex ch (z && !x.levelZ)

/-- A number put into a rising list. -/
def insertUp (x : Nat) : List Nat → List Nat
  | [] => [x]
  | y :: r => if x ≤ y then x :: y :: r else y :: insertUp x r

/-- The median of a list: the mean of the middle two where its length is even. DEDUCED (log entry 112). -/
def medianOf (l : List Nat) : Nat :=
  let s := l.foldr insertUp []
  let n := s.length
  if n % 2 = 1 then s.getD (n / 2) 0 else (s.getD (n / 2) 0 + s.getD (n / 2 - 1) 0) / 2

/-- TOOTH_EDGE (R41): a rising tooth edge, passed by the glitch filter when the level has been stable for its length.
A missing tooth and an extra one are the index.
The interval is that since the last counted edge, in ticks. DEDUCED (log entry 113). -/
def execToothEdge (ch stable : Nat) (s : State) : Host.Outcome State Fault Refusal :=
  s.run fun m =>
    let x := m.chan ch
    let mode := m.fld (Reg.CHN_CFG.pulse_mode ch)
    if 5 ≤ ch ∨ m.chanType ch ≠ 2 ∨ (mode ≠ 1 ∧ mode ≠ 2) ∨ stable < m.fld (Reg.CHN_CFG.glitch ch) then m
    else if !x.sampled then m.setChan ch (x.moved (m.chanSign ch 1))
    else
      let interval := x.ticksSince
      let med := medianOf x.intervals
      let known := !x.intervals.isEmpty
      if known && mode = 1 && decide (m.fld (Reg.CHN_TOOTH.gap_ratio ch) * med ≤ 16 * interval) then
        (m.setChan ch { x.moved (m.chanSign ch 2) with badTeeth := 0 }).noteIndex ch true
      else if known && mode = 2 && decide (16 * interval ≤ m.fld (Reg.CHN_TOOTH.extra_ratio ch) * med) then
        (m.setChan ch { x with badTeeth := 0 }).noteIndex ch true
      else
        let bad := known && (decide (4 * interval < med) || decide (4 * med < interval))
        (m.setChan ch { x.moved (m.chanSign ch 1) with
          intervals := (interval :: x.intervals).take 8
          badTeeth := if bad then x.badTeeth + 1 else 0
          noted := bad || x.noted }).addSat (Reg.CHN_ERR_CNT.bad ch) (ofBool bad)

/-- TRANSITIONS_FAULT (R40, R41). -/
def execTransitionsFault (ch : Nat) (s : State) : Host.Outcome State Fault Refusal :=
  s.run fun m => if m.chanType ch = 2 ∧ (m.chan ch).transitionsBad = true then m.chanFault ch else m

/-! ### ABS (R43, R44) -/

/-- SSI_REQUEST (R43): a request period begins; the data line is high or low. -/
def execSsiRequest (ch : Nat) (dataHigh : Bool) (s : State) : Host.Outcome State Fault Refusal :=
  s.run fun m =>
    let x := m.chan ch
    if 5 ≤ ch ∨ m.chanType ch ≠ 3 then m
    else m.setChan ch { x with reqLow := !dataHigh, reqFrom := some (x.reqFrom.getD m.now) }

/-- A Gray-coded word in binary. -/
def grayBinary : Nat → Nat → Nat
  | 0, w => w
  | k + 1, w => grayBinary k (w ^^^ (w >>> 2 ^ k))

/-- The parity bit that follows the word makes its ones odd in number (R43, R44). -/
def Mach.parityBad (m : Mach) (c word : Nat) (parity : Bool) : Bool :=
  m.flag (Reg.CHN_CFG.abs_parity c) && (popCount (m.absBits c) word + ofBool parity) % 2 = 1

/-- The position that a word spells, Gray or binary (R43). -/
def Mach.ssiValue (m : Mach) (c word : Nat) : Nat :=
  let n := 2 ^ m.absBits c
  (if m.flag (Reg.CHN_CFG.abs_gray c) then grayBinary 5 (word % n) else word) % n

/-- The signed difference of a word from the one before, modulo 2^bits (R43). -/
def wordStep (bits p w : Nat) : Int := signed bits ((w + 2 ^ bits - p % 2 ^ bits) % 2 ^ bits)

/-- A word `d` counts on differs from the extrapolated value by more than 2^(bits - 2) counts (R44). -/
def Mach.wordFar (m : Mach) (c : Nat) (x : Channel) (d : Int) : Bool :=
  let n := max 1 x.span
  let t : Nat := if x.span = 0 then 0 else m.chanElapsed c x
  decide (2 ^ (m.absBits c - 2) * n < (m.chanSign c d * (n : Nat) - x.step * (t : Nat)).natAbs)

/-- SSI_WORD (R43, R44): the word and the bit that follows it, as clocked in; it is taken as the increment since the
last good word, or discarded as bad. -/
def execSsiWord (ch word : Nat) (parity : Bool) (s : State) : Host.Outcome State Fault Refusal :=
  s.run fun m =>
    let x := m.chan ch
    if 5 ≤ ch ∨ m.chanType ch ≠ 3 then m
    else
      let w := m.ssiValue ch word
      let d : Int := match x.lastWord with
        | none => 0
        | some p => wordStep (m.absBits ch) p w
      if m.parityBad ch word parity || x.reqLow || (x.lastWord.isSome && m.wordFar ch x d) then
        (m.setChan ch { x with wordBad := true }).addSat (Reg.CHN_ERR_CNT.bad ch) 1
      else m.setChan ch { x.moved (m.chanSign ch d) with lastWord := some w, wordBad := false, reqFrom := none }

/-- WORDS_FAULT (R44): no good word for 3 consecutive request periods. DEDUCED (log entry 114). -/
def execWordsFault (ch : Nat) (s : State) : Host.Outcome State Fault Refusal :=
  s.run fun m => if m.chanType ch = 3 ∧ m.wordsLate ch = true then m.chanFault ch else m

/-! ### The voter (R46 to R48) -/

/-- The deviation window in ticks. -/
def Mach.devTicks (m : Mach) : Nat := 500 * clampNat 10 1000 (m.fld Reg.CHN_VOTE_CFG.dev_window)

/-- The sum of a list. -/
def sumInt (l : List Int) : Int := l.foldl (· + ·) 0

/-- A sum in 2^-17 links stands beyond a threshold in links. -/
def beyond (sum : Int) (links : Nat) : Bool := decide ((links * 131072 : Nat) < sum.natAbs)

/-- A channel's threshold. -/
def Mach.chanThresh (m : Mach) (c : Nat) : Nat := m.fld (Reg.CHN_THRESH.thresh c)

/-- The median of three. -/
def median3 (a b c : Int) : Int := max (min a b) (min (max a b) c)

/-- The voted increment of the tick from those of the voting channels. -/
def votedInc (inc : Nat → Int) : List Nat → Int
  | [a, b, c] => median3 (inc a) (inc b) (inc c)
  | [a, b] => (inc a + inc b) / 2
  | _ => 0

/-- The latency from the land to the voter that R36 compensates, in ticks, and how far a compensated position may lie
off it: 24 ns and 2 ns for digital inputs, 260 ns and 4 ns for SINCOS; an ABS position counts from its word's last bit
(R517). -/
def inputLatency (type : Nat) : Nat × Nat :=
  match type with
  | 1 => (130, 2)
  | 2 => (12, 1)
  | _ => (0, 0)

/-- The input latency of a channel with the residual error of a tick, as far as R517 allows it. -/
def Mach.chanLatency (m : Mach) (c : Nat) (residual : Int) : Nat :=
  let l := inputLatency (m.chanType c)
  (l.1 + clampInt (-l.2) l.2 residual).toNat

/-- Every channel presents its position of the tick: FAULTY AUX channels and those in calibration hold theirs.
DEDUCED (log entry 121). -/
def Mach.chanTick (m : Mach) (residual : List Int) (c : Nat) : Mach × Int :=
  let x := m.chan c
  let y := { x with ticksSince := x.ticksSince + 1, latency := m.chanLatency c (residual.getD c 0) }
  if m.chanType c = 0 then (m, 0)
  else if x.state = .cal || (x.state = .faulty && decide (3 ≤ c)) then (m.setChan c y, 0)
  else
    let p := m.chanRaw c y
    (m.setChan c { y with pos := p }, p - x.pos)

/-- One channel's deviation goes on by a tick (R47, R51). -/
def Mach.devTick (m : Mach) (v : Int) (inc : Nat → Int) (c : Nat) : Mach :=
  let x := m.chan c
  if x.state ≠ .voting ∧ x.state ≠ .probation then m
  else
    let h := ((inc c - v) :: x.devHist).take m.devTicks
    let past := beyond (sumInt h) (m.chanThresh c)
    m.setChan c { x with
      devHist := h, devOver := if past then x.devOver + 1 else 0
      cleanTicks := if x.state = .probation then x.cleanTicks + 1 else 0 }

/-- One pair's sum goes on by a tick: a tick on which not both vote adds nothing (R48). -/
def Mach.pairTick (m : Mach) (inc : Nat → Int) (a b : Nat) (h : List Int) : List Int :=
  let both := (m.chan a).state = .voting ∧ (m.chan b).state = .voting
  ((if both then inc a - inc b else 0) :: h).take m.devTicks

/-- The sum and the threshold of the pair that votes in two-channel mode. -/
def Mach.pairNow (m : Mach) : Option (Int × Nat) :=
  match m.voters with
  | [a, b] =>
    let h := if a = 0 ∧ b = 1 then m.chn.pairAB else if a = 1 then m.chn.pairBC else m.chn.pairAC
    some (sumInt h, max (m.chanThresh a) (m.chanThresh b))
  | _ => none

/-- The backstep reserve in links (R55). -/
def Mach.reserve (m : Mach) : Nat := min (2 ^ 20) (m.fld Reg.CHN_BACKSTEP_CFG.reserve)

/-- backstep_hold clears (R56). DEDUCED (log entry 116). -/
def Mach.holdEnds (m : Mach) : Mach :=
  let span := (chnDiff m.chn.printed m.chn.holdFrom).toNat
  let peak := ceilDiv m.chn.peakDebt (2 ^ 17)
  let m := { m with chn := { m.chn with hold := false, peakDebt := 0 } }
  m.raise Ev.chBackstepEnd .info span peak

/-- Debt and reserve are judged on the tick's exact debt (R54 to R57). -/
def Mach.debtTick (m : Mach) : Mach :=
  let d := m.debt17
  let past := decide (m.reserve * 2 ^ 17 < d)
  let m := if past && !m.chn.overReserve then
      let m := { m with chn := { m.chn with
        hold := true, holdFrom := if m.chn.hold then m.chn.holdFrom else m.chn.printed } }
      m.raise Ev.chBackstep .warning m.debt 0
    else m
  let m := { m with chn := { m.chn with
    overReserve := past, peakDebt := if m.chn.hold then max m.chn.peakDebt d else 0 } }
  let m := if m.chn.hold && d = 0 && m.flag Reg.CHN_BACKSTEP_CFG.auto_resume then m.holdEnds else m
  let out := decide ((2 ^ 31 - 1) * 2 ^ 17 < d)
  let was := m.chn.overrun
  let m := { m with chn := { m.chn with overrun := out } }
  if out && !was then (m.raise Ev.chBackstep .fatal m.debt 1).halt .backstep else m

/-- The voter's tick (R46): the voted increment and the slew move the voted chainage, and the printed one follows it
upwards. -/
def Mach.voteTick (m : Mach) (inc : Nat → Int) : Mach :=
  if !m.chn.vote.valid then m
  else
    let v := votedInc inc m.voters
    let s := clampInt (-1) 1 m.chn.slew
    let lead := m.chn.lead + v + s * 131072
    let m := { m with chn := { m.chn with
      slew := m.chn.slew - s
      printed := if 0 < lead then m.chn.printed + BitVec.ofInt 48 (lead / 131072) else m.chn.printed
      lead := if 0 < lead then lead % 131072 else lead
      pairAB := m.pairTick inc 0 1 m.chn.pairAB
      pairBC := m.pairTick inc 1 2 m.chn.pairBC
      pairAC := m.pairTick inc 0 2 m.chn.pairAC } }
    let m : Mach := forRange 3 (fun c (m : Mach) => m.devTick v inc c) m
    let past := match m.pairNow with | some (x, t) => beyond x t | none => false
    let m := { m with chn := { m.chn with pairOver := if past then m.chn.pairOver + 1 else 0 } }
    m.debtTick

/-- What the engines and the 10 ms windows take from a tick (R252, R387, R399). DESIGN CHOICE (log entry 26). -/
def Mach.windowTicks (m : Mach) : Mach :=
  let busy := ((List.range 80).filter (fun e => (m.engine e).isActive && (m.engine e).cur.isSome)).length
  let m := { m with trv := { m.trv with
    loadAct := m.trv.loadAct + m.activeEngines, loadBusy := m.trv.loadBusy + busy } }
  if m.now % ticks10ms ≠ 0 then m
  else
    let l := min 255 (m.trv.loadBusy * 100 / max 1 m.trv.loadAct)
    let loads := (l :: m.trv.loads).take 100
    let m := match m.trv.slackMin with
      | some d => m.wr Reg.TRV_SLACK_MIN (unsigned 32 (clampInt (-(2 ^ 31)) (2 ^ 31 - 1) d))
      | none => m
    let m := { m with trv := { m.trv with loadAct := 0, loadBusy := 0, loads := loads, slackMin := none } }
    let m := (m.setFld Reg.TRV_LOAD.load_pct l).setFld Reg.TRV_LOAD.peak_pct (listMax loads)
    m.camWindow.dramWindow

/-- The lockouts of the probes go on by the links the printed chainage has advanced (R62). -/
def Mach.lockoutTick (m : Mach) (adv : Nat) : Mach :=
  if adv = 0 then m
  else { m with chn := { m.chn with
    probe := forRange 8 (fun n t => Tab.upd {} t n (fun x => { x with lockLeft := x.lockLeft - adv })) m.chn.probe } }

/-- Every channel presents its position, and the voter takes the increments (R36, R46). -/
def Mach.chainageTick (m : Mach) (residual : List Int) : Mach :=
  let r := (List.range 5).foldl (fun (a : Mach × List Int) c =>
    let t := a.1.chanTick residual c
    (t.1, a.2 ++ [t.2])) (m, [])
  let m' := r.1.voteTick (fun c => r.2.getD c 0)
  m'.lockoutTick (m'.chn.printed - m.chn.printed).toNat

/-- What the present tick reads. -/
def Mach.stampNow (m : Mach) : TickStamp :=
  { chn := m.chn.printed, time := m.time, held := decide (m.chn.lead < 0) }

/-- DTM_TICK (R46, R87, R88): the clock and the tick count go on, the channels are voted, and what each tick decides
by the printed chainage is decided. `residual` is the error in ticks that the compensation of each channel's input latency
leaves (R36, R517). DESIGN CHOICE (log entry 6). -/
def execDtmTick (residual : List Int) (s : State) : Host.Outcome State Fault Refusal :=
  s.runMem fun m =>
    let m := { m with dtm := { m.dtm with
      ticks := m.dtm.ticks + 1, clock := m.dtm.clock + m.dtm.incr.setWidth 96 } }
    let m := m.chainageTick residual
    let m := { m with
      chn := { m.chn with recent := (m.stampNow :: m.chn.recent).take 256 }
      fgd := { m.fgd with ext := if m.chn.vote.valid then (m.ext16 :: m.fgd.ext).take 513 else m.fgd.ext } }
    let m := m.placeCheck.settleCrossed.seekBoundary
    let m := if m.isBacksight then m else m.jobsEnd
    m.storeCheck.windowTicks.dramTick.t1Repeats

/-- DISAGREE_FAULT (R47, R48, R51): the deviation stood beyond the threshold on more than 64 consecutive ticks. Voting
channels that reached that on the same tick fault together. -/
def execDisagreeFault (ch : Nat) (s : State) : Host.Outcome State Fault Refusal :=
  s.run fun m =>
    if ch < 3 ∧ 64 < (m.chan ch).devOver then
      m.chanFaults ((List.range 3).filter fun c =>
        c = ch || (m.chan ch).state = .voting && (m.chan c).state = .voting && (m.chan c).devOver = (m.chan ch).devOver)
        m.causeNow
    else m

/-- PAIR_DISAGREEMENT (R48). -/
def execPairDisagreement (s : State) : Host.Outcome State Fault Refusal :=
  s.run fun m => if m.chn.vote = .two ∧ 64 < m.chn.pairOver then m.voteLost 1 m.voteMask else m

/-- PROBATION_PASSED (R51): 8 deviation windows without the fault condition. -/
def execProbationPassed (ch : Nat) (s : State) : Host.Outcome State Fault Refusal :=
  s.run fun m =>
    let x := m.chan ch
    if 3 ≤ ch ∨ x.state ≠ .probation ∨ 64 < x.devOver ∨ x.cleanTicks < 8 * m.devTicks ∨ !m.chn.vote.valid then m
    else
      let m := m.setChan ch { x with state := .voting, cause := .none, cleanTicks := 0 }
      (m.raise Ev.chReadmit .info ch 0).recount m.voteMask

/-! ### Indexes and re-home (R58, R59) -/

/-- A signed quotient rounded to the nearest integer, exact halves away from zero. DEDUCED (log entry 118). -/
def roundHalf (n : Int) (d : Nat) : Int :=
  let q : Int := (((2 * n.natAbs + d) / (2 * d) : Nat) : Int)
  if n < 0 then -q else q

/-- INDEX_PULSE (R58, R59): the index that the channel has recognised, at the count where it did (R40, R41). The index
of a voted channel is a reference only after an accepted arm.
DEDUCED (log entries 123, 225). DESIGN CHOICE (log entry 174). -/
def execIndexPulse (ch : Nat) (s : State) : Host.Outcome State Fault Refusal :=
  s.run fun m =>
    let x := m.chan ch
    match if m.indexed ch then x.mark else none with
    | none => m
    | some net =>
      let pitch := m.fld (Reg.CHN_INDEX_PITCH.pitch ch)
      let known := decide (3 ≤ ch) || x.armed
      let m' := m.setChan ch { x with
        mark := none, indexNext := if known then some (net + pitch) else none, indexSeen := true }
      match x.indexNext with
      | none => m'
      | some e =>
        let d := net - e
        if d.natAbs ≤ m.fld (Reg.CHN_INDEX_TOL.tol ch) then m'
        else
          let err := roundHalf (d * (m.chanScale ch : Nat)) 65536
          let src := m.fld Reg.CHN_REHOME_CFG.src = ch + 1 && decide (ch < 3) && x.state = .voting && m.chn.vote.valid
          let inside := decide (err.natAbs ≤ min (m.fld Reg.CHN_REHOME_CFG.window) m.reserve)
          let w := unsigned 32 (clampInt (-(2 ^ 31)) (2 ^ 31 - 1) err)
          let m := m'.wr (Reg.CHN_INDEX_ERR ch) w
          let m := if src && inside then { m with chn := { m.chn with slew := m.chn.slew - err } } else m
          m.raise Ev.chIndexMismatch .warning (ch + 256 * ofBool (src && inside) + 512 * ofBool (src && !inside)) w

/-- INDEX_MISSING (R58). -/
def execIndexMissing (ch : Nat) (s : State) : Host.Outcome State Fault Refusal :=
  s.run fun m =>
    let x := m.chan ch
    let pitch := m.fld (Reg.CHN_INDEX_PITCH.pitch ch)
    match x.indexNext with
    | none => m
    | some e =>
      if m.indexed ch && decide (e + pitch / 2 + 1 ≤ x.net) then
        (m.setChan ch { x with indexNext := some (e + pitch) }).raise Ev.chIndexMissing .warning ch (unsigned 32 e)
      else m

/-! ### Arming (R50, R51, R52, R529) -/

/-- The voted channels that are enabled. -/
def Mach.votedEn (m : Mach) : List Nat := (List.range 3).filter (fun c => m.chanType c ≠ 0)

/-- A voted channel is not healthy (R529). DEDUCED (log entry 115). -/
def Mach.unhealthy (m : Mach) (c : Nat) : Bool :=
  let x := m.chan c
  (m.chanType c = 1 && x.ampBad) || (m.chanType c = 3 && x.wordBad) || x.state ≠ .healthy || x.cause ≠ .none

/-- R50: the threshold is less than twice the scale rounded up. -/
def Mach.threshLow (m : Mach) (c : Nat) : Bool :=
  decide (m.chanThresh c < 2 * ceilDiv (m.chanScale c) 65536)

/-- The divider of an SSI clock from 10 MHz to 100 kHz (R43). -/
def Mach.ssiDivider (m : Mach) (c : Nat) : Nat := clampNat 24 2499 (m.fld (Reg.CHN_SSI.clk_div c))

/-- R45: the word and the recovery take longer than the request period. -/
def Mach.ssiLong (m : Mach) (c : Nat) : Bool :=
  m.chanType c = 3 &&
  decide (m.ssiPeriod c * 1000 <
    (m.absBits c + m.fld (Reg.CHN_CFG.abs_parity c) + 1) * (m.ssiDivider c + 1) * 4 + m.ssiRecovery c * 250)

/-- The first reason to refuse an arm, 0 for none. DEDUCED (log entry 224). -/
def Mach.armCauseNow (m : Mach) : Nat :=
  let en := m.votedEn
  if !m.inMode .setup then 5
  else if m.chn.vote ≠ .disarmed then 6
  else if en.length < 2 then 1
  else if en.any m.unhealthy then 2
  else if en.any m.threshLow then 3
  else if en.any m.ssiLong then 4
  else 0

/-- CHN_CTRL.arm (R529). DESIGN CHOICE (log entry 176). -/
def Mach.armVote (m : Mach) : Mach :=
  let cause := m.armCauseNow
  let m := { m with chn := { m.chn with armCause := cause } }
  if cause ≠ 0 then m
  else
    let preset := BitVec.ofNat 48 (m.pair Reg.CHN_PRESET_LO)
    let en := m.votedEn
    let m := [0, 1, 2].foldl (fun (m : Mach) c =>
      let x := { m.chan c with mark := none, indexNext := none, indexSeen := false, armed := true }
      m.setChan c (if m.chanType c = 0 then x else { x with state := .voting, devHist := [], devOver := 0, cleanTicks := 0 })) m
    let m := [0, 1, 2].foldl (fun (m : Mach) c => m.wr (Reg.CHN_ERR_CNT c) 0) m
    let m := { m with
      chn := { m.chn with
        vote := if en.length = 3 then .three else .two
        printed := preset, lead := 0, slew := 0, pairAB := [], pairBC := [], pairAC := [], pairOver := 0
        overReserve := false, overrun := false, holdFrom := preset - (m.chn.printed - m.chn.holdFrom)
        speedPrinted := preset - (m.chn.printed - m.chn.speedPrinted), speedVoted := m.chn.speedVoted - m.chn.lead }
      fgd := { m.fgd with ext := [] } }
    let m := (m.stripsSince (List.range 8)).resetShifts preset
    m.raise Ev.chArmed .info m.voteMask m.chn.vote.code

/-- CHN_CTRL.disarm (R529). DESIGN CHOICE (log entry 175). -/
def Mach.disarmVote (m : Mach) : Mach :=
  if !m.inMode .setup || m.chn.vote = .disarmed then m
  else
    let m : Mach := forRange 3 (fun c (m : Mach) =>
      let x := m.chan c
      if x.state = .voting then m.setChan c { x with state := .healthy, devHist := [], devOver := 0 }
      else if x.state = .probation then m.setChan c { x.cleared with state := .healthy, cleanTicks := 0 }
      else m) m
    { m with chn := { m.chn with vote := .disarmed } }

/-- ARM (R529). -/
def execArm (s : State) : Host.Outcome State Fault Refusal := s.run fun m => if m.inMode .boot then m else m.armVote

/-- DISARM (R529). -/
def execDisarm (s : State) : Host.Outcome State Fault Refusal := s.run fun m => m.disarmVote

/-- CHN_CTRL.readmit of a channel (R51). DEDUCED (log entry 117). -/
def Mach.readmitChan (m : Mach) (c : Nat) : Mach :=
  let x := m.chan c
  if 3 ≤ c ∨ x.state ≠ .faulty ∨ m.inMode .halt ∨ m.inMode .boot then m
  else if m.chn.vote.valid then
    m.setChan c { m.chanAt c x m.voted17 with
      state := .probation, noted := false, devHist := [], devOver := 0, cleanTicks := 0 }
  else (m.setChan c { x.cleared with state := .healthy }).raise Ev.chReadmit .info c 0

/-- READMIT (R51). -/
def execReadmit (ch : Nat) (s : State) : Host.Outcome State Fault Refusal := s.run fun m => m.readmitChan ch

/-- CHN_CTRL.aux_clear of an AUX channel (R52): its position goes on from the held value. -/
def Mach.clearAux (m : Mach) (c : Nat) : Mach :=
  let x := m.chan c
  if c < 3 ∨ 5 ≤ c ∨ x.state ≠ .faulty ∨ m.inMode .halt ∨ m.inMode .boot then m
  else
    let m := m.setChan c { m.chanAt c x.cleared x.pos with state := .healthy, mark := none, indexNext := none, indexSeen := false }
    (m.wr (Reg.CHN_ERR_CNT c) 0).raise Ev.chReadmit .info c 0

/-- AUX_CLEAR (R52). -/
def execAuxClear (ch : Nat) (s : State) : Host.Outcome State Fault Refusal := s.run fun m => m.clearAux ch

/-- CHN_CTRL.slew_cancel (R59). -/
def Mach.slewCancel (m : Mach) : Mach :=
  if m.inMode .boot then m else { m with chn := { m.chn with slew := 0 } }

/-- SLEW_CANCEL (R59). -/
def execSlewCancel (s : State) : Host.Outcome State Fault Refusal := s.run fun m => m.slewCancel

/-- CHN_CTRL.backstep_release (R56). -/
def Mach.backstepRelease (m : Mach) : Mach :=
  if m.chn.hold && m.debt17 = 0 && !m.inMode .boot then m.holdEnds else m

/-- BACKSTEP_RELEASE (R56). -/
def execBackstepRelease (s : State) : Host.Outcome State Fault Refusal := s.run fun m => m.backstepRelease

/-- The channel as an ENCODER calibration takes and leaves it (R39): the vote runs on two channels meanwhile.
DESIGN CHOICE (log entry 180). -/
def Mach.calChannel (m : Mach) (c : Nat) (start : Bool) : Mach :=
  let x := m.chan c
  if start then
    (m.setChan c { x with state := .cal, phase := none, sampled := false, step := 0, span := 0, ampRun := 0 }).recount m.voteMask
  else if x.state ≠ .cal then m
  else if c < 3 ∧ m.chn.vote.valid then
    let m := m.setChan c { m.chanAt c x m.voted17 with state := .voting, devHist := [], devOver := 0 }
    m.recount m.voteMask
  else m.setChan c { m.chanAt c x x.pos with state := if x.cause = .none then .healthy else .faulty }

/-- An ENCODER calibration is accepted (R39). -/
def Mach.calChannelOk (m : Mach) (c : Nat) : Bool :=
  m.chanType c = 1 && (decide (3 ≤ c) || decide (m.voters.length = 3))

/-- A channel whose type has just become OFF leaves the vote (R34, R49). DESIGN CHOICE (log entry 179). -/
def Mach.chanOff (m : Mach) (c : Nat) : Mach :=
  let x := m.chan c
  if m.chanType c ≠ 0 ∨ x.state = .faulty then m
  else
    let m' := m.setChan c { x.cleared with state := .healthy, cleanTicks := 0 }
    if x.state = .voting then m'.recount (m.voteMask + 2 ^ c) else m'

/-! ### Speed (R53, R60) -/

/-- The present speed window has run its length (R60). -/
def Mach.speedDue (m : Mach) : Bool := decide (m.chn.speedStart + 500 * m.chn.speedNext ≤ m.now)

/-- SPEED_WINDOW_END (R60, R53, R236, R281, R328). DEDUCED (log entry 158). -/
def execSpeedWindowEnd (s : State) : Host.Outcome State Fault Refusal :=
  s.run fun m => if !m.speedDue then m else
    let len := m.chn.speedNext
    let adv := (chnDiff m.chn.printed m.chn.speedPrinted).toNat
    let raw := chnDiff m.chn.printed m.chn.speedPrinted + (m.chn.lead - m.chn.speedVoted) / 131072
    let ums := min (2 ^ 32 - 1) (adv * 1000000 / (256 * len))
    let m := ((m.wr Reg.CHN_SPEED_LINKS adv).wr Reg.CHN_SPEED_UMS ums).wr Reg.CHN_SPEED_RAW
      (unsigned 32 (clampInt (-(2 ^ 31)) (2 ^ 31 - 1) raw))
    let m := { m with chn := { m.chn with
      speedWindow := len, speedNext := clampNat 50 10000 (m.fld Reg.CHN_SPEED_CFG.window_us)
      speedStart := m.chn.speedStart + 500 * len, speedPrinted := m.chn.printed, speedVoted := m.chn.lead } }
    let m := if !m.chn.speedLimit && decide (10000000 < ums) then
        ({ m with chn := { m.chn with speedLimit := true } } : Mach).raise Ev.chSpeedLimit .warning ums 0
      else if m.chn.speedLimit && decide (ums ≤ 9500000) then { m with chn := { m.chn with speedLimit := false } }
      else m
    m.updateRunahead.rateWindow.needWindow.switchPast

/-! ### Probes (R61 to R63) -/

/-- PROBE_EDGE (R61 to R63, R82): a filtered edge, dated back by the filter length.
DEDUCED (log entries 104, 119). -/
def execProbeEdge (n : Nat) (rising : Bool) (s : State) : Host.Outcome State Fault Refusal :=
  s.run fun m =>
    let x := Tab.get ({} : Probe) m.chn.probe n
    let edge := m.fld (Reg.CHN_PRB_CFG.edge n)
    let picked := m.flag (Reg.CHN_PRB_CFG.en n) && (if rising then bitAt edge 0 else bitAt edge 1)
    if 8 ≤ n || !picked || decide (0 < x.lockLeft) || m.isBacksight then m
    else
      let filter := m.fld (Reg.CHN_PRB_CFG.filter n)
      let at_ := m.chn.recent.getD filter (m.chn.recent.getLastD m.stampNow)
      let lost := m.chn.vote = .lost
      let num := x.issued + 1
      let k : Stake := { num := num, rising := rising, held := at_.held, invalid := lost, chn := at_.chn, time := at_.time }
      let lock := m.rd (Reg.CHN_PRB_LOCKOUT n)
      let full := decide (16 ≤ x.queue.length)
      let y : Probe := {
        issued := num
        ovf := if full then min 255 (x.ovf + 1) else x.ovf
        queue := if full then x.queue else x.queue ++ [k]
        lockLeft := lock - (chnDiff m.chn.printed at_.chn).toNat }
      let m := { m with chn := { m.chn with probe := Tab.set {} m.chn.probe n y } }
      let m := if full then m.raise Ev.chStakeOverflow .error n y.ovf else m
      let m := if m.flag (Reg.CHN_PRB_CFG.log n) then
          m.raise Ev.chStake .info
            (n + 8 * ofBool rising + 16 * ofBool at_.held + 32 * ofBool lost + 256 * (num % 256)) (m.time.toNat % 2 ^ 32)
        else m
      let m := m.decide_ 3 at_.chn (n + 256 * (num % 256)) (at_.chn.toNat % 2 ^ 32)
      m.stakeArms n num lost at_.chn

/-- STAKE_POP (R63). -/
def execStakePop (n : Nat) (s : State) : Host.Outcome State Fault Refusal :=
  s.run fun m =>
    let x := Tab.get ({} : Probe) m.chn.probe n
    { m with chn := { m.chn with probe := Tab.set {} m.chn.probe n { x with queue := x.queue.drop 1 } } }

end Sys2Proof.Machine
end

