-- ==== Sys2Proof/Machine/Power.lean ====
section
/-! DEFINITION. Supplies, temperature and trimming (R458 to R472), and the clock failures of the links (R479). -/

namespace Sys2Proof.Machine

open Sys2Proof

/-! ### The two inputs (R458, R459) -/

/-- The load moves to the other input: VBACK when `back`. While a failed clock holds the module in reset, the OR-ing
still moves it, and nothing counts or reports it. DEDUCED (log entries 125, 250). -/
def Mach.supplySwitch (m : Mach) (back : Bool) (otherMv : Nat) : Mach :=
  let m := { m with pwr := { m.pwr with onBack := back } }
  if !m.alive then m
  else (m.addSat Reg.PWR_SWITCH_CNT.cnt 1).raise Ev.supplySwitch .warning (ofBool back) otherMv

/-- The OR-ing follows the inputs (R458, R459, R462). -/
def Mach.orSwitch (m : Mach) (otherMv : Nat) : Mach :=
  let back := m.pwr.bearer
  if back = m.pwr.onBack then m else m.supplySwitch back otherMv

/-- The comparators of an input (R458): whether it is good, and whether it lies above its window, from what they said
before. DESIGN CHOICE (log entry 219). -/
def InputLevel.judge (v : InputLevel) (good high : Bool) : Bool × Bool :=
  let low := if good || high then decide (v.mv < 9400) else decide (v.mv ≤ 9600)
  let high := if high then decide (14400 ≤ v.mv) else decide (14800 < v.mv)
  (!low && !high, high)

/-- An input stands at a voltage, with its comparators, and the ticks from which R459 and R461 count. -/
def Mach.setInput (m : Mach) (input mv : Nat) (good high : Bool) : Mach :=
  let p := m.pwr
  let q := if input = 0 then { p with
      vmainGood := good, vmainHigh := high, mainMv := mv, mainTick := if good && !p.vmainGood then m.now else p.mainTick }
    else { p with vbackGood := good, vbackHigh := high, backMv := mv }
  { m with pwr := { q with
      badTick := if !(q.vmainGood || q.vbackGood) && (p.vmainGood || p.vbackGood) then m.now else q.badTick } }

/-- SUPPLY_GOOD_CHANGE (R458, R459): an input stands at a new voltage, its comparators judge it, and the OR-ing follows.
`otherMv` is the voltage of the input that loses the load. -/
def execSupplyGoodChange (input : Nat) (level : InputLevel) (otherMv : Nat) (s : State) : Host.Outcome State Fault Refusal :=
  s.runAon fun m =>
    let was := if input = 0 then m.pwr.vmainGood else m.pwr.vbackGood
    let j := level.judge was (if input = 0 then m.pwr.vmainHigh else m.pwr.vbackHigh)
    let good := j.1
    if 1 < input then m
    else
      let m := m.setInput input level.mv good j.2
      let m := if was = good || !m.alive then m
        else m.raise Ev.supplyGood (if good then .info else .warning) input (ofBool good)
      m.orSwitch otherMv

/-- PWR_CFG.return_ms, where 0 is taken as 1 (R474). -/
def Mach.returnMs (m : Mach) : Nat := max 1 (m.fld Reg.PWR_CFG.return_ms)

/-- SUPPLY_RETURN (R459): VMAIN has been good for return_ms. DEDUCED (log entry 124). -/
def execSupplyReturn (otherMv : Nat) (s : State) : Host.Outcome State Fault Refusal :=
  s.run fun m =>
    if m.pwr.vmainGood && m.pwr.onBack && !m.pwr.powerFail &&
       m.passed m.pwr.mainTick (m.returnMs * 500000) then m.supplySwitch false otherMv else m

/-! ### Power-fail and thermal shutdown (R461 to R463, R468) -/

/-- Stations stand at their safe levels and every gate is low. -/
def Mach.outputsOff (m : Mach) : Mach :=
  let m := m.outputsSafe
  forRange 12 (fun a (m : Mach) => m.axisTo a { (m.axis a).rest with state := .off } false) m

/-- The monument that a power-fail writes (R462): the newest a BACKSIGHT module holds, else its own. -/
def Mach.finalMonument (m : Mach) : Monument :=
  match m.isBacksight, m.ptn.monument with
  | true, some p => p
  | _, _ => m.takeMonument

/-- POWER_FAIL (R461, R462): both inputs bad for 100 µs, at the voltages given; the OR-ing passes the higher one from now
on. DEDUCED (log entries 109, 126). -/
def execPowerFail (vmainMv vbackMv : Nat) (s : State) : Host.Outcome State Fault Refusal :=
  s.run fun m =>
    if m.pwr.vmainGood || m.pwr.vbackGood || m.pwr.powerFail || m.thm.latch.isSome || !m.passed m.pwr.badTick (100 * ticksUs) ||
       (m.inMode .boot && decide (m.glb.stage ≤ 1)) then m
    else
      let m := m.raise Ev.powerFail .error vmainMv vbackMv
      let m := { m with ptn := { m.ptn with monNum := (m.ptn.monNum + 1) % 2 ^ 32 } }
      let p := m.finalMonument
      let m := (m.checked 23 1 0).outputsOff
      (({ m with
        pwr := { m.pwr with powerFail := true, mainMv := vmainMv, backMv := vbackMv }
        skx := { m.skx with silent := true }
        finals := { m.finals with writing := some p } } : Mach).parkUpdate).orSwitch (min vmainMv vbackMv)

/-- FINAL_MONUMENT_DONE (R462, R463): the older slot takes the monument; a module whose input has returned resets. -/
def execFinalMonumentDone (s : State) : Host.Outcome State Fault Refusal :=
  s.runMem fun m =>
    match m.finals.writing with
    | none => m
    | some p =>
      let m := { m with finals := { slots := p :: m.finals.slots.take 1, writing := none, last := 1 } }
      if m.pwr.vmainGood || m.pwr.vbackGood then m.restart .powerReturn m.ptn.straps else m

/-- POWER_DOWN (R463): what the inputs give no longer runs the module; an unfinished slot fails its check. -/
def execPowerDown (s : State) : Host.Outcome State Fault Refusal :=
  s.runAon fun m =>
    if m.pwr.vmainGood || m.pwr.vbackGood then m
    else
      let m := if m.finals.writing.isSome then
          { m with finals := { slots := m.finals.slots.take 1, writing := none, last := 2 } }
        else m
      { m with glb := { m.glb with powerOff := true }, fgd := { m.fgd with headPwr := false } }

/-- The thermal shutdown of a channel (R468). One declared during power-fail only adds its channel to the final
monument. -/
def Mach.thermalShutdown (m : Mach) (ch : Nat) (reading : Int) : Mach :=
  if m.thm.latch.isSome then m
  else if m.pwr.powerFail then
    { m with finals := { m.finals with
        writing := m.finals.writing.map (fun (p : Monument) => { p with shutdownCh := some (p.shutdownCh.getD ch) }) } }
  else
    let was := m.fgd.headPwr
    let m := { m with
      thm := { m.thm with latch := some (ch, unsigned 16 reading) }
      fgd := { m.fgd with headPwr := false } }
    let m := if was then m.raise Ev.guardPwr .warning 0 m.pwrOff else m
    let m := m.raise Ev.thermShutdown .error ch (unsigned 32 reading)
    let m := (m.outputsOff).discardSwaths (fun _ => true)
    ({ m with skx := { m.skx with silent := true } } : Mach).parkUpdate

/-- THERMAL_SHUTDOWN (R468): an AON trip comparator fires, with the sensor's reading. The latch works while a failed
clock holds the rest of the module (R478). -/
def execThermalShutdown (ch : Nat) (reading : Int) (s : State) : Host.Outcome State Fault Refusal :=
  s.runAon fun m =>
    if (15 < ch ∧ ch ≠ 20) ∨ m.glb.powerOff then m
    else if m.alive then m.thermalShutdown ch reading
    else { m with thm := { m.thm with latch := m.thm.latch.or (some (ch, unsigned 16 reading)) } }

/-- Every regulator but AON is off. -/
def Mach.off (m : Mach) : Mach := { m with glb := { m.glb with powerOff := true } }

/-- SHUTDOWN_RECORD_DONE (R468): the record is in NAND, and every regulator but AON switches off. -/
def execShutdownRecordDone (s : State) : Host.Outcome State Fault Refusal :=
  s.runAon fun m =>
    match m.thm.latch with
    | none => m
    | some r =>
      if m.glb.powerOff then m
      else ((({ m with nand := { m.nand with shutdown := some r } } : Mach).checked 23 1 0).emit (.pgood false)).off

/-! ### The housekeeping round (R464 to R467, R469, R460, R303, R392) -/

/-- The rounds after which a channel is good again, a step is given up, and a limit step is given up. -/
def roundsQuiet : Nat := 64

/-- A temperature in 1/16 °C. -/
def celsius (t : Int) : Int := 16 * t

/-- The band of a DRAM package follows its MR4 report (R392): up at once, down after 8 rounds that report the same band.
DEDUCED (log entry 129). -/
def Mach.packageRound (m : Mach) (k rep : Nat) : Mach :=
  let x := Tab.get ({} : Package) m.drm.pkg k
  let lower := if x.band ≤ rep then 0 else if x.report = rep then x.lower + 1 else 1
  let nb := if x.band < rep ∨ 8 ≤ lower then rep else x.band
  let y : Package := { band := nb, lower := if nb = x.band then lower else 0, report := rep }
  let m := { m with drm := { m.drm with pkg := Tab.set {} m.drm.pkg k y } }
  if nb = x.band then m
  else m.raise Ev.drmTempBand (if nb = 3 then .warning else .info) k (nb + 256 * x.band)

/-- One temperature channel's health on a round (R466): its fault, 0 for none. -/
def chanCause (r : Readings) (band : Nat) (k : Nat) : Nat :=
  let v := r.ch.getD k 0
  if 16 ≤ k ∧ k < 20 then (if band = 3 then 3 else 0)
  else if k ∈ r.opens then 1 else if k ∈ r.stuck then 2
  else if v < celsius (-40) ∨ celsius 150 < v then 3 else 0

/-- A sensor under calibration keeps its last reading and stays as it is (R470). -/
def Mach.sensorHeld (m : Mach) (k : Nat) : Bool := m.cal.running = some (4, k)

/-- THM_CH<k> of a round. -/
def Mach.showCh (m : Mach) (k : Nat) (v : Int) (valid : Bool) : Mach :=
  m.wr (Reg.THM_CH k) (ofBool valid * 2 ^ 31 + unsigned 16 v)

/-- A temperature channel on a round. -/
def Mach.tempRound (m : Mach) (r : Readings) (k : Nat) : Mach :=
  if m.sensorHeld k then m
  else
    let band := (Tab.get ({} : Package) m.drm.pkg (k - 16)).band
    let v : Int := if 16 ≤ k ∧ k < 20 then band else r.ch.getD k 0
    let c := chanCause r band k
    let x := Tab.get ({} : ThmCh) m.thm.ch k
    let ok := if c = 0 ∧ x.bad then x.okRounds + 1 else 0
    let bad := decide (c ≠ 0) || (x.bad && decide (ok < roundsQuiet))
    let y : ThmCh := { bad := bad, okRounds := if bad then ok else 0 }
    let m := { m with thm := { m.thm with ch := Tab.set {} m.thm.ch k y } }
    let m := m.showCh k v (!bad)
    if bad && !x.bad then m.raise Ev.thermSensorBad .warning k c
    else if x.bad && !bad then m.raise Ev.thermSensorBad .info k 0
    else m

/-- A temperature channel is bad. -/
def Mach.sensorBad (m : Mach) (k : Nat) : Bool := (Tab.get ({} : ThmCh) m.thm.ch k).bad

/-- The temperature channels that the mask does not exclude. -/
def Mach.unmasked (m : Mach) : List Nat := (List.range 21).filter (fun k => !bitAt (m.fld Reg.THM_MASK.mask) k)

/-- What a valid channel contributes to the maximum (R465), in 1/16 °C. -/
def Mach.tempOf (m : Mach) (k : Nat) : Option Int :=
  let v := signed 16 (m.fld (Reg.THM_CH.reading k))
  if m.sensorBad k then none
  else if 16 ≤ k ∧ k < 20 then (if v = 1 then some (celsius 95) else if v = 2 then some (celsius 105) else none)
  else some v

/-- The highest valid unmasked reading with the lowest channel that has it. DEDUCED (log entry 127). -/
def Mach.thmMax (m : Mach) : Option (Nat × Int) :=
  m.unmasked.foldl (fun (b : Option (Nat × Int)) k =>
    match b, m.tempOf k with
    | none, some v => some (k, v)
    | some (j, w), some v => if w < v then some (k, v) else some (j, w)
    | _, none => b) none

/-- The thermal input T with its channel (R467). DEDUCED (log entry 128). -/
def Mach.thermalT (m : Mach) : Option (Nat × Int) :=
  match m.unmasked.find? m.sensorBad, m.thmMax with
  | some k, some (j, v) => if celsius 150 < v then some (j, v) else some (k, celsius 150)
  | some k, none => some (k, celsius 150)
  | none, r => r

/-- The threshold of thermal step k, 1 to 8 (R467). -/
def stepThreshold (k : Nat) : Int := celsius (105 + 2 * ((k : Int) - 1))

/-- The thermal steps after a round at T, and the rounds below (R467). -/
def thermalNext (steps below : Nat) (t : Option (Nat × Int)) : Nat × Nat :=
  match t with
  | none => if steps ≠ 0 ∧ roundsQuiet ≤ below + 1 then (steps - 1, 0) else (steps, if steps = 0 then 0 else below + 1)
  | some (_, v) =>
    let asked := ((List.range 8).filter (fun k => decide (stepThreshold (k + 1) ≤ v))).length
    if steps < asked then (asked, 0)
    else if steps = 0 ∨ stepThreshold steps - 24 ≤ v then (steps, 0)
    else if roundsQuiet ≤ below + 1 then (steps - 1, 0)
    else (steps, below + 1)

/-- THM_MAX and the thermal steps of a round. -/
def Mach.thermalRound (m : Mach) : Mach :=
  let m := match m.thmMax with
    | some (k, v) => (m.setFld Reg.THM_MAX.channel k).setFld Reg.THM_MAX.temp (unsigned 16 v)
    | none => m
  let t := m.thermalT
  let n := thermalNext m.trv.thermalSteps m.thm.below t
  let old := m.trv.thermalSteps
  let m := { m with trv := { m.trv with thermalSteps := n.1 }, thm := { m.thm with below := n.2 } }
  if n.1 = old then m
  else
    let (k, v) := t.getD (0, 0)
    m.raise Ev.thermThrottle (if old < n.1 then .warning else .info) (unsigned 32 v) (n.1 + 256 * k)

/-- PWR_CFG.ilim_ma held within its range. -/
def Mach.ilim (m : Mach) : Nat := clampNat 6000 12000 (m.fld Reg.PWR_CFG.ilim_ma)

/-- The supply steps of a round (R460). -/
def Mach.supplyRound (m : Mach) : Mach :=
  let ma := m.fld (if m.pwr.onBack then Reg.PWR_IBACK.ma else Reg.PWR_IMAIN.ma)
  let old := m.trv.supplySteps
  let quiet := decide (ma + 500 < m.ilim)
  let below := if quiet then m.pwr.below + 1 else 0
  let down := quiet && decide (roundsQuiet ≤ below)
  let new := if m.ilim ≤ ma then min 8 (old + 1) else if down then old - 1 else old
  let m := { m with
    trv := { m.trv with supplySteps := new }, pwr := { m.pwr with below := if down then 0 else below } }
  if new = old then m else m.raise Ev.supplyLimit (if old < new then .warning else .info) ma new

/-- The band of a transceiver group from its sensor (R469). -/
def laneBand (old : Nat) (bad : Bool) (v : Int) : Nat :=
  if bad then 2
  else
    let up := if celsius 90 ≤ v then 2 else if celsius 60 ≤ v then 1 else 0
    if old ≤ up then up
    else if old = 2 ∧ celsius 87 < v then 2
    else if celsius 57 < v then max 1 up
    else up

/-- THM_LANE_BAND of a round. -/
def Mach.bandRound (m : Mach) : Mach :=
  [(10, Reg.THM_LANE_BAND.lo), (11, Reg.THM_LANE_BAND.hi), (12, Reg.THM_LANE_BAND.other)].foldl
    (fun (m : Mach) (e : Nat × Fld) =>
      m.setFld e.2 (laneBand (m.fld e.2) (m.sensorBad e.1) (signed 16 (m.fld (Reg.THM_CH.reading e.1))))) m

/-- The copies of supply readings in PWR, and the input power in 0.1 W (R464). DEDUCED (log entry 130). -/
def Mach.supplyReadings (m : Mach) : Mach :=
  let v (k : Nat) : Nat := m.fld (Reg.THM_CH.reading k)
  let m := [(Reg.PWR_VMAIN.mv, 21), (Reg.PWR_VBACK.mv, 22), (Reg.PWR_IMAIN.ma, 23), (Reg.PWR_IBACK.ma, 24),
    (Reg.PWR_VMOT.mv, 25), (Reg.PWR_HOLDUP.mv, 26)].foldl (fun (m : Mach) (e : Fld × Nat) => m.setFld e.1 (v e.2)) m
  m.setFld Reg.PWR_PIN.dw (min 65535 ((v 21 * v 23 + v 22 * v 24) / 100000))

/-- A mismatch of the Fire Guard copies (R303), once as it appears. DEDUCED (log entry 131). -/
def Mach.copyRound (m : Mach) (upset : List (Nat × Word)) : Mach :=
  if m.inMode .boot then m
  else
    let was := m.fgd.copyBad
    let bad := m.copyDiffers upset
    let m := { m with fgd := { m.fgd with
      guardCopy := (upset.filter (fun e => guardRegs.contains e.1)).foldl (fun t e => Tab.insert t e.1 e.2) m.fgd.guardCopy
      copyBad := bad } }
    if bad && !was then m.guardFatal 1 else m

/-- A valid reading of channels 0 to 15 or 20 at 125.0 °C or above (R468). -/
def Mach.tooHot (m : Mach) : Option (Nat × Int) :=
  (((List.range 16) ++ [20]).findSome? (fun k =>
    match m.tempOf k with
    | some v => if celsius 125 ≤ v then some (k, v) else none
    | none => none))

/-- HOUSEKEEPING_ROUND (R464 to R469, R460, R392, R303). -/
def execHousekeepingRound (r : Readings) (s : State) : Host.Outcome State Fault Refusal :=
  s.run fun m => m.onBeat .round 512000 fun m =>
    let m : Mach := forRange 4 (fun k (m : Mach) =>
      m.packageRound k (if 16 + k ∈ r.opens then 3 else clampNat 0 3 (r.ch.getD (16 + k) 0).toNat)) m
    let m : Mach := forRange 21 (fun k (m : Mach) => m.tempRound r k) m
    let m : Mach := forRange 11 (fun k (m : Mach) => m.showCh (21 + k) (r.ch.getD (21 + k) 0) true) m
    let m := (m.supplyReadings).thermalRound.supplyRound.bandRound
    let m := { m with pwr := { m.pwr with holdupOk := r.holdupOk } }
    let m := (m.parkUpdate).copyRound r.upset
    match m.tooHot with
    | some (k, v) => m.thermalShutdown k v
    | none => m

/-! ### Trimming (R470 to R472) -/

/-- The indexes of a kind. -/
def calIndexes (kind : Nat) : Nat :=
  if kind = 1 then 5 else if kind = 2 then 12 else if kind = 3 then 52 else if kind = 4 then 16 else 0

/-- R470's condition for a kind and index. -/
def Mach.calAllowed (m : Mach) (kind i : Nat) : Bool :=
  if kind = 1 then m.calChannelOk i
  else if kind = 2 then (m.axis i).state = .hold || (m.axis i).state = .off
  else if kind = 3 then
    if i < 40 then true
    else if i < 48 then
      match m.connDev (i - 40) with
      | some d => !m.devEn d
      | none => true
    else if i < 50 then m.ptn.state = .solo
    else !m.flag (Reg.ETH_P_CFG.en (i - 50))
  else true

/-- The lane that an XCVR index calibrates. -/
def calLane (i : Nat) : Option Nat := if i < 40 then some i else if 48 ≤ i ∧ i < 50 then some (i - 8) else none

/-- What a calibration interrupts, as it starts. -/
def Mach.calStart (m : Mach) (kind i : Nat) : Mach :=
  if kind = 1 then m.calChannel i true
  else if kind = 2 then m.calAxis i true
  else if kind = 3 then
    match calLane i with
    | some l =>
      let m := m.loseLock l 5
      let m := m.laneTo l { m.lane l with state := .cal }
      match m.hubOfLane l with
      | some h => m.hubUpdate h
      | none => m
    | none => m
  else m

/-- The end of that interruption. A head lane retrains in full (R322); a lane that is not enabled stays off.
DEDUCED (log entry 132). -/
def Mach.calEnd (m : Mach) (kind i : Nat) : Mach :=
  if kind = 1 then m.calChannel i false
  else if kind = 2 then m.calAxis i false
  else if kind = 3 then
    match calLane i with
    | some l =>
      let m := m.laneTo l { m.lane l with state := .off }
      if l < 40 then m.retrain l else m
    | none => m
  else m

/-- CAL_REQUEST (R472): CAL_REQ.go. -/
def execCalRequest (s : State) : Host.Outcome State Fault Refusal :=
  s.run fun m =>
    let kind := m.fld Reg.CAL_REQ.kind
    let i := m.fld Reg.CAL_REQ.index
    let m' := m.setFld Reg.CAL_STATUS.kind kind
    let m' := m'.setFld Reg.CAL_STATUS.index i
    if m.inMode .boot then m
    else if m.cal.running.isSome then m'.setFld Reg.CAL_STATUS.result 1
    else if m.inMode .halt || (decide (i < calIndexes kind) && !m.calAllowed kind i) then m'.setFld Reg.CAL_STATUS.result 2
    else if calIndexes kind ≤ i then m'.setFld Reg.CAL_STATUS.result 3
    else
      let m := (m'.setFld Reg.CAL_STATUS.busy 1).calStart kind i
      { m with cal := { running := some (kind, i) } }

/-- The trim words of a kind and index. -/
def trimWords (kind i : Nat) : List Nat :=
  if kind = 1 then [Reg.CAL_ENC_IN i 0, Reg.CAL_ENC_IN i 1]
  else if kind = 2 then [Reg.CAL_SNS_COIL i 0, Reg.CAL_SNS_COIL i 1]
  else if kind = 3 then [Reg.CAL_XCVR i]
  else [Reg.CAL_THM i]

/-- The bits that the layout of a trim word at an offset gives. -/
def trimMask (off : Nat) : Nat :=
  if off < Reg.CAL_SNS_COIL 0 0 then 0x7FFFF
  else if off < Reg.CAL_XCVR 0 then 0x3F00FF
  else if off < Reg.CAL_THM 0 then 0x0FFF0FFF
  else 0x13F

/-- A trim word selects the number of elements that R470 states for its kind. -/
def trimOk (off v : Nat) : Bool :=
  if off < Reg.CAL_SNS_COIL 0 0 then popCount 3 (bitsOf v 18 16) = 2
  else if off < Reg.CAL_XCVR 0 then popCount 6 (bitsOf v 21 16) = 4
  else if off < Reg.CAL_THM 0 then popCount 12 (bitsOf v 27 16) = 8 && popCount 12 (bitsOf v 11 0) = 8
  else true

/-- Write a trim word. -/
def Mach.putTrim (m : Mach) (off v : Nat) : Mach := m.wr off (v &&& trimMask off)

/-- CALIBRATION_DONE (R472): the words that the trim found, or no selection within the limit. -/
def execCalibrationDone (words : List Word) (ok : Bool) (s : State) : Host.Outcome State Fault Refusal :=
  s.run fun m =>
    match m.cal.running with
    | none => m
    | some (kind, i) =>
      let offs := trimWords kind i
      let good := ok && decide (words.length = offs.length) &&
        (offs.zip words).all (fun (e : Nat × Word) => trimOk e.1 e.2.toNat)
      let m := { m with cal := { running := none } }
      let m := if good then (offs.zip words).foldl (fun (m : Mach) (e : Nat × Word) => m.putTrim e.1 e.2.toNat) m else m
      let m := (m.setFld Reg.CAL_STATUS.busy 0).setFld Reg.CAL_STATUS.result (if good then 0 else 4)
      (m.calEnd kind i).raise Ev.calDone (if good then .info else .warning) (kind + 256 * i) (if good then 0 else 4)

/-- The offset is a trim word's. -/
def isTrim (off : Nat) : Bool :=
  (List.range 5).any (fun i => (trimWords 1 i).contains off) || (List.range 12).any (fun i => (trimWords 2 i).contains off) ||
  (List.range 52).any (fun i => (trimWords 3 i).contains off) || (List.range 16).any (fun i => (trimWords 4 i).contains off)

/-- A write to a trim word (R471, R9): one of the wrong number of elements is discarded whole and counted. -/
def Mach.trimWrite (m : Mach) (off v : Nat) : Mach :=
  if m.glb.locked then m.countDiscard
  else if !m.rwsOpen then m
  else if trimOk off v then m.putTrim off v
  else m.addSat Reg.CAL_STATUS.rejected 1

/-- TRIM_WORD_WRITE (R471). -/
def execTrimWordWrite (addr val : Nat) (s : State) : Host.Outcome State Fault Refusal :=
  s.run fun m => if isTrim addr && !m.inMode .boot then m.trimWrite addr val else m

/-! ### The link clocks (R479) -/

/-- The bit of a link PLL. -/
def pllBit (net : Bool) : Nat := if net then 2 else 1

/-- LANE_PLL_UNLOCK (R479): the LTX or NET PLL unlocks; nothing is sent, and every head and Farsil lane loses lock. -/
def execLanePllUnlock (net : Bool) (s : State) : Host.Outcome State Fault Refusal :=
  s.run fun m =>
    let down := m.skx.pllDown ||| pllBit net
    let m := { m with skx := { m.skx with pllDown := down, silent := true } }
    forRange 42 (fun l (m : Mach) => m.loseLane l 1) m

/-- LANE_PLL_RELOCK (R479): the PLL has been locked for 100 µs; lanes retrain once both are. -/
def execLanePllRelock (net : Bool) (s : State) : Host.Outcome State Fault Refusal :=
  s.run fun m =>
    let down := bitsOf m.skx.pllDown 1 0 &&& (3 - pllBit net)
    let quiet := decide (down ≠ 0) || m.pwr.powerFail || m.thm.latch.isSome
    let was := m.skx.silent
    let m : Mach := { m with skx := { m.skx with pllDown := down, silent := quiet } }
    if !was || quiet then m
    else ((List.range 42).filter (fun l => decide ((m.lane l).state = .lock))).foldl (fun (m : Mach) l =>
      m.startTraining l (m.lane l).full (m.lane l).rate) m

end Sys2Proof.Machine
end

