-- ==== Sys2Proof/Machine/Boot.lean ====
section
/-! DEFINITION. Resets and BOOT (R479, R488 to R493), the survey lock (R499 to R502), and transfers (R503 to R505). -/

namespace Sys2Proof.Machine

open Sys2Proof

/-! ### Resets (R488, R479) -/

/-- POWER_ON (R488): AON powers up from both inputs below 3 V. -/
def execPowerOn (straps : Nat) (s : State) : Host.Outcome State Fault Refusal :=
  s.runReset fun m => { m.restart .power straps with pwr := {} }

/-- RESET_PIN (R488): RESET_n low for 1 µs; no effect while the shutdown latch is set (R468), nor with no power. A clock
that has failed goes on holding the module. DEDUCED (log entry 134). -/
def execResetPin (straps : Nat) (s : State) : Host.Outcome State Fault Refusal :=
  s.runReset fun m =>
    if m.thm.latch.isSome || m.glb.powerOff then m
    else
      let held := m.glb.clockHeld
      let m := m.restart .pin straps
      { m with glb := { m.glb with clockHeld := held } }

/-- SOFTWARE_RESET (R488): a write of GLB_RESET.key, from BAR0 in any mode. -/
def execSoftwareReset (key straps : Nat) (s : State) : Host.Outcome State Fault Refusal :=
  s.runMem fun m => if key % 65536 = 0x5A17 then m.restart .software straps else m

/-- CLOCK_FAILURE (R479): every domain but AON is held in reset. DEDUCED (log entry 133). -/
def execClockFailure (s : State) : Host.Outcome State Fault Refusal :=
  s.runReset fun m =>
    if m.thm.latch.isSome || !m.alive then m
    else
      let m := m.restart .clock m.ptn.straps
      { m with glb := { m.glb with clockHeld := true } }

/-- CLOCK_STABLE (R479): the reference and every PLL stable for 1 ms; BOOT starts, unless the shutdown latch is set
(R468). -/
def execClockStable (s : State) : Host.Outcome State Fault Refusal :=
  s.runAon fun m => if m.thm.latch.isSome then m else { m with glb := { m.glb with clockHeld := false } }

/-! ### Firmware slots (R491 to R493) -/

/-- Slot B or slot A. -/
def Mach.fwSlot (m : Mach) (b : Bool) : FwSlot := if b then m.nand.slotB else m.nand.slotA

/-- The slots with one changed. -/
def Mach.setFwSlot (m : Mach) (b : Bool) (x : FwSlot) : Mach :=
  if b then { m with nand := { m.nand with slotB := x } } else { m with nand := { m.nand with slotA := x } }

/-- The image and security versions of a slot. -/
def FwSlot.version (x : FwSlot) : Nat := leField x.header 4 4
def FwSlot.security (x : FwSlot) : Nat := leField x.header 8 1

/-- What R491 finds of a slot: 0 valid, 1 signature, 2 hash, 3 rollback, 5 header. DESIGN CHOICE (log entry 54). -/
def Mach.fwCheck (m : Mach) (x : FwSlot) : Nat :=
  let h := x.header
  if h.length ≠ 256 || leField h 0 4 ≠ 0x4D564657 || decide (24 * 2 ^ 20 < leField h 12 4) ||
     leField h 12 4 ≠ x.image.length || decide (64 < x.security) then 5
  else if !Config.fwSignatureOk (h.take 192) (h.drop 192) then 1
  else if sha256 x.image ≠ (h.drop 16).take 32 then 2
  else if x.security < m.otp.rollback then 3
  else 0

/-- The verdict of R491 as SEC_FW shows it. DEDUCED (log entry 139). -/
def Mach.fwShow (m : Mach) (b ok : Bool) : Mach :=
  if b then { m with sec := { m.sec with bOk := ok } } else { m with sec := { m.sec with aOk := ok } }

/-- Try a slot in stage E (R492): whether it is started. -/
def Mach.tryFw (m : Mach) (b : Bool) : Mach × Bool :=
  let x := m.fwSlot b
  let c := m.fwCheck x
  let c' := if c = 0 ∧ !x.confirmed ∧ 3 ≤ x.starts then 4 else c
  let m := (m.fwShow b (c = 0)).raise Ev.fwSlot (if c' = 0 then .info else .warning) (ofBool b + 256 * c') x.version
  if c' ≠ 0 then (m, false)
  else
    let m := if x.confirmed then m else m.setFwSlot b { x with starts := x.starts + 1 }
    ({ m with sec := { m.sec with running := ofBool b } }, true)

/-- Stage E: the slots by image version, A first of equals. DEDUCED (log entry 52). -/
def Mach.chooseFw (m : Mach) : Mach × Bool :=
  let b := decide ((m.fwSlot false).version < (m.fwSlot true).version)
  let r := m.tryFw b
  if r.2 then r else r.1.tryFw (!b)

/-! ### BOOT (R489, R490) -/

/-- BOOT stops at its stage with a cause. -/
def Mach.bootStops (m : Mach) (cause : Nat) : Mach := { m with glb := { m.glb with bootFail := cause } }

/-- The next stage begins. -/
def Mach.nextStage (m : Mach) : Mach := { m with glb := { m.glb with stage := m.glb.stage + 1 } }

/-- Ceilings of BOOT come into force: the pulse-width and volume limits stand at them, and no other limit is looser (R292,
R305). -/
def Mach.bootLimits (m : Mach) (w : Tab Word) : Mach :=
  let m := m.loadCeilings w
  let m : Mach := forRange 16 (fun t (m : Mach) =>
    (m.setFld (Reg.FGD_G_T_PW.pw_max t) (m.fld (Reg.FGD_G_T_PW.pw_ceil t))).setFld (Reg.FGD_G_T_VOL.head_vol_max t)
      (m.fld (Reg.FGD_G_T_VOL_CEIL.ceil t))) m
  m.tightenLimits.guardSync

/-- The ceilings of stage G (R293): copy A, else copy B, else the tightest, which is fatal.
DESIGN CHOICE (log entry 56). -/
def Mach.bootCeilings (m : Mach) (read : Bool) : Mach × Bool :=
  let a := m.nand.ceilA.good
  let b := m.nand.ceilB.good
  if !read then (m.bootLimits tightestCeilings, false)
  else if a then ((m.checked 23 1 0).bootLimits m.nand.ceilA.words, true)
  else if b then ((m.checked 23 2 1).bootLimits m.nand.ceilB.words, true)
  else ((m.checked 23 2 2).bootLimits tightestCeilings, false)

/-- What stage G reads of the last power-fail and shutdown (R463, R468). -/
def Mach.bootRecords (m : Mach) : Mach :=
  let m := m.setFld Reg.PWR_LAST_FAIL.result m.finals.last
  let m := m.setFld Reg.PWR_LAST_FAIL.monument ((m.finals.slots.head?.map (fun (p : Monument) => p.num)).getD 0)
  let m := match m.nand.shutdown with
    | some (ch, v) =>
      ((m.setFld Reg.THM_LAST.kind 1).setFld Reg.THM_LAST.channel ch).setFld Reg.THM_LAST.reading v
    | none => m
  { m with finals := { m.finals with last := 0 }, nand := { m.nand with shutdown := none } }

/-- The end of BOOT: SETUP, or HALT when no copy of the ceiling record holds; a STOP_n already low acts on the first
tick of SETUP (R530). -/
def Mach.bootEnds (m : Mach) (ms : Nat) (read : Bool) : Mach :=
  let r := m.bootCeilings read
  let m := r.1.bootRecords.ceilingShown
  let m := { m with glb := { m.glb with stage := 0, bootFail := 0, timeMs := min 65535 ms } }
  let m := if r.2 then m.modeTo .setup 0 else (m.guardFatal 3).enterHalt .guard []
  let m := m.raise Ev.boot .info (m.fld Reg.GLB_RESET.cause + 256 * m.sec.running) ms
  let res := m.fld Reg.PWR_LAST_FAIL.result
  let kind := m.fld Reg.THM_LAST.kind
  let m := if m.inMode .setup && (res ≠ 0 || kind ≠ 0) then
      m.raise Ev.prevShutdown .warning (res + 256 * ofBool (kind ≠ 0))
        (if kind ≠ 0 then m.fld Reg.THM_LAST.reading else m.fld Reg.PWR_LAST_FAIL.monument)
    else m
  if m.hst.stopN then m else m.stop .land

/-- BOOT_STAGE_DONE (R489, R490): the stage in progress ends; `ok` tells whether the fuse block it reads passes its
check. -/
def execBootStageDone (b : BootResult) (s : State) : Host.Outcome State Fault Refusal :=
  s.run fun m =>
    if !m.inMode .boot || m.glb.bootFail ≠ 0 then m
    else if m.glb.stage = 3 ∧ !b.ok then m.bootStops 1
    else if m.glb.stage = 4 ∧ !b.ok then m.bootStops 2
    else if m.glb.stage = 5 then
      let r := m.chooseFw
      if r.2 then r.1.nextStage else r.1.bootStops 3
    else if m.glb.stage = 7 then m.bootEnds b.ms b.ok
    else if m.glb.stage = 1 then m.nextStage.emit (.pgood true)
    else m.nextStage

/-- CONFIRM (R493): SEC_FW.confirm in READY, RUN or BENCHMARK, once per BOOT. -/
def execConfirm (s : State) : Host.Outcome State Fault Refusal :=
  s.runFuse fun m =>
    if m.sec.confirmTaken || !(m.inMode .ready || m.glb.mode.printing) then m
    else
      let b := decide (m.sec.running = 1)
      let x := m.fwSlot b
      let m := m.setFwSlot b { x with confirmed := true, starts := 0 }
      { m with
        sec := { m.sec with confirmTaken := true }
        otp := { m.otp with rollback := max m.otp.rollback x.security } }

/-! ### The survey lock (R499 to R502) -/

/-- The bytes of `n` registers from an offset, byte 0 in bits 7 to 0 of the first. -/
def Mach.regBytes (m : Mach) (off n : Nat) : List Byte := (List.range n).flatMap (fun i => leBytes 4 (m.rd (off + 4 * i)))

/-- Write bytes into registers from an offset. -/
def Mach.putBytes (m : Mach) (off n : Nat) (d : List Byte) : Mach :=
  forRange n (fun i (m : Mach) => m.wr (off + 4 * i) (leField d (4 * i) 4)) m

/-- The reply that a key gives (R500). -/
def Mach.reply (m : Mach) (key : List Byte) (scope : Nat) : List Byte :=
  hmac key (m.regBytes (Reg.SEC_NONCE 0) 4 ++ leBytes 8 m.otp.deviceId.toNat ++ leBytes 4 scope)

/-- SEC_STATUS.result. -/
def Mach.secResult (m : Mach) (r : Nat) : Mach := { m with sec := { m.sec with result := r } }

/-- A nonce has been issued within the last 60 s and not used (R500). -/
def Mach.nonceGood (m : Mach) : Bool := m.sec.nonceValid && !m.passed m.sec.nonceTick 30000000000

/-- NONCE (R500): a fresh challenge replaces the last one; refused during a back-off. -/
def execNonce (value : List Byte) (s : State) : Host.Outcome State Fault Refusal :=
  s.run fun m =>
    if m.sec.backoff then m.secResult 2
    else { m.putBytes (Reg.SEC_NONCE 0) 4 (value.take 16) with sec := { m.sec with nonceValid := true, nonceTick := m.now } }

/-- NONCE_EXPIRY (R500): 60 s after its issue. -/
def execNonceExpiry (s : State) : Host.Outcome State Fault Refusal :=
  s.run fun m => if m.nonceGood then m else { m with sec := { m.sec with nonceValid := false } }

/-- The scopes that the OEM key opens: CEILINGS, KEYS and DIAG (R499). DEDUCED (log entry 138). -/
def oemScopes : Nat := 0b11100

/-- The failure count changes, in AON and in NAND; the eighth failure and every later one start a back-off (R501). -/
def Mach.secFails (m : Mach) (n : Nat) : Mach :=
  { m with sec := { m.sec with fails := n }, nand := { m.nand with fails := n } }

/-- A scope opens (R500). DEDUCED (log entry 137). -/
def Mach.secOpen (m : Mach) (scope : Nat) (oem : Bool) : Mach :=
  let m := (m.secFails 0).secResult 0
  ({ m with sec := { m.sec with opened := m.sec.opened ||| BitVec.ofNat 5 scope } } : Mach).raise Ev.lockOpen .info
    scope (ofBool oem)

/-- A failed reply (R500, R501). -/
def Mach.secFail (m : Mach) (scope : Nat) : Mach :=
  let n := min failMax (m.sec.fails + 1)
  let m := (m.secFails n).secResult 4
  let m := if failMax ≤ n then { m with sec := { m.sec with backoff := true, backoffSince := m.now } } else m
  m.raise Ev.lockFail .warning n scope

/-- SUBMIT (R500): the reply in SEC_RESP is checked under both keys. A nonce serves one submit.
DEDUCED (log entry 136). -/
def execSubmit (s : State) : Host.Outcome State Fault Refusal :=
  s.run fun m =>
    if m.sec.backoff then m.secResult 2
    else if !m.nonceGood then m.secResult 1
    else
      let scope := m.fld Reg.SEC_CTRL.scope
      let resp := m.regBytes (Reg.SEC_RESP 0) 8
      let vendor := decide (resp = m.reply m.otp.vendorKey scope)
      let oem := match m.otp.oemKey with
        | some k => decide (resp = m.reply k scope)
        | none => false
      let m := { m with sec := { m.sec with nonceValid := false } }
      if scope = 0 ∨ (!vendor ∧ !oem) then m.secFail scope
      else if vendor then m.secOpen scope false
      else if scope &&& oemScopes = scope then m.secOpen scope true
      else m.secResult 3

/-- CLOSE (R501): every open scope closes. -/
def execClose (s : State) : Host.Outcome State Fault Refusal :=
  s.run fun m =>
    if m.sec.opened = 0 then m
    else
      let was := m.sec.opened.toNat
      ({ m with sec := { m.sec with opened := 0 } } : Mach).raise Ev.lockClose .info was 0

/-- BACKOFF_END (R501): the count stays. -/
def execBackoffEnd (s : State) : Host.Outcome State Fault Refusal :=
  s.runAon fun m =>
    if m.alive && !m.passed m.sec.backoffSince (backoffLength * 500000000) then m
    else { m with sec := { m.sec with backoff := false } }

/-- Usage-key provisioning is open (R499). -/
def Mach.keysOpen (m : Mach) : Bool := m.sec.opened.getLsbD 3

/-- A usage-key slot takes a key, or none; its check value follows (R502). -/
def Mach.setKey (m : Mach) (slot : Nat) (key : List Byte) : Mach :=
  let m := { m with nand := { m.nand with keys := Tab.set [] m.nand.keys slot key } }
  m.wr (Reg.SEC_KEY_KCV slot) (if key.isEmpty then 0 else leField (hmac key (List.replicate 32 0)) 0 4)

/-- The usage records of every head are read again: of a hub that is UP now, of another at its next training (R286). -/
def Mach.verifyAgain (m : Mach) : Mach :=
  (List.range 40).foldl (fun (m : Mach) n =>
    let x := m.hub n
    if x.state = .up then m.readUsage n
    else if x.state = .unused then m else m.setHub n { x with readAgain := true }) m

/-- KEY_STORE (R502): under scope KEYS, SEC_KEY_CTRL.store. -/
def execKeyStore (s : State) : Host.Outcome State Fault Refusal :=
  s.run fun m =>
    if !m.keysOpen then m
    else
      let slot := m.fld Reg.SEC_KEY_CTRL.slot
      let m := m.setKey slot (m.regBytes (Reg.SEC_KEY_DATA 0) 8)
      let m := (m.putBytes (Reg.SEC_KEY_DATA 0) 8 []).raise Ev.key .info slot 1
      if slot ≠ 0 then m
      else
        let m := m.setFld Reg.FGD_USAGE_STATUS.no_key 0
        ({ m with fgd := { m.fgd with noKeyRaised := false } } : Mach).verifyAgain

/-- KEY_ERASE (R502): under scope KEYS, SEC_KEY_CTRL.erase. -/
def execKeyErase (s : State) : Host.Outcome State Fault Refusal :=
  s.run fun m =>
    if !m.keysOpen then m
    else
      let slot := m.fld Reg.SEC_KEY_CTRL.slot
      (m.setKey slot []).raise Ev.key .info slot 0

/-! ### Transfers (R503 to R505) -/

/-- The results of a transfer that refuse it (R503). DEDUCED (log entry 140). -/
def xferWindow : Nat := 1
def xferMode : Nat := 2
/-- DEDUCED (log entry 143). -/
def xferLength : Nat := 3
def xferCheck : Nat := 4
def xferGeometry : Nat := 5
def xferPartial : Nat := 6

/-- SEC_XFER_ADDR and SEC_XFER_LEN. -/
def Mach.xferAddr (m : Mach) : Nat := m.pair Reg.SEC_XFER_ADDR_LO
def Mach.xferLen (m : Mach) : Nat := m.rd Reg.SEC_XFER_LEN

/-- A transfer starts, unless one runs: MODE, then WINDOW, then LENGTH, refuse it; `bytes` is what it moves.
DEDUCED (log entry 141). -/
def Mach.xferStart (m : Mach) (op : Nat) (modeOk windowOk lengthOk : Bool) (bytes : Nat) (work : XferWork) : Mach :=
  if m.xfer.isSome then m
  else
    let refuse := if !modeOk then xferMode else if !windowOk then xferWindow else if !lengthOk then xferLength else 0
    let m := m.setFld Reg.SEC_XFER.busy 1
    let x : Xfer := if refuse ≠ 0 then { op := op, result := refuse } else { op := op, bytes := bytes, work := work }
    { m with xfer := some x }

/-- The buffer lies in a window with the permission that the direction needs (R112). -/
def Mach.xferInWindow (m : Mach) (write : Bool) : Bool := m.dmaOk write m.xferAddr m.xferLen

/-- The length in bytes of a calibration export, whose sections the spec does not lay out.
DESIGN CHOICE (log entry 69). -/
def Mach.exportLength (m : Mach) (op : Nat) : Nat := Config.openValue 69 (op + 8 * m.now)

/-- The registers that hold Fire Guard limits (R292). -/
def limitRegs : List Nat :=
  [Reg.FGD_G_NOZ, Reg.FGD_G_GAIN] ++ (List.range 16).map (fun t => Reg.FGD_G_T_VOL t)

/-- The limit fields that share a register with a ceiling, the coil current ceilings among them (R446).
DEDUCED (log entry 255). -/
def limitFields : List Fld :=
  [Reg.FGD_G_GAIN_RATE.rate] ++ (List.range 16).map (fun t => Reg.FGD_G_T_PW.pw_max t) ++
  (List.range 12).map (fun a => Reg.MOT_A_CEIL.i_ceil a)

/-- The limits as an export holds them. -/
def Mach.limitWords (m : Mach) : Tab Word :=
  limitFields.foldl (fun t f => Tab.insert t f.off (word (m.fld f)))
    (limitRegs.foldl (fun t r => Tab.insert t r (word (m.rd r))) [])

/-- The limits of an import come into force, within their ceilings. -/
def Mach.loadLimits (m : Mach) (w : Tab Word) : Mach :=
  let has (k : Nat) : Bool := w.any (fun e => e.1 = k)
  let m := limitRegs.foldl (fun (m : Mach) r => if has r then m.wr r (Tab.get 0 w r).toNat else m) m
  let m := limitFields.foldl (fun (m : Mach) f => if has f.off then m.setFld f (Tab.get 0 w f.off).toNat else m) m
  let m := m.setFld Reg.FGD_G_GAIN.gain_max (clampNat 0x800 0x1800 (m.fld Reg.FGD_G_GAIN.gain_max))
  (m.setFld Reg.FGD_G_GAIN.gain_min (clampNat 0x800 0x1800 (m.fld Reg.FGD_G_GAIN.gain_min))).tightenLimits.guardSync

/-- The tables of section 16: every screening and layer table. -/
def exportTables : List Nat :=
  [1, 2, 3, 4].flatMap (fun k => (List.range 10).map (tableId k)) ++ [5, 6].flatMap (fun k => (List.range 7).map (tableId k))

/-- A calibration export taken now (R504). -/
def Mach.takeCal (m : Mach) (length : Nat) : CalExport where
  crcOk := true
  deviceId := m.otp.deviceId
  level := m.level
  geometry := m.geometryHash
  length := length
  tables := exportTables.foldl (fun t id => Tab.set [] t id
    ((m.inForce id (if id / 16 < 5 then 2 ^ (id % 16) else 0x3FF)).headD {}).cells) []
  cams := (List.range 8).map (fun c => (c, (m.ctx c).active.darkFlat, (m.ctx c).active.matrix))
  limits := m.limitWords
  ceilings := m.ceilingWords
  gain := m.cls.gain
  nozzles := m.cls.nozzles
  keep := m.cls.keep
  logPtr := m.fld Reg.CAM_CLS_LOG_PTR.ptr

/-- An imported table is the version in use, with epoch 0 (R505). -/
def Mach.importTable (m : Mach) (id : Nat) (cells : Tab Nat) : Mach :=
  { m with epo := { m.epo with versions := Tab.set [] m.epo.versions id [{ cells := cells }] } }

/-- A calibration import comes into force; its result (R505). -/
def Mach.putCal (m : Mach) (e : CalExport) : Mach × Nat :=
  if !e.crcOk then (m, xferCheck)
  else if e.geometry ≠ m.geometryHash ∨ e.level ≠ m.level then (m, xferGeometry)
  else
    let m := exportTables.foldl (fun (m : Mach) id => m.importTable id (Tab.get [] e.tables id)) m
    let m := e.cams.foldl (fun (m : Mach) (x : Nat × Tab Nat × Tab Nat) =>
      if 8 ≤ x.1 then m
      else
        let y := m.ctx x.1
        m.setCtx x.1 { y with
          active := { y.active with darkFlat := x.2.1, matrix := x.2.2 }, stageDf := x.2.1, stageMx := x.2.2 }) m
    let m := m.takeClosure e.gain e.nozzles e.keep e.logPtr
    let m' := if m.ceilingsOpen then m.loadCeilings e.ceilings else m
    (m'.loadLimits e.limits, if m.ceilingsOpen then 0 else xferPartial)

/-- A monument import comes into force (R505): the epoch counter, sections 6 and 8. -/
def Mach.putMon (m : Mach) (p : Monument) (crcOk : Bool) : Mach × Nat :=
  if !crcOk then (m, xferCheck)
  else (({ m with epo := { m.epo with counter := p.counter } } : Mach).takeCounters p, 0)

/-- The slot that an image is loaded into (R503): the one not running. -/
def Mach.fwTarget (m : Mach) : Bool := !m.inMode .boot && decide (m.sec.running = 0)

/-- An image written to the slot not running and verified (R503, R491). -/
def Mach.putFw (m : Mach) (header image : List Byte) : Mach × Nat :=
  let x : FwSlot := { header := header, image := image }
  let ok := decide (m.fwCheck x = 0)
  ((m.setFwSlot m.fwTarget x).fwShow m.fwTarget ok, if ok then 0 else xferCheck)

/-- EXPORT_CAL (R503, R504). -/
def execExportCal (s : State) : Host.Outcome State Fault Refusal :=
  s.run fun m =>
    let n := m.exportLength 1
    m.xferStart 1 (!m.inMode .boot) (m.xferInWindow true) (n ≤ m.xferLen) n (.calOut m.xferAddr (m.takeCal n))

/-- The monument of an export (R503): the newest valid final one in SETUP after a power-fail, the newest held in
BACKSIGHT, else one taken now. -/
def Mach.exportMonument (m : Mach) : Monument :=
  let own := (m.isBacksight && m.ptn.monument.isSome)
  if m.inMode .setup && m.fld Reg.PWR_LAST_FAIL.result ≠ 0 then m.finals.slots.headD m.takeMonument
  else if own then m.ptn.monument.getD m.takeMonument
  else m.takeMonument

/-- EXPORT_MON (R503). DEDUCED (log entry 144). -/
def execExportMon (s : State) : Host.Outcome State Fault Refusal :=
  s.run fun m =>
    let p := m.exportMonument
    let n := p.saved.length
    m.xferStart 2 (!m.inMode .boot) (m.xferInWindow true) (n ≤ m.xferLen) n (.monOut m.xferAddr p)

/-- IMPORT_CAL (R503, R505): in SETUP, with GLB_LOCK set. -/
def execImportCal (p : CalExport) (s : State) : Host.Outcome State Fault Refusal :=
  s.run fun m =>
    m.xferStart 3 (m.inMode .setup && m.glb.locked) (m.xferInWindow false) (m.xferLen = p.length) p.length (.calIn p)

/-- IMPORT_MON (R503, R505): in SETUP, with GLB_LOCK set, before the vote is armed. -/
def execImportMon (p : Monument) (length : Nat) (crcOk : Bool) (s : State) : Host.Outcome State Fault Refusal :=
  s.run fun m =>
    m.xferStart 4 (m.inMode .setup && m.glb.locked && m.chn.vote = .disarmed) (m.xferInWindow false)
      (m.xferLen = length) length (.monIn p crcOk)

/-- FW_LOAD (R503, R490): in SETUP, or in BOOT that found no image, where no window can have been set. -/
def execFwLoad (header image : List Byte) (s : State) : Host.Outcome State Fault Refusal :=
  s.run fun m =>
    let noImage := m.inMode .boot && decide (m.glb.bootFail = 3)
    m.xferStart 5 (m.inMode .setup || noImage) (noImage || m.xferInWindow false)
      (m.xferLen = 256 + leField header 12 4 && m.xferLen = header.length + image.length) m.xferLen (.fwIn header image)

/-- What a transfer does as it completes, with its result. One to the host that no window allows by then is not issued
(R113). -/
def Mach.xferRun (m : Mach) (x : Xfer) : Mach × Nat :=
  match x.work with
  | .refused => (m, x.result)
  | .calOut a e => if m.dmaOk true a x.bytes then (m.emit (.calExport a e), 0) else (m, xferWindow)
  | .monOut a p => if m.dmaOk true a x.bytes then (m.emit (.hostWrite a p.saved), 0) else (m, xferWindow)
  | .calIn e => if m.inMode .setup then m.putCal e else (m, xferMode)
  | .monIn p ok => if m.inMode .setup && m.chn.vote = .disarmed then m.putMon p ok else (m, xferMode)
  | .fwIn h i => m.putFw h i

/-- XFER_DONE (R503): the transfer completes; one that no window allows raises EV_HST_WINDOW, whose arguments name a ring
and a descriptor that there are none of and are free values (R113; log entry 239). While the module is stopped or in power-fail it waits (R136, R461).
DEDUCED (log entry 142). DESIGN CHOICE (log entry 239). -/
def execXferDone (s : State) : Host.Outcome State Fault Refusal :=
  s.run fun m =>
    match m.xfer with
    | none => m
    | some x =>
      if m.hst.stopped || m.pwr.powerFail then m
      else
        let r := ({ m with xfer := none } : Mach).xferRun x
        let m := (r.1.setFld Reg.SEC_XFER.busy 0).setFld Reg.SEC_XFER.result r.2
        let m := if r.2 = xferWindow then m.raise Ev.hstWindow .warning (Config.openValue 239 0) (Config.openValue 239 1) else m
        (m.wr Reg.SEC_XFER_DONE x.bytes).raise Ev.xfer (if r.2 = 0 then .info else .warning) x.op r.2

end Sys2Proof.Machine
end

