-- ==== Sys2Proof/Machine/Datum.lean ====
section
/-! DEFINITION. The Datum clock, network time and the chainage beacon (R87 to R104). -/

namespace Sys2Proof.Machine

open Sys2Proof

/-! ### The owner of the Datum registers (R91) -/

/-- Surveyor firmware runs: from stage G of BOOT on, while its cores are not held in reset (R489, R396). -/
def Mach.firmwareRuns (m : Mach) : Bool := !m.drm.coresHeld && !(m.inMode .boot && decide (m.glb.stage ≠ 7))

/-- A writer reaches the registers: the host through BAR0 outside BOOT (R490), firmware while it runs. -/
def Mach.writerHere (m : Mach) (firmware : Bool) : Bool := if firmware then m.firmwareRuns else !m.inMode .boot

/-- A refused adjustment: arg0 1 not the owner, 2 an offset pending. -/
def Mach.adjRefuse (m : Mach) (why what : Nat) : Mach :=
  ({ m with dtm := { m.dtm with adjRefused := true } } : Mach).raise Ev.dtmAdjRefused .warning why what

/-- The writer is the owner. DEDUCED (log entry 145). -/
def Mach.ownsServo (m : Mach) (firmware : Bool) : Bool := firmware = !m.flag Reg.DTM_CTRL.servo_owner

/-- A write of a _LO half: taken from the owner, and in effect with the write of _HI. -/
def Mach.loHalf (m : Mach) (reg what lo : Nat) (firmware : Bool) : Mach :=
  if m.ownsServo firmware then m.wr reg (lo % 2 ^ 32) else m.adjRefuse 1 what

/-- The _LO half of an access, where it brings one. -/
def Mach.loPart (m : Mach) (reg what : Nat) (lo : Option Nat) (firmware : Bool) : Mach :=
  match lo with
  | some v => m.loHalf reg what v firmware
  | none => m

/-! ### Increment, offset and epoch (R89, R90, R94) -/

/-- 1.99 ns and 2.01 ns as R89 represents them, in 2^-32 ns. -/
def incrMin : Nat := 2 ^ 32 + 0xFD70A3D8
def incrMax : Nat := 2 * 2 ^ 32 + 0x028F5C28

/-- A write of DTM_INCR_HI (R89): the increment within its limits is in use, and both halves read it. -/
def Mach.incrHi (m : Mach) (hi : Nat) (firmware : Bool) : Mach :=
  if !m.ownsServo firmware then m.adjRefuse 1 0
  else
    let v := clampNat incrMin incrMax (hi % 256 * 2 ^ 32 + m.rd Reg.DTM_INCR_LO)
    let m := (m.wr Reg.DTM_INCR_LO (v % 2 ^ 32)).wr Reg.DTM_INCR_HI (v / 2 ^ 32)
    { m with dtm := { m.dtm with incr := BitVec.ofNat 40 v } }

/-- A write of DTM_OFFSET_HI (R90): the offset waits for its tick; one written while another waits is discarded. -/
def Mach.offsetHi (m : Mach) (hi : Nat) (firmware : Bool) : Mach :=
  if !m.ownsServo firmware then m.adjRefuse 1 1
  else if m.dtm.pendingOff.isSome then m.adjRefuse 2 1
  else
    let m := m.wr Reg.DTM_OFFSET_HI (hi % 2 ^ 32)
    { m with dtm := { m.dtm with pendingOff := some (BitVec.ofNat 64 (m.pair Reg.DTM_OFFSET_LO)) } }

/-- A write of DTM_EPOCH_HI (R94). -/
def Mach.epochHi (m : Mach) (hi : Nat) (firmware : Bool) : Mach :=
  if !m.ownsServo firmware then m.adjRefuse 1 2
  else
    let m := m.wr Reg.DTM_EPOCH_HI (hi % 2 ^ 32)
    let e := m.pair Reg.DTM_EPOCH_LO
    ({ m with dtm := { m.dtm with epoch := BitVec.ofNat 64 e } } : Mach).raise Ev.dtmEpoch .info (e % 2 ^ 32) (e / 2 ^ 32)

/-- DTM_INCR_WRITE (R89, R91): the increment, from the host or from firmware. -/
def execDtmIncrWrite (lo : Option Nat) (hi : Nat) (firmware : Bool) (s : State) : Host.Outcome State Fault Refusal :=
  s.run fun m =>
    if m.writerHere firmware then (m.loPart Reg.DTM_INCR_LO 0 lo firmware).incrHi hi firmware else m

/-- DTM_OFFSET_WRITE (R90, R91). -/
def execDtmOffsetWrite (lo : Option Nat) (hi : Nat) (firmware : Bool) (s : State) : Host.Outcome State Fault Refusal :=
  s.run fun m =>
    if m.writerHere firmware then (m.loPart Reg.DTM_OFFSET_LO 1 lo firmware).offsetHi hi firmware else m

/-- DTM_EPOCH_WRITE (R94, R91). -/
def execDtmEpochWrite (lo : Option Nat) (hi : Nat) (firmware : Bool) (s : State) : Host.Outcome State Fault Refusal :=
  s.run fun m =>
    if m.writerHere firmware then (m.loPart Reg.DTM_EPOCH_LO 2 lo firmware).epochHi hi firmware else m

/-- DTM_OFFSET_APPLIED (R90): the pending offset is added to bits 95 to 32 of the clock. -/
def execDtmOffsetApplied (s : State) : Host.Outcome State Fault Refusal :=
  s.run fun m =>
    match m.dtm.pendingOff with
    | none => m
    | some o =>
      let m := { m with dtm := { m.dtm with
        clock := m.dtm.clock + (o.setWidth 96 <<< 32), pendingOff := none, stepCount := (m.dtm.stepCount + 1) % 256 } }
      m.raise Ev.dtmStep .info (o.toNat % 2 ^ 32) (o.toNat / 2 ^ 32)

/-- SNAP (R93): DTM_CTRL.snap latches time, ticks, chainage and vote_state of one tick. -/
def execSnap (s : State) : Host.Outcome State Fault Refusal :=
  s.run fun m =>
    if m.inMode .boot then m
    else { m with dtm := { m.dtm with
      snapTime := m.time, snapTicks := m.dtm.ticks, snapChn := m.chn.printed, snapVote := m.chn.vote.code } }

/-! ### PTP (R94 to R99, R101) -/

/-- PTP time of a Datum time (R94): their signed sum, or 0 with epoch_neg. -/
def Mach.ptpTime (m : Mach) (t : DWord) : Mach × Nat :=
  let v := (t.toNat : Int) + m.dtm.epoch.toInt
  if v < 0 then ({ m with dtm := { m.dtm with epochNeg := true } }, 0) else (m, v.toNat % 2 ^ 64)

/-- One Ethernet port. -/
def Mach.ethPort (m : Mach) (p : Nat) : EthPort := Tab.get {} m.eth.port p

/-- The ports with one changed. -/
def Mach.setEthPort (m : Mach) (p : Nat) (x : EthPort) : Mach :=
  { m with eth := { m.eth with port := Tab.set {} m.eth.port p x } }

/-- The port that PTP runs on: the initial one, or the other after a failover (R101). DEDUCED (log entry 150). -/
def Mach.ptpPort (m : Mach) : Nat :=
  if m.eth.moved then 1 - m.fld Reg.ETH_PTP_CFG.port else m.fld Reg.ETH_PTP_CFG.port

/-- A stamp at the land (R95): the present Datum time with a latency in 1/16 ns added or taken off. -/
def Mach.stampAt (m : Mach) (lat16 : Int) : DWord :=
  ((m.dtm.clock + BitVec.ofInt 96 (lat16 * 2 ^ 28)) >>> 32).setWidth 64

/-- Sync, Delay_Req, Pdelay_Req and Pdelay_Resp, the event messages of IEEE 1588 by messageType (R95). -/
def ptpStamped (kind : Nat) : Bool := decide (kind < 4)

/-- A port is enabled, and PTP is not off (R107). DESIGN CHOICE (log entry 186). -/
def Mach.ethOn (m : Mach) (p : Nat) : Bool := decide (p < 2) && m.flag (Reg.ETH_P_CFG.en p)
def Mach.ptpOn (m : Mach) : Bool := m.fld Reg.ETH_PTP_CFG.role ≠ 3

/-- PTP_FRAME_RX (R95): the stamp less rx_lat; with a Sync the step_count is kept (R98). -/
def execPtpFrameRx (port kind _seq : Nat) (s : State) : Host.Outcome State Fault Refusal :=
  s.run fun m =>
    if !ptpStamped kind || !m.ethOn port || !m.ptpOn then m
    else
      let t := m.stampAt (-(m.fld (Reg.ETH_P_TS_LAT.rx_lat port) : Int))
      let x := m.ethPort port
      m.setEthPort port { x with
        rxStamp := some t, syncs := if kind = 0 then ((t, m.dtm.stepCount) :: x.syncs).take 16 else x.syncs }

/-- A big-endian field of a frame. -/
def beField (d : List Byte) (off n : Nat) : Nat := leNat ((d.drop off).take n).reverse

/-- A frame with bytes from an offset replaced. -/
def putAt (d : List Byte) (off : Nat) (b : List Byte) : List Byte := d.take off ++ b ++ d.drop (off + b.length)

/-- Where the payload of an Ethernet frame begins: behind its addresses, at most one IEEE 802.1Q tag, and its type. -/
def ethBody (d : List Byte) : Nat := if beField d 12 2 = 0x8100 then 18 else 14

/-- Where the PTP header of a frame begins, over the transport set (R107), with the place of the UDP checksum over IPv4.
PRESUMED (log entry 185). -/
def Mach.ptpHeader (m : Mach) (d : List Byte) : Option (Nat × Option Nat) :=
  let o := ethBody d
  let typ := beField d (o - 2) 2
  if m.flag Reg.ETH_PTP_CFG.transport then
    if typ = 0x0800 then
      let u := o + 4 * (beField d o 1 % 16)
      some (u + 8, some (u + 6))
    else none
  else if typ = 0x88F7 then some (o, none) else none

/-- PTP time in the wire format (R94): 48 bits of seconds, 32 bits of nanoseconds. -/
def wireTime (ns : Nat) : List Byte := beBytes 6 (ns / 1000000000) ++ beBytes 4 (ns % 1000000000)

/-- A frame whose PTP header changed: the UDP checksum is 0x0000 (R96). -/
def noChecksum (d : List Byte) : Option Nat → List Byte
  | some c => putAt d c [0, 0]
  | none => d

/-- A one-step Sync: the egress time goes into originTimestamp, bytes 34 to 43 (R96). -/
def syncFrame (d : List Byte) (h : Nat × Option Nat) (ns : Nat) : List Byte :=
  noChecksum (putAt d (h.1 + 34) (wireTime ns)) h.2

/-- A one-step Pdelay_Resp: the turnaround since the ingress time of bytes 16 to 19 goes into correctionField, bytes 8
to 15 (R97). -/
def respFrame (d : List Byte) (h : Nat × Option Nat) (ns : Nat) : List Byte :=
  let turn := (ns % 2 ^ 32 + 2 ^ 32 - beField d (h.1 + 16) 4) % 2 ^ 32
  let corr := beField d (h.1 + 8) 8 + turn * 2 ^ 16
  noChecksum (putAt (putAt d (h.1 + 8) (beBytes 8 (corr % 2 ^ 64))) (h.1 + 16) [0, 0, 0, 0]) h.2

/-- A frame as a port sends it: with the port's IEEE 802.1Q tag where vlan_en asks for one, and its check (R96, R107).
-/
def Mach.ethSent (m : Mach) (p : Nat) (d : List Byte) : List Byte :=
  let d := if m.flag (Reg.ETH_P_CFG.vlan_en p) && beField d 12 2 ≠ 0x8100 then
      d.take 12 ++ beBytes 2 0x8100 ++
        beBytes 2 (m.fld (Reg.ETH_P_CFG.vlan_pcp p) * 8192 + m.fld (Reg.ETH_P_CFG.vlan_id p)) ++ d.drop 12
    else d
  d ++ leBytes 4 (ethFcs d).toNat

/-- PTP_FRAME_TX (R94 to R97): a message leaves the land. A one-step Sync of the active port takes its egress stamp,
and a one-step Pdelay_Resp its turnaround; any other is sent unchanged. `taken` stamps have been taken from the queue
since the last. DEDUCED (log entry 146). -/
def execPtpFrameTx (port kind seq : Nat) (twoStep : Bool) (frame : List Byte) (taken : Nat) (s : State) :
    Host.Outcome State Fault Refusal :=
  s.run fun m =>
    if !ptpStamped kind || !m.ethOn port || !m.ptpOn || m.skx.silent then m
    else
      let stamp := m.stampAt (m.fld (Reg.ETH_P_TS_LAT.tx_lat port))
      let r : Mach × List Byte :=
        match m.ptpHeader frame with
        | some h =>
          if kind = 0 && !twoStep && port = m.ptpPort then
            let t := m.ptpTime stamp
            (t.1, syncFrame frame h t.2)
          else if kind = 3 && !twoStep then
            let t := m.ptpTime stamp
            (t.1, respFrame frame h t.2)
          else (m, frame)
        | none => (m, frame)
      let m := r.1.emit (.ptp port kind seq (m.ethSent port r.2))
      let x := m.ethPort port
      let q := x.txStamps.drop taken
      if 16 ≤ q.length then (m.setEthPort port { x with txStamps := q }).addSat (Reg.ETH_P_STATUS.ts_ovf port) 1
      else m.setEthPort port { x with txStamps := q ++ [stamp] }

/-- A record of the TLM ring (R144, R120): held while the module is stopped (R136), and counted where the ring has no
room. DEDUCED (log entry 151). -/
def Mach.tlmWrite (m : Mach) (typ : Nat) (body : List Byte) : Mach :=
  let e := leBytes 1 typ ++ leBytes 1 0 ++ leBytes 1 1 ++ leBytes 1 0 ++ leBytes 4 m.hst.tlmSeq.toNat ++ body
  let m := { m with hst := { m.hst with tlmSeq := m.hst.tlmSeq + 1 } }
  if m.hst.stopped then { m with hst := { m.hst with held := m.hst.held ++ [.tlm e] } } else m.sendHeld (.tlm e)

/-- step_count at the ingress of the Sync with stamp `t2` (R98). DEDUCED (log entry 187). -/
def Mach.stepAt (m : Mach) (t2 : Nat) : Nat :=
  match (m.ethPort m.ptpPort).syncs.find? (fun e => e.1.toNat = t2) with
  | some e => e.2
  | none => m.dtm.stepCount

/-- PTP_SAMPLE_POST (R98): with servo_owner HOST, bytes 8 to 59 of one completed measurement. -/
def execPtpSamplePost (payload : List Byte) (s : State) : Host.Outcome State Fault Refusal :=
  s.run fun m =>
    if !m.flag Reg.DTM_CTRL.servo_owner || !m.firmwareRuns || !m.ptpOn then m
    else
      let n := m.stepAt (leField payload 8 8)
      let flags := ofBool (m.flag Reg.ETH_PTP_CFG.mech) + 2 * m.ptpPort + 4 * ofBool (n ≠ m.eth.lastStep)
      let d := (payload ++ List.replicate 52 0).take 52
      ({ m with eth := { m.eth with lastStep := n } } : Mach).tlmWrite 2 (d ++ leBytes 1 flags ++ leBytes 1 n ++ leBytes 2 0)

/-- The PTP port takes a state; one that leaves SLAVE free-runs (R99). -/
def Mach.ptpState (m : Mach) (st : Nat) : Mach :=
  let old := m.eth.portState
  if old = st then m
  else
    let m := { m with eth := { m.eth with portState := st, servoState := if old = 9 then 3 else m.eth.servoState } }
    m.raise Ev.ptpState .info st old

/-- PTP_PORT_STATE_CHANGE (R99, R101): what firmware reports of the PTP port, of its servo and of the offset from its
master. DEDUCED (log entry 147). -/
def execPtpPortStateChange (state servo : Nat) (offset : Int) (s : State) : Host.Outcome State Fault Refusal :=
  s.run fun m =>
    if !m.firmwareRuns || !m.ptpOn || state = 0 || decide (9 < state) then m
    else
      let m := m.wr Reg.ETH_PTP_OFFSET (unsigned 32 (clampInt (-(2 ^ 31)) (2 ^ 31 - 1) offset))
      let left := m.eth.portState = 9 && state ≠ 9
      let m := m.ptpState state
      { m with eth := { m.eth with servoState := if left then 3 else servo % 4 } }

/-- The link of a port goes up or down (R101). -/
def Mach.linkTo (m : Mach) (port : Nat) (up : Bool) : Mach :=
  (m.setEthPort port { m.ethPort port with link := up, anDone := up && m.flag (Reg.ETH_P_CFG.an_en port) }).raise
    Ev.ethLink (if up then .info else .warning) port (ofBool up)

/-- ETH_LINK_CHANGE (R101): only an enabled port comes up. -/
def execEthLinkChange (port : Nat) (up : Bool) (s : State) : Host.Outcome State Fault Refusal :=
  s.run fun m => if 2 ≤ port ∨ (m.ethPort port).link = up ∨ (up = true ∧ m.ethOn port = false) then m else m.linkTo port up

/-- A port whose enable has been cleared loses its link (R107). -/
def Mach.ethOff (m : Mach) (port : Nat) : Mach :=
  if (m.ethPort port).link && !m.ethOn port then m.linkTo port false else m

/-- PTP_FAILOVER (R101): with fo_en, firmware moves PTP from a port without link, through LISTENING. -/
def execPtpFailover (s : State) : Host.Outcome State Fault Refusal :=
  s.run fun m =>
    if !m.flag Reg.ETH_PTP_CFG.fo_en || (m.ethPort m.ptpPort).link || !m.firmwareRuns || !m.ptpOn then m
    else ({ m with eth := { m.eth with moved := !m.eth.moved } } : Mach).ptpState 4

/-- A frame is one that the ports carry: its check holds, it has at most 1 522 bytes and at most one tag (R100). -/
def EthFrame.sound (f : EthFrame) : Bool := f.crcOk && decide (f.len ≤ 1522) && decide (f.tags ≤ 1)

/-- Firmware handles a received frame: PTP while it is on, ARP requests and ICMP echo requests (R100). -/
def Mach.fwTakes (m : Mach) (f : EthFrame) : Bool := (f.kind = 1 && m.ptpOn) || f.kind = 2 || f.kind = 3

/-- ETH_FRAME_RX (R100): firmware takes PTP frames and answers ARP and ICMP echo requests on a port with an address;
a PAUSE frame is ignored, and every other frame is counted and discarded. DEDUCED (log entry 238). -/
def execEthFrameRx (port : Nat) (f : EthFrame) (s : State) : Host.Outcome State Fault Refusal :=
  s.run fun m =>
    if !m.ethOn port || (f.sound && f.kind = 4) then m
    else if !f.sound || !m.fwTakes f then m.addSat (Reg.ETH_P_RX_DISCARD.cnt port) 1
    else if f.kind ≠ 1 && m.firmwareRuns && m.rd (Reg.ETH_P_IP port) ≠ 0 then m.emit (.frame port (m.ethSent port f.data))
    else m

/-- ETH_PTP_INTV: each signed log2 interval out of its range is taken as the nearer limit (R107).
DEDUCED (log entry 230). -/
def Mach.ptpIntervals (m : Mach) : Mach :=
  let fit (m : Mach) (f : Fld) (lo hi : Int) : Mach := m.setFld f (unsigned 8 (clampInt lo hi (m.sfld f)))
  fit (fit (fit m Reg.ETH_PTP_INTV.log_sync (-7) 1) Reg.ETH_PTP_INTV.log_delay_req (-7) 1)
    Reg.ETH_PTP_INTV.log_announce 0 4

/-! ### The chainage beacon (R102 to R104) -/

/-- The pairs setting n, 1 to 4. DESIGN CHOICE (log entry 70). -/
def Mach.bcnPairsN (m : Mach) : Nat := clampNat 1 4 (m.fld Reg.ETH_BCN_CFG.pairs)

/-- The job in print at the printed chainage: one with a line there, or one whose last line lies behind and that still
prints. -/
def Mach.jobHere (m : Mach) : Option Nat :=
  (m.jobAt m.chainage).or (m.lineJobs.find? (fun j =>
    (m.job j).state = .printing && chnAtOrAhead m.chainage ((m.job j).lineChn (m.job j).firstLine)))

/-- The repeat, the item and the repeat origin at the newest printed chainage (R103); past a job's last line, those of that
line. DEDUCED (log entry 149). -/
def Mach.bcnPlace (m : Mach) : Nat × Nat × Nat :=
  match m.jobHere with
  | none => (0xFFFFFFFF, 0xFFFFFFFF, 0)
  | some j =>
    let x := m.job j
    let at_ := x.lineIn m.chainage
    let line := match x.endLine with | some e => min at_ (e - 1) | none => at_
    (x.repeatsDone (match x.endLine with | some e => min at_ e | none => at_), (m.itemOfLine j line).toNat,
      (x.lineChn (x.repeatsDone line * x.repeatLen)).toNat)

/-- The bytes of a pair. Of one not yet sampled no value is stated, but for bits 63 to 48 of the chainage and, with the vote
DISARMED, the chainage (R103, R104). -/
def pairBytes (armed : Bool) (i : Nat) : Option BeaconPair → List Byte
  | some p => leBytes 8 p.ptp.toNat ++ leBytes 8 p.chn.toNat
  | none => leBytes 8 (Config.openValue 70 (2 * i)) ++
    (if armed then leBytes 6 (Config.openValue 70 (2 * i + 1)) else leBytes 6 0) ++ leBytes 2 0

/-- The payload of a beacon (R103). DEDUCED (log entry 148). -/
def Mach.bcnPayload (m : Mach) : List Byte :=
  let n := m.bcnPairsN
  let flags := ofBool m.chn.vote.valid + 2 * ofBool (m.chn.lead < 0) + 4 * ofBool m.chn.hold +
    8 * ofBool (m.inMode .run) + 16 * ofBool m.isBacksight + 32 * ofBool (m.eth.servoState = 2)
  let (rep, item, origin) := m.bcnPlace
  let d := leBytes 2 0x5B7E ++ leBytes 1 1 ++ leBytes 1 flags ++ leBytes 4 m.eth.bcnSeq.toNat ++
    leBytes 4 m.otp.deviceId.toNat ++ leBytes 1 n ++ leBytes 1 m.dtm.stepCount ++ leBytes 2 0 ++
    leBytes 4 (m.rd Reg.CHN_SPEED_UMS) ++ leBytes 4 rep ++ leBytes 4 item ++ leBytes 4 0 ++ leBytes 8 origin ++
    (List.range n).flatMap (fun i => pairBytes (m.chn.vote ≠ .disarmed) i m.eth.bcnPairs[i]?)
  d ++ leBytes 4 (crc32c d).toNat

/-- The destination is one address of a station: neither multicast nor broadcast. -/
def Mach.bcnUnicast (m : Mach) : Bool :=
  let a := m.rd Reg.ETH_BCN_DST_IP
  a / 2 ^ 28 ≠ 14 && a ≠ 0xFFFFFFFF

/-- A beacon can leave a port: its link is up, it has an address, and a unicast destination is resolved (R102). -/
def Mach.bcnLeaves (m : Mach) (resolved p : Nat) : Bool :=
  (m.ethPort p).link && m.rd (Reg.ETH_P_IP p) ≠ 0 && (!m.bcnUnicast || bitAt resolved p) && !m.skx.silent

/-- The beacon period in ticks: period_us, 100 at least (R102). -/
def Mach.bcnPeriod (m : Mach) : Nat := 500 * max 100 (m.fld Reg.ETH_BCN_CFG.period_us)

/-- The beacon sequence restarts when en is set (R103), and the first sample falls one period later.
DESIGN CHOICE (log entry 188). -/
def Mach.bcnStart (m : Mach) : Mach :=
  { m with eth := { m.eth with bcnSeq := 0, bcnPairs := [], bcnDue := m.now + m.bcnPeriod } }

/-- A beacon tick of the schedule has come (R102). -/
def Mach.bcnTick (m : Mach) : Bool := m.flag Reg.ETH_BCN_CFG.en && decide (m.eth.bcnDue ≤ m.now)

/-- BEACON_SAMPLE (R102 to R104): a beacon tick. `resolved` names the ports on which a unicast destination is
resolved. -/
def execBeaconSample (resolved : Nat) (s : State) : Host.Outcome State Fault Refusal :=
  s.run fun m =>
    if !m.bcnTick || m.inMode .boot then m
    else
      let m := { m with eth := { m.eth with bcnDue := m.eth.bcnDue + m.bcnPeriod } }
      if m.isBacksight && !m.flag Reg.ETH_BCN_CFG.standby_en then m
      else
      let r := m.ptpTime m.time
      let pair : BeaconPair := { ptp := BitVec.ofNat 64 r.2, chn := r.1.chainage }
      let m := { r.1 with eth := { r.1.eth with bcnPairs := (pair :: r.1.eth.bcnPairs).take 4 } }
      let d := m.bcnPayload
      let ports := (List.range 2).filter (fun p => bitAt (m.fld Reg.ETH_BCN_CFG.ports) p)
      let go := ports.filter (m.bcnLeaves resolved)
      let lost := ports.filter (fun p => !m.bcnLeaves resolved p)
      let m := go.foldl (fun (m : Mach) p =>
        (m.emit (.beacon p (m.rd (Reg.ETH_P_CFG p) / 4096) (m.fld Reg.ETH_BCN_CFG.dscp) (m.rd (Reg.ETH_P_IP p))
          (m.rd Reg.ETH_BCN_DST_IP) (m.rd Reg.ETH_BCN_UDP) d)).addWrap Reg.ETH_BCN_SENT.cnt 1) m
      let m := m.addSat Reg.ETH_BCN_DROP.cnt lost.length
      let m := m.raiseRated Ev.bcnDrop 0 .warning (lost.foldl (fun a p => a + 2 ^ p) 0) 0 lost.length joinBits
      { m with eth := { m.eth with bcnSeq := m.eth.bcnSeq + 1 } }

end Sys2Proof.Machine
end

