-- ==== Sys2Proof/Machine/HostRings.lean ====
section
/-! DEFINITION. The host interface (R108 to R146): rings and doorbells, the PCIe link, the diagnostic window, the field
book, telemetry and interrupt vectors. -/

namespace Sys2Proof.Machine

open Sys2Proof

/-! ### Rings (R114 to R120) -/

/-- A ring reports a fault (R115, R117, R118). -/
def Mach.ringFault (m : Mach) (r cause : Nat) : Mach :=
  (m.setRing r { m.ring r with cause := cause }).raise Ev.hstRing .warning r cause

/-- The first reason to refuse a ring; 0 for none (R115). -/
def Mach.ringRefusal (m : Mach) (r : Nat) : Nat :=
  let size := m.fld (Reg.HST_RING_CFG.size r)
  let cpl := m.fld (Reg.HST_RING_CFG.cpl r)
  if ringReserved r then 5
  else if 10 < size then 6
  else if !m.dmaOk (!ringHostWritten r) (m.pair (Reg.HST_RING_BASE_LO r)) (ringEntry r * m.ringSize r) then 3
  else if ringHostWritten r && !(cpl = 20 || (decide (24 ≤ cpl) && decide (cpl < 32))) then 4
  else 0

/-- The number of a CAMO ring's output (R114). -/
def camoOf (r : Nat) : Option Nat := if 12 ≤ r ∧ r < 20 then some (r - 12) else none

/-- A ring is enabled, or refused with a cause (R115, R116). One that a fault has stopped is disabled first (R118). -/
def Mach.ringStart (m : Mach) (r : Nat) : Mach :=
  if m.inMode .boot || m.flag (Reg.HST_RING_CFG.en r) then m
  else
    let c := m.ringRefusal r
    if c ≠ 0 then (m.setFld (Reg.HST_RING_CFG.en r) 0).ringFault r c
    else
      let m := m.setFld (Reg.HST_RING_CFG.en r) 1
      let m := m.setRing r { active := true, cause := (m.ring r).cause, got := (m.ring r).got }
      match camoOf r with
      | some n => m.camDrain n
      | none => m

/-- A ring's en is cleared (R119): HEAD shows the first descriptor not acted on. On a CAMO ring these are the buffers
posted that hold no data yet. -/
def Mach.ringStop (m : Mach) (r : Nat) : Mach :=
  let x := m.ring r
  let m := (m.setFld (Reg.HST_RING_CFG.en r) 0).setRing r { x with active := false, stalled := false }
  match camoOf r with
  | none => m
  | some n =>
    let begun (b : CamBuffer) : Bool := b.filled ≠ 0 || b.refused.isSome
    let kept := (m.camBufs n).takeWhile begun
    let free := (m.camBufs n).dropWhile begun
    let head := (free.head?.map (fun b => b.desc.index)).getD x.head
    (m.setCamBufs n kept).setRing r { m.ring r with head := head }

/-- RING_ENABLE (R115): HST_RING<r>_CFG.en. -/
def execRingEnable (r : Nat) (s : State) : Host.Outcome State Fault Refusal :=
  s.run fun m => if r < 64 then m.ringStart r else m

/-- RING_DISABLE (R119). -/
def execRingDisable (r : Nat) (s : State) : Host.Outcome State Fault Refusal :=
  s.run fun m => if m.inMode .boot || decide (64 ≤ r) then m else m.ringStop r

/-- A doorbell of a ring (R117): the newest index, or a fault. -/
def Mach.ringBell (m : Mach) (r val : Nat) : Mach :=
  if ringReserved r then m.ringFault r 5
  else if m.ringSize r ≤ val % 65536 then m.ringFault r 1
  else m.setRing r { m.ring r with tail := val % 65536 }

/-- DOORBELL (R117, R135): a write to BAR2. Page 0 is the STOP page; other pages and offsets without a doorbell are
discarded. DEDUCED (log entry 152). -/
def execDoorbell (page off val : Nat) (s : State) : Host.Outcome State Fault Refusal :=
  s.run fun m =>
    if page = 0 then m.stop .page
    else if m.inMode .boot || decide (8 < page) || off % 8 ≠ 0 || decide (0x38 < off) then m
    else m.ringBell (8 * (page - 1) + off / 8) val

/-- The opcodes that a host-written ring accepts (R123 to R127). -/
def ringOpcode (r opcode : Nat) : Bool :=
  if r = 0 then decide (0x20 ≤ opcode) && decide (opcode ≤ 0x26)
  else if r = 1 then decide (1 ≤ opcode) && decide (opcode ≤ 6)
  else if r < 10 then opcode = 0x40 || opcode = 0x41
  else if r < 12 then opcode = 0x60
  else opcode = 0x80

/-- A completion target takes another entry now (R120): FIELDBOOK by its own rule, a CQ with a free entry. -/
def Mach.targetRoom (m : Mach) (t : Nat) : Bool := t = 20 || ((m.waiting t).isEmpty && m.ringRoom t)

/-- A station command of a descriptor is still waiting for its tick. -/
def StnCmd.owed : StnCmd → Bool
  | .commit _ _ d => d.isSome | .cancel _ d => d.isSome

/-- A ring's last descriptor is still to be acted on or completed: its completions keep ring order (R118, R162, R194).
DEDUCED (log entry 190). -/
def Mach.ringBusy (m : Mach) (r : Nat) : Bool :=
  (m.ring r).got.isSome ||
  (r = 0 && (m.vgp.abortWait.isSome || m.stn.cmds.any StnCmd.owed)) ||
  (r = 1 && m.vgp.imageWait.isSome) ||
  (decide (2 ≤ r) && decide (r < 10) && (m.layer (r - 2)).wait.isSome) ||
  m.ptn.held.any (fun c => c.change.ring = some r)

/-- A ring fetches: it runs without a fault, holds an entry, and nothing holds its fetching back (R118, R136, R410,
R461). -/
def Mach.ringFetches (m : Mach) (r : Nat) : Bool :=
  let x := m.ring r
  ringHostWritten r && x.active && !x.err && x.head ≠ x.tail && m.linkUp && !m.hst.stopped && !m.pwr.powerFail &&
  !m.ringBusy r && !(m.stagingFull && decide (1 ≤ r) && decide (r < 12))

/-- DESCRIPTOR_FETCHED (R112, R113, R118, R120, R122): a ring takes its next descriptor, unless its completion target
has no room or no window allows the read. A wrong phase stops the ring; an opcode the ring does not know completes
BAD_OPCODE. Any other is dispatched: the row of its opcode acts on it. DEDUCED (log entry 153). -/
def execDescriptorFetched (r : Nat) (d : DescHead) (s : State) : Host.Outcome State Fault Refusal :=
  s.run fun m =>
    if !m.ringFetches r then m
    else
      let x := m.ring r
      let t := m.fld (Reg.HST_RING_CFG.cpl r)
      if !m.targetRoom t then m.setRing r { x with stalled := true }
      else if !m.dmaOk false (m.ringNext r) (ringEntry r) then m.raise Ev.hstWindow .warning r x.head
      else if d.phase ≠ x.phase then (m.setRing r { x with active := false, err := true }).ringFault r 2
      else
        let wrap := x.head + 1 = m.ringSize r
        let h : DescRef := { ring := r, index := x.head, tag := d.tag, opcode := d.opcode, irq := d.irq, quiet := d.quiet,
                             phase := d.phase, target := t }
        let x := { x with
          head := if wrap then 0 else x.head + 1, phase := if wrap then !x.phase else x.phase, stalled := false }
        if ringOpcode r d.opcode then m.setRing r { x with got := some h } else (m.setRing r x).refuse h .badOpcode

/-- HOST_DMA_ERROR (R130): a read for a descriptor came back with an error. DEDUCED (log entry 169). -/
def execHostDmaError (h : DescRef) (status : Nat) (s : State) : Host.Outcome State Fault Refusal :=
  s.run fun m =>
    if !m.holdsDesc h then m else
    let m := m.takeDesc h
    if m.hst.stopped then m.refuse h .stopped
    else (m.raise Ev.hstDmaError (lossSev h) h.ring status).refuse h .dmaError

/-- COMPLETION_QUEUED (R120): what waits for a target is written once it has room, and the rings that stalled for it go
on. While the module is stopped nothing is written (R136). -/
def execCompletionQueued (target : Nat) (s : State) : Host.Outcome State Fault Refusal :=
  s.run fun m =>
    if m.hst.stopped then m
    else
      let m := m.drainFirst.cplDrain target (m.waiting target).length
      if m.targetRoom target then
        forRange 20 (fun r (m : Mach) =>
          if (m.ring r).stalled && m.fld (Reg.HST_RING_CFG.cpl r) = target then m.setRing r { m.ring r with stalled := false }
          else m) m
      else m

/-! ### The PCIe link (R111, R135) -/

/-- The MSI-X table and its pending bits as PCI Express resets them. -/
def Mach.msixReset (m : Mach) : Mach :=
  let m : Mach := forRange 32 (fun v (m : Mach) =>
    ((((m.wr (Reg.HST_MSIX_ADDR_LO v) 0).wr (Reg.HST_MSIX_ADDR_LO v + 4) 0).wr (Reg.HST_MSIX_DATA v) 0).wr
      (Reg.HST_MSIX_CTRL v) 1)) m
  { m with evt := { m.evt with pba := [] } }

/-- FUNCTION_LEVEL_RESET (R111): a stop with source PM; every ring is disabled and the MSI-X table reset. -/
def execFunctionLevelReset (s : State) : Host.Outcome State Fault Refusal :=
  s.run fun m =>
    let m : Mach := forRange 64 (fun r (m : Mach) => if m.flag (Reg.HST_RING_CFG.en r) then m.ringStop r else m) (m.stop .pm)
    m.msixReset

/-- D3HOT_ENTRY (R111): a stop with source PM. -/
def execD3hotEntry (s : State) : Host.Outcome State Fault Refusal := s.run fun m => m.stop .pm

/-- PCIE_LINK_DOWN (R111): EV_HST_LINK, and a stop with source LINK where stop_on_link is 1. -/
def execPcieLinkDown (s : State) : Host.Outcome State Fault Refusal :=
  s.run fun m =>
    if !m.linkUp then m
    else
      let m := { m with hst := { m.hst with linkSpeed := 0, linkWidth := 0 } }.raise Ev.hstLink .warning 0 0
      if m.flag Reg.HST_CFG.stop_on_link then m.stop .link else m

/-- PCIE_LINK_UP (R143): the link has trained, which it does from BOOT stage B on. -/
def execPcieLinkUp (speed width : Nat) (s : State) : Host.Outcome State Fault Refusal :=
  s.run fun m =>
    let known := decide (1 ≤ speed) && decide (speed ≤ 4) && (width = 1 || width = 2 || width = 4 || width = 8)
    if !known || m.linkUp || (m.inMode .boot && decide (m.glb.stage ≤ 1)) then m
    else
      let m := { m with hst := { m.hst with linkSpeed := speed, linkWidth := width } }
      (m.raise Ev.hstLink .info 1 (speed * 16 + width)).drainWaiting.camDrainAll

/-! ### The diagnostic window (R110, R382) -/

/-- Scope DIAG of the survey lock is open (R499). -/
def Mach.diagOpen (m : Mach) : Bool := m.sec.opened.getLsbD 4

/-- The DRAM address of a BAR4 offset. -/
def Mach.diagAddr (m : Mach) (off : Nat) : Nat := m.fld Reg.HST_DIAG.base * unit256M + off

/-- The bytes that a BAR4 read returns: 0 in the state region while the lock is closed. -/
def Mach.diagBytes (m : Mach) (off len : Nat) : List Byte :=
  (List.range len).map (fun i =>
    let a := m.diagAddr off + i
    if stateRegion ≤ a ∧ !m.diagOpen then 0 else m.dramByte a)

/-- DIAG_READ (R110, R382): a read of up to 64 bytes. DEDUCED (log entry 156). -/
def execDiagRead (off len : Nat) (s : State) : Host.Outcome State Fault Refusal :=
  s.run fun m =>
    if 64 < len ∨ unit256M < off + len then m else m.emit (.hostRead (m.diagBytes off len))

/-- DIAG_WRITE (R110): carried out under scope DIAG, else discarded and counted. -/
def execDiagWrite (off : Nat) (data : List Byte) (s : State) : Host.Outcome State Fault Refusal :=
  s.runMem fun m =>
    if unit256M < off + data.length then m
    else if m.diagOpen then m.dramWrite (m.diagAddr off) data
    else m.addSat Reg.HST_DIAG_WDISC.cnt 1

/-! ### The field book as a command -/

/-- FIELDBOOK_DRAIN (R140). -/
def execFieldbookDrain (s : State) : Host.Outcome State Fault Refusal := s.run Mach.bookDrain

/-- The events whose records are limited to one per 10 ms for a source (R528). -/
def ratedEvents : List Ev :=
  [Ev.bcnDrop, Ev.camCrc, Ev.camOrphan, Ev.camTrigSkip, Ev.drmRefreshForced, Ev.drmTargetMiss, Ev.echoMissing,
   Ev.fireLateBlank, Ev.fireOverspeed, Ev.firePlacement, Ev.guardPulse, Ev.guardThin, Ev.guardWrite, Ev.jobStarved,
   Ev.proofDrop, Ev.scrSaturated, Ev.stnSkipped, Ev.tileWait, Ev.trvMiss]

/-- RATE_LIMITED_RECORD (R528): 10 ms after a source's last record, the occurrences counted since raise one. -/
def execRateLimitedRecord (code source : Nat) (s : State) : Host.Outcome State Fault Refusal :=
  s.run fun m =>
    match ratedEvents.find? (fun e => e.code = code) with
    | none => m
    | some e =>
      let r := Tab.get {} m.evt.rate (rateKey code source)
      if r.count ≠ 0 && r.free m.now then m.rateFlush e source else m

/-! ### Telemetry and vectors (R144, R146) -/

/-- Lines printed blank since reset: every cause, every hub (R277). -/
def Mach.blankTotal (m : Mach) : Nat := m.pair Reg.FGD_BLANK_TOTAL_LO

/-- Bytes 8 to 63 of a snapshot (R144). -/
def Mach.snapshot (m : Mach) : List Byte :=
  leBytes 6 m.chainage.toNat ++ leBytes 1 m.chn.vote.code ++ leBytes 1 m.glb.mode.code ++ leBytes 8 m.time.toNat ++
  leBytes 4 (m.rd Reg.CHN_SPEED_UMS) ++ leBytes 4 (m.fld Reg.TRV_CEILING.lines) ++ leBytes 2 (m.fld Reg.THM_MAX.temp) ++
  leBytes 2 (m.fld Reg.PWR_PIN.dw) ++ leBytes 1 (ofBool m.pwr.onBack) ++ leBytes 1 m.activeEngines ++ leBytes 2 0 ++
  leBytes 8 m.blankTotal ++ leBytes 4 m.epo.counter.toNat ++ leBytes 4 m.evt.seq.toNat ++ leBytes 8 0

/-- TLM_SNAPSHOT (R144): a snapshot falls due. -/
def execTlmSnapshot (s : State) : Host.Outcome State Fault Refusal :=
  s.run fun m =>
    if m.inMode .boot || m.fld Reg.HST_CFG.tlm_period_ms = 0 then m
    else m.onBeat .snapshot (m.fld Reg.HST_CFG.tlm_period_ms * 500000) fun m => m.tlmWrite 1 m.snapshot

/-- VECTOR_HOLDOFF_EXPIRY (R146): holdoff has passed since a vector's first pending entry. -/
def execVectorHoldoffExpiry (v : Nat) (s : State) : Host.Outcome State Fault Refusal :=
  s.run fun m =>
    if Tab.get 0 m.evt.vecPending v = 0 ∨ m.fld (Reg.EVT_VEC_CFG.holdoff v) = 0 ∨
       !m.passed (Tab.get 0 m.evt.vecSince v) (50 * m.fld (Reg.EVT_VEC_CFG.holdoff v)) then m
    else m.raiseVector v

end Sys2Proof.Machine
end

