-- ==== Sys2Proof/Machine/Flags.lean ====
section
/-! DEFINITION. The status registers and flags as reads of the state: what BAR0 shows of everything that no register of
the bank holds. -/

namespace Sys2Proof.Machine

open Sys2Proof

/-! ### Helpers -/

/-- The index of an offset in an array of `n` registers `stride` bytes apart. -/
def within (off base stride n : Nat) : Option Nat :=
  if base ≤ off ∧ off < base + stride * n ∧ (off - base) % stride = 0 then some ((off - base) / stride) else none

/-- What the first array that holds an offset shows. -/
def inArray (off base stride n : Nat) (f : Nat → Nat) (rest : Option Nat) : Option Nat :=
  match within off base stride n with
  | some i => some (f i)
  | none => rest

/-- The mask of the indexes below `n` that have a property. -/
def maskOf (n : Nat) (p : Nat → Bool) : Nat := (List.range n).foldl (fun a i => if p i then a + 2 ^ i else a) 0

/-- The low and the high word of a 64-bit value. -/
def loWord (n : Nat) : Nat := n % 2 ^ 32
def hiWord (n : Nat) : Nat := n / 2 ^ 32 % 2 ^ 32

/-! ### GLB, SEC, HST and EVT -/

/-- Seconds of back-off left (R501). -/
def Mach.backoffLeft (m : Mach) : Nat :=
  if m.sec.backoff then max 1 (backoffLength - (m.now - m.sec.backoffSince) / 500000000) else 0

/-- The usage-key slots that hold a key. -/
def Mach.keysPresent (m : Mach) : Nat := maskOf 4 (fun s => !(Tab.get [] m.nand.keys s).isEmpty)

/-- The GLB views (R507). -/
def Mach.viewGlb (m : Mach) (off : Nat) : Option Nat :=
  if off = Reg.GLB_ID_LO then some (loWord m.otp.deviceId.toNat)
  else if off = Reg.GLB_ID_HI then some (hiWord m.otp.deviceId.toNat)
  else if off = Reg.GLB_MODE then some (m.glb.previous.code * 16 + m.glb.mode.code)
  else if off = Reg.GLB_LOCK then
    some (ofBool m.glb.locked * 2 ^ 31 + ofBool m.glb.lockBusy * 2 ^ 30 + m.glb.lockResult * 2 ^ 27 + m.glb.wdisc * 2)
  else if off = Reg.GLB_BOOT then some (m.glb.bootFail * 2 ^ 20 + m.glb.stage * 2 ^ 16 + m.glb.timeMs)
  else none

/-- The SEC views (R508). -/
def Mach.viewSec (m : Mach) (off : Nat) : Option Nat :=
  if off = Reg.SEC_STATUS then
    some (m.backoffLeft * 2 ^ 16 + m.sec.result * 2 ^ 12 + m.sec.fails * 256 + m.sec.opened.toNat)
  else if off = Reg.SEC_FW then
    some (m.otp.rollback * 2 ^ 24 + m.sec.running * 2 ^ 23 + ofBool m.sec.aOk * 2 ^ 22 + ofBool m.sec.bOk * 2 ^ 21 +
      min 7 m.nand.slotA.starts * 2 ^ 18 + min 7 m.nand.slotB.starts * 2 ^ 15)
  else if off = Reg.SEC_FW_VER_A then some m.nand.slotA.version
  else if off = Reg.SEC_FW_VER_B then some m.nand.slotB.version
  else if off = Reg.SEC_KEY_CTRL then some (m.keysPresent * 256 + m.rd off)
  else none

/-- HST_RING<r>_STATUS (R148). -/
def Mach.ringStatus (m : Mach) (r : Nat) : Nat :=
  let x := m.ring r
  x.cause * 256 + ofBool x.stalled * 4 + ofBool x.err * 2 + ofBool x.active

/-- The HST and EVT views (R148, R149). DEDUCED (log entry 157). -/
def Mach.viewHst (m : Mach) (off : Nat) : Option Nat :=
  if off = Reg.HST_STATUS then
    some (m.hst.linkWidth * 2 ^ 20 + m.hst.linkSpeed * 2 ^ 16 + m.hst.stopSrc.toNat * 16 +
      ofBool (m.xfer.isNone && m.hst.rings.all (fun e => e.2.got.isNone)) * 2 + ofBool m.hst.stopped)
  else if off = Reg.HST_FB_STATUS then some (min 65535 m.evt.lostAll * 2 ^ 16 + m.evt.queue.length)
  else if off = Reg.HST_PBA then some (maskOf 32 (fun v => Tab.get false m.evt.pba v))
  else if off = Reg.EVT_SEQ then some m.evt.seq.toNat
  else
    inArray off (Reg.HST_RING_HEAD 0) 0x20 64 (fun r => (m.ring r).head) <|
    inArray off (Reg.HST_RING_TAIL 0) 0x20 64 (fun r => (m.ring r).tail) <|
    inArray off (Reg.HST_RING_STATUS 0) 0x20 64 m.ringStatus <|
    inArray off (Reg.HST_RING_COUNT 0) 0x20 64 (fun r => (m.ring r).count.toNat) none

/-! ### CHN, STN, DTM and ETH -/

/-- CHN_STATUS (R65). -/
def Mach.chnStatus (m : Mach) : Nat :=
  let cal := match (List.range 3).find? (fun c => m.chanType c ≠ 0 && (m.chan c).state = .cal) with
    | some c => c + 1
    | none => 0
  ofBool m.chn.speedLimit * 2 ^ 20 + ofBool (m.chn.slew ≠ 0) * 2 ^ 19 + ofBool m.chn.hold * 2 ^ 18 +
  ofBool (m.chn.lead < 0) * 2 ^ 17 + cal * 2 ^ 15 +
  maskOf 3 (fun c => m.chanType c ≠ 0 && (m.chan c).state = .faulty) * 2 ^ 12 +
  maskOf 3 (fun c => m.chanType c ≠ 0 && (m.chan c).state = .voting) * 2 ^ 9 + m.chn.armCause * 16 + m.chn.vote.code

/-- CHN_<ch>_STATUS (R65). -/
def Mach.chanStatus (m : Mach) (c : Nat) : Nat :=
  let x := m.chan c
  let st := if m.chanType c = 0 then 0 else x.state.code
  ofBool x.indexSeen * 2 ^ 16 + x.amp * 256 + x.cause.code * 16 + st

/-- A channel's position in links, of 48 bits. DESIGN CHOICE (log entry 173). -/
def Mach.chanPos (m : Mach) (c : Nat) : Nat := unsigned 48 ((m.chan c).pos / 131072)

/-- A channel's deviation in links, saturating. -/
def Mach.chanDev (m : Mach) (c : Nat) : Nat :=
  unsigned 32 (clampInt (-(2 ^ 31)) (2 ^ 31 - 1) (sumInt (m.chan c).devHist / 131072))

/-- The oldest stake of a probe. -/
def Mach.stakeHead (m : Mach) (n : Nat) : Option Stake := (Tab.get ({} : Probe) m.chn.probe n).queue.head?

/-- A field of the oldest stake, 0 with none queued (R65). -/
def Mach.stakeView (m : Mach) (f : Stake → Nat) (n : Nat) : Nat := ((m.stakeHead n).map f).getD 0

/-- CHN_PRB<n>_STAKE_CHN_HI (R65). -/
def stakeHi (k : Stake) : Nat :=
  k.num % 256 * 2 ^ 24 + ofBool k.invalid * 2 ^ 18 + ofBool k.held * 2 ^ 17 + ofBool k.rising * 2 ^ 16 + hiWord k.chn.toNat

/-- CHN_PRB<n>_STATUS (R65). -/
def Mach.probeStatus (m : Mach) (n : Nat) : Nat :=
  let x := Tab.get ({} : Probe) m.chn.probe n
  x.ovf * 256 + x.queue.length

/-- The CHN views (R65). -/
def Mach.viewChn (m : Mach) (off : Nat) : Option Nat :=
  let voted := unsigned 48 (m.voted17 / 131072)
  if off = Reg.CHN_STATUS then some m.chnStatus
  else if off = Reg.CHN_NOW_LO then some (loWord m.chn.printed.toNat)
  else if off = Reg.CHN_NOW_HI then some (hiWord m.chn.printed.toNat)
  else if off = Reg.CHN_VOTED_LO then some (loWord voted)
  else if off = Reg.CHN_VOTED_HI then some (hiWord voted)
  else if off = Reg.CHN_DEBT then some (min (2 ^ 32 - 1) m.debt)
  else if off = Reg.CHN_SLEW_PENDING then some (unsigned 32 m.chn.slew)
  else
    inArray off (Reg.CHN_CH_STATUS 0) 0x100 5 m.chanStatus <|
    inArray off (Reg.CHN_POS_LO 0) 0x100 5 (fun c => loWord (m.chanPos c)) <|
    inArray off (Reg.CHN_POS_HI 0) 0x100 5 (fun c => hiWord (m.chanPos c)) <|
    inArray off (Reg.CHN_DEV 0) 0x100 5 m.chanDev <|
    inArray off (Reg.CHN_PRB_STATUS 0) 0x40 8 m.probeStatus <|
    inArray off (Reg.CHN_PRB_STAKE_CHN_LO 0) 0x40 8 (m.stakeView (fun k => loWord k.chn.toNat)) <|
    inArray off (Reg.CHN_PRB_STAKE_CHN_HI 0) 0x40 8 (m.stakeView stakeHi) <|
    inArray off (Reg.CHN_PRB_STAKE_TIME_LO 0) 0x40 8 (m.stakeView (fun k => loWord k.time.toNat)) <|
    inArray off (Reg.CHN_PRB_STAKE_TIME_HI 0) 0x40 8 (m.stakeView (fun k => hiWord k.time.toNat)) none

/-- The slots in a set of states. -/
def Mach.countSlots (m : Mach) (p : SlotState → Bool) : Nat := (m.stn.slot.filter (fun e => p e.2.state)).length

/-- The STN views (R86). -/
def Mach.viewStn (m : Mach) (off : Nat) : Option Nat :=
  if off = Reg.STN_CMD then some (ofBool m.stn.busy * 2 ^ 31 + m.stn.result * 2 ^ 28 + m.fld Reg.STN_CMD.slot * 256)
  else if off = Reg.STN_STATUS then
    some (m.countSlots SlotState.waiting * 2 ^ 16 + m.countSlots SlotState.retired)
  else if off = Reg.STN_OUT_STATE then some (maskOf 16 m.outLevel)
  else none

/-- The DTM and ETH views (R106, R107). -/
def Mach.viewDtm (m : Mach) (off : Nat) : Option Nat :=
  let d := m.dtm
  if off = Reg.DTM_STATUS then
    some (d.stepCount * 256 + ofBool d.epochNeg * 8 + ofBool d.adjRefused * 4 + ofBool d.pendingOff.isSome)
  else if off = Reg.DTM_TIME_LO then some (loWord m.time.toNat)
  else if off = Reg.DTM_TIME_HI then some (hiWord m.time.toNat)
  else if off = Reg.DTM_TIME_FRAC then some (loWord d.clock.toNat)
  else if off = Reg.DTM_TICKS_LO then some (loWord m.now)
  else if off = Reg.DTM_TICKS_HI then some (hiWord m.now)
  else if off = Reg.DTM_SNAP_TIME_LO then some (loWord d.snapTime.toNat)
  else if off = Reg.DTM_SNAP_TIME_HI then some (hiWord d.snapTime.toNat)
  else if off = Reg.DTM_SNAP_CHN_LO then some (loWord d.snapChn.toNat)
  else if off = Reg.DTM_SNAP_CHN_HI then some (d.snapVote * 2 ^ 16 + hiWord d.snapChn.toNat)
  else if off = Reg.DTM_SNAP_TICKS_LO then some (loWord d.snapTicks.toNat)
  else if off = Reg.DTM_SNAP_TICKS_HI then some (hiWord d.snapTicks.toNat)
  else if off = Reg.ETH_PTP_STATUS then
    some (m.eth.portState * 2 ^ 28 + m.eth.servoState * 2 ^ 26 + m.ptpPort * 2 ^ 25)
  else
    inArray off (Reg.ETH_P_STATUS 0) 0x100 2 (fun p =>
      m.rd off + ofBool (m.ethPort p).anDone * 2 + ofBool (m.ethPort p).link) none

/-! ### TRV, CMP, VGP and FGD -/

/-- The version that a table select names: 0 in use, then those pending, oldest first (R228). -/
def Mach.tableSelected (m : Mach) (kind idx planes version : Nat) : Option Version :=
  (m.inForce (tableId kind idx) planes)[version]?

/-- What TRV_SCR_TBL_SEL selects: the table code, the plane, and the version where there is one. -/
def Mach.scrSelected (m : Mach) : Nat × Nat × Option Version :=
  let t := m.fld Reg.TRV_SCR_TBL_SEL.table
  let p := m.fld Reg.TRV_SCR_TBL_SEL.plane
  (t, p, if 1 ≤ t ∧ t ≤ 4 ∧ p < 10 then m.tableSelected t p (2 ^ p) (m.fld Reg.TRV_SCR_TBL_SEL.version) else none)

/-- What CMP_TBL_SEL selects; its tables 1 and 2 are MATRIX and CURVE. -/
def Mach.cmpSelected (m : Mach) : Nat × Nat × Option Version :=
  let t := m.fld Reg.CMP_TBL_SEL.table + 4
  let n := m.fld Reg.CMP_TBL_SEL.layer
  (t, n, if (t = 5 ∨ t = 6) ∧ n < 7 then m.tableSelected t n 0x3FF (m.fld Reg.CMP_TBL_SEL.version) else none)

/-- Entry `e` of a selection: 0 beyond its table or without a version (R228). -/
def Mach.selEntry (m : Mach) (s : Nat × Nat × Option Version) (e : Nat) : Nat :=
  match s.2.2 with
  | some v => if e < m.tableSize s.1 s.2.1 then v.entry (tableId s.1 s.2.1) e % 2 ^ 32 else 0
  | none => 0

/-- The epoch of a selection; all ones for none. DEDUCED (log entry 20). -/
def selEpoch (s : Nat × Nat × Option Version) : Nat :=
  match s.2.2 with
  | some v => v.epoch.toNat
  | none => 0xFFFFFFFF

/-- TRV_E<e>_STATUS (R256). -/
def Mach.engStatus (m : Mach) (e : Nat) : Nat :=
  let g := m.engine e
  g.state.code * 2 ^ 30 + (match g.cur with | some k => keyPlane k * 2 ^ 16 + keyIdx k | none => 0)

/-- The TRV views (R254, R256, R229). -/
def Mach.viewTrv (m : Mach) (off : Nat) : Option Nat :=
  if off = Reg.TRV_STATUS then
    some (m.activeEngines * 2 ^ 24 + m.trv.steps * 2 ^ 20 + m.trv.src * 2 ^ 16 + ofBool m.trv.capped * 2)
  else if off = Reg.TRV_FIRE_LEAD_EFF then some m.leadEff
  else if off = Reg.TRV_TILE_CAP then some m.tileCap
  else if off = Reg.TRV_TILE_FREE then some m.tileFree
  else if off = Reg.TRV_QUEUE_NORMAL then some ((m.queue.filter (fun k => !m.isUrgent k)).length)
  else if off = Reg.TRV_QUEUE_URGENT then some ((m.queue.filter m.isUrgent).length)
  else if off = Reg.TRV_SCR_TBL_EPOCH then some (selEpoch m.scrSelected)
  else if off = Reg.TRV_SCR_TBL_SIZE then some (m.tableSize (m.fld Reg.TRV_SCR_TBL_SEL.table) (m.fld Reg.TRV_SCR_TBL_SEL.plane))
  else inArray off (Reg.TRV_E_STATUS 0) 0x10 80 m.engStatus none

/-- CMP_L<n>_ITEM_NOW and CMP_L<n>_SHOWN (R206). -/
def Mach.itemNow (m : Mach) (n : Nat) : Nat := ((m.layerAt n m.chainage).map (fun r => r.1.toNat)).getD 0xFFFFFFFF
def Mach.itemShown (m : Mach) (n : Nat) : Nat :=
  match m.layerAt n m.chainage with
  | some (_, some i) => i.toNat
  | _ => 0xFFFFFFFF

/-- The CMP views (R206). -/
def Mach.viewCmp (m : Mach) (off : Nat) : Option Nat :=
  if off = Reg.CMP_STATUS then some (maskOf 8 (fun n => (m.layer n).wait.isSome))
  else if off = Reg.CMP_TBL_EPOCH then some (selEpoch m.cmpSelected)
  else
    inArray off (Reg.CMP_TBL_DATA 0) 4 256 (fun i => m.selEntry m.cmpSelected (256 * m.fld Reg.CMP_TBL_SEL.page + i)) <|
    inArray off (Reg.CMP_L_FENCE 0) 0x40 8 (fun n => (m.layer n).fence.toNat) <|
    inArray off (Reg.CMP_L_ITEM_NOW 0) 0x40 8 m.itemNow <|
    inArray off (Reg.CMP_L_SHOWN 0) 0x40 8 m.itemShown <|
    inArray off (Reg.CMP_L_HELD 0) 0x40 8 (fun n => (m.liveRanges n).length * 2 ^ 16 + ((m.layer n).items.filter (m.itemLive n)).length) none

/-- VGP_STATUS (R179). -/
def Mach.vgpStatus (m : Mach) : Nat :=
  (2048 - m.poolUsed) * 2 ^ 20 + ((List.range 8).filter (fun j => (m.job j).state ≠ .free)).length * 2 ^ 16 +
  ofBool m.vgp.imageWait.isSome * 256 + (m.vgp.bad.filter (fun b => b.request.isSome)).length

/-- VGP_JOB<j>_STATE (R179). DEDUCED (log entry 21). -/
def jobStatus (x : Job) : Nat :=
  ofBool x.closed * 2 ^ 17 + ofBool x.streamed * 2 ^ 16 + x.tag % 256 * 256 + x.state.code

/-- The VGP views (R179). -/
def Mach.viewVgp (m : Mach) (off : Nat) : Option Nat :=
  if off = Reg.VGP_STATUS then some m.vgpStatus
  else if off = Reg.VGP_STORE_SIZE then some m.storeSize
  else if off = Reg.VGP_STORE_FREE then some m.storeFree
  else
    inArray off (Reg.VGP_JOB_STATE 0) 0x20 8 (fun j => jobStatus (m.job j)) <|
    inArray off (Reg.VGP_JOB_EXTENTS 0) 0x20 8 (fun j => m.jobHeld (m.job j)) <|
    inArray off (Reg.VGP_JOB_RESERVED 0) 0x20 8 (fun j => (m.job j).reserve - m.jobUsed (m.job j)) <|
    inArray off (Reg.VGP_JOB_REPEATS 0) 0x20 8 (fun j => if (m.job j).hasLines then m.jobRepeats (m.job j) else 0) <|
    inArray off (Reg.VGP_JOB_STARVED 0) 0x20 8 (fun j => (m.job j).starved) <|
    inArray off (Reg.VGP_JOB_BLANKED 0) 0x20 8 (fun j => (m.job j).blanked) none

/-- The FGD views (R290, R305). -/
def Mach.viewFgd (m : Mach) (off : Nat) : Option Nat :=
  let pitch := (m.jobNow.map Job.pitch).getD 0
  if off = Reg.FGD_STATUS then
    some (ofBool m.fgd.geoOk * 8 + ofBool m.fgd.warn * 4 + ofBool m.fgd.downPending * 2 + ofBool m.fgd.downActive)
  else if off = Reg.FGD_PITCH_EFF_LO then some (loWord pitch)
  else if off = Reg.FGD_PITCH_EFF_HI then some (hiWord pitch)
  else if off = Reg.FGD_HEAD_LIMIT then some m.headLimit
  else if off = Reg.FGD_G_STATUS then some m.guardStatus
  else none

/-! ### SKX and CAM -/

/-- The lowest FOM of a lane over the last second; 0 where it has none. DEDUCED (log entry 213). -/
def Mach.lowestFom (m : Mach) (x : Lane) : Nat :=
  match x.foms.find? (fun e => decide (m.now < e.1 + 500000000)) with | some e => e.2 | none => 0

/-- SKX_L<n>_STATUS (R335). -/
def Mach.laneStatus (m : Mach) (n : Nat) : Nat :=
  let x := m.lane n
  let hub := m.hubOfLane n
  let bonded := match hub with | some h => m.flag (Reg.SKX_HUB_CFG.bonded h) | none => false
  let timing := match hub with | some h => decide (m.timingLane h = n) && x.state = .up | none => false
  x.state.code * 2 ^ 28 + x.rate * 2 ^ 26 + ofBool bonded * 2 ^ 25 + ofBool timing * 2 ^ 24 + x.port % 2 * 2 ^ 23 +
  x.trainCause * 2 ^ 16 + m.lowestFom x * 256 + x.fom

/-- SKX_HUB<n>_STATUS (R335). -/
def Mach.hubStatus (m : Mach) (n : Nat) : Nat :=
  let x := m.hub n
  let age := match x.tlmTick with | some t => min 255 ((m.now - t) / 500000) | none => 255
  let port := match x.masterPort with | some p => if p < 2 then p else 3 | none => 3
  x.state.code * 2 ^ 29 + ofBool x.master * 2 ^ 28 + port * 2 ^ 26 + leField x.caps 10 2 % 1024 * 2 ^ 16 + x.hash * 256 + age

/-- SKX_L<n>_EQ: where the receiver's equaliser has adapted to (R307), which nothing in the spec fixes (log entry 71).
DESIGN CHOICE (log entry 71). -/
def Mach.equaliser (m : Mach) (n : Nat) : Nat :=
  if (m.lane n).state = .off then 0 else Config.openValue 71 (n + 64 * m.now)

/-- The SKX views (R335). -/
def Mach.viewSkx (m : Mach) (off : Nat) : Option Nat :=
  let up := maskOf 40 m.laneUp
  if off = Reg.SKX_UP_LO then some (loWord up)
  else if off = Reg.SKX_UP_HI then some (hiWord up)
  else
    inArray off (Reg.SKX_L_STATUS 0) 0x800 40 m.laneStatus <|
    inArray off (Reg.SKX_L_EQ 0) 0x800 40 m.equaliser <|
    inArray off (Reg.SKX_HUB_STATUS 0) 0x40 40 m.hubStatus none

/-- CAM_X<k>_STATUS (R359): 0 OFF, 1 DISCOVERY, 2 UP, 3 FAILED. -/
def Mach.connStatus (m : Mach) (k : Nat) : Nat :=
  match m.connDev k with
  | none => 0
  | some d =>
    let x := m.dev d
    let st := if bitAt m.cam.connUp k then 2
      else if x.state = .discovery then 1
      else if x.state = .off then 0 else 3
    st * 2 ^ 28 + m.fld (Reg.CAM_D_CFG.rate d) * 2 ^ 24 + d * 2 ^ 22

/-- CAM_C<c>_GEN (R360). -/
def Mach.genStatus (m : Mach) (c : Nat) : Nat :=
  let x := m.ctx c
  ofBool x.copying.isSome * 2 ^ 30 + x.result * 2 ^ 28 + ofBool x.pending.isSome * 2 ^ 27

/-- CAM_C<c>_STATUS (R360). -/
def Mach.ctxStatus (m : Mach) (c : Nat) : Nat :=
  match m.frame c with
  | some f => 2 ^ 31 + f.lines.length
  | none => 0

/-- The CAM views (R359, R360, R378). -/
def Mach.viewCam (m : Mach) (off : Nat) : Option Nat :=
  if off = Reg.CAM_STATUS then
    some (maskOf 8 (fun c => (m.frame c).isSome) * 2 ^ 16 + maskOf 4 (fun d => (m.dev d).state = .up) * 256 + m.cam.connUp % 256)
  else if off = Reg.CAM_TBL_DATA then some (m.camTblEntry % 2 ^ 32)
  else if off = Reg.CAM_CLS_STATUS then some (m.cls.benchStatus * 2 ^ 28)
  else if off = Reg.CAM_CLS_OVR_STATUS then some (m.cls.ovrResult * 2 ^ 28 + m.cls.keep.length)
  else
    inArray off (Reg.CAM_X_STATUS 0) 0x10 8 m.connStatus <|
    inArray off (Reg.CAM_D_STATUS 0) 0x40 4 (fun d => (m.dev d).state.code * 2 ^ 28 + (m.dev d).cause * 2 ^ 24) <|
    inArray off (Reg.CAM_SPILL_FILL 0) 0x10 8 m.spillFill <|
    inArray off (Reg.CAM_CLS_P_ND 0) 0x20 10 m.closureDown <|
    inArray off (Reg.CAM_C_GEN 0) 0x100 8 m.genStatus <|
    inArray off (Reg.CAM_C_ACTIVE_GEN 0) 0x100 8 (fun c => (m.ctx c).active.num.toNat) <|
    inArray off (Reg.CAM_C_PENDING_GEN 0) 0x100 8 (fun c => (((m.ctx c).pending).map (fun g => g.num.toNat)).getD 0) <|
    inArray off (Reg.CAM_C_FRAME 0) 0x100 8 (fun c => (m.ctx c).frameNum.toNat) <|
    inArray off (Reg.CAM_C_STATUS 0) 0x100 8 m.ctxStatus none

/-! ### DRM, MOT, THM, PTN and PWR -/

/-- MOT_A<a>_STATUS (R457). -/
def Mach.axisStatus (m : Mach) (a : Nat) : Nat :=
  let x := m.axis a
  x.state.code * 2 ^ 28 + ofBool x.posValid * 2 ^ 27 + ofBool x.fast * 2 ^ 26 + ofBool x.within * 2 ^ 25 +
  ofBool x.returning * 2 ^ 24 + x.faultCause * 2 ^ 20 + x.load

/-- The MOT views (R457). The configuration of a compare unit stands in the bank. -/
def Mach.viewMot (m : Mach) (off : Nat) : Option Nat :=
  if off = Reg.MOT_STATUS then
    some (maskOf 12 (fun a => (m.axis a).state = .fault) * 2 ^ 16 +
      maskOf 12 (fun a => (m.axis a).state = .moving || (m.axis a).state = .geared || (m.axis a).state = .homing))
  else
    inArray off (Reg.MOT_A_STATUS 0) 0x100 12 m.axisStatus <|
    inArray off (Reg.MOT_A_POS 0) 0x100 12 (fun a => unsigned 32 (m.axis a).at) <|
    inArray off (Reg.MOT_A_VEL 0) 0x100 12 (fun a => unsigned 32 ((m.axis a).vel.tdiv 65536)) <|
    inArray off (Reg.MOT_A_CMP_CFG 0 0) 0x100 12 (fun a => m.rd off + ((m.axis a).cmp 0).state.code * 2 ^ 28) <|
    inArray off (Reg.MOT_A_CMP_CFG 0 1) 0x100 12 (fun a => m.rd off + ((m.axis a).cmp 1).state.code * 2 ^ 28) none

/-- PTN_STATUS (R434). -/
def Mach.ptnStatus (m : Mach) : Nat :=
  m.ptn.state.code * 2 ^ 29 + m.role * 2 ^ 27 + m.ptn.straps % 4 * 2 ^ 25 + ofBool (m.ptn.straps = 3) * 2 ^ 24 +
  ofBool m.ptn.inStep * 2 ^ 23 + ofBool m.ptn.stale * 2 ^ 22 + ofBool m.ptn.majority * 2 ^ 21 +
  ofBool m.ptn.commitHold * 2 ^ 20 + m.hubsHeld.length * 256 + m.majorityN

/-- PTN_LAG (R434): the age of the oldest record not acknowledged, or how long a standby has been behind. -/
def Mach.ptnLag (m : Mach) : Nat :=
  match (if m.isBacksight then m.ptn.lagSince else m.ptn.stagedAt.head?) with
  | some t => min (2 ^ 32 - 1) ((m.now - t) / 500)
  | none => 0

/-- The PTN views (R434). -/
def Mach.viewPtn (m : Mach) (off : Nat) : Option Nat :=
  let held := m.hubsHeld.foldl (fun n h => n + 2 ^ h) 0
  if off = Reg.PTN_STATUS then some m.ptnStatus
  else if off = Reg.PTN_LAG then some m.ptnLag
  else if off = Reg.PTN_SEQ then some (if m.isBacksight then m.ptn.applied.toNat else m.ptn.sent.toNat)
  else if off = Reg.PTN_CLAIM then some (m.ptn.claim % 2 ^ 32)
  else if off = Reg.PTN_HELD_LO then some (loWord held)
  else if off = Reg.PTN_HELD_HI then some (hiWord held)
  else none

/-- DRM_P<k>_LAT_MAX: the largest latency of a port over the last second (R397, R399). -/
def Mach.latMax (m : Mach) (p : Nat) : Nat :=
  match placeWorst m.now (Tab.get [] m.drm.lats p) none with | e :: _ => min 65535 e.2 | [] => 0

/-- The DRM, THM and PWR views (R399, R475, R474). -/
def Mach.viewPwr (m : Mach) (off : Nat) : Option Nat :=
  if off = Reg.DRM_STATUS then some m.drmStatus
  else if off = Reg.THM_STATUS then some (m.trv.thermalSteps * 2 ^ 28 + maskOf 21 m.sensorBad)
  else if off = Reg.PWR_STATUS then
    some (ofBool m.pwr.powerFail * 2 ^ 31 + ofBool m.pwr.holdupOk * 2 ^ 30 + m.trv.supplySteps * 256 +
      ofBool m.pwr.vbackGood * 8 + ofBool m.pwr.vmainGood * 4 + ofBool m.pwr.onBack)
  else
    inArray off (Reg.DRM_P_LAT_MAX 0) 0x20 12 m.latMax <|
    inArray off (Reg.DRM_CH_REF 0) 0x20 16 (fun c => (m.dramCh c).owed) none

/-! ### Every view -/

/-- What BAR0 shows at the offset of a register that is no register of the bank, by block (R13). -/
def Mach.view (m : Mach) (off : Nat) : Option Nat :=
  match off / 65536 with
  | 0 => m.viewGlb off
  | 1 => m.viewHst off
  | 2 => m.viewChn off
  | 3 => m.viewStn off
  | 4 => m.viewDtm off
  | 5 => m.viewDtm off
  | 6 => m.viewTrv off
  | 7 => m.viewCmp off
  | 8 => m.viewVgp off
  | 9 => m.viewFgd off
  | 10 => m.viewSkx off
  | 11 => m.viewSkx off
  | 12 => m.viewCam off
  | 13 => m.viewCam off
  | 14 => m.viewPwr off
  | 16 => m.viewMot off
  | 17 => m.viewPwr off
  | 19 => m.viewPtn off
  | 20 => m.viewPwr off
  | 21 => m.viewSec off
  | 22 => m.viewHst off
  | _ => none

end Sys2Proof.Machine
end

