-- ==== Sys2Proof/Machine/Registers.lean ====
section
/-! DEFINITION. BAR0 as the host reads and writes it (R7 to R14): the access codes, the _LO/_HI pairs, the table
windows, and what a register's new value sets off. -/

namespace Sys2Proof.Machine

open Sys2Proof

/-! ### The 64-bit pairs (R11) -/

/-- An offset in a pair row. DEDUCED (log entry 11). -/
def pairAt (off : Nat) (p : Nat × Nat × Nat × Nat × Nat × Bool) : Bool :=
  (RegRow.index ⟨p.1, p.2.1, p.2.2.1, p.2.2.2.1, p.2.2.2.2.1, []⟩ off).isSome

/-- The offset is the _LO register of a pair. -/
def isPairLo (off : Nat) : Bool := pairRows.any (pairAt off)

/-- The offset is the _LO register of a pair that software writes. -/
def isWritableLo (off : Nat) : Bool := pairRows.any (fun p => p.2.2.2.2.2 && pairAt off p)

/-! ### Reading -/

/-- In BOOT only the GLB and SEC blocks answer (R490). -/
def Mach.answers (m : Mach) (off : Nat) : Bool := !m.inMode .boot || off / 65536 = 0 || off / 65536 = 21

/-- The bits of a register that a read shows: not those of WO and W1S fields, nor reserved ones (R8, R10).
DEDUCED (log entry 171). -/
def RegRow.readMask (r : RegRow) : Nat :=
  r.fields.foldl (fun n f => if f.acc = .wo ∨ f.acc = .w1s then n else n ||| withBits 0 f.hi f.lo (2 ^ 32 - 1)) 0

/-- What a register reads, before any latch. DESIGN CHOICE (log entry 170). -/
def Mach.regRead (m : Mach) (off : Nat) : Nat :=
  match findRow (blockRows off) off with
  | none => 0
  | some (r, _) =>
    let v := match Tab.get none m.loStage off with
      | some w => w.toNat
      | none => (m.view off).getD (m.rd off)
    (v % 2 ^ 32) &&& r.readMask

/-- The bounds of the table windows (R228, R261, R275). -/
def scrWindow : Nat := 0x200000
def remapWindow : Nat := 0x240000
def waveWindow : Nat := 0x244000
def waveEnd : Nat := 0x246000
def bar0Size : Nat := 0x400000

/-- The key of a waveform entry at a window offset: type, code and band. Code 0 has none. -/
def waveKey (d : Nat) : Nat := (d / 512 * 7 + (d % 512 / 64)) * 16 + d % 64 / 4

/-- The waveform window holds entries for codes 1 to 7 of each type. -/
def waveHas (d : Nat) : Bool := decide (d % 512 / 64 < 7)

/-- What a table window shows at an aligned offset. -/
def Mach.windowRead (m : Mach) (off : Nat) : Nat :=
  if off < remapWindow then m.selEntry m.scrSelected (65536 * m.fld Reg.TRV_SCR_TBL_SEL.page + (off - scrWindow) / 4)
  else if off < waveWindow then
    let h := m.fld Reg.FGD_TBL_SEL.head
    let k := (off - remapWindow) / 4
    if h < 400 ∧ k < (m.headRec h).noz then m.remapEntry h k else 0
  else if off < waveEnd && waveHas (off - waveWindow) then Tab.get 0 m.fgd.wave (waveKey (off - waveWindow))
  else 0

/-- What BAR0 shows at an aligned offset (R7, R14), with the latched half of a pair (R11). -/
def Mach.bar0Read (m : Mach) (off : Nat) : Nat :=
  if !m.answers off then 0
  else if scrWindow ≤ off then m.windowRead off
  else
    match Tab.get none m.hiLatch off with
    | some w => w.toNat
    | none => m.regRead off

/-- Latch the register at an offset as it reads now. DEDUCED (log entry 10). -/
def Mach.latch (m : Mach) (off : Nat) : Mach :=
  { m with hiLatch := Tab.set none m.hiLatch off (some (word (m.regRead off))) }

/-- A 32-bit read of BAR0: of a _LO register it latches the _HI half, and of DTM_TIME_LO the fraction too (R11, R92); a
latched half is given to one read; one of CAM_TBL_DATA advances its index (R350). -/
def Mach.bar0Access (m : Mach) (off : Nat) : Mach :=
  let m' := m.emit (.hostRead (leBytes 4 (m.bar0Read off)))
  if !m.answers off then m'
  else if isPairLo off then
    let m' := m'.latch (off + 4)
    if off = Reg.DTM_TIME_LO then m'.latch Reg.DTM_TIME_FRAC else m'
  else if off = Reg.CAM_TBL_DATA then m'.addWrap Reg.CAM_TBL_IDX.idx 1
  else { m' with hiLatch := Tab.set none m'.hiLatch off none }

/-- LO_READ_LATCH (R11): a read of BAR0. One of another size than 32 bits, or not aligned, returns 0xFFFF_FFFF (R7).
DEDUCED (log entry 9). -/
def execLoReadLatch (acc : BarRead) (s : State) : Host.Outcome State Fault Refusal :=
  s.run fun m =>
    if bar0Size ≤ acc.addr then m
    else if acc.size ≠ 4 ∨ acc.addr % 4 ≠ 0 then m.emit (.hostRead (leBytes 4 0xFFFFFFFF))
    else m.bar0Access acc.addr

/-! ### Access codes (R8, R9, R499) -/

/-- Words that software hands over without reading them back: the reply and the key data of SEC. -/
def isSecretWord (off : Nat) : Bool :=
  (within off (Reg.SEC_RESP 0) 4 8).isSome || (within off (Reg.SEC_KEY_DATA 0) 4 8).isSome

/-- A field takes what is written to it now. -/
def Mach.fieldOpen (m : Mach) (off : Nat) (a : Acc) : Bool :=
  match a with
  | .rw => true
  | .rws => m.rwsOpen
  | .rwlFactory => m.sec.opened.getLsbD 1
  | .rwlCeilings => m.ceilingsOpen
  | .wo => isSecretWord off
  | _ => false

/-- A register's word after a write. -/
def Mach.written (m : Mach) (off : Nat) (r : RegRow) (old val : Nat) : Nat :=
  r.fields.foldl (fun n f => if m.fieldOpen off f.acc then withBits n f.hi f.lo (bitsOf val f.hi f.lo) else n) old

/-- Some field of a register takes a write now. -/
def Mach.takes (m : Mach) (off : Nat) (r : RegRow) : Bool := r.fields.any (fun f => m.fieldOpen off f.acc)

/-- A register that holds an RWS field. -/
def RegRow.hasRws (r : RegRow) : Bool := r.fields.any (fun f => f.acc = .rws)

/-- The registers of Fire Guard in the FGD block (R291). -/
def isGuard (off : Nat) : Bool := decide (0x98000 ≤ off) && decide (off < 0xA0000)

/-- A write after the lock that discards RWS fields: counted, and for Fire Guard counted and reported again (R497,
R291). -/
def Mach.lockedWrite (m : Mach) (off : Nat) (r : RegRow) : Mach :=
  if !m.glb.locked || !r.hasRws then m
  else
    let m := m.countDiscard
    if isGuard off then
      (m.addSat Reg.FGD_G_WDISC.cnt 1).raiseRated Ev.guardWrite 0 .warning off 0 1 (fun _ n => n)
    else m

/-! ### What a new value sets off -/

/-- A limit just written that is looser than its ceiling is taken as the ceiling (R292, R299). -/
def Mach.tightenOne (m : Mach) (off : Nat) : Mach :=
  let top (m : Mach) (f c : Fld) : Mach := m.setFld f (min (m.fld f) (m.fld c))
  if !m.rwsOpen then m
  else if off = Reg.FGD_G_NOZ then top m Reg.FGD_G_NOZ.nozzle_max Reg.FGD_G_NOZ_CEIL.ceil
  else if off = Reg.FGD_G_GAIN then
    let hi := clampNat 0x0800 0x1800 (m.fld Reg.FGD_G_GAIN.gain_max)
    let lo := clampNat 0x0800 0x1800 (m.fld Reg.FGD_G_GAIN.gain_min)
    (m.setFld Reg.FGD_G_GAIN.gain_max (min hi (m.fld Reg.FGD_G_GAIN_CEIL.max))).setFld Reg.FGD_G_GAIN.gain_min
      (max lo (m.fld Reg.FGD_G_GAIN_CEIL.min))
  else if off = Reg.FGD_G_GAIN_RATE then top m Reg.FGD_G_GAIN_RATE.rate Reg.FGD_G_GAIN_RATE.rate_ceil
  else
    match within off (Reg.FGD_G_T_PW 0) 0x10 16, within off (Reg.FGD_G_T_VOL 0) 0x10 16, within off (Reg.MOT_A_CEIL 0) 0x100 12 with
    | some t, _, _ => top m (Reg.FGD_G_T_PW.pw_max t) (Reg.FGD_G_T_PW.pw_ceil t)
    | _, some t, _ => top m (Reg.FGD_G_T_VOL.head_vol_max t) (Reg.FGD_G_T_VOL_CEIL.ceil t)
    | _, _, some a => top m (Reg.MOT_A_CEIL.i_ceil a) (Reg.MOT_A_CEIL.i_ceil_max a)
    | _, _, _ => m

/-- A vector's mask is cleared: the message that was held back goes out (R146). DEDUCED (log entry 13). -/
def Mach.vectorUnmasked (m : Mach) (v : Nat) : Mach :=
  if Tab.get false m.evt.pba v && !m.flag (Reg.HST_MSIX_CTRL.mask v) then
    ({ m with evt := { m.evt with pba := Tab.set false m.evt.pba v false } } : Mach).emit
      (.msix v (BitVec.ofNat 64 (m.pair (Reg.HST_MSIX_ADDR_LO v))) (word (m.rd (Reg.HST_MSIX_DATA v))))
  else m

/-- Swaths that were URGENT before the lead changes stay so, those that an engine has selected among them (R238).
DEDUCED (log entry 14). -/
def Mach.keepUrgent (m : Mach) : Mach :=
  let held := (m.trv.swath.filter (fun e => e.2.claimed.isSome && !e.2.rendering)).map (fun e => e.1)
  ((m.queue ++ held).filter m.isUrgent).foldl (fun (m : Mach) k => m.setSwath k { m.swath k with urgent := true }) m

/-- An enable bit moved. -/
inductive Edge where
  | rose | fell | stayed
  deriving DecidableEq, Repr

/-- How bit 31 moved. -/
def edge31 (old new : Nat) : Edge :=
  if bitAt old 31 = bitAt new 31 then .stayed else if bitAt new 31 then .rose else .fell

/-- What follows a register's change from `old`, by register. DEDUCED (log entry 8). -/
def Mach.afterWrite (m : Mach) (off old : Nat) : Mach :=
  let m := (m.tightenOne off).guardNote off
  let e := edge31 old (m.rd off)
  if off = Reg.CHN_VOTE_CFG then m.setFld Reg.CHN_VOTE_CFG.dev_window (clampNat 10 1000 (m.fld Reg.CHN_VOTE_CFG.dev_window))
  else if (within off (Reg.CHN_CFG 0) 0x100 5).isSome then m.chanOff ((within off (Reg.CHN_CFG 0) 0x100 5).getD 0)
  else if off = Reg.TRV_PARK_REQ then m.parkUpdate
  else if off = Reg.TRV_CFG then m.updateCeiling
  else if off = Reg.FGD_CFG then m.downCleared
  else if off = Reg.CAM_CLS_CFG then
    m.stripsSince (m.measuring.filter (fun c => m.flag Reg.CAM_CLS_CFG.trig && !(bitAt old 28 && bitAt old (16 + c))))
  else if off = Reg.ETH_BCN_CFG then (if e = .rose then m.bcnStart else m)
  else if off = Reg.ETH_PTP_INTV then m.ptpIntervals
  else if (within off (Reg.ETH_P_CFG 0) 0x100 2).isSome then m.ethOff ((within off (Reg.ETH_P_CFG 0) 0x100 2).getD 0)
  else if (within off (Reg.STN_OUT_CFG 0) 8 16).isSome then
    let n := (within off (Reg.STN_OUT_CFG 0) 8 16).getD 0
    m.driveLand n ((m.wr off old).outLand n)
  else
    match within off (Reg.HST_MSIX_CTRL 0) 0x10 32, within off (Reg.SKX_L_CFG 0) 0x800 40, within off (Reg.SKX_HUB_CFG 0) 0x40 40,
      within off (Reg.MOT_A_CFG 0) 0x100 12 with
    | some v, _, _, _ => m.vectorUnmasked v
    | _, some n, _, _ =>
      match e with
      | .rose => m.retrain n
      | .fell => m.laneOff n
      | .stayed => m
    | _, _, some h, _ => if m.rwsOpen then (m.adoptCaps h).hubUpdate h else m
    | _, _, _, some a =>
      match e with
      | .rose => (m.setFld (Reg.MOT_A_CFG.en a) 0).enableAxis a
      | .fell => m.disableAxis a
      | .stayed => m
    | _, _, _, _ => m

/-- CAM_D<d>_CFG: a device set in is brought up, and one taken out turned off with the connections it had; one that failed
with cause CONFIG is tried again when its configuration is written again (R338). -/
def Mach.camCfgWrite (m : Mach) (d : Nat) (new : Nat) : Mach :=
  let conns := m.devConns d
  let e := edge31 (m.rd (Reg.CAM_D_CFG d)) new
  let m := m.wr (Reg.CAM_D_CFG d) new
  match e with
  | .rose => m.devBringup d
  | .fell => m.devOff d conns
  | .stayed => if m.devEn d && (m.dev d).state = .failed && (m.dev d).cause = 5 then m.devBringup d else m

/-- HST_RING<r>_CFG: with en 1 only its clearing is taken (R119); with en 0 the fields are, and en last (R115). -/
def Mach.ringCfgWrite (m : Mach) (r val : Nat) : Mach :=
  if m.flag (Reg.HST_RING_CFG.en r) then (if bitAt val 31 then m else m.ringStop r)
  else
    let off := Reg.HST_RING_CFG r
    let m := match findRow (blockRows off) off with
      | some (row, _) => (m.wr off (m.written off row (m.rd off) val)).setFld (Reg.HST_RING_CFG.en r) 0
      | none => m
    if bitAt val 31 then m.ringStart r else m

/-- Writes that find their register closed: a ring's base while its en is 1 (R148), the mailbox command while busy reads 1
(R339), and what a context stages while a copy runs (R356). -/
def Mach.writeClosed (m : Mach) (off : Nat) : Bool :=
  (off = Reg.CAM_MBX_CMD && m.cam.mbx.isSome) ||
  (match within off (Reg.HST_RING_BASE_LO 0) 0x20 64, within off (Reg.HST_RING_BASE_HI 0) 0x20 64 with
    | some r, _ => m.flag (Reg.HST_RING_CFG.en r)
    | _, some r => m.flag (Reg.HST_RING_CFG.en r)
    | _, _ => false) ||
  (decide (Reg.CAM_C_CFG 0 ≤ off) && decide (off < Reg.CAM_C_CFG 8) && (off - Reg.CAM_C_CFG 0) % 0x100 ≠ 0 &&
    (m.ctx ((off - Reg.CAM_C_CFG 0) / 0x100)).copying.isSome)

/-! ### Writing -/

/-- A write to a register by its fields' access codes. The _LO half of a pair waits for its _HI (R11).
DEDUCED (log entry 17). -/
def Mach.fieldWrite (m : Mach) (off val : Nat) (row : RegRow) : Mach :=
  let m := m.lockedWrite off row
  if m.writeClosed off || !m.takes off row then m
  else
    let old := m.rd off
    let new := m.written off row old val
    if isWritableLo off then { m with loStage := Tab.set none m.loStage off (some (word new)) }
    else
      match within off (Reg.CAM_D_CFG 0) 0x40 4 with
      | some d => m.camCfgWrite d new
      | none =>
        let m := if off = Reg.TRV_URGENT_LEAD then m.keepUrgent else m
        let m := match (if isWritableLo (off - 4) then Tab.get none m.loStage (off - 4) else none) with
          | some lo => ({ m with loStage := Tab.set none m.loStage (off - 4) none } : Mach).wr (off - 4) lo.toNat
          | none => m
        (m.wr off new).afterWrite off old

/-- DTM_STATUS: its two sticky bits are cleared by writing 1 (R90, R94). -/
def Mach.dtmStatusWrite (m : Mach) (val : Nat) : Mach :=
  { m with dtm := { m.dtm with
      adjRefused := m.dtm.adjRefused && !bitAt val 2
      epochNeg := m.dtm.epochNeg && !bitAt val 3 } }

/-- A write to a register of BAR0. Those that a chapter gives a rule of its own follow it. -/
def Mach.regWrite (m : Mach) (off val : Nat) : Mach :=
  if off = Reg.GLB_COMPAT then m.pinWrite (bitsOf val 31 16)
  else if off = Reg.TRV_PARK_ORDER then m.parkOrderWrite val
  else if off = Reg.DTM_STATUS then m.dtmStatusWrite val
  else if off = Reg.DTM_INCR_LO then m.loHalf off 0 val false
  else if off = Reg.DTM_INCR_HI then m.incrHi val false
  else if off = Reg.DTM_OFFSET_LO then m.loHalf off 1 val false
  else if off = Reg.DTM_OFFSET_HI then m.offsetHi val false
  else if off = Reg.DTM_EPOCH_LO then m.loHalf off 2 val false
  else if off = Reg.DTM_EPOCH_HI then m.epochHi val false
  else if off / 65536 = 18 && isTrim off then m.trimWrite off val
  else
    match within off (Reg.HST_RING_CFG 0) 0x20 64 with
    | some r => m.ringCfgWrite r val
    | none =>
      match findRow (blockRows off) off with
      | none => m
      | some (row, _) => m.fieldWrite off val row

/-- A write to a table window: the remap and waveform tables take it in SETUP before the lock (R261, R275); the rest of
the windows is read-only or reserved. DEDUCED (log entry 12). -/
def Mach.windowWrite (m : Mach) (off val : Nat) : Mach :=
  if off < remapWindow || decide (waveEnd ≤ off) then m
  else if m.glb.locked then m.countDiscard
  else if !m.rwsOpen then m
  else if off < waveWindow then
    let h := m.fld Reg.FGD_TBL_SEL.head
    let k := (off - remapWindow) / 4
    if h < 400 ∧ k < (m.headRec h).noz then
      { m with fgd := { m.fgd with remap := Tab.set 0 m.fgd.remap (h * 4096 + k) (val % 65536) } }
    else m
  else if waveHas (off - waveWindow) then
    { m with fgd := { m.fgd with wave := Tab.set 0 m.fgd.wave (waveKey (off - waveWindow)) (val % 65536) } }
  else m

/-- A write to BAR0 of 32 bits at an aligned offset; in BOOT only GLB and SEC answer (R490). -/
def Mach.bar0Write (m : Mach) (off val : Nat) : Mach :=
  if !m.answers off then m
  else if off < scrWindow then m.regWrite off (val % 2 ^ 32)
  else m.windowWrite off val

/-- REGISTER_WRITE (R7 to R11, R14): a write of another size or alignment is discarded. -/
def execRegisterWrite (addr size val : Nat) (s : State) : Host.Outcome State Fault Refusal :=
  s.run fun m =>
    if size ≠ 4 ∨ addr % 4 ≠ 0 ∨ bar0Size ≤ addr then m else m.bar0Write addr val

/-- TABLE_WINDOW_WRITE (R261, R275). -/
def execTableWindowWrite (addr val : Nat) (s : State) : Host.Outcome State Fault Refusal :=
  s.run fun m =>
    if addr % 4 ≠ 0 ∨ addr < scrWindow ∨ bar0Size ≤ addr then m else m.bar0Write addr val

end Sys2Proof.Machine
end

