-- ==== Sys2Proof/Machine/Dispatch.lean ====
section
/-! DEFINITION. The dispatch of a command to its meaning. -/

namespace Sys2Proof.Machine

open Sys2Proof

def exec (i : Instr) (s : State) : Host.Outcome State Fault Refusal :=
  match i with
  | .registerWrite addr size val => Sys2Proof.Machine.execRegisterWrite addr size val s
  | .loReadLatch acc => Sys2Proof.Machine.execLoReadLatch acc s
  | .pinLevelWrite val => Sys2Proof.Machine.execPinLevelWrite val s
  | .dtmTick residual => Sys2Proof.Machine.execDtmTick residual s
  | .sincosSample ch sin cos mark => Sys2Proof.Machine.execSincosSample ch sin cos mark s
  | .amplitudeFault ch => Sys2Proof.Machine.execAmplitudeFault ch s
  | .quadEdge ch a b z => Sys2Proof.Machine.execQuadEdge ch a b z s
  | .transitionsFault ch => Sys2Proof.Machine.execTransitionsFault ch s
  | .toothEdge ch stable => Sys2Proof.Machine.execToothEdge ch stable s
  | .ssiRequest ch dataHigh => Sys2Proof.Machine.execSsiRequest ch dataHigh s
  | .ssiWord ch word parity => Sys2Proof.Machine.execSsiWord ch word parity s
  | .wordsFault ch => Sys2Proof.Machine.execWordsFault ch s
  | .disagreeFault ch => Sys2Proof.Machine.execDisagreeFault ch s
  | .pairDisagreement => Sys2Proof.Machine.execPairDisagreement s
  | .probationPassed ch => Sys2Proof.Machine.execProbationPassed ch s
  | .indexPulse ch => Sys2Proof.Machine.execIndexPulse ch s
  | .indexMissing ch => Sys2Proof.Machine.execIndexMissing ch s
  | .arm => Sys2Proof.Machine.execArm s
  | .disarm => Sys2Proof.Machine.execDisarm s
  | .readmit ch => Sys2Proof.Machine.execReadmit ch s
  | .auxClear ch => Sys2Proof.Machine.execAuxClear ch s
  | .slewCancel => Sys2Proof.Machine.execSlewCancel s
  | .backstepRelease => Sys2Proof.Machine.execBackstepRelease s
  | .speedWindowEnd => Sys2Proof.Machine.execSpeedWindowEnd s
  | .probeEdge n rising => Sys2Proof.Machine.execProbeEdge n rising s
  | .stakePop n => Sys2Proof.Machine.execStakePop n s
  | .stnCmdCommit slot => Sys2Proof.Machine.execStnCmdCommit slot s
  | .stnCmdCancel slot => Sys2Proof.Machine.execStnCmdCancel slot s
  | .stnCmdRead slot => Sys2Proof.Machine.execStnCmdRead slot s
  | .stnCommandTaken => Sys2Proof.Machine.execStnCommandTaken s
  | .stationCrossing => Sys2Proof.Machine.execStationCrossing s
  | .pulseEnd out => Sys2Proof.Machine.execPulseEnd out s
  | .minGapEnd out => Sys2Proof.Machine.execMinGapEnd out s
  | .liftInhibitEnd group => Sys2Proof.Machine.execLiftInhibitEnd group s
  | .rateLimitedRecord code source => Sys2Proof.Machine.execRateLimitedRecord code source s
  | .dtmIncrWrite lo hi firmware => Sys2Proof.Machine.execDtmIncrWrite lo hi firmware s
  | .dtmOffsetWrite lo hi firmware => Sys2Proof.Machine.execDtmOffsetWrite lo hi firmware s
  | .dtmOffsetApplied => Sys2Proof.Machine.execDtmOffsetApplied s
  | .dtmEpochWrite lo hi firmware => Sys2Proof.Machine.execDtmEpochWrite lo hi firmware s
  | .snap => Sys2Proof.Machine.execSnap s
  | .ptpFrameRx port kind seq => Sys2Proof.Machine.execPtpFrameRx port kind seq s
  | .ptpFrameTx port kind seq twoStep frame taken => Sys2Proof.Machine.execPtpFrameTx port kind seq twoStep frame taken s
  | .ptpSamplePost payload => Sys2Proof.Machine.execPtpSamplePost payload s
  | .ptpPortStateChange state servo offset => Sys2Proof.Machine.execPtpPortStateChange state servo offset s
  | .ethLinkChange port up => Sys2Proof.Machine.execEthLinkChange port up s
  | .ptpFailover => Sys2Proof.Machine.execPtpFailover s
  | .ethFrameRx port f => Sys2Proof.Machine.execEthFrameRx port f s
  | .beaconSample resolved => Sys2Proof.Machine.execBeaconSample resolved s
  | .diagRead off len => Sys2Proof.Machine.execDiagRead off len s
  | .diagWrite off data => Sys2Proof.Machine.execDiagWrite off data s
  | .functionLevelReset => Sys2Proof.Machine.execFunctionLevelReset s
  | .d3hotEntry => Sys2Proof.Machine.execD3hotEntry s
  | .pcieLinkDown => Sys2Proof.Machine.execPcieLinkDown s
  | .pcieLinkUp speed width => Sys2Proof.Machine.execPcieLinkUp speed width s
  | .ringEnable r => Sys2Proof.Machine.execRingEnable r s
  | .ringDisable r => Sys2Proof.Machine.execRingDisable r s
  | .doorbell page off val => Sys2Proof.Machine.execDoorbell page off val s
  | .descriptorFetched r d => Sys2Proof.Machine.execDescriptorFetched r d s
  | .hostDmaError h status => Sys2Proof.Machine.execHostDmaError h status s
  | .completionQueued target => Sys2Proof.Machine.execCompletionQueued target s
  | .fieldbookDrain => Sys2Proof.Machine.execFieldbookDrain s
  | .tlmSnapshot => Sys2Proof.Machine.execTlmSnapshot s
  | .vectorHoldoffExpiry v => Sys2Proof.Machine.execVectorHoldoffExpiry v s
  | .stopPageWrite => Sys2Proof.Machine.execStopPageWrite s
  | .stopNFall => Sys2Proof.Machine.execStopNFall s
  | .stopNRise => Sys2Proof.Machine.execStopNRise s
  | .hstStop => Sys2Proof.Machine.execHstStop s
  | .stopRelease => Sys2Proof.Machine.execStopRelease s
  | .jobOpen h f => Sys2Proof.Machine.execJobOpen h f s
  | .jobImage h f data => Sys2Proof.Machine.execJobImage h f data s
  | .streamSpaceResume => Sys2Proof.Machine.execStreamSpaceResume s
  | .jobClose h tag => Sys2Proof.Machine.execJobClose h tag s
  | .jobArm h f => Sys2Proof.Machine.execJobArm h f s
  | .jobDelete h tag => Sys2Proof.Machine.execJobDelete h tag s
  | .blockData h f data => Sys2Proof.Machine.execBlockData h f data s
  | .jobEffectCrossed tag => Sys2Proof.Machine.execJobEffectCrossed tag s
  | .nop h => Sys2Proof.Machine.execNop h s
  | .abort h tag => Sys2Proof.Machine.execAbort h tag s
  | .stop h => Sys2Proof.Machine.execStop h s
  | .revoke h f => Sys2Proof.Machine.execRevoke h f s
  | .mode h target => Sys2Proof.Machine.execMode h target s
  | .stnCommit h f => Sys2Proof.Machine.execStnCommit h f s
  | .stnCancel h slot => Sys2Proof.Machine.execStnCancel h slot s
  | .item h f data => Sys2Proof.Machine.execItem h f data s
  | .itemWaitResume layer => Sys2Proof.Machine.execItemWaitResume layer s
  | .fence h layer v => Sys2Proof.Machine.execFence h layer v s
  | .tableCommit h f entries => Sys2Proof.Machine.execTableCommit h f entries s
  | .effectKnown epoch => Sys2Proof.Machine.execEffectKnown epoch s
  | .buffer h f => Sys2Proof.Machine.execBuffer h f s
  | .slotBind layer => Sys2Proof.Machine.execSlotBind layer s
  | .engineSelect e reads loads => Sys2Proof.Machine.execEngineSelect e reads loads s
  | .swathRenderDone e => Sys2Proof.Machine.execSwathRenderDone e s
  | .swathDeadline job plane row => Sys2Proof.Machine.execSwathDeadline job plane row s
  | .blockHorizonReached job layer plane block => Sys2Proof.Machine.execBlockHorizonReached job layer plane block s
  | .tileWaitResume e => Sys2Proof.Machine.execTileWaitResume e s
  | .parkOrderWrite val => Sys2Proof.Machine.execParkOrderWrite val s
  | .parkStepChange => Sys2Proof.Machine.execParkStepChange s
  | .clusterParked c => Sys2Proof.Machine.execClusterParked c s
  | .clusterWoken c => Sys2Proof.Machine.execClusterWoken c s
  | .fireFetchStart job line hub => Sys2Proof.Machine.execFireFetchStart job line hub s
  | .fireFetchDone job line hub => Sys2Proof.Machine.execFireFetchDone job line hub s
  | .linePacketSent job line hub => Sys2Proof.Machine.execLinePacketSent job line hub s
  | .fireCommit job line hub rows => Sys2Proof.Machine.execFireCommit job line hub rows s
  | .downshiftBoundary => Sys2Proof.Machine.execDownshiftBoundary s
  | .tlmStale head => Sys2Proof.Machine.execTlmStale head s
  | .usageRecordWrite => Sys2Proof.Machine.execUsageRecordWrite s
  | .usageWriteRetry head => Sys2Proof.Machine.execUsageWriteRetry head s
  | .tableWindowWrite addr val => Sys2Proof.Machine.execTableWindowWrite addr val s
  | .watchdogRefresh val firmware => Sys2Proof.Machine.execWatchdogRefresh val firmware s
  | .watchdogExpiry => Sys2Proof.Machine.execWatchdogExpiry s
  | .ceilingSave => Sys2Proof.Machine.execCeilingSave s
  | .headPwrChange => Sys2Proof.Machine.execHeadPwrChange s
  | .echoRx hub e => Sys2Proof.Machine.execEchoRx hub e s
  | .echoTimeout job line hub => Sys2Proof.Machine.execEchoTimeout job line hub s
  | .hubTlmRx hub t => Sys2Proof.Machine.execHubTlmRx hub t s
  | .grantRx hub g => Sys2Proof.Machine.execGrantRx hub g s
  | .ctrlReplyRx hub r => Sys2Proof.Machine.execCtrlReplyRx hub r s
  | .rxlostRx x => Sys2Proof.Machine.execRxlostRx x s
  | .alignMarkerDue => Sys2Proof.Machine.execAlignMarkerDue s
  | .skipDue lane => Sys2Proof.Machine.execSkipDue lane s
  | .heartbeatDue => Sys2Proof.Machine.execHeartbeatDue s
  | .laneLockLost lane cause => Sys2Proof.Machine.execLaneLockLost lane cause s
  | .laneRetrain lane => Sys2Proof.Machine.execLaneRetrain lane s
  | .trainStepTimeout lane => Sys2Proof.Machine.execTrainStepTimeout lane s
  | .laneUp lane => Sys2Proof.Machine.execLaneUp lane s
  | .retrainRetry lane => Sys2Proof.Machine.execRetrainRetry lane s
  | .loopMeasure => Sys2Proof.Machine.execLoopMeasure s
  | .fomWindow lane w => Sys2Proof.Machine.execFomWindow lane w s
  | .hubDarkTimeout hub => Sys2Proof.Machine.execHubDarkTimeout hub s
  | .chkSelftest bad => Sys2Proof.Machine.execChkSelftest bad s
  | .camDeviceEnable d => Sys2Proof.Machine.execCamDeviceEnable d s
  | .camBringupRetry d => Sys2Proof.Machine.execCamBringupRetry d s
  | .cxpLockLost conn => Sys2Proof.Machine.execCxpLockLost conn s
  | .cxpConnectionReturn conn => Sys2Proof.Machine.execCxpConnectionReturn conn s
  | .mailboxRead => Sys2Proof.Machine.execMailboxRead s
  | .mailboxWrite => Sys2Proof.Machine.execMailboxWrite s
  | .mailboxDone result data => Sys2Proof.Machine.execMailboxDone result data s
  | .cameraLineRx d l => Sys2Proof.Machine.execCameraLineRx d l s
  | .cxpEventPacket conn => Sys2Proof.Machine.execCxpEventPacket conn s
  | .lineTrigger d => Sys2Proof.Machine.execLineTrigger d s
  | .frameTimeout ctx => Sys2Proof.Machine.execFrameTimeout ctx s
  | .camTblDataAccess write val => Sys2Proof.Machine.execCamTblDataAccess write val s
  | .genCommit ctx => Sys2Proof.Machine.execGenCommit ctx s
  | .genCopyDone ctx => Sys2Proof.Machine.execGenCopyDone ctx s
  | .stripFrameStart job => Sys2Proof.Machine.execStripFrameStart job s
  | .statsUnit => Sys2Proof.Machine.execStatsUnit s
  | .keep => Sys2Proof.Machine.execKeep s
  | .release => Sys2Proof.Machine.execRelease s
  | .benchStart => Sys2Proof.Machine.execBenchStart s
  | .benchAbort => Sys2Proof.Machine.execBenchAbort s
  | .dramRequestAccept port write addr len data t => Sys2Proof.Machine.execDramRequestAccept port write addr len data t s
  | .refreshDue ch => Sys2Proof.Machine.execRefreshDue ch s
  | .codePageCheck bad lost => Sys2Proof.Machine.execCodePageCheck bad lost s
  | .pairingAttempt => Sys2Proof.Machine.execPairingAttempt s
  | .pairingTimeout => Sys2Proof.Machine.execPairingTimeout s
  | .helloRx p => Sys2Proof.Machine.execHelloRx p s
  | .partnerHeartbeatRx b => Sys2Proof.Machine.execPartnerHeartbeatRx b s
  | .mirrorRx rs crcOk => Sys2Proof.Machine.execMirrorRx rs crcOk s
  | .ackRx seq => Sys2Proof.Machine.execAckRx seq s
  | .nakRx seq => Sys2Proof.Machine.execNakRx seq s
  | .monumentRx p part parts crcOk => Sys2Proof.Machine.execMonumentRx p part parts crcOk s
  | .monumentDue => Sys2Proof.Machine.execMonumentDue s
  | .partnerLost lane => Sys2Proof.Machine.execPartnerLost lane s
  | .commitHoldExpiry => Sys2Proof.Machine.execCommitHoldExpiry s
  | .claimRound => Sys2Proof.Machine.execClaimRound s
  | .claimHoldoffExpiry => Sys2Proof.Machine.execClaimHoldoffExpiry s
  | .claimWindowExpiry => Sys2Proof.Machine.execClaimWindowExpiry s
  | .stateRestored => Sys2Proof.Machine.execStateRestored s
  | .majorityLossTimeout => Sys2Proof.Machine.execMajorityLossTimeout s
  | .handoverRx => Sys2Proof.Machine.execHandoverRx s
  | .releasedRx => Sys2Proof.Machine.execReleasedRx s
  | .echoWindow => Sys2Proof.Machine.execEchoWindow s
  | .echoAlarmRx => Sys2Proof.Machine.execEchoAlarmRx s
  | .alarmReplyRx result => Sys2Proof.Machine.execAlarmReplyRx result s
  | .haltResetTimer => Sys2Proof.Machine.execHaltResetTimer s
  | .revertHoldExpiry => Sys2Proof.Machine.execRevertHoldExpiry s
  | .revertNow => Sys2Proof.Machine.execRevertNow s
  | .revertReqRx c => Sys2Proof.Machine.execRevertReqRx c s
  | .revertAckRx c => Sys2Proof.Machine.execRevertAckRx c s
  | .revertSwitch => Sys2Proof.Machine.execRevertSwitch s
  | .revertAbortRx => Sys2Proof.Machine.execRevertAbortRx s
  | .revertMajorityTimeout => Sys2Proof.Machine.execRevertMajorityTimeout s
  | .resync => Sys2Proof.Machine.execResync s
  | .proofPhaseAdvance => Sys2Proof.Machine.execProofPhaseAdvance s
  | .move a => Sys2Proof.Machine.execMove a s
  | .preset a => Sys2Proof.Machine.execPreset a s
  | .stopAxis a => Sys2Proof.Machine.execStopAxis a s
  | .limits a => Sys2Proof.Machine.execLimits a s
  | .home a => Sys2Proof.Machine.execHome a s
  | .setPos a => Sys2Proof.Machine.execSetPos a s
  | .gearOn a => Sys2Proof.Machine.execGearOn a s
  | .gearOff a => Sys2Proof.Machine.execGearOff a s
  | .clear a => Sys2Proof.Machine.execClear a s
  | .off a => Sys2Proof.Machine.execOff a s
  | .axisEnable a => Sys2Proof.Machine.execAxisEnable a s
  | .plannerTick senses => Sys2Proof.Machine.execPlannerTick senses s
  | .stall a => Sys2Proof.Machine.execStall a s
  | .overcurrent a coilA coilB => Sys2Proof.Machine.execOvercurrent a coilA coilB s
  | .gearLag a => Sys2Proof.Machine.execGearLag a s
  | .cmpArm a m => Sys2Proof.Machine.execCmpArm a m s
  | .cmpCancel a m => Sys2Proof.Machine.execCmpCancel a m s
  | .supplyGoodChange input level otherMv => Sys2Proof.Machine.execSupplyGoodChange input level otherMv s
  | .supplyReturn otherMv => Sys2Proof.Machine.execSupplyReturn otherMv s
  | .powerFail vmainMv vbackMv => Sys2Proof.Machine.execPowerFail vmainMv vbackMv s
  | .finalMonumentDone => Sys2Proof.Machine.execFinalMonumentDone s
  | .housekeepingRound r => Sys2Proof.Machine.execHousekeepingRound r s
  | .thermalShutdown ch reading => Sys2Proof.Machine.execThermalShutdown ch reading s
  | .shutdownRecordDone => Sys2Proof.Machine.execShutdownRecordDone s
  | .calRequest => Sys2Proof.Machine.execCalRequest s
  | .calibrationDone words ok => Sys2Proof.Machine.execCalibrationDone words ok s
  | .trimWordWrite addr val => Sys2Proof.Machine.execTrimWordWrite addr val s
  | .clockFailure => Sys2Proof.Machine.execClockFailure s
  | .clockStable => Sys2Proof.Machine.execClockStable s
  | .lanePllUnlock net => Sys2Proof.Machine.execLanePllUnlock net s
  | .lanePllRelock net => Sys2Proof.Machine.execLanePllRelock net s
  | .powerOn straps => Sys2Proof.Machine.execPowerOn straps s
  | .resetPin straps => Sys2Proof.Machine.execResetPin straps s
  | .softwareReset key straps => Sys2Proof.Machine.execSoftwareReset key straps s
  | .bootStageDone b => Sys2Proof.Machine.execBootStageDone b s
  | .modeRequest target => Sys2Proof.Machine.execModeRequest target s
  | .lock => Sys2Proof.Machine.execLock s
  | .lockChecksDone => Sys2Proof.Machine.execLockChecksDone s
  | .nonce value => Sys2Proof.Machine.execNonce value s
  | .nonceExpiry => Sys2Proof.Machine.execNonceExpiry s
  | .submit => Sys2Proof.Machine.execSubmit s
  | .close => Sys2Proof.Machine.execClose s
  | .backoffEnd => Sys2Proof.Machine.execBackoffEnd s
  | .keyStore => Sys2Proof.Machine.execKeyStore s
  | .keyErase => Sys2Proof.Machine.execKeyErase s
  | .confirm => Sys2Proof.Machine.execConfirm s
  | .exportCal => Sys2Proof.Machine.execExportCal s
  | .exportMon => Sys2Proof.Machine.execExportMon s
  | .importCal p => Sys2Proof.Machine.execImportCal p s
  | .importMon p length crcOk => Sys2Proof.Machine.execImportMon p length crcOk s
  | .fwLoad header image => Sys2Proof.Machine.execFwLoad header image s
  | .xferDone => Sys2Proof.Machine.execXferDone s
  | .prefetchStallEnd e => Sys2Proof.Machine.execPrefetchStallEnd e s
  | .zqLatch => Sys2Proof.Machine.execZqLatch s
  | .laneLockAcquired x => Sys2Proof.Machine.execLaneLockAcquired x s
  | .t2Rx lane t => Sys2Proof.Machine.execT2Rx lane t s
  | .loopRetRx x num rt => Sys2Proof.Machine.execLoopRetRx x num rt s
  | .deviceBringupDone d cause => Sys2Proof.Machine.execDeviceBringupDone d cause s
  | .powerDown => Sys2Proof.Machine.execPowerDown s

end Sys2Proof.Machine
end

