-- ==== Sys2Proof/Safety.lean ====
section
/-! DEFINITION. What counts as a safe state of the module, in the terms that statements use. -/

namespace Sys2Proof

open Sys2Proof.Machine

/-- HEAD_PWR_EN is high only while every condition of R301 holds. -/
abbrev Mach.powerSafe (m : Mach) : Prop := m.fgd.headPwr = true → m.pwrOff = 0

/-- The module's DRAM is in its canonical form. -/
abbrev Mach.memorySafe (m : Mach) : Prop := Memory.wf m.dram = true

/-- A safe state: head power obeys R301. -/
abbrev Safe (s : State) : Prop := Mach.powerSafe s.m

/-- The module runs: no reset holds it, and head power obeys R301. -/
abbrev Runs (s : State) : Prop := s.m.alive = true ∧ Mach.powerSafe s.m

/-- A ring holds the descriptor, and it is of the opcode. -/
abbrev Held (s : State) (h : DescRef) (op : Nat) : Prop := s.m.holdsDesc h = true ∧ h.opcode = op

/-- The module is stopped, with a source marked beside those it had, in the mode that a stop leaves, and DTM goes on
as it was. -/
abbrev StoppedBy (s : State) (k : StopSrc) (m : Mach) : Prop :=
  m.hst.stopped = true ∧ m.hst.stopSrc = s.m.hst.stopSrc ||| (1#5 <<< k.bit) ∧ m.dtm = s.m.dtm ∧
  m.glb.mode = if s.m.glb.mode = .run ∨ s.m.glb.mode = .benchmark then .ready else s.m.glb.mode

/-- What a reset leaves (R488): BOOT at stage A, these blocks at their reset values, DRAM lost and the survey lock
closed; the fuses, the NAND, the STOP_n land and what has left the module stay. -/
abbrev Restarted (s : State) (m : Mach) : Prop :=
  m.glb.mode = .boot ∧ m.glb.stage = 1 ∧ m.glb.locked = false ∧ m.chn = {} ∧ m.stn = {} ∧ m.dtm = {} ∧ m.vgp = {} ∧
  m.fgd = {} ∧ m.dram = [] ∧ m.sec.opened = 0 ∧ m.sec.nonceValid = false ∧ m.nand = s.m.nand ∧ m.otp = s.m.otp ∧
  m.out = s.m.out ∧ m.hst = { stopN := s.m.hst.stopN }

/-- The command answers the next state in which the module is `m` and the queue as it was. -/
abbrev Becomes (c : Instr) (s : State) (m : Mach) : Prop := exec c s = .next { s with m := m }

/-- The command answers a next state whose module has the property, the queue as it was. -/
abbrev Reaches (c : Instr) (s : State) (p : Mach → Prop) : Prop := ∃ m : Mach, exec c s = .next { s with m := m } ∧ p m

end Sys2Proof
end

