-- ==== Sys2Proof/Certificates/Slice0/Obligations.lean ====
section
/-! DEFINITION. The statements about the module, family by family. Each says what a command does to the module and, by
giving the whole module after it or naming what it leaves, what it does not. -/

open Sys2Proof Sys2Proof.Machine

/-! ### The whole module -/

/-- R92. Reading DTM_TIME_LO latches DTM_TIME_HI and DTM_TIME_FRAC from the same tick: both hold what they show now, and
nothing else of the module changes but that the host has been given the low half. Commands that complete in it (exec
answers next with the effect it states): LO_READ_LATCH. -/
def Obligations.ReadingTheClockLatchesIt : Prop :=
  ∀ s : State, Runs s → s.m.glb.mode ≠ .boot →
    Reaches (.loReadLatch ⟨Reg.DTM_TIME_LO, 4⟩) s fun m =>
      Tab.get none m.hiLatch Reg.DTM_TIME_HI = some (word (s.m.regRead Reg.DTM_TIME_HI)) ∧
      Tab.get none m.hiLatch Reg.DTM_TIME_FRAC = some (word (s.m.regRead Reg.DTM_TIME_FRAC)) ∧
      (∀ a, a ≠ Reg.DTM_TIME_HI → a ≠ Reg.DTM_TIME_FRAC → Tab.get none m.hiLatch a = Tab.get none s.m.hiLatch a) ∧
      m = { s.m with hiLatch := m.hiLatch, out := m.out }

/-- Reads of BAR0 (R7, R11, R14, R490). A read of another size than 32 bits, or not aligned, gives all ones; a read of the
low half of a pair latches the high half as it shows now; a read of an offset that holds no register gives 0, and of any
other register what it shows; in BOOT only GLB and SEC answer. No read of these changes anything but the latch. Writes
of BAR0 (R7 to R9, R11, R14, R261, R275, R490, R497). A write of another size than 32 bits, not aligned or outside BAR0,
or in BOOT to a block other than GLB and SEC, changes nothing. Outside BOOT a write of STN_ARG or VGP_STORE_LOW sets the
register; one of STN_TGT_LO waits, and the next of STN_TGT_HI takes both, the bits of the high half outside the target
kept; one of DRM_REGION after the lock changes nothing and is counted. TABLE_WINDOW_WRITE sets the entry of the remap or
the waveform window that it names in SETUP before the lock; it and REGISTER_WRITE there change nothing outside SETUP,
and after the lock they are counted. TABLE_WINDOW_WRITE outside the two windows changes nothing. It rests on choices of
the model where the spec is open: log entries 9, 10, 11, 12, 170. Commands that complete in it (exec answers next with
the effect it states): LO_READ_LATCH, REGISTER_WRITE, TABLE_WINDOW_WRITE. -/
def Obligations.RegistersAreReadAndWritten : Prop :=
  (∀ (s : State) (a n : Nat), Runs s → a < bar0Size → (n ≠ 4 ∨ a % 4 ≠ 0) →
    Becomes (.loReadLatch ⟨a, n⟩) s (s.m.emit (.hostRead [0xFF, 0xFF, 0xFF, 0xFF]))) ∧
  (∀ (s : State) (a : Nat), Runs s → a < scrWindow → a % 4 = 0 → s.m.glb.mode ≠ .boot → isPairLo a = true →
    a ≠ Reg.DTM_TIME_LO → Reaches (.loReadLatch ⟨a, 4⟩) s fun m =>
      Tab.get none m.hiLatch (a + 4) = some (word (s.m.regRead (a + 4))) ∧
      (∀ b ≠ a + 4, Tab.get none m.hiLatch b = Tab.get none s.m.hiLatch b) ∧
      m = { s.m with hiLatch := m.hiLatch, out := m.out }) ∧
  (∀ (s : State) (a : Nat), Runs s → a < scrWindow → a % 4 = 0 → s.m.glb.mode ≠ .boot → isPairLo a = false →
    findRow (blockRows a) a = none → Tab.get none s.m.hiLatch a = none →
    Becomes (.loReadLatch ⟨a, 4⟩) s { s.m.emit (.hostRead [0, 0, 0, 0]) with hiLatch := Tab.set none s.m.hiLatch a none }) ∧
  (∀ (s : State) (a : Nat), Runs s → a < scrWindow → a % 4 = 0 → s.m.glb.mode ≠ .boot → isPairLo a = false →
    a ≠ Reg.CAM_TBL_DATA → Tab.get none s.m.hiLatch a = none →
    Becomes (.loReadLatch ⟨a, 4⟩) s
      { s.m.emit (.hostRead (leBytes 4 (s.m.regRead a))) with hiLatch := Tab.set none s.m.hiLatch a none }) ∧
  (∀ (s : State) (a : Nat), Runs s → a < bar0Size → a % 4 = 0 → s.m.glb.mode = .boot → a / 65536 ≠ 0 → a / 65536 ≠ 21 →
    Becomes (.loReadLatch ⟨a, 4⟩) s (s.m.emit (.hostRead [0, 0, 0, 0]))) ∧
  (∀ (s : State) (a size v : Nat), Runs s → (size ≠ 4 ∨ a % 4 ≠ 0 ∨ bar0Size ≤ a ∨
      s.m.glb.mode = .boot ∧ a / 65536 ≠ 0 ∧ a / 65536 ≠ 21) →
    Becomes (.registerWrite a size v) s s.m) ∧
  (∀ (s : State) (v : Nat), Runs s → s.m.glb.mode ≠ .boot →
    Becomes (.registerWrite Reg.STN_ARG 4 v) s (s.m.wr Reg.STN_ARG (v % 2 ^ 32)) ∧
    Becomes (.registerWrite Reg.VGP_STORE_LOW 4 v) s (s.m.wr Reg.VGP_STORE_LOW (v % 2 ^ 32)) ∧
    Becomes (.registerWrite Reg.STN_TGT_LO 4 v) s
      { s.m with loStage := Tab.set none s.m.loStage Reg.STN_TGT_LO (some (word (v % 2 ^ 32))) } ∧
    (∀ lo, Tab.get none s.m.loStage Reg.STN_TGT_LO = some lo →
      Becomes (.registerWrite Reg.STN_TGT_HI 4 v) s
        ((({ s.m with loStage := Tab.set none s.m.loStage Reg.STN_TGT_LO none } : Mach).wr Reg.STN_TGT_LO lo.toNat).wr
          Reg.STN_TGT_HI (withBits (s.m.rd Reg.STN_TGT_HI) 15 0 (v % 2 ^ 32 % 2 ^ 16)))) ∧
    (s.m.glb.locked = true → Becomes (.registerWrite Reg.DRM_REGION 4 v) s s.m.countDiscard)) ∧
  (∀ (s : State) (a v : Nat), Runs s → s.m.glb.mode ≠ .boot → a % 4 = 0 → remapWindow ≤ a → a < waveEnd →
    (s.m.glb.locked = true → Becomes (.tableWindowWrite a v) s s.m.countDiscard) ∧
    (s.m.glb.locked = true → Becomes (.registerWrite a 4 v) s s.m.countDiscard) ∧
    (s.m.glb.locked = false → s.m.glb.mode ≠ .setup → Becomes (.tableWindowWrite a v) s s.m) ∧
    (s.m.glb.locked = false → s.m.glb.mode ≠ .setup → Becomes (.registerWrite a 4 v) s s.m)) ∧
  (∀ (s : State) (a v : Nat), Runs s → s.m.glb.locked = false → s.m.glb.mode = .setup → a % 4 = 0 →
    (remapWindow ≤ a → a < waveWindow → s.m.fld Reg.FGD_TBL_SEL.head < 400 →
      (a - remapWindow) / 4 < (s.m.headRec (s.m.fld Reg.FGD_TBL_SEL.head)).noz →
      Becomes (.tableWindowWrite a v) s { s.m with fgd := { s.m.fgd with
        remap := Tab.set 0 s.m.fgd.remap (s.m.fld Reg.FGD_TBL_SEL.head * 4096 + (a - remapWindow) / 4) (v % 65536) } }) ∧
    (waveWindow ≤ a → a < waveEnd → waveHas (a - waveWindow) = true →
      Becomes (.tableWindowWrite a v) s { s.m with fgd := { s.m.fgd with
        wave := Tab.set 0 s.m.fgd.wave (waveKey (a - waveWindow)) (v % 65536) } })) ∧
  (∀ (s : State) (a v : Nat), Runs s → (a < remapWindow ∨ waveEnd ≤ a) → a % 4 = 0 → scrWindow ≤ a →
    Becomes (.tableWindowWrite a v) s s.m)

/-- R73. What a CANCEL of STN_CMD answers and does to its slot, once every crossed slot has taken its occurrence of the same
tick if the slot is crossed on it (`d`). Commands that complete in it (exec answers next with the effect it states):
STN_COMMAND_TAKEN. -/
def Obligations.ACancelGetsItsAnswer : Prop :=
  ∀ (s : State) (n : Nat) (rest : List StnCmd) (d : Mach), Runs s → s.m.stn.cmds = .cancel n none :: rest →
    d = (let m : Mach := { s.m with stn := { s.m.stn with cmds := rest } }
         if m.slotCrossed n then m.crossAll else m) →
    (d.glb.mode = .halt ∨ d.glb.mode = .backsight →
      Reaches .stnCommandTaken s fun m => m.stn.result = 7 ∧ m.stn.slot = d.stn.slot) ∧
    (d.glb.mode ≠ .halt → d.glb.mode ≠ .backsight → (d.slot n).lastTick ≠ some d.now →
      ((d.slot n).state ∈ [.waitStake, .waitChain, .armed] → Reaches .stnCommandTaken s fun m =>
        m.stn.result = 0 ∧ (m.slot n).state = .cancelled) ∧
      ((d.slot n).state ∉ [.waitStake, .waitChain, .armed] → Reaches .stnCommandTaken s fun m =>
        m.stn.result = 6 ∧ m.stn.slot = d.stn.slot)) ∧
    (d.glb.mode ≠ .halt → d.glb.mode ≠ .backsight → (d.slot n).lastTick = some d.now →
      Reaches .stnCommandTaken s fun m => m.stn.result = 3 ∧
        ((d.slot n).f.ivl ≠ 0 → (d.slot n).state ∈ [.waitStake, .waitChain, .armed] → (m.slot n).state = .cancelled) ∧
        (((d.slot n).f.ivl = 0 ∨ (d.slot n).state ∉ [.waitStake, .waitChain, .armed]) → m.stn.slot = d.stn.slot))

/-- A step takes the command at the front of the queue and runs it on the state with the queue's rest; on an empty queue the
block idles (a choice of the model: log entry 1). -/
def Obligations.AStepRunsTheFrontCommand : Prop :=
  (∀ (s : State) (c : Instr) (rest : List Instr), s.pending = c :: rest → step s = exec c { s with pending := rest }) ∧
  (∀ s : State, s.pending = [] → step s = .next s)

/-- Every command completes in every state with the queue as it was, and none faults or is refused. While every block but
AON is held in reset, a command that AON does not take changes nothing (R479, R488). It rests on choices of the model
where the spec is open: log entry 3. -/
def Obligations.EveryCommandCompletes : Prop :=
  (∀ (c : Instr) (s : State), ∃ t : State, exec c s = .next t ∧ t.pending = s.pending ∧ (Safe s → Safe t)) ∧
  (∀ (c : Instr) (s : State), s.m.alive = false →
     (∀ straps, c ≠ .powerOn straps ∧ c ≠ .resetPin straps) → c ≠ .clockFailure → c ≠ .clockStable → c ≠ .backoffEnd →
     c ≠ .stopNFall → c ≠ .stopNRise → (∀ i g v, c ≠ .supplyGoodChange i g v) → c ≠ .shutdownRecordDone → c ≠ .powerDown →
     (∀ n r, c ≠ .thermalShutdown n r) →
     exec c s = .next s)

/-- Who writes DRAM (R110, R380). Every command leaves every byte of DRAM as it was, but the camera line, the host's
diagnostic window, a DRAM request, the end of a swath's render, the fetch and the commit of a line, the tick of the
Datum clock, which settles the lines that have passed, the final monument, and the resets. The fuses change by CONFIRM
alone (R494, R501). It rests on choices of the model where the spec is open: log entry 15. -/
def Obligations.FewCommandsWriteMemoryOrFuses : Prop :=
  (∀ (c : Instr) (s t : State), exec c s = .next t →
     (∀ d l, c ≠ .cameraLineRx d l) → (∀ a d, c ≠ .diagWrite a d) → (∀ p w a n d q, c ≠ .dramRequestAccept p w a n d q) →
     (∀ ls, c ≠ .dtmTick ls) → (∀ e, c ≠ .swathRenderDone e) → (∀ j n h, c ≠ .fireFetchStart j n h) → (∀ j n h r, c ≠ .fireCommit j n h r) → c ≠ .finalMonumentDone →
     c ≠ .haltResetTimer → (∀ k r, c ≠ .softwareReset k r) → (∀ r, c ≠ .powerOn r) → (∀ r, c ≠ .resetPin r) →
     c ≠ .clockFailure → ∀ a, t.m.dramByte a = s.m.dramByte a) ∧
  (∀ (c : Instr) (s t : State), exec c s = .next t → c ≠ .confirm → t.m.otp = s.m.otp)

/-- HEAD_PWR_EN (R301): no step takes it high, or leaves it high, while a condition fails. From every state in which it
obeys R301, whatever command is next, the state after the step obeys it; and where it is high after the step, the survey
lock is set, STOP_n is high, no STOP from the land is unreleased, the watchdog is refreshed and has not expired, the
mode is READY, RUN or BENCHMARK, and no Fire Guard fatal has occurred. -/
def Obligations.HeadPowerNeedsItsConditions : Prop :=
  ∀ s t : State, Safe s → step s = .next t → Safe t ∧
    (t.m.fgd.headPwr = true → t.m.glb.locked = true ∧ t.m.hst.stopN = true ∧ t.m.fgd.wdgRefreshed = true ∧
      t.m.fgd.wdgExpired = false ∧ (t.m.glb.mode = .ready ∨ t.m.glb.mode = .run ∨ t.m.glb.mode = .benchmark))

/-- DRAM stays in its canonical form (R380): from every state in which it is, every step that gives a next state leaves it
so. -/
def Obligations.MemoryStaysCanonical : Prop :=
  ∀ s t : State, Mach.memorySafe s.m → step s = .next t → Mach.memorySafe t.m

/-- The machine after reset meets both invariants: HEAD_PWR_EN is low, DRAM lists nothing, no command waits and the mode is
BOOT (R488 to R490). It rests on choices of the model where the spec is open: log entries 7, 15, 181. -/
def Obligations.ResetIsSafe : Prop :=
  Safe State.reset ∧ Mach.memorySafe State.reset.m ∧ State.reset.m.fgd.headPwr = false ∧ State.reset.m.dram = [] ∧
  State.reset.pending = [] ∧ State.reset.m.glb.mode = .boot ∧ State.reset.m.glb.locked = false ∧
  State.reset.m.epo.counter = 0

/-! ### Single rules, stated whole -/

/-- R45 and R50. In SETUP, from a vote that is DISARMED with at least two healthy voted channels, an arm is refused with
THRESH (3) when a voted channel's threshold is less than twice its scale rounded up to whole links, and, the thresholds
being kept, with SSI_TIMING (4) when on an ABS channel whose fields lie in their ranges the word's clocks and the
recovery time take longer than the request period, here counted in ns: a clock is 4 x (clk_div + 1) ns, the recovery 250
ns a step. A refused arm changes arm_cause alone. Commands that complete in it (exec answers next with the effect it
states): ARM. -/
def Obligations.ArmingIsRefused : Prop :=
  ∀ s : State, Runs s → s.m.glb.mode = .setup → s.m.chn.vote = .disarmed → 2 ≤ s.m.votedEn.length →
    (∀ c ∈ s.m.votedEn, s.m.unhealthy c = false) →
    (∀ c ∈ s.m.votedEn, s.m.chanThresh c < 2 * ceilDiv (s.m.chanScale c) 65536 →
      Becomes .arm s { s.m with chn := { s.m.chn with armCause := 3 } }) ∧
    ((∀ c ∈ s.m.votedEn, 2 * ceilDiv (s.m.chanScale c) 65536 ≤ s.m.chanThresh c) →
      ∀ c ∈ s.m.votedEn, s.m.chanType c = 3 →
      13 ≤ s.m.fld (Reg.CHN_CFG.abs_bits c) → s.m.fld (Reg.CHN_CFG.abs_bits c) ≤ 32 →
      1 ≤ s.m.fld (Reg.CHN_SSI.req_period c) → s.m.fld (Reg.CHN_SSI.req_period c) ≤ 64 →
      1 ≤ s.m.fld (Reg.CHN_SSI.recovery c) → s.m.fld (Reg.CHN_SSI.recovery c) ≤ 160 →
      24 ≤ s.m.fld (Reg.CHN_SSI.clk_div c) → s.m.fld (Reg.CHN_SSI.clk_div c) ≤ 2499 →
      s.m.fld (Reg.CHN_SSI.req_period c) * 1000 <
        (s.m.fld (Reg.CHN_CFG.abs_bits c) + s.m.fld (Reg.CHN_CFG.abs_parity c) + 1) *
          (4 * (s.m.fld (Reg.CHN_SSI.clk_div c) + 1)) + 250 * s.m.fld (Reg.CHN_SSI.recovery c) →
      Becomes .arm s { s.m with chn := { s.m.chn with armCause := 4 } })

/-- R69. A write to the STOP page, and STOP_n falling, leave the stations as they are: every slot, output and lift, what
waits for them, and every register of their block. Commands that complete in it (exec answers next with the effect it
states): STOP_PAGE_WRITE, DOORBELL, STOP_N_FALL. -/
def Obligations.AStopLeavesTheStations : Prop :=
  ∀ (s : State) (off val : Nat), Runs s → ∀ c ∈ [Instr.stopPageWrite, .doorbell 0 off val, .stopNFall],
    Reaches c s fun m => m.stn = s.m.stn ∧ ∀ a, a / 65536 = Reg.STN_CMD / 65536 → m.rd a = s.m.rd a

/-- R276. In a mode that is neither RUN nor BENCHMARK, and on a BACKSIGHT module, no command of the fire path sends a fire
set: what the module has sent of them stays as it was. -/
def Obligations.FiringNeedsRunOrBenchmark : Prop :=
  ∀ (s t : State) (j n hub rows h : Nat),
    (s.m.glb.mode ≠ .run ∧ s.m.glb.mode ≠ .benchmark) ∨ s.m.isBacksight = true →
    ∀ c ∈ [Instr.fireFetchStart j n hub, .fireFetchDone j n hub, .linePacketSent j n hub, .fireCommit j n hub rows,
           .downshiftBoundary, .tlmStale h, .usageRecordWrite, .usageWriteRetry h],
      exec c s = .next t →
      t.m.out.filter (fun o => match o with | .laneSymbols _ k _ => k == kF | _ => false) =
        s.m.out.filter (fun o => match o with | .laneSymbols _ k _ => k == kF | _ => false)

/-- R382. A read of BAR4 gives 0 for each byte of the state region, from 0x7_8000_0000, while the survey lock's scope DIAG
is closed and the byte of DRAM otherwise, and changes nothing. A write stores its bytes while the scope is open; while
it is closed it is discarded and counted. Commands that complete in it (exec answers next with the effect it states):
DIAG_READ, DIAG_WRITE. -/
def Obligations.TheStateRegionIsReadUnderTheLock : Prop :=
  (∀ (s : State) (off len : Nat), Runs s → len ≤ 64 → off + len ≤ 2 ^ 28 →
    Becomes (.diagRead off len) s (s.m.emit (.hostRead ((List.range len).map (fun i =>
      if 0x780000000 ≤ s.m.fld Reg.HST_DIAG.base * 2 ^ 28 + off + i ∧ s.m.sec.opened.getLsbD 4 = false then 0
      else s.m.dramByte (s.m.fld Reg.HST_DIAG.base * 2 ^ 28 + off + i)))))) ∧
  (∀ (s : State) (off : Nat) (d : List Byte), Runs s → off + d.length ≤ 2 ^ 28 →
    (s.m.sec.opened.getLsbD 4 = true →
      Becomes (.diagWrite off d) s (s.m.dramWrite (s.m.fld Reg.HST_DIAG.base * 2 ^ 28 + off) d)) ∧
    (s.m.sec.opened.getLsbD 4 = false → Becomes (.diagWrite off d) s (s.m.addSat Reg.HST_DIAG_WDISC.cnt 1)))

/-! ### Chainage -/

/-- CHN_CTRL.disarm and arm (R529). Disarm in SETUP leaves the vote DISARMED and the printed chainage and the lead where
they are, and touches nothing outside the vote; an arm that nothing refuses starts the vote at CHN_PRESET with no lead
and no slew; outside SETUP an arm is refused with arm cause 5 and changes nothing else. It rests on choices of the model
where the spec is open: log entries 175, 176. Commands that complete in it (exec answers next with the effect it
states): DISARM, ARM. -/
def Obligations.VoteArmsAndDisarms : Prop :=
  (∀ s : State, Runs s → s.m.glb.mode = .setup → s.m.chn.vote ≠ .disarmed →
    Reaches .disarm s fun m =>
      m = { s.m with chn := m.chn } ∧ m.chn.vote = .disarmed ∧ m.chn.printed = s.m.chn.printed ∧
      m.chn.lead = s.m.chn.lead ∧ ∀ c < 3, (m.chan c).state ≠ .voting ∧ (m.chan c).state ≠ .probation) ∧
  (∀ s : State, Runs s → s.m.glb.mode = .setup → s.m.chn.vote = .disarmed → 2 ≤ s.m.votedEn.length →
    (∀ c ∈ s.m.votedEn, s.m.unhealthy c = false ∧ s.m.threshLow c = false ∧ s.m.ssiLong c = false) →
    Reaches .arm s fun m =>
      m = { s.m with chn := m.chn, fgd := { s.m.fgd with ext := [], shifts := m.fgd.shifts }
                     cls := { s.m.cls with since := m.cls.since }, evt := m.evt, regs := m.regs } ∧
      (∀ c < 8, Tab.get none m.cls.since c = some m.chn.printed) ∧
      m.chn.vote = (if s.m.votedEn.length = 3 then .three else .two) ∧
      m.chn.printed = BitVec.ofNat 48 (s.m.pair Reg.CHN_PRESET_LO) ∧ m.chn.lead = 0 ∧ m.chn.slew = 0 ∧
      m.chn.armCause = 0 ∧ m.evt.seq = s.m.evt.seq + 1) ∧
  (∀ s : State, Runs s → s.m.glb.mode ≠ .setup → s.m.glb.mode ≠ .boot →
    Becomes .arm s { s.m with chn := { s.m.chn with armCause := 5 } })

/-- Native samples (R36, R37, R40, R43, R44). A SINCOS sample inside the amplitude window moves the net count by its phase
step of 1/4096 period; one edge of A counts up where A comes to differ from B and down where it comes to equal B, and
one of B the other way; levels that have not been stable for the filter's length count nothing; a request period is
counted; a good SSI word moves the net count by its increment, and a word with bad parity, or read after a request that
found the data line low, is discarded and counted. Each sample starts the advance at the speed of the interval it ends.
Nothing else of the module changes. A rising tooth edge that the filter passes (R40, R41). The first counts 1. In mode
TOOTH with a missing tooth an interval of at least gap_ratio/16 of the median counts 2; with an extra tooth one of at
most extra_ratio/16 counts nothing; one in the ordinary range counts 1 and joins the last eight intervals; an interval
outside a quarter to four times the median counts 1 and is one bad interval more. It rests on choices of the model where
the spec is open: log entries 111, 112, 113, 177, 178, 182. Commands that complete in it (exec answers next with the
effect it states): SINCOS_SAMPLE, QUAD_EDGE, SSI_REQUEST, SSI_WORD, TOOTH_EDGE. -/
def Obligations.ChannelSamplesCount : Prop :=
  (∀ (s : State) (ch : Nat) (sin cos : Int) (mark : Bool) (p q : Nat), Runs s → ch < 5 → s.m.chanType ch = 1 →
    (s.m.chan ch).state ≠ .cal → (s.m.chan ch).phase = some p → p < 4096 → q = interpolate sin cos →
    -2048 ≤ sin → sin ≤ 2047 → -2048 ≤ cos → cos ≤ 2047 →
    s.m.fld (Reg.CHN_SINCOS.amp_lo ch) * ampUnit ≤ (sin * sin + cos * cos).toNat →
    (sin * sin + cos * cos).toNat ≤ s.m.fld (Reg.CHN_SINCOS.amp_hi ch) * ampUnit →
    Becomes (.sincosSample ch sin cos mark) s
      (((s.m.setChan ch { (s.m.chan ch).moved (s.m.chanSign ch ((((q + 6144 - p) % 4096 : Nat) : Int) - 2048)) with
        phase := some q, levelZ := mark, amp := min 255 ((sin * sin + cos * cos).toNat / ampUnit)
        ampBad := false, ampRun := 0 }).noteIndex ch (mark && !(s.m.chan ch).levelZ)).addSat
          (Reg.CHN_ERR_CNT.amp ch) 0)) ∧
  (∀ (s : State) (ch : Nat) (a b z : PairIn), Runs s → ch < 5 → s.m.chanType ch = 2 →
    s.m.fld (Reg.CHN_CFG.pulse_mode ch) = 0 → s.m.fld (Reg.CHN_CFG.glitch ch) ≤ a.stable →
    s.m.fld (Reg.CHN_CFG.glitch ch) ≤ b.stable → s.m.fld (Reg.CHN_CFG.glitch ch) ≤ z.stable →
    (s.m.chan ch).levelA ≠ a.level → (s.m.chan ch).levelB = b.level →
    Becomes (.quadEdge ch a b z) s ((s.m.setChan ch {
      (s.m.chan ch).moved (s.m.chanSign ch (if a.level ≠ b.level then 1 else -1)) with
        levelA := a.level, levelB := b.level, levelZ := z.level
        edges := (s.m.chan ch).edges + 1 }).noteIndex ch (z.level && !(s.m.chan ch).levelZ))) ∧
  (∀ (s : State) (ch : Nat) (a b z : PairIn), Runs s → ch < 5 → s.m.chanType ch = 2 →
    s.m.fld (Reg.CHN_CFG.pulse_mode ch) = 0 → s.m.fld (Reg.CHN_CFG.glitch ch) ≤ a.stable →
    s.m.fld (Reg.CHN_CFG.glitch ch) ≤ b.stable → s.m.fld (Reg.CHN_CFG.glitch ch) ≤ z.stable →
    (s.m.chan ch).levelA = a.level → (s.m.chan ch).levelB ≠ b.level →
    Becomes (.quadEdge ch a b z) s ((s.m.setChan ch {
      (s.m.chan ch).moved (s.m.chanSign ch (if a.level = b.level then 1 else -1)) with
        levelA := a.level, levelB := b.level, levelZ := z.level
        edges := (s.m.chan ch).edges + 1 }).noteIndex ch (z.level && !(s.m.chan ch).levelZ))) ∧
  (∀ (s : State) (ch : Nat) (a b z : PairIn), Runs s → ch < 5 → s.m.chanType ch = 2 →
    s.m.fld (Reg.CHN_CFG.pulse_mode ch) = 0 → a.stable < s.m.fld (Reg.CHN_CFG.glitch ch) →
    b.stable < s.m.fld (Reg.CHN_CFG.glitch ch) → z.stable < s.m.fld (Reg.CHN_CFG.glitch ch) →
    Becomes (.quadEdge ch a b z) s (s.m.setChan ch (s.m.chan ch))) ∧
  (∀ (s : State) (ch : Nat) (high : Bool), Runs s → ch < 5 → s.m.chanType ch = 3 →
    Becomes (.ssiRequest ch high) s (s.m.setChan ch { s.m.chan ch with
      reqLow := !high, reqFrom := some ((s.m.chan ch).reqFrom.getD s.m.now) })) ∧
  (∀ (s : State) (ch w p : Nat) (par : Bool), Runs s → ch < 5 → s.m.chanType ch = 3 →
    s.m.flag (Reg.CHN_CFG.abs_gray ch) = false → s.m.parityBad ch w par = false →
    (s.m.chan ch).reqLow = false → (s.m.chan ch).lastWord = some p → (s.m.chan ch).span = 0 →
    w < 2 ^ s.m.absBits ch → p ≤ w → w - p ≤ 2 ^ (s.m.absBits ch - 2) →
    Becomes (.ssiWord ch w par) s (s.m.setChan ch {
      (s.m.chan ch).moved (s.m.chanSign ch ((w - p : Nat) : Int)) with
        lastWord := some w, wordBad := false, reqFrom := none })) ∧
  (∀ (s : State) (ch w : Nat) (par : Bool), Runs s → ch < 5 → s.m.chanType ch = 3 →
    (s.m.parityBad ch w par = true ∨ (s.m.chan ch).reqLow = true) →
    Becomes (.ssiWord ch w par) s
      ((s.m.setChan ch { s.m.chan ch with wordBad := true }).addSat (Reg.CHN_ERR_CNT.bad ch) 1)) ∧
  (∀ (s : State) (ch sb : Nat), Runs s → ch < 5 → s.m.chanType ch = 2 → s.m.fld (Reg.CHN_CFG.pulse_mode ch) = 1 →
    s.m.fld (Reg.CHN_CFG.glitch ch) ≤ sb → (s.m.chan ch).sampled = false →
    Becomes (.toothEdge ch sb) s (s.m.setChan ch ((s.m.chan ch).moved (s.m.chanSign ch 1)))) ∧
  (∀ (s : State) (ch sb i : Nat), Runs s → ch < 5 → s.m.chanType ch = 2 → s.m.fld (Reg.CHN_CFG.pulse_mode ch) = 1 →
    s.m.fld (Reg.CHN_CFG.glitch ch) ≤ sb → (s.m.chan ch).sampled = true → i = (s.m.chan ch).ticksSince →
    (s.m.chan ch).intervals ≠ [] →
    s.m.fld (Reg.CHN_TOOTH.gap_ratio ch) * medianOf (s.m.chan ch).intervals ≤ 16 * i →
    Becomes (.toothEdge ch sb) s
      ((s.m.setChan ch { (s.m.chan ch).moved (s.m.chanSign ch 2) with badTeeth := 0 }).noteIndex ch true)) ∧
  (∀ (s : State) (ch sb i : Nat), Runs s → ch < 5 → s.m.chanType ch = 2 → s.m.fld (Reg.CHN_CFG.pulse_mode ch) = 2 →
    s.m.fld (Reg.CHN_CFG.glitch ch) ≤ sb → (s.m.chan ch).sampled = true → i = (s.m.chan ch).ticksSince →
    (s.m.chan ch).intervals ≠ [] →
    16 * i ≤ s.m.fld (Reg.CHN_TOOTH.extra_ratio ch) * medianOf (s.m.chan ch).intervals →
    Becomes (.toothEdge ch sb) s ((s.m.setChan ch { s.m.chan ch with badTeeth := 0 }).noteIndex ch true)) ∧
  (∀ (s : State) (ch sb i : Nat), Runs s → ch < 5 → s.m.chanType ch = 2 → s.m.fld (Reg.CHN_CFG.pulse_mode ch) = 1 →
    s.m.fld (Reg.CHN_CFG.glitch ch) ≤ sb → (s.m.chan ch).sampled = true → i = (s.m.chan ch).ticksSince →
    16 * i < s.m.fld (Reg.CHN_TOOTH.gap_ratio ch) * medianOf (s.m.chan ch).intervals →
    medianOf (s.m.chan ch).intervals ≤ 4 * i → i ≤ 4 * medianOf (s.m.chan ch).intervals →
    Becomes (.toothEdge ch sb) s ((s.m.setChan ch { (s.m.chan ch).moved (s.m.chanSign ch 1) with
      intervals := (i :: (s.m.chan ch).intervals).take 8, badTeeth := 0 }).addSat (Reg.CHN_ERR_CNT.bad ch) 0)) ∧
  (∀ (s : State) (ch sb i : Nat), Runs s → ch < 5 → s.m.chanType ch = 2 → s.m.fld (Reg.CHN_CFG.pulse_mode ch) = 1 →
    s.m.fld (Reg.CHN_CFG.glitch ch) ≤ sb → (s.m.chan ch).sampled = true → i = (s.m.chan ch).ticksSince →
    (s.m.chan ch).intervals ≠ [] →
    16 * i < s.m.fld (Reg.CHN_TOOTH.gap_ratio ch) * medianOf (s.m.chan ch).intervals →
    4 * i < medianOf (s.m.chan ch).intervals →
    Becomes (.toothEdge ch sb) s ((s.m.setChan ch { (s.m.chan ch).moved (s.m.chanSign ch 1) with
      intervals := (i :: (s.m.chan ch).intervals).take 8
      badTeeth := (s.m.chan ch).badTeeth + 1, noted := true }).addSat (Reg.CHN_ERR_CNT.bad ch) 1))

/-- An auxiliary channel whose fault condition holds becomes FAULTY with its cause and one EV_CH_CHANNEL_FAULT, and nothing
else changes (R38, R40, R41, R44, R64): AMPLITUDE after more than 16 consecutive samples outside the window, TRANSITIONS
after 16 illegal transitions within 65 536 counted edges or 4 bad intervals in a row, WORDS after 3 request periods
without a good word. A voted channel that disagrees on more than 64 consecutive ticks while no vote stands, and meets no
condition that ranks before it, does the same (R47). The vote with two channels is lost when their pair sum stands
beyond the threshold on more than 64 consecutive ticks (R48); in SETUP nothing else follows than its record. A channel
that has passed its probation votes again with EV_CH_READMIT (R51). It rests on choices of the model where the spec is
open: log entry 114. Commands that complete in it (exec answers next with the effect it states): AMPLITUDE_FAULT,
TRANSITIONS_FAULT, WORDS_FAULT, DISAGREE_FAULT, PAIR_DISAGREEMENT, PROBATION_PASSED. -/
def Obligations.ChannelsAndVoteFault : Prop :=
  (∀ (s : State) (ch : Nat), Runs s → 3 ≤ ch → ch < 5 → s.m.chanType ch = 1 → (s.m.chan ch).state ≠ .faulty →
    16 < (s.m.chan ch).ampRun →
    Becomes (.amplitudeFault ch) s ((s.m.setChan ch { s.m.chan ch with
      state := .faulty, cause := .amplitude, devHist := [], devOver := 0, cleanTicks := 0, noted := false }).raise
        Ev.chChannelFault .warning ch ChFault.amplitude.code)) ∧
  (∀ (s : State) (ch : Nat), Runs s → 3 ≤ ch → ch < 5 → s.m.chanType ch = 2 → (s.m.chan ch).state ≠ .faulty →
    (s.m.chan ch).noted = true → 4 ≤ (s.m.chan ch).badTeeth →
    Becomes (.transitionsFault ch) s ((s.m.setChan ch { s.m.chan ch with
      state := .faulty, cause := .transitions, devHist := [], devOver := 0, cleanTicks := 0, noted := false }).raise
        Ev.chChannelFault .warning ch ChFault.transitions.code)) ∧
  (∀ (s : State) (ch a b : Nat), Runs s → 3 ≤ ch → ch < 5 → s.m.chanType ch = 2 → (s.m.chan ch).state ≠ .faulty →
    (s.m.chan ch).noted = true → (s.m.chan ch).illegal[0]? = some a → (s.m.chan ch).illegal[15]? = some b →
    a - b < 65536 →
    Becomes (.transitionsFault ch) s ((s.m.setChan ch { s.m.chan ch with
      state := .faulty, cause := .transitions, devHist := [], devOver := 0, cleanTicks := 0, noted := false }).raise
        Ev.chChannelFault .warning ch ChFault.transitions.code)) ∧
  (∀ (s : State) (ch t : Nat), Runs s → 3 ≤ ch → ch < 5 → s.m.chanType ch = 3 → (s.m.chan ch).state ≠ .faulty →
    (s.m.chan ch).reqFrom = some t → t + 1500 * s.m.ssiPeriod ch ≤ s.m.now →
    Becomes (.wordsFault ch) s ((s.m.setChan ch { s.m.chan ch with
      state := .faulty, cause := .words, devHist := [], devOver := 0, cleanTicks := 0, noted := false }).raise
        Ev.chChannelFault .warning ch ChFault.words.code)) ∧
  (∀ (s : State) (ch : Nat), Runs s → ch < 3 → s.m.chanType ch ≠ 0 → (s.m.chan ch).state ≠ .faulty →
    64 < (s.m.chan ch).devOver → (∀ c < 3, c ≠ ch → (s.m.chan c).devOver ≠ (s.m.chan ch).devOver) →
    s.m.causeNow ch = .disagree → s.m.chn.vote.valid = false →
    Becomes (.disagreeFault ch) s ((s.m.setChan ch { s.m.chan ch with
      state := .faulty, cause := .disagree, devHist := [], devOver := 0, cleanTicks := 0, noted := false }).raise
        Ev.chChannelFault .warning ch ChFault.disagree.code)) ∧
  (∀ s : State, Runs s → s.m.glb.mode = .setup → s.m.chn.vote = .two → 64 < s.m.chn.pairOver →
    Becomes .pairDisagreement s
      (({ s.m with chn := { s.m.chn with vote := .lost } } : Mach).raise Ev.chVoteLost .warning s.m.voteMask 1)) ∧
  (∀ (s : State) (ch : Nat), Runs s → ch < 3 → s.m.chanType ch ≠ 0 → (s.m.chan ch).state = .probation → (s.m.chan ch).devOver ≤ 64 →
    8 * s.m.devTicks ≤ (s.m.chan ch).cleanTicks → s.m.chn.vote = .two → s.m.voters.length = 2 → ch ∉ s.m.voters →
    Reaches (.probationPassed ch) s fun m =>
      m = { s.m with chn := m.chn, evt := m.evt, regs := m.regs } ∧ (m.chan ch).state = .voting ∧
      m.chn.vote = .three ∧ m.chn.printed = s.m.chn.printed ∧ m.evt.seq = s.m.evt.seq + 1)

/-- Clearing a fault (R51, R52). Readmission of a FAULTY voted channel while the vote stands puts it on PROBATION at the
voted position; while it does not, the channel is HEALTHY again with its record; an AUX channel is HEALTHY again with
its error counts at 0. Nothing else changes. It rests on choices of the model where the spec is open: log entry 174.
Commands that complete in it (exec answers next with the effect it states): READMIT, AUX_CLEAR. -/
def Obligations.ChannelsAreReadmitted : Prop :=
  (∀ (s : State) (ch : Nat), Runs s → ch < 3 → (s.m.chan ch).state = .faulty → s.m.glb.mode ≠ .halt → s.m.glb.mode ≠ .boot →
    s.m.chn.vote.valid = true →
    Becomes (.readmit ch) s (s.m.setChan ch { (s.m.chanAt ch (s.m.chan ch) s.m.voted17) with
      state := .probation, noted := false, devHist := [], devOver := 0, cleanTicks := 0 })) ∧
  (∀ (s : State) (ch : Nat), Runs s → ch < 3 → (s.m.chan ch).state = .faulty → s.m.glb.mode ≠ .halt → s.m.glb.mode ≠ .boot →
    s.m.chn.vote.valid = false →
    Becomes (.readmit ch) s
      ((s.m.setChan ch { ((s.m.chan ch).cleared) with state := .healthy }).raise Ev.chReadmit .info ch 0)) ∧
  (∀ (s : State) (ch : Nat), Runs s → 3 ≤ ch → ch < 5 → (s.m.chan ch).state = .faulty → s.m.glb.mode ≠ .halt →
    s.m.glb.mode ≠ .boot →
    Becomes (.auxClear ch) s
      (((s.m.setChan ch { (s.m.chanAt ch (s.m.chan ch).cleared (s.m.chan ch).pos) with
        state := .healthy, mark := none, indexNext := none, indexSeen := false }).wr (Reg.CHN_ERR_CNT ch) 0).raise
          Ev.chReadmit .info ch 0))

/-- Indexes (R40, R41, R58). A rise of the filtered Z, a rising reference mark and a recognised gap or extra tooth are the
index of a channel whose index is on: they note the net count it came at, and INDEX_PULSE without one changes nothing.
The first index after arming, and one within CHN_<ch>_INDEX_TOL of its place, fix where the next is due and report
nothing; before any accepted arm the index of a voted channel is no reference; one that has not come half a pitch after
its place is reported missing and the next is awaited a pitch further. slew_cancel sets slew_pending to 0 and changes
nothing else (R59). backstep_release with the debt at 0 clears backstep_hold with one record, and is ignored while a
debt stands (R56). At the end of a speed window, window_us after it began, CHN_SPEED_LINKS reads the links the printed
chainage went in it, and the next window begins from where the printed chainage stands; before its end nothing is
measured (R60). It rests on choices of the model where the spec is open: log entries 3, 123, 158, 174. Commands that
complete in it (exec answers next with the effect it states): INDEX_PULSE, INDEX_MISSING, SLEW_CANCEL, BACKSTEP_RELEASE,
SPEED_WINDOW_END. -/
def Obligations.IndexesSlewBackstepAndSpeed : Prop :=
  (∀ (m : Mach) (c : Nat), (m.noteIndex c false) = m ∧
    (m.indexed c = false → m.noteIndex c true = m) ∧
    (m.indexed c = true → m.noteIndex c true = m.setChan c { m.chan c with mark := some (m.chan c).net })) ∧
  (∀ (s : State) (ch : Nat), Runs s → s.m.indexed ch = false ∨ (s.m.chan ch).mark = none →
    Becomes (.indexPulse ch) s s.m) ∧
  (∀ (s : State) (ch : Nat) (k : Int), Runs s → s.m.indexed ch = true → (s.m.chan ch).mark = some k →
    (3 ≤ ch ∨ (s.m.chan ch).armed = true) →
    (∀ e, (s.m.chan ch).indexNext = some e → (k - e).natAbs ≤ s.m.fld (Reg.CHN_INDEX_TOL.tol ch)) →
    Becomes (.indexPulse ch) s (s.m.setChan ch { s.m.chan ch with
      mark := none, indexNext := some (k + s.m.fld (Reg.CHN_INDEX_PITCH.pitch ch)), indexSeen := true })) ∧
  (∀ (s : State) (ch : Nat) (k : Int), Runs s → s.m.indexed ch = true → (s.m.chan ch).mark = some k → ch < 3 →
    (s.m.chan ch).armed = false → (s.m.chan ch).indexNext = none →
    Becomes (.indexPulse ch) s (s.m.setChan ch { s.m.chan ch with mark := none, indexSeen := true })) ∧
  (∀ (s : State) (ch : Nat) (e : Int), Runs s → s.m.indexed ch = true → (s.m.chan ch).indexNext = some e →
    e + s.m.fld (Reg.CHN_INDEX_PITCH.pitch ch) / 2 + 1 ≤ (s.m.chan ch).net →
    Becomes (.indexMissing ch) s
      ((s.m.setChan ch { s.m.chan ch with indexNext := some (e + s.m.fld (Reg.CHN_INDEX_PITCH.pitch ch)) }).raise
        Ev.chIndexMissing .warning ch (unsigned 32 e))) ∧
  (∀ s : State, Runs s → s.m.glb.mode ≠ .boot →
    Becomes .slewCancel s { s.m with chn := { s.m.chn with slew := 0 } }) ∧
  (∀ s : State, Runs s → s.m.glb.mode ≠ .boot → s.m.chn.hold = true → s.m.debt17 = 0 →
    Becomes .backstepRelease s (({ s.m with chn := { s.m.chn with hold := false, peakDebt := 0 } } : Mach).raise
      Ev.chBackstepEnd .info (chnDiff s.m.chn.printed s.m.chn.holdFrom).toNat (ceilDiv s.m.chn.peakDebt (2 ^ 17)))) ∧
  (∀ s : State, Runs s → s.m.debt17 ≠ 0 → Becomes .backstepRelease s s.m) ∧
  (∀ s : State, Runs s → s.m.now < s.m.chn.speedStart + 500 * s.m.chn.speedNext → Becomes .speedWindowEnd s s.m) ∧
  (∀ s : State, Runs s → s.m.chn.speedStart + 500 * s.m.chn.speedNext ≤ s.m.now →
    Reaches .speedWindowEnd s fun m =>
      ((chnDiff s.m.chn.printed s.m.chn.speedPrinted).toNat % 2 ^ 32 ≠ 0 →
        m.rd Reg.CHN_SPEED_LINKS = (chnDiff s.m.chn.printed s.m.chn.speedPrinted).toNat % 2 ^ 32) ∧
      m.chn.speedWindow = s.m.chn.speedNext ∧ m.chn.speedStart = s.m.chn.speedStart + 500 * s.m.chn.speedNext ∧ m.chn.speedPrinted = s.m.chn.printed ∧ m.chn.speedVoted = s.m.chn.lead ∧
      m.chn.printed = s.m.chn.printed ∧ m.chn.lead = s.m.chn.lead ∧ m.chn.vote = s.m.chn.vote ∧
      m.stn = s.m.stn ∧ m.dtm = s.m.dtm)

/-- Stakes (R61, R63). An edge that the input picks, outside its lockout, with room in its queue and no slot waiting for it,
becomes the newest stake under the next number, dated at the tick its filter length ago, and starts the lockout from
that tick's chainage; POP removes the oldest and changes nothing else. It rests on choices of the model where the spec
is open: log entry 119. Commands that complete in it (exec answers next with the effect it states): PROBE_EDGE,
STAKE_POP. -/
def Obligations.StakesAreTakenAndPopped : Prop :=
  (∀ (s : State) (n : Nat) (rising : Bool) (x : Probe) (t : TickStamp), Runs s → n < 8 → s.m.glb.mode = .run →
    s.m.ptn.state = .solo → Tab.get ({} : Probe) s.m.chn.probe n = x →
    s.m.flag (Reg.CHN_PRB_CFG.en n) = true → s.m.flag (Reg.CHN_PRB_CFG.log n) = false →
    bitAt (s.m.fld (Reg.CHN_PRB_CFG.edge n)) (if rising then 0 else 1) = true →
    x.lockLeft = 0 → x.queue.length < 16 → s.m.chn.recent[s.m.fld (Reg.CHN_PRB_CFG.filter n)]? = some t →
    s.m.stn.slot = [] →
    Becomes (.probeEdge n rising) s { s.m with chn := { s.m.chn with
      probe := Tab.set {} s.m.chn.probe n { x with
        issued := x.issued + 1
        lockLeft := s.m.rd (Reg.CHN_PRB_LOCKOUT n) - (chnDiff s.m.chn.printed t.chn).toNat
        queue := x.queue ++ [{ num := x.issued + 1, rising := rising, held := t.held
                               invalid := decide (s.m.chn.vote = .lost), chn := t.chn, time := t.time }] } } }) ∧
  (∀ (s : State) (n : Nat) (x : Probe), Runs s → Tab.get {} s.m.chn.probe n = x →
    Becomes (.stakePop n) s { s.m with
      chn := { s.m.chn with probe := Tab.set {} s.m.chn.probe n ({ x with queue := x.queue.drop 1 } : Probe) } })

/-! ### Stations -/

/-- Commands to the slots (R70, R73, R86, R124). An op of STN_CMD while the block is idle is put behind the commits and
cancels on their way to DTM and sets busy; written while busy it moves only the slot field; READ fills the staging
registers from the slot it names; an STN_COMMIT or STN_CANCEL descriptor that its ring holds joins the same queue, a
CANCEL on a standby too. What reaches DTM takes effect on one tick (R70, R71, R73). A commit by number whose target lies
ahead leaves the slot ARMED at its target with result OK; a cancel of a waiting slot that no slot is chained to leaves
it CANCELLED with result OK; without a vote a commit is refused NO_CHAINAGE with the slot as it was. Every other slot,
every output and every lift group stay. It rests on choices of the model where the spec is open: log entry 183. Commands
that complete in it (exec answers next with the effect it states): STN_CMD_COMMIT, STN_CMD_CANCEL, STN_CMD_READ,
STN_COMMIT, STN_CANCEL, STN_COMMAND_TAKEN. -/
def Obligations.StationCommandsQueueAndTakeEffect : Prop :=
  (∀ (s : State) (slot : Nat), Runs s → s.m.glb.mode ≠ .boot → s.m.stn.busy = false →
    Becomes (.stnCmdCommit slot) s (({ s.m with stn := { s.m.stn with
      busy := true, cmds := s.m.stn.cmds ++ [.commit slot s.m.stagedSlot none] } } : Mach).setFld Reg.STN_CMD.slot slot) ∧
    Becomes (.stnCmdCancel slot) s (({ s.m with stn := { s.m.stn with
      busy := true, cmds := s.m.stn.cmds ++ [.cancel slot none] } } : Mach).setFld Reg.STN_CMD.slot slot)) ∧
  (∀ (s : State) (slot : Nat), Runs s → s.m.glb.mode ≠ .boot → s.m.stn.busy = true →
    Becomes (.stnCmdCommit slot) s (s.m.setFld Reg.STN_CMD.slot slot) ∧
    Becomes (.stnCmdCancel slot) s (s.m.setFld Reg.STN_CMD.slot slot) ∧
    Becomes (.stnCmdRead slot) s (s.m.setFld Reg.STN_CMD.slot slot)) ∧
  (∀ (s : State) (slot : Nat) (x : Slot) (tgt : Nat), Runs s → s.m.glb.mode ≠ .boot → s.m.stn.busy = false →
    s.m.slot slot = x → tgt = (if x.formed && x.state ≠ .waitStake then x.first.toNat else x.f.tgt) →
    Becomes (.stnCmdRead slot) s
      { (((((((((((s.m.setFld Reg.STN_CMD.slot slot).wr Reg.STN_TGT_LO (tgt % 2 ^ 32)).wr Reg.STN_TGT_HI (tgt / 2 ^ 32)).wr
        Reg.STN_ACT x.f.act).wr Reg.STN_ARG x.f.arg).wr Reg.STN_COUNT x.f.count).wr
        Reg.STN_IVL_LO (x.f.ivl % 2 ^ 32)).wr Reg.STN_IVL_HI (x.f.ivl / 2 ^ 32)).wr
        Reg.STN_STATE (x.skips + 2 ^ 28 * x.state.code)).wr Reg.STN_ACTUAL_LO (x.actual.toNat % 2 ^ 32)).wr
        Reg.STN_ACTUAL_HI (x.actual.toNat / 2 ^ 32)) with
        loStage := Tab.set none (Tab.set none s.m.loStage Reg.STN_TGT_LO none) Reg.STN_IVL_LO none
        stn := { s.m.stn with result := 0 } }) ∧
  (∀ (s : State) (h : DescRef) (f : StnCommitF) (d : Mach), Runs s → Held s h 0x25 → d = s.m.takeDesc h →
    s.m.hst.stopped = false → s.m.glb.mode ≠ .halt → s.m.glb.mode ≠ .backsight → s.m.mirroring = false →
    Becomes (.stnCommit h f) s { d with stn := { d.stn with
      cmds := d.stn.cmds ++ [.commit (f.slot % 256) (slotFields f.tgt f.act f.arg f.ivl f.count) (some h)] } }) ∧
  (∀ (s : State) (h : DescRef) (slot : Nat) (d : Mach), Runs s → Held s h 0x26 → d = s.m.takeDesc h →
    s.m.hst.stopped = false → s.m.glb.mode ≠ .halt → s.m.mirroring = false →
    Becomes (.stnCancel h slot) s { d with stn := { d.stn with
      cmds := d.stn.cmds ++ [.cancel (slot % 256) (some h)] } }) ∧
  (∀ (s : State) (n : Nat) (f : SlotFields) (rest : List StnCmd), Runs s → s.m.stn.cmds = .commit n f none :: rest →
    s.m.slotCrossed n = false → s.m.glb.mode ≠ .halt → s.m.glb.mode ≠ .backsight → s.m.chn.vote.valid = true →
    s.m.mirroring = false → f.bad n = false → f.armSrc = 0 → 0 < chnDiff (BitVec.ofNat 48 f.tgt) s.m.chn.printed →
    Reaches .stnCommandTaken s fun m =>
      m = { s.m with stn := { s.m.stn with cmds := rest, busy := false, result := 0, slot := m.stn.slot } } ∧
      m.slot n = { f := f, state := .armed, target := BitVec.ofNat 48 f.tgt, first := BitVec.ofNat 48 f.tgt, formed := true } ∧
      ∀ k ≠ n, m.slot k = s.m.slot k) ∧
  (∀ (s : State) (n : Nat) (rest : List StnCmd), Runs s → s.m.stn.cmds = .cancel n none :: rest →
    s.m.slotCrossed n = false → s.m.glb.mode ≠ .halt → s.m.glb.mode ≠ .backsight → s.m.mirroring = false → (s.m.slot n).state.waiting = true →
    (s.m.slot n).lastTick ≠ some s.m.now → (s.m.slot n).f.chainEn = false →
    Reaches .stnCommandTaken s fun m =>
      m = { s.m with stn := { s.m.stn with cmds := rest, busy := false, result := 0, slot := m.stn.slot } } ∧
      m.slot n = { s.m.slot n with state := .cancelled } ∧ ∀ k ≠ n, m.slot k = s.m.slot k) ∧
  (∀ (s : State) (n : Nat) (f : SlotFields) (rest : List StnCmd), Runs s → s.m.stn.cmds = .commit n f none :: rest →
    s.m.glb.mode ≠ .halt → s.m.glb.mode ≠ .backsight → s.m.chn.vote.valid = false →
    Becomes .stnCommandTaken s { s.m with stn := { s.m.stn with cmds := rest, busy := false, result := 5 } })

/-- A crossing (R66, R67, R75). The one crossed slot, a one-shot MARK that neither chains nor notifies, is DONE with the
printed chainage as its actual chainage, with one record; every other slot, every output and every lift group stay. With
nothing crossed nothing happens. Outputs and lift groups (R81, R84). A pulse ends on the tick its width has passed and
not before: its output is inactive, and its min_gap, in us, counts from that tick where there is one; the end of min_gap
frees the output on its tick and not before; the end of a lowered group's inhibit forgets the group. The land of the
output follows its level. Nothing else changes. It rests on choices of the model where the spec is open: log entry 184.
Commands that complete in it (exec answers next with the effect it states): STATION_CROSSING, PULSE_END, MIN_GAP_END,
LIFT_INHIBIT_END. -/
def Obligations.StationsActAndReturn : Prop :=
  (∀ (s : State) (n : Nat), Runs s → s.m.crossedSlots = [n] → s.m.mirroring = false → (s.m.slot n).f.action = 6 →
    (s.m.slot n).f.ivl = 0 → (s.m.slot n).f.rearm = false → (s.m.slot n).f.chainEn = false →
    (s.m.slot n).f.notify = false →
    Reaches .stationCrossing s fun m =>
      m = { s.m with stn := { s.m.stn with slot := m.stn.slot }, evt := m.evt, regs := m.regs } ∧
      m.slot n = { s.m.slot n with
        state := .done, taken := (s.m.slot n).taken + 1, lastTick := some s.m.now, actual := s.m.chn.printed } ∧
      (∀ k ≠ n, m.slot k = s.m.slot k) ∧ m.evt.seq = s.m.evt.seq + 1) ∧
  (∀ s : State, Runs s → s.m.crossedSlots = [] → Becomes .stationCrossing s s.m) ∧
  (∀ (s : State) (n t : Nat), Runs s → (s.m.stnOut n).pulse = some t → t ≤ s.m.now →
    s.m.fld (Reg.STN_OUT_LIM.min_gap n) ≠ 0 →
    Becomes (.pulseEnd n) s (s.m.setOut n { s.m.stnOut n with
      active := false, pulse := none, gap := some (t + 500 * s.m.fld (Reg.STN_OUT_LIM.min_gap n)) })) ∧
  (∀ (s : State) (n t : Nat), Runs s → (s.m.stnOut n).pulse = some t → t ≤ s.m.now →
    s.m.fld (Reg.STN_OUT_LIM.min_gap n) = 0 →
    Becomes (.pulseEnd n) s (s.m.setOut n { s.m.stnOut n with active := false, pulse := none })) ∧
  (∀ (s : State) (n t : Nat), Runs s → (s.m.stnOut n).pulse = some t → s.m.now < t → Becomes (.pulseEnd n) s s.m) ∧
  (∀ (s : State) (n t : Nat), Runs s → (s.m.stnOut n).gap = some t → t ≤ s.m.now →
    Becomes (.minGapEnd n) s (s.m.setOut n { s.m.stnOut n with gap := none })) ∧
  (∀ (s : State) (n t : Nat), Runs s → (s.m.stnOut n).gap = some t → s.m.now < t → Becomes (.minGapEnd n) s s.m) ∧
  (∀ (s : State) (g : Nat) (e : Chainage), Runs s → (Tab.get ({} : Lift) s.m.stn.lift g).ends = some e →
    Becomes (.liftInhibitEnd g) s
      (if chnAtOrAhead s.m.chn.printed e then
        { s.m with stn := { s.m.stn with lift := Tab.set {} s.m.stn.lift g {} } } else s.m))

/-! ### Motion axes -/

/-- Operations of an axis (R447, R457). Each op of MOT_A<a>_CMD waits for the axis's next planner tick with busy set, and
one written while another waits is discarded. Commands that complete in it (exec answers next with the effect it
states): MOVE, PRESET, STOP_AXIS, LIMITS, HOME, SET_POS, GEAR_ON, GEAR_OFF, CLEAR, OFF. -/
def Obligations.AxisCommandsWait : Prop :=
  (∀ (s : State) (a : Nat), Runs s → s.m.glb.mode ≠ .boot → (s.m.axis a).cmd = none →
    Becomes (.move a) s ((s.m.setAxis a { s.m.axis a with cmd := some .move }).setFld (Reg.MOT_A_CMD.busy a) 1) ∧
    Becomes (.preset a) s ((s.m.setAxis a { s.m.axis a with cmd := some .preset }).setFld (Reg.MOT_A_CMD.busy a) 1) ∧
    Becomes (.stopAxis a) s ((s.m.setAxis a { s.m.axis a with cmd := some .stop }).setFld (Reg.MOT_A_CMD.busy a) 1) ∧
    Becomes (.limits a) s ((s.m.setAxis a { s.m.axis a with cmd := some .limits }).setFld (Reg.MOT_A_CMD.busy a) 1) ∧
    Becomes (.home a) s ((s.m.setAxis a { s.m.axis a with cmd := some .home }).setFld (Reg.MOT_A_CMD.busy a) 1) ∧
    Becomes (.setPos a) s ((s.m.setAxis a { s.m.axis a with cmd := some .setPos }).setFld (Reg.MOT_A_CMD.busy a) 1) ∧
    Becomes (.gearOn a) s ((s.m.setAxis a { s.m.axis a with cmd := some .gearOn }).setFld (Reg.MOT_A_CMD.busy a) 1) ∧
    Becomes (.gearOff a) s ((s.m.setAxis a { s.m.axis a with cmd := some .gearOff }).setFld (Reg.MOT_A_CMD.busy a) 1) ∧
    Becomes (.clear a) s ((s.m.setAxis a { s.m.axis a with cmd := some .clear }).setFld (Reg.MOT_A_CMD.busy a) 1) ∧
    Becomes (.off a) s ((s.m.setAxis a { s.m.axis a with cmd := some .off }).setFld (Reg.MOT_A_CMD.busy a) 1)) ∧
  (∀ (s : State) (a : Nat), Runs s → (s.m.axis a).cmd ≠ none →
    ∀ c ∈ [Instr.move a, .preset a, .stopAxis a, .limits a, .home a, .setPos a, .gearOn a, .gearOff a, .clear a, .off a],
      Becomes c s s.m)

/-- The planner tick, 500 DTM ticks after the last, takes the waiting op (R436, R440, R447): in READY, SET_POS of an enabled
axis that holds, the one axis that anything is listed for, sets its position and its target and makes it valid with
result OK, STATUS.in_window says whether it lies in its window (R457), and then its coils are driven for the tick (R442,
R521). In power-fail and after a thermal shutdown nothing moves (R461, R468). It rests on choices of the model where the
spec is open: log entries 205, 206, 207, 208. Commands that complete in it (exec answers next with the effect it
states): PLANNER_TICK. -/
def Obligations.PlannerTakesACommand : Prop :=
  (∀ (s : State) (senses : List AxisSense) (a : Nat) (x : Axis) (p : Int) (n : Mach), Runs s → a < 12 → s.m.pwr.powerFail = false →
    s.m.thm.latch = none → s.m.glb.mode = .ready → s.m.mot.axis = [(a, x)] → x.state = .hold → x.cmd = some .setPos → x.req = [] → x.cmp0 = {} → x.cmp1 = {} → x.inhibit = false → s.m.flag (Reg.MOT_A_CFG.en a) = true →
    (∀ b < 12, s.m.fld (Reg.MOT_A_WIN_PLANES.planes b) = 0) →
    (∀ b < 12, b ≠ a → 0 < s.m.sfld (Reg.MOT_A_WIN_LO.lo b)) → p = s.m.sfld (Reg.MOT_A_STG_TARGET.target a) →
    s.m.lastBeat .plan + 500 ≤ s.m.now →
    n = (({ ((((s.m.beaten .plan).setFld (Reg.MOT_A_CMD.busy a) 0).setFld (Reg.MOT_A_CMD.result a) 0)) with
      mot := { s.m.mot with axis := [(a, { x with
        cmd := none, pos := p * ustep, posLow := 0, posValid := true, target := p
        within := decide (s.m.sfld (Reg.MOT_A_WIN_LO.lo a) ≤ p ∧ p ≤ s.m.sfld (Reg.MOT_A_WIN_HI.hi a)) })] } } : Mach).driveCoils a (senses.getD a {}).codes) →
    Becomes (.plannerTick senses) s { n with mot := { n.mot with planes := 0 } }) ∧
  (∀ (s : State) (senses : List AxisSense), Runs s → (s.m.pwr.powerFail = true ∨ s.m.thm.latch.isSome = true ∨ s.m.now < s.m.lastBeat .plan + 500) → Becomes (.plannerTick senses) s s.m)

/-- Enabling an axis, and its compare units (R447, R452). Outside BOOT and the pair that mirrors, a disabled axis in OFF
becomes HOLD without a valid position, and stays OFF on a standby; the arming of a compare unit waits for the next
planner tick; an ARMED one is CANCELLED, and one that is not stays. Nothing else changes. Faults of an axis (R445, R446,
R451). Once the set current of a MOVING axis has stood at the ceiling for eight full steps, its stall ends it, under
HOLD, in FAULT with cause 1, the position no longer valid, with a count, EV_MOT_STALL and EV_MOT_STATE; under WARN it is
counted and reported and the move goes on; with fewer steps it is no stall. The overcurrent of a holding axis, which
names its two measured coil currents once the larger has stood above 5/4 of the ceiling for two PWM periods in a row,
ends it in FAULT with cause 2, its coils off, with its two records; before that it is no overcurrent. The lag of a
GEARED axis that has stood above lag_max for 1 ms is reported, and once reported it is not again. Where a case changes
anything, nothing else changes. It rests on choices of the model where the spec is open: log entries 78, 206, 209.
Commands that complete in it (exec answers next with the effect it states): AXIS_ENABLE, CMP_ARM, CMP_CANCEL, STALL,
OVERCURRENT, GEAR_LAG. -/
def Obligations.AxesAreEnabledAndFault : Prop :=
  (∀ (s : State) (a : Nat), Runs s → s.m.glb.mode ≠ .boot → s.m.isBacksight = false →
    s.m.flag (Reg.MOT_A_CFG.en a) = false → s.m.mirroring = false → (s.m.axis a).state = .off →
    Becomes (.axisEnable a) s ((s.m.setFld (Reg.MOT_A_CFG.en a) 1).setAxis a
      { (s.m.axis a).rest with posValid := false, faultCause := 0, state := .hold })) ∧
  (∀ (s : State) (a u : Nat), Runs s → s.m.glb.mode ≠ .boot →
    Becomes (.cmpArm a u) s (s.m.setAxis a ((s.m.axis a).setCmp u { (s.m.axis a).cmp u with arming := true }))) ∧
  (∀ (s : State) (a u : Nat), Runs s → ((s.m.axis a).cmp u).state = .armed →
    Becomes (.cmpCancel a u) s (s.m.setAxis a ((s.m.axis a).setCmp u { (s.m.axis a).cmp u with state := .cancelled }))) ∧
  (∀ (s : State) (a u : Nat), Runs s → ((s.m.axis a).cmp u).state ≠ .armed → Becomes (.cmpCancel a u) s s.m) ∧
  (∀ (s : State) (a : Nat) (x : Axis), Runs s → s.m.axis a = x → x.state = .moving → 8 ≤ x.atCeil →
    s.m.flag (Reg.MOT_A_CFG.stall_action a) = false → s.m.mirroring = false →
    Becomes (.stall a) s (((((s.m.addSat (Reg.MOT_A_STALLS.cnt a) 1).raise Ev.motStall .error (a + 256)
      (unsigned 32 x.at)).setAxis a { x.rest with state := .fault, faultCause := 1, posValid := false, atCeil := 0 }).raise
        Ev.motState .error (a + 16 * AxState.fault.code + 256 * AxState.moving.code) 1))) ∧
  (∀ (s : State) (a : Nat) (x : Axis), Runs s → s.m.axis a = x → x.state = .moving → 8 ≤ x.atCeil →
    s.m.flag (Reg.MOT_A_CFG.stall_action a) = true →
    Becomes (.stall a) s (((s.m.addSat (Reg.MOT_A_STALLS.cnt a) 1).raise Ev.motStall .warning a
      (unsigned 32 x.at)).setAxis a { x with atCeil := 0 })) ∧
  (∀ (s : State) (a : Nat), Runs s → (s.m.axis a).atCeil < 8 → Becomes (.stall a) s s.m) ∧
  (∀ (s : State) (a : Nat) (x : Axis) (i j : Int) (d : Mach), Runs s → s.m.axis a = x → x.state = .hold → 2 ≤ x.above →
    i = x.coilA.meas → j = x.coilB.meas → s.m.mirroring = false →
    d = s.m.raise Ev.motOvercurrent .error a (unsigned 16 i + 65536 * unsigned 16 j) →
    Becomes (.overcurrent a i j) s ((((if x.coilA ≠ {} ∨ x.coilB ≠ {} then d.emit (.gates a 0) else d).setAxis a
      { x.rest with state := .fault, faultCause := 2, posValid := false, atCeil := 0
                    coilA := {}, coilB := {}, phase := 0, peak := 0, above := 0 }).raise
        Ev.motState .error (a + 16 * AxState.fault.code + 256 * AxState.hold.code) 2))) ∧
  (∀ (s : State) (a : Nat) (i j : Int), Runs s → (s.m.axis a).above < 2 → Becomes (.overcurrent a i j) s s.m) ∧
  (∀ (s : State) (a : Nat), Runs s → (s.m.axis a).lagRaised = true → Becomes (.gearLag a) s s.m) ∧
  (∀ (s : State) (a : Nat), Runs s → (s.m.axis a).state = .geared → 1000 ≤ (s.m.axis a).lagOver →
    (s.m.axis a).lagRaised = false →
    Becomes (.gearLag a) s ((s.m.setAxis a { s.m.axis a with lagRaised := true }).raise Ev.motGearLag .warning a
      (unsigned 32 (clampInt (-(2 ^ 31)) (2 ^ 31 - 1) (s.m.gearTarget a - (s.m.axis a).at)))))

/-! ### Datum and Ethernet -/

/-- Each DTM tick adds 1 to the tick count and the increment to the 96-bit Datum clock (R87, R88). With no vote the printed
chainage and the lead stay where they are (R50); with a vote the lead ends below one link, and while it is negative the
printed chainage holds (R54). It rests on choices of the model where the spec is open: log entry 181. Commands that
complete in it (exec answers next with the effect it states): DTM_TICK. -/
def Obligations.TickAdvancesTheClock : Prop :=
  ∀ (s : State) (residual : List Int), Runs s →
    Reaches (.dtmTick residual) s fun m =>
      m.dtm = { s.m.dtm with ticks := s.m.dtm.ticks + 1, clock := s.m.dtm.clock + s.m.dtm.incr.setWidth 96 } ∧
      (s.m.chn.vote.valid = false → m.chn.printed = s.m.chn.printed ∧ m.chn.lead = s.m.chn.lead) ∧
      (s.m.chn.vote.valid = true → m.chn.lead < 131072) ∧
      (m.chn.lead < 0 → m.chn.printed = s.m.chn.printed)

/-- The Datum clock (R90, R93). A pending offset is added to bits 95 to 32 of the clock on one tick, counted, and recorded
by EV_DTM_STEP; with none pending nothing happens; SNAP latches the time, the ticks, the printed chainage and the vote
of one tick. Nothing else changes. Who may set the clock (R89 to R91, R94). From the servo's owner a write of the high
half sets the increment, limited to 1.99 to 2.01 ns, makes an offset pending, or sets the epoch with EV_DTM_EPOCH; from
anyone else each is refused with EV_DTM_ADJ_REFUSED, and so is an offset while one is pending; the clock itself never
moves. Commands that complete in it (exec answers next with the effect it states): DTM_OFFSET_APPLIED, SNAP,
DTM_INCR_WRITE, DTM_OFFSET_WRITE, DTM_EPOCH_WRITE. -/
def Obligations.TheClockIsSetAndSnapshot : Prop :=
  (∀ (s : State) (o : DWord), Runs s → s.m.dtm.pendingOff = some o →
    Becomes .dtmOffsetApplied s (({ s.m with dtm := { s.m.dtm with
      clock := s.m.dtm.clock + (o.setWidth 96 <<< 32), pendingOff := none
      stepCount := (s.m.dtm.stepCount + 1) % 256 } } : Mach).raise Ev.dtmStep .info (o.toNat % 2 ^ 32) (o.toNat / 2 ^ 32))) ∧
  (∀ s : State, Runs s → s.m.dtm.pendingOff = none → Becomes .dtmOffsetApplied s s.m) ∧
  (∀ s : State, Runs s → s.m.glb.mode ≠ .boot →
    Becomes .snap s { s.m with dtm := { s.m.dtm with
      snapTime := s.m.time, snapTicks := s.m.dtm.ticks, snapChn := s.m.chn.printed, snapVote := s.m.chn.vote.code } }) ∧
  (∀ (s : State) (hi : Nat) (fw : Bool) (v : Nat), Runs s → s.m.writerHere fw = true → s.m.ownsServo fw = true →
    v = clampNat incrMin incrMax (hi % 256 * 2 ^ 32 + s.m.rd Reg.DTM_INCR_LO) →
    Becomes (.dtmIncrWrite none hi fw) s { ((s.m.wr Reg.DTM_INCR_LO (v % 2 ^ 32)).wr Reg.DTM_INCR_HI (v / 2 ^ 32)) with
      dtm := { s.m.dtm with incr := BitVec.ofNat 40 v } }) ∧
  (∀ (s : State) (hi : Nat) (fw : Bool), Runs s → s.m.writerHere fw = true → s.m.ownsServo fw = true →
    s.m.dtm.pendingOff = none →
    Becomes (.dtmOffsetWrite none hi fw) s { (s.m.wr Reg.DTM_OFFSET_HI (hi % 2 ^ 32)) with dtm := { s.m.dtm with
      pendingOff := some (BitVec.ofNat 64 ((s.m.wr Reg.DTM_OFFSET_HI (hi % 2 ^ 32)).pair Reg.DTM_OFFSET_LO)) } }) ∧
  (∀ (s : State) (hi : Nat) (fw : Bool) (e : Nat), Runs s → s.m.writerHere fw = true → s.m.ownsServo fw = true →
    e = (s.m.wr Reg.DTM_EPOCH_HI (hi % 2 ^ 32)).pair Reg.DTM_EPOCH_LO →
    Becomes (.dtmEpochWrite none hi fw) s (({ (s.m.wr Reg.DTM_EPOCH_HI (hi % 2 ^ 32)) with
      dtm := { s.m.dtm with epoch := BitVec.ofNat 64 e } } : Mach).raise Ev.dtmEpoch .info (e % 2 ^ 32) (e / 2 ^ 32))) ∧
  (∀ (s : State) (hi : Nat) (fw : Bool), Runs s → s.m.writerHere fw = true → s.m.ownsServo fw = false →
    Becomes (.dtmIncrWrite none hi fw) s
      (({ s.m with dtm := { s.m.dtm with adjRefused := true } } : Mach).raise Ev.dtmAdjRefused .warning 1 0) ∧
    Becomes (.dtmOffsetWrite none hi fw) s
      (({ s.m with dtm := { s.m.dtm with adjRefused := true } } : Mach).raise Ev.dtmAdjRefused .warning 1 1) ∧
    Becomes (.dtmEpochWrite none hi fw) s
      (({ s.m with dtm := { s.m.dtm with adjRefused := true } } : Mach).raise Ev.dtmAdjRefused .warning 1 2)) ∧
  (∀ (s : State) (hi : Nat) (fw : Bool), Runs s → s.m.writerHere fw = true → s.m.ownsServo fw = true →
    s.m.dtm.pendingOff ≠ none →
    Becomes (.dtmOffsetWrite none hi fw) s
      (({ s.m with dtm := { s.m.dtm with adjRefused := true } } : Mach).raise Ev.dtmAdjRefused .warning 2 1))

/-- PTP event messages and samples (R94 to R98), on an enabled port with PTP on. One received is stamped at its land less
rx_lat, a Sync with the step count beside its stamp; one sent two-step leaves as it was given, with its tag and check,
and puts its egress stamp, plus tx_lat, behind the others; a one-step Sync of the PTP port leaves with that time in its
originTimestamp; with servo_owner HOST firmware posts a completed measurement as one telemetry entry. Nothing else
changes. It rests on choices of the model where the spec is open: log entries 146, 147, 185, 186, 187. Commands that
complete in it (exec answers next with the effect it states): PTP_FRAME_RX, PTP_FRAME_TX, PTP_SAMPLE_POST. -/
def Obligations.PtpFramesAreStamped : Prop :=
  (∀ (s : State) (p k q : Nat) (t : DWord), Runs s → k < 4 → p < 2 → s.m.flag (Reg.ETH_P_CFG.en p) = true →
    s.m.fld Reg.ETH_PTP_CFG.role ≠ 3 → t = s.m.stampAt (-(s.m.fld (Reg.ETH_P_TS_LAT.rx_lat p) : Int)) →
    Becomes (.ptpFrameRx p k q) s (s.m.setEthPort p { s.m.ethPort p with
      rxStamp := some t
      syncs := if k = 0 then ((t, s.m.dtm.stepCount) :: (s.m.ethPort p).syncs).take 16 else (s.m.ethPort p).syncs })) ∧
  (∀ (s : State) (p k q : Nat) (f : List Byte), Runs s → k < 4 → p < 2 → s.m.flag (Reg.ETH_P_CFG.en p) = true →
    s.m.fld Reg.ETH_PTP_CFG.role ≠ 3 → s.m.skx.silent = false → (s.m.ethPort p).txStamps.length < 16 →
    Becomes (.ptpFrameTx p k q true f 0) s ((s.m.emit (.ptp p k q (s.m.ethSent p f))).setEthPort p { s.m.ethPort p with
      txStamps := (s.m.ethPort p).txStamps ++ [s.m.stampAt (s.m.fld (Reg.ETH_P_TS_LAT.tx_lat p))] })) ∧
  (∀ (s : State) (p q : Nat) (f : List Byte) (h : Nat × Option Nat) (t : DWord) (v : Int), Runs s → p < 2 →
    s.m.flag (Reg.ETH_P_CFG.en p) = true → s.m.fld Reg.ETH_PTP_CFG.role ≠ 3 → s.m.skx.silent = false →
    p = s.m.ptpPort → s.m.ptpHeader f = some h → (s.m.ethPort p).txStamps.length < 16 →
    t = s.m.stampAt (s.m.fld (Reg.ETH_P_TS_LAT.tx_lat p)) → v = (t.toNat : Int) + s.m.dtm.epoch.toInt → 0 ≤ v →
    Becomes (.ptpFrameTx p 0 q false f 0) s
      ((s.m.emit (.ptp p 0 q (s.m.ethSent p (syncFrame f h (v.toNat % 2 ^ 64))))).setEthPort p { s.m.ethPort p with
        txStamps := (s.m.ethPort p).txStamps ++ [t] })) ∧
  (∀ (s : State) (d : List Byte) (n : Nat), Runs s → s.m.flag Reg.DTM_CTRL.servo_owner = true → s.m.firmwareRuns = true →
    s.m.fld Reg.ETH_PTP_CFG.role ≠ 3 → d.length = 52 → n = s.m.stepAt (leField d 8 8) →
    Becomes (.ptpSamplePost d) s (({ s.m with eth := { s.m.eth with lastStep := n } } : Mach).tlmWrite 2
      (d ++ leBytes 1 (ofBool (s.m.flag Reg.ETH_PTP_CFG.mech) + 2 * s.m.ptpPort +
        4 * ofBool (n ≠ s.m.eth.lastStep)) ++ leBytes 1 n ++ leBytes 2 0)))

/-- Ports and links (R99 to R101, R107). With PTP on, a PTP port that leaves SLAVE puts the servo in HOLDOVER with
EV_PTP_STATE; the link of an enabled port that changes is recorded, and a disabled port comes up on none; with fo_en and
no link on the active port PTP moves to the other through LISTENING. A frame to an enabled port with a bad checksum,
more than 1 522 bytes or more than one tag is counted and discarded, one for PTP changes nothing, and an ARP or ICMP
request to a port with an address is answered; a disabled port takes none. A beacon tick (R102 to R104): with the beacon
on, outside BOOT and BACKSIGHT, once its period has passed, the newest four pairs of PTP time and chainage are kept, the
next tick is set a period later, the next sequence number is taken, and a port that is selected, up, addressed and
resolved sends. Before the period has passed nothing happens. It rests on choices of the model where the spec is open:
log entries 147, 150, 186, 188. Commands that complete in it (exec answers next with the effect it states):
PTP_PORT_STATE_CHANGE, ETH_LINK_CHANGE, PTP_FAILOVER, ETH_FRAME_RX, BEACON_SAMPLE. -/
def Obligations.PortsLinksAndBeacons : Prop :=
  (∀ (s : State) (st servo : Nat) (off : Int), Runs s → s.m.firmwareRuns = true → s.m.fld Reg.ETH_PTP_CFG.role ≠ 3 →
    s.m.eth.portState = 9 → 1 ≤ st → st < 9 →
    Becomes (.ptpPortStateChange st servo off) s { (({ (s.m.wr Reg.ETH_PTP_OFFSET
        (unsigned 32 (clampInt (-(2 ^ 31)) (2 ^ 31 - 1) off))) with
        eth := { s.m.eth with portState := st, servoState := 3 } } : Mach).raise Ev.ptpState .info st 9) with
      eth := { s.m.eth with portState := st, servoState := 3 } }) ∧
  (∀ (s : State) (p : Nat) (up : Bool), Runs s → p < 2 → s.m.flag (Reg.ETH_P_CFG.en p) = true → (s.m.ethPort p).link ≠ up →
    Becomes (.ethLinkChange p up) s ((s.m.setEthPort p { s.m.ethPort p with
      link := up, anDone := up && s.m.flag (Reg.ETH_P_CFG.an_en p) }).raise
        Ev.ethLink (if up then .info else .warning) p (ofBool up))) ∧
  (∀ (s : State) (p : Nat), Runs s → s.m.flag (Reg.ETH_P_CFG.en p) = false → Becomes (.ethLinkChange p true) s s.m) ∧
  (∀ s : State, Runs s → s.m.flag Reg.ETH_PTP_CFG.fo_en = true → (s.m.ethPort s.m.ptpPort).link = false →
    s.m.firmwareRuns = true → s.m.fld Reg.ETH_PTP_CFG.role ≠ 3 → s.m.eth.portState ≠ 4 → s.m.eth.portState ≠ 9 →
    Becomes .ptpFailover s (({ s.m with eth := { s.m.eth with moved := !s.m.eth.moved, portState := 4 } } : Mach).raise
      Ev.ptpState .info 4 s.m.eth.portState)) ∧
  (∀ (s : State) (p : Nat) (f : EthFrame), Runs s → p < 2 → s.m.flag (Reg.ETH_P_CFG.en p) = true →
    (f.crcOk = false ∨ 1522 < f.len ∨ 1 < f.tags) →
    Becomes (.ethFrameRx p f) s (s.m.addSat (Reg.ETH_P_RX_DISCARD.cnt p) 1)) ∧
  (∀ (s : State) (p : Nat) (f : EthFrame), Runs s → p < 2 → f.crcOk = true → f.len ≤ 1522 → f.tags ≤ 1 → f.kind = 1 →
    s.m.fld Reg.ETH_PTP_CFG.role ≠ 3 → Becomes (.ethFrameRx p f) s s.m) ∧
  (∀ (s : State) (p : Nat) (f : EthFrame), Runs s → p < 2 → s.m.flag (Reg.ETH_P_CFG.en p) = true → f.crcOk = true →
    f.len ≤ 1522 → f.tags ≤ 1 → (f.kind = 2 ∨ f.kind = 3) → s.m.firmwareRuns = true → s.m.rd (Reg.ETH_P_IP p) ≠ 0 →
    Becomes (.ethFrameRx p f) s (s.m.emit (.frame p (s.m.ethSent p f.data)))) ∧
  (∀ (s : State) (p : Nat) (f : EthFrame), Runs s → s.m.flag (Reg.ETH_P_CFG.en p) = false →
    Becomes (.ethFrameRx p f) s s.m) ∧
  (∀ (s : State) (r : Nat), Runs s → s.m.flag Reg.ETH_BCN_CFG.en = true → s.m.eth.bcnDue ≤ s.m.now →
    s.m.glb.mode ≠ .boot → s.m.glb.mode ≠ .backsight → 0 ≤ (s.m.time.toNat : Int) + s.m.dtm.epoch.toInt →
    Reaches (.beaconSample r) s fun m =>
      m.eth = { s.m.eth with
        bcnPairs := ({ ptp := BitVec.ofNat 64 (((s.m.time.toNat : Int) + s.m.dtm.epoch.toInt).toNat % 2 ^ 64)
                       chn := s.m.chainage } :: s.m.eth.bcnPairs).take 4
        bcnDue := s.m.eth.bcnDue + 500 * max 100 (s.m.fld Reg.ETH_BCN_CFG.period_us)
        bcnSeq := s.m.eth.bcnSeq + 1 } ∧
      m = { s.m with eth := m.eth, evt := m.evt, regs := m.regs, out := m.out } ∧
      ∀ p < 2, bitAt (s.m.fld Reg.ETH_BCN_CFG.ports) p = true → (s.m.ethPort p).link = true → s.m.skx.silent = false →
        s.m.rd (Reg.ETH_P_IP p) ≠ 0 → bitAt r p = true → s.m.out.length < m.out.length) ∧
  (∀ (s : State) (r : Nat), Runs s → s.m.now < s.m.eth.bcnDue → Becomes (.beaconSample r) s s.m)

/-! ### The host interface -/

/-- Enabling, disabling and ringing (R115, R117, R119). A CTRL, JOB, ITEM or COSMETIC ring that nothing refuses starts with
head and tail at 0 and phase 1, and one that is enabled is left as it is; one that something refuses stays off with its
cause recorded; disabling one makes it inactive; a doorbell of an entry the ring has moves its tail, and one beyond the
ring is discarded with cause 1. A ring's next descriptor (R112, R113, R118, R120, R122, R130). With room in its
completion queue, a window that allows the read and the ring's phase it is taken, and the head moves on, the phase
turning at the end of the ring; an opcode the ring does not know also completes BAD_OPCODE; a wrong phase stops the ring
with cause 2; without a window nothing is read and EV_HST_WINDOW is raised; without room the ring stalls; a held
descriptor whose data came back with an error completes DMA_ERROR with EV_HST_DMA_ERROR. It rests on choices of the
model where the spec is open: log entries 153, 189, 190. Commands that complete in it (exec answers next with the effect
it states): RING_ENABLE, RING_DISABLE, DOORBELL, DESCRIPTOR_FETCHED, HOST_DMA_ERROR. -/
def Obligations.RingsStartAndDescriptorsAreFetched : Prop :=
  (∀ (s : State) (r : Nat), Runs s → r < 12 → s.m.glb.mode ≠ .boot → s.m.flag (Reg.HST_RING_CFG.en r) = false →
    s.m.ringRefusal r = 0 →
    Becomes (.ringEnable r) s ((s.m.setFld (Reg.HST_RING_CFG.en r) 1).setRing r
      { active := true, cause := (s.m.ring r).cause, got := (s.m.ring r).got })) ∧
  (∀ (s : State) (r : Nat), Runs s → s.m.flag (Reg.HST_RING_CFG.en r) = true → Becomes (.ringEnable r) s s.m) ∧
  (∀ (s : State) (r : Nat), Runs s → r < 64 → s.m.glb.mode ≠ .boot → s.m.flag (Reg.HST_RING_CFG.en r) = false →
    s.m.ringRefusal r ≠ 0 →
    Becomes (.ringEnable r) s (((s.m.setFld (Reg.HST_RING_CFG.en r) 0).setRing r
      { s.m.ring r with cause := s.m.ringRefusal r }).raise Ev.hstRing .warning r (s.m.ringRefusal r))) ∧
  (∀ (s : State) (r : Nat), Runs s → r < 12 → s.m.glb.mode ≠ .boot →
    Becomes (.ringDisable r) s ((s.m.setFld (Reg.HST_RING_CFG.en r) 0).setRing r
      { s.m.ring r with active := false, stalled := false })) ∧
  (∀ (s : State) (r val : Nat), Runs s → r < 22 → s.m.glb.mode ≠ .boot →
    Becomes (.doorbell (1 + r / 8) (8 * (r % 8)) val) s
      (if s.m.ringSize r ≤ val % 65536 then
        (s.m.setRing r { s.m.ring r with cause := 1 }).raise Ev.hstRing .warning r 1
      else s.m.setRing r { s.m.ring r with tail := val % 65536 })) ∧
  (∀ (s : State) (r : Nat) (d : DescHead) (x : Ring), Runs s → s.m.ring r = x → s.m.ringFetches r = true →
    s.m.targetRoom (s.m.fld (Reg.HST_RING_CFG.cpl r)) = true → s.m.dmaOk false (s.m.ringNext r) (ringEntry r) = true →
    d.phase = x.phase → ringOpcode r d.opcode = true →
    Becomes (.descriptorFetched r d) s (s.m.setRing r { x with
      head := if x.head + 1 = s.m.ringSize r then 0 else x.head + 1
      phase := if x.head + 1 = s.m.ringSize r then !x.phase else x.phase
      stalled := false
      got := some { ring := r, index := x.head, tag := d.tag, opcode := d.opcode, irq := d.irq, quiet := d.quiet,
                    phase := d.phase, target := s.m.fld (Reg.HST_RING_CFG.cpl r) } })) ∧
  (∀ (s : State) (r : Nat) (d : DescHead) (x : Ring), Runs s → s.m.ring r = x → s.m.ringFetches r = true →
    s.m.targetRoom (s.m.fld (Reg.HST_RING_CFG.cpl r)) = true → s.m.dmaOk false (s.m.ringNext r) (ringEntry r) = true →
    d.phase = x.phase → ringOpcode r d.opcode = false → (r < 12 ∨ s.m.camBufs (r - 12) = []) →
    Becomes (.descriptorFetched r d) s ((s.m.setRing r { x with
      head := if x.head + 1 = s.m.ringSize r then 0 else x.head + 1
      phase := if x.head + 1 = s.m.ringSize r then !x.phase else x.phase
      stalled := false }).done
        { ring := r, index := x.head, tag := d.tag, opcode := d.opcode, irq := d.irq, quiet := d.quiet,
          phase := d.phase, target := s.m.fld (Reg.HST_RING_CFG.cpl r) } .badOpcode)) ∧
  (∀ (s : State) (r : Nat) (d : DescHead), Runs s → s.m.ringFetches r = true →
    s.m.targetRoom (s.m.fld (Reg.HST_RING_CFG.cpl r)) = true → s.m.dmaOk false (s.m.ringNext r) (ringEntry r) = true →
    d.phase ≠ (s.m.ring r).phase →
    Reaches (.descriptorFetched r d) s fun m =>
      m.ring r = { s.m.ring r with active := false, err := true, cause := 2 } ∧ (∀ k ≠ r, m.ring k = s.m.ring k) ∧
      m = { s.m with hst := { s.m.hst with rings := m.hst.rings }, evt := m.evt, regs := m.regs }) ∧
  (∀ (s : State) (r : Nat) (d : DescHead), Runs s → s.m.ringFetches r = true →
    s.m.targetRoom (s.m.fld (Reg.HST_RING_CFG.cpl r)) = true → s.m.dmaOk false (s.m.ringNext r) (ringEntry r) = false →
    Becomes (.descriptorFetched r d) s (s.m.raise Ev.hstWindow .warning r (s.m.ring r).head)) ∧
  (∀ (s : State) (r : Nat) (d : DescHead), Runs s → s.m.ringFetches r = true →
    s.m.targetRoom (s.m.fld (Reg.HST_RING_CFG.cpl r)) = false →
    Becomes (.descriptorFetched r d) s (s.m.setRing r { s.m.ring r with stalled := true })) ∧
  (∀ (s : State) (h : DescRef) (status : Nat) (d : Mach), Runs s → s.m.holdsDesc h = true → d = s.m.takeDesc h →
    s.m.hst.stopped = false → (h.ring < 12 ∨ s.m.camBufs (h.ring - 12) = []) →
    Becomes (.hostDmaError h status) s
      ((d.raise Ev.hstDmaError (if h.opcode = 0x40 then .error else .warning) h.ring status).done h .dmaError))

/-- What waits for the host (R120, R136, R140, R144, R146, R528). The oldest completion of a target with room is written and
waits no longer; the oldest record of the field book's queue is written; a snapshot goes to telemetry; a vector whose
holdoff has passed raises its message, or is pending while masked; a source that owes a record raises it. While the
module is stopped no waiting completion is written. The PCIe link (R111, R135, R143). A link that trains while nothing
can be written yet is recorded with its speed and width and raises its event; without stop_on_link its loss is recorded
and raises its event, and stops nothing. It rests on choices of the model where the spec is open: log entries 13, 57,
189. Commands that complete in it (exec answers next with the effect it states): COMPLETION_QUEUED, FIELDBOOK_DRAIN,
TLM_SNAPSHOT, VECTOR_HOLDOFF_EXPIRY, RATE_LIMITED_RECORD, PCIE_LINK_UP, PCIE_LINK_DOWN. -/
def Obligations.WaitingWritesAndTheLink : Prop :=
  (∀ (s : State) (t : Nat) (c : Cpl), Runs s → s.m.hst.stopped = false → 20 ≤ t → s.m.hst.cplWait = [(t, [c])] →
    s.m.ringRoom t = true → s.m.evt.queue = [] → s.m.evt.lost = 0 →
    Reaches (.completionQueued t) s fun m =>
      m.hst.cplWait = [] ∧ (m.ring t).head = (((s.m.setWaiting t []).cqPut t c).ring t).head ∧
      m = { s.m with hst := m.hst, evt := m.evt, regs := m.regs, out := m.out }) ∧
  (∀ (s : State) (t : Nat), Runs s → s.m.hst.stopped = true → Becomes (.completionQueued t) s s.m) ∧
  (∀ (s : State) (r : Rec) (d : Mach), Runs s → s.m.evt.queue = [r] → s.m.evt.lost = 0 → s.m.ringRoom 20 = true →
    d = ({ s.m with evt := { s.m.evt with queue := [] } } : Mach).recWrite r →
    Becomes .fieldbookDrain s { d with evt := { d.evt with barred := false } }) ∧
  (∀ s : State, Runs s → s.m.glb.mode ≠ .boot → s.m.fld Reg.HST_CFG.tlm_period_ms ≠ 0 →
    s.m.lastBeat .snapshot + s.m.fld Reg.HST_CFG.tlm_period_ms * 500000 ≤ s.m.now →
    Becomes .tlmSnapshot s ((s.m.beaten .snapshot).tlmWrite 1 (s.m.beaten .snapshot).snapshot)) ∧
  (∀ (s : State) (v : Nat), Runs s →
    s.m.now < Tab.get 0 s.m.evt.vecSince v + 50 * s.m.fld (Reg.EVT_VEC_CFG.holdoff v) → Becomes (.vectorHoldoffExpiry v) s s.m) ∧
  (∀ (s : State) (v : Nat), Runs s → Tab.get 0 s.m.evt.vecPending v ≠ 0 → s.m.fld (Reg.EVT_VEC_CFG.holdoff v) ≠ 0 →
    Tab.get 0 s.m.evt.vecSince v + 50 * s.m.fld (Reg.EVT_VEC_CFG.holdoff v) ≤ s.m.now →
    Becomes (.vectorHoldoffExpiry v) s
      (if s.m.flag (Reg.HST_MSIX_CTRL.mask v) then { s.m with evt := { s.m.evt with
          vecPending := Tab.set 0 s.m.evt.vecPending v 0, pba := Tab.set false s.m.evt.pba v true } }
      else ({ s.m with evt := { s.m.evt with vecPending := Tab.set 0 s.m.evt.vecPending v 0 } } : Mach).emit
        (.msix v (BitVec.ofNat 64 (s.m.pair (Reg.HST_MSIX_ADDR_LO v))) (word (s.m.rd (Reg.HST_MSIX_DATA v)))))) ∧
  (∀ (s : State) (e : Ev) (n : Nat), Runs s → e ∈ ratedEvents →
    (Tab.get {} s.m.evt.rate (rateKey e.code n)).count ≠ 0 → (Tab.get {} s.m.evt.rate (rateKey e.code n)).free s.m.now = true →
    Becomes (.rateLimitedRecord e.code n) s (s.m.rateFlush e n)) ∧
  (∀ (s : State) (speed width : Nat), Runs s → 1 ≤ speed → speed ≤ 4 → width ∈ [1, 2, 4, 8] → s.m.hst.linkSpeed = 0 →
    s.m.glb.mode ≠ .boot → s.m.hst.stopped = true → s.m.hst.cplWait = [] → (s.m.ring 20).active = false →
    s.m.cam.spill = [] →
    Becomes (.pcieLinkUp speed width) s
      (({ s.m with
            hst := { s.m.hst with linkSpeed := speed, linkWidth := width }
            evt := { s.m.evt with barred := false } } : Mach).raise
        Ev.hstLink .info 1 (speed * 16 + width))) ∧
  (∀ s : State, Runs s → 0 < s.m.hst.linkSpeed → s.m.flag Reg.HST_CFG.stop_on_link = false →
    Becomes .pcieLinkDown s
      (({ s.m with hst := { s.m.hst with linkSpeed := 0, linkWidth := 0 } } : Mach).raise Ev.hstLink .warning 0 0))

/-- Stopping (R111, R135, R136, R124). In a module past BOOT that is not stopped, the STOP page, a write to it as page 0 of
BAR2, HST_STOP, D3hot, a Function Level Reset, a CTRL STOP descriptor that its ring holds, and the loss of the link
under stop_on_link each stop it and mark their source beside those already there; RUN and BENCHMARK become READY; the
reset also disables every ring and masks every vector. While it is stopped the STOP page, HST_STOP and D3hot only mark
their source and count, outside the pair that mirrors. All but the loss of the link are shown to leave DTM as it was.
STOP_n and the release (R137, R301, R530). STOP_n going low stops a module past BOOT with source LAND and leaves
HEAD_PWR_EN low; in BOOT it changes the pin alone; its rise changes the pin alone. Past BOOT a release with STOP_n high
clears the stop, its sources and what was held; where nothing was held and the link is down it does that and raises
EV_HST_RELEASE, and nothing else; with STOP_n low it does nothing. It rests on choices of the model where the spec is
open: log entries 53, 87, 191. Commands that complete in it (exec answers next with the effect it states):
STOP_PAGE_WRITE, DOORBELL, HST_STOP, D3HOT_ENTRY, FUNCTION_LEVEL_RESET, STOP, PCIE_LINK_DOWN, STOP_N_FALL, STOP_N_RISE,
STOP_RELEASE. -/
def Obligations.StopsTakeHoldAndAreReleased : Prop :=
  (∀ s : State, Runs s → s.m.glb.mode ≠ .boot → s.m.hst.stopped = false →
    Reaches .stopPageWrite s fun m => StoppedBy s .page m) ∧
  (∀ (s : State) (off val : Nat), Runs s → s.m.glb.mode ≠ .boot → s.m.hst.stopped = false →
    Reaches (.doorbell 0 off val) s fun m => StoppedBy s .page m) ∧
  (∀ s : State, Runs s → s.m.glb.mode ≠ .boot → s.m.hst.stopped = false →
    Reaches .hstStop s fun m => StoppedBy s .ring m) ∧
  (∀ s : State, Runs s → s.m.glb.mode ≠ .boot → s.m.hst.stopped = false →
    Reaches .d3hotEntry s fun m => StoppedBy s .pm m) ∧
  (∀ s : State, Runs s → s.m.glb.mode ≠ .boot → s.m.hst.stopped = false →
    Reaches .functionLevelReset s fun m => StoppedBy s .pm m ∧
      (∀ r < 64, m.flag (Reg.HST_RING_CFG.en r) = false) ∧ ∀ v < 32, m.flag (Reg.HST_MSIX_CTRL.mask v) = true) ∧
  (∀ (s : State) (h : DescRef), Runs s → Held s h 0x22 → s.m.glb.mode ≠ .boot → s.m.hst.stopped = false →
    Reaches (.stop h) s fun m => StoppedBy s .ring m) ∧
  (∀ s : State, Runs s → s.m.glb.mode ≠ .boot → s.m.hst.stopped = false → 0 < s.m.hst.linkSpeed →
    s.m.flag Reg.HST_CFG.stop_on_link = true →
    Reaches .pcieLinkDown s fun m =>
      m.hst.stopped = true ∧ m.hst.linkSpeed = 0 ∧ m.hst.stopSrc = s.m.hst.stopSrc ||| (1#5 <<< StopSrc.link.bit)) ∧
  (∀ s : State, Runs s → s.m.glb.mode ≠ .boot → s.m.hst.stopped = true → s.m.mirroring = false →
    Becomes .stopPageWrite s (({ s.m with hst := { s.m.hst with
      stopSrc := s.m.hst.stopSrc ||| (1#5 <<< StopSrc.page.bit) } } : Mach).addSat Reg.HST_STOP_CNT.cnt 1) ∧
    Becomes .hstStop s (({ s.m with hst := { s.m.hst with
      stopSrc := s.m.hst.stopSrc ||| (1#5 <<< StopSrc.ring.bit) } } : Mach).addSat Reg.HST_STOP_CNT.cnt 1) ∧
    Becomes .d3hotEntry s (({ s.m with hst := { s.m.hst with
      stopSrc := s.m.hst.stopSrc ||| (1#5 <<< StopSrc.pm.bit) } } : Mach).addSat Reg.HST_STOP_CNT.cnt 1)) ∧
  (∀ s : State, Runs s → s.m.hst.stopN = true → s.m.glb.mode ≠ .boot →
    Reaches .stopNFall s fun m =>
      m.hst.stopN = false ∧ m.hst.stopped = true ∧ m.hst.stopSrc.getLsbD 1 = true ∧ m.fgd.headPwr = false) ∧
  (∀ s : State, Runs s → s.m.hst.stopN = true → s.m.glb.mode = .boot →
    Becomes .stopNFall s { s.m with hst := { s.m.hst with stopN := false } }) ∧
  (∀ s : State, Safe s → s.m.hst.stopN = false →
    Becomes .stopNRise s { s.m with hst := { s.m.hst with stopN := true } }) ∧
  (∀ s : State, Runs s → s.m.glb.mode ≠ .boot → s.m.hst.stopped = true → s.m.hst.stopN = true →
    Reaches .stopRelease s fun m => m.hst.stopped = false ∧ m.hst.stopSrc = 0 ∧ m.hst.held = []) ∧
  (∀ s : State, Runs s → s.m.glb.mode ≠ .boot → s.m.hst.stopped = true → s.m.hst.stopN = true → s.m.hst.held = [] →
    s.m.linkUp = false → s.m.mirroring = false →
    Becomes .stopRelease s (({ s.m with hst := { s.m.hst with stopped := false, stopSrc := 0 } } : Mach).raise
      Ev.hstRelease .info 0 0)) ∧
  (∀ s : State, Runs s → s.m.hst.stopN = false → Becomes .stopRelease s s.m)

/-! ### Modes, resets, BOOT and security -/

/-- Mode requests (R494). A request for READY from SETUP that the rules allow is carried out, by GLB_MODE_REQ and by a CTRL
MODE descriptor that its ring holds; one that they refuse leaves the mode and gives its cause, and one for the mode the
module is in changes nothing but the answer; a request for HALT from READY enters HALT. It rests on choices of the model
where the spec is open: log entries 57, 88. Commands that complete in it (exec answers next with the effect it states):
MODE_REQUEST, MODE. -/
def Obligations.ModesAreAskedFor : Prop :=
  (∀ s : State, Runs s → s.m.glb.mode = .setup → s.m.modeCause 2 = 0 →
    Reaches (.modeRequest 2) s fun m =>
      m.glb = { s.m.glb with mode := .ready, previous := .setup, lockBusy := false
                             lockResult := if s.m.glb.lockBusy then 5 else s.m.glb.lockResult } ∧
      m.chn = s.m.chn ∧ m.dtm = s.m.dtm ∧ m.hst = s.m.hst ∧ m.stn = s.m.stn) ∧
  (∀ (s : State) (t : Nat), Runs s → 1 ≤ t → t ≤ 6 → t ≠ s.m.glb.mode.code → s.m.modeCause t ≠ 0 →
    Becomes (.modeRequest t) s
      ((s.m.setFld Reg.GLB_MODE_REQ.result 1).setFld Reg.GLB_MODE_REQ.cause (s.m.modeCause t))) ∧
  (∀ s : State, Runs s → s.m.glb.mode ≠ .boot →
    Becomes (.modeRequest s.m.glb.mode.code) s
      ((s.m.setFld Reg.GLB_MODE_REQ.result 0).setFld Reg.GLB_MODE_REQ.cause 0)) ∧
  (∀ s : State, Runs s → s.m.glb.mode = .ready →
    Reaches (.modeRequest 6) s fun m =>
      m.glb.mode = .halt ∧ m.glb.previous = .ready ∧ m.glb.haltTick = some s.m.now ∧ m.fgd.headPwr = false ∧ m.dtm = s.m.dtm) ∧
  (∀ (s : State) (h : DescRef), Runs s → Held s h 0x24 → s.m.hst.stopped = false → s.m.glb.mode = .setup → s.m.modeCause 2 = 0 →
    Reaches (.mode h 2) s fun m => m.glb.mode = .ready ∧ m.glb.previous = .setup ∧ m.chn = s.m.chn ∧ m.dtm = s.m.dtm) ∧
  (∀ (s : State) (h : DescRef) (t : Nat) (d : Mach), Runs s → Held s h 0x24 → d = s.m.takeDesc h →
    s.m.hst.stopped = false → s.m.glb.mode = .ready → s.m.mirroring = false →
    1 ≤ t → t ≤ 6 → t ≠ 2 → s.m.modeCause t ≠ 0 →
    Becomes (.mode h t) s ((d.setFld Reg.GLB_MODE_REQ.cause (s.m.modeCause t)).done h .badState))

/-- The charter level (R4): a level up to max_level written in SETUP before the lock is pinned, one above it is discarded,
and one written under the lock is discarded and counted. Commands that complete in it (exec answers next with the effect
it states): PIN_LEVEL_WRITE. -/
def Obligations.LevelsArePinned : Prop :=
  (∀ (s : State) (v : Nat), Runs s → s.m.glb.locked = false → s.m.glb.mode = .setup → v ≤ s.m.fld Reg.GLB_COMPAT.max_level →
    Becomes (.pinLevelWrite v) s (s.m.setFld Reg.GLB_COMPAT.pin_level v)) ∧
  (∀ (s : State) (v : Nat), Runs s → s.m.glb.locked = false → s.m.fld Reg.GLB_COMPAT.max_level < v →
    Becomes (.pinLevelWrite v) s s.m) ∧
  (∀ (s : State) (v : Nat), Runs s → s.m.glb.locked = true →
    Becomes (.pinLevelWrite v) s { s.m with glb := { s.m.glb with wdisc := min (s.m.glb.wdisc + 1) (2 ^ 26 - 1) } })

/-- GLB_LOCK (R496, R497). A lock asked for in SETUP is busy until its checks are done; outside SETUP it is refused with
result 5; a region map that does not hold refuses it with result 1 and EV_LOCK_REFUSED; when the region map, the gains,
the geometry and the lanes all pass, the module is locked with result 0, the watchdog waiting for its first refresh.
Commands that complete in it (exec answers next with the effect it states): LOCK, LOCK_CHECKS_DONE. -/
def Obligations.TheModuleLocks : Prop :=
  (∀ s : State, Runs s → s.m.glb.locked = false → s.m.glb.lockBusy = false → s.m.glb.mode = .setup →
    Becomes .lock s { s.m with glb := { s.m.glb with lockBusy := true } }) ∧
  (∀ s : State, Runs s → s.m.glb.locked = false → s.m.glb.lockBusy = false → s.m.glb.mode ≠ .setup →
    Becomes .lock s { s.m with glb := { s.m.glb with lockResult := 5 } }) ∧
  (∀ (s : State) (q : Mach), Runs s → s.m.glb.lockBusy = true →
    q = { s.m with glb := { s.m.glb with lockBusy := false }, drm := { s.m.drm with lockCause := s.m.regionCause } } →
    s.m.regionCause ≠ 0 →
    Becomes .lockChecksDone s (({ q with glb := { q.glb with lockResult := 1 } } : Mach).raise
      Ev.lockRefused .warning 1 q.drmStatus)) ∧
  (∀ (s : State) (q : Mach), Runs s → s.m.glb.lockBusy = true →
    q = { s.m with glb := { s.m.glb with lockBusy := false }, drm := { s.m.drm with lockCause := 0 }
                   fgd := { s.m.fgd with lockCause := 0 } } →
    s.m.regionCause = 0 → s.m.fld Reg.FGD_G_GAIN.gain_min ≤ s.m.fld Reg.FGD_G_GAIN.gain_max → q.geoFailure = none →
    q.laneFailure = none →
    Reaches .lockChecksDone s fun m =>
      m.glb = { q.glb with locked := true, lockResult := 0 } ∧ m.fgd.geoOk = true ∧ m.fgd.wdgRefreshed = false ∧
      m.fgd.wdgExpired = false ∧ m.fgd.wdgTick = s.m.now ∧ m.chn = s.m.chn ∧ m.stn = s.m.stn ∧ m.dtm = s.m.dtm)

/-- The watchdog, the ceilings and head power (R293, R301, R302). A refresh by the host where it owns the watchdog, under
the lock and before its expiry, is taken; a write of another value by the host is counted; the expiry under the lock,
once wdg_ms has passed since the lock or the last refresh and not before, enters HALT and leaves HEAD_PWR_EN low; under
scope CEILINGS both copies of the ceiling record take the ceilings in force, each closed by its check, which unit 23
counts; HEAD_PWR_EN goes high once no condition of R301 fails and no shutdown is latched, and not while one fails. It
rests on choices of the model where the spec is open: log entries 91, 204. Commands that complete in it (exec answers
next with the effect it states): WATCHDOG_REFRESH, WATCHDOG_EXPIRY, CEILING_SAVE, HEAD_PWR_CHANGE. -/
def Obligations.TheGuardWatches : Prop :=
  (∀ s : State, Runs s → s.m.glb.mode ≠ .boot → s.m.glb.locked = true → s.m.fgd.wdgExpired = false →
    s.m.flag Reg.FGD_G_CFG.wdg_src = true →
    Becomes (.watchdogRefresh 0xC3A5 false) s { s.m with fgd := { s.m.fgd with wdgRefreshed := true, wdgTick := s.m.now } }) ∧
  (∀ s : State, Runs s → s.m.now < s.m.fgd.wdgTick + clampNat 1 1000 (s.m.fld Reg.FGD_G_CFG.wdg_ms) * 500000 →
    Becomes .watchdogExpiry s s.m) ∧
  (∀ (s : State) (v : Nat), Runs s → s.m.glb.mode ≠ .boot → v % 65536 ≠ 0xC3A5 →
    Becomes (.watchdogRefresh v false) s (s.m.addSat Reg.FGD_G_WDG_BAD.cnt 1)) ∧
  (∀ s : State, Runs s → s.m.glb.mode ≠ .boot → s.m.glb.locked = true → s.m.fgd.wdgExpired = false →
    s.m.fgd.wdgTick + clampNat 1 1000 (s.m.fld Reg.FGD_G_CFG.wdg_ms) * 500000 ≤ s.m.now →
    Reaches .watchdogExpiry s fun m =>
      m.glb.mode = .halt ∧ m.fgd.wdgExpired = true ∧ m.fgd.headPwr = false ∧ m.dtm = s.m.dtm) ∧
  (∀ s : State, Runs s → s.m.glb.mode ≠ .boot → s.m.ceilingsOpen = true →
    Becomes .ceilingSave s (({ s.m with nand := { s.m.nand with
      ceilA := { words := s.m.ceilingWords, crc := ceilingCrc s.m.ceilingWords }
      ceilB := { words := s.m.ceilingWords, crc := ceilingCrc s.m.ceilingWords } } } : Mach).checked 23 2 0)) ∧
  (∀ s : State, Runs s → s.m.fgd.headPwr = false → s.m.pwrOff = 0 → s.m.thm.latch = none →
    Becomes .headPwrChange s (({ s.m with fgd := { s.m.fgd with headPwr := true } } : Mach).raise Ev.guardPwr .info 1 0)) ∧
  (∀ s : State, Runs s → s.m.pwrOff ≠ 0 → Becomes .headPwrChange s s.m)

/-- Resets (R488, R479, R425). A software reset by its key, a power-on, the reset pin and a failed clock each bring the
module to BOOT stage A with the blocks named below at their reset values and DRAM lost, and keep the fuses, what is in
NAND, the STOP_n land and what has left the module, with the survey lock closed; the failed clock holds the module until
it is stable again, which starts no BOOT while the shutdown latch is set; another key resets nothing; the HALT timer, 1
ms after HALT in a pair that asks for it, starts BOOT too. It rests on choices of the model where the spec is open: log
entries 15, 53, 134. Commands that complete in it (exec answers next with the effect it states): SOFTWARE_RESET,
POWER_ON, RESET_PIN, CLOCK_FAILURE, CLOCK_STABLE, HALT_RESET_TIMER. -/
def Obligations.ResetsStartBoot : Prop :=
  (∀ (s : State) (straps : Nat), Runs s →
    Reaches (.softwareReset 0x5A17 straps) s fun m => Restarted s m ∧ m.glb.clockHeld = false) ∧
  (∀ (s : State) (straps : Nat), Runs s →
    Reaches (.powerOn straps) s fun m => Restarted s m ∧ m.glb.clockHeld = false) ∧
  (∀ (s : State) (straps : Nat), Runs s → s.m.thm.latch = none →
    Reaches (.resetPin straps) s fun m => Restarted s m ∧ m.glb.clockHeld = false) ∧
  (∀ s : State, Runs s → s.m.thm.latch = none →
    Reaches .clockFailure s fun m => Restarted s m ∧ m.glb.clockHeld = true) ∧
  (∀ (s : State) (key straps : Nat), Runs s → key % 65536 ≠ 0x5A17 → Becomes (.softwareReset key straps) s s.m) ∧
  (∀ s : State, Safe s → s.m.thm.latch.isSome = true → Becomes .clockStable s s.m) ∧
  (∀ s : State, Safe s → s.m.thm.latch = none → Becomes .clockStable s { s.m with glb := { s.m.glb with clockHeld := false } }) ∧
  (∀ (s : State) (t : Nat), Runs s → s.m.glb.mode = .halt → s.m.ptn.paired = true →
    s.m.flag Reg.PTN_CFG.halt_reset = true → s.m.glb.haltTick = some t → t + 500000 ≤ s.m.now →
    Reaches .haltResetTimer s fun m => m.glb.mode = .boot ∧ m.dram = [] ∧ m.nand = s.m.nand ∧ m.otp = s.m.otp)

/-- BOOT goes stage by stage (R489, R490). The end of stage A, B or F starts the next, that of A with PGOOD high; at the end
of stage C a vendor fuse block that fails its check stops BOOT with cause 1; nothing goes on once BOOT has stopped; and
the end of the last stage, with a good ceiling record and STOP_n high, leaves BOOT for SETUP. It rests on choices of the
model where the spec is open: log entry 18. Commands that complete in it (exec answers next with the effect it states):
BOOT_STAGE_DONE. -/
def Obligations.BootGoesStageByStage : Prop :=
  (∀ (s : State) (b : BootResult), Runs s → s.m.glb.mode = .boot → s.m.glb.bootFail = 0 → s.m.glb.stage ∈ [1, 2, 6] →
    Becomes (.bootStageDone b) s { s.m with
      glb := { s.m.glb with stage := s.m.glb.stage + 1 }
      out := if s.m.glb.stage = 1 then .pgood true :: s.m.out else s.m.out }) ∧
  (∀ (s : State) (b : BootResult), Runs s → s.m.glb.mode = .boot → s.m.glb.bootFail = 0 → s.m.glb.stage = 3 → b.ok = false →
    Becomes (.bootStageDone b) s { s.m with glb := { s.m.glb with bootFail := 1 } }) ∧
  (∀ (s : State) (b : BootResult), Runs s → s.m.glb.bootFail ≠ 0 → Becomes (.bootStageDone b) s s.m) ∧
  (∀ (s : State) (b : BootResult), Runs s → s.m.glb.mode = .boot → s.m.glb.bootFail = 0 → s.m.glb.stage = 7 →
    (s.m.bootCeilings b.ok).2 = true → s.m.hst.stopN = true →
    Reaches (.bootStageDone b) s fun m =>
      m.glb.mode = .setup ∧ m.glb.stage = 0 ∧ m.glb.timeMs = min 65535 b.ms ∧ m.dtm = s.m.dtm ∧ m.chn = s.m.chn)

/-- The survey lock (R493, R499 to R502). A challenge is issued unless a back-off runs, in which it and a reply are refused
with result 2; it expires after 60 s and not before. A reply without a valid challenge is refused with result 1; one
that no key gives for its scope, or with no scope, uses the challenge up, is counted as a failure with result 4 and
recorded, and the eighth failure starts a back-off; a reply of the vendor key opens its scope, as one of the OEM key
does of a scope within CEILINGS, KEYS and DIAG, clearing the count; the OEM key's reply for any other scope is refused
with result 3. A close closes the open scopes, if any, with its record; the end of a back-off, after 600 s, leaves the
count. CONFIRM in READY, RUN or BENCHMARK confirms the running slot and raises the rollback fuse to its version, once.
Under scope KEYS a usage key but key 0 is stored, or erased, with its record; without it neither does anything.
Transfers (R503 to R505, R136). With no transfer running, an op in a mode that allows it, with a buffer that a window
allows and that is long enough, sets busy and holds what it moves; an export whose buffer is too short (a calibration's
length the spec leaves open) holds result 3, an op in another mode result 2, and one whose buffer no window allows
result 1. While one runs, every op is ignored. A transfer that holds an export ends by leaving the module, with result 0
and EV_XFER; where no window allows its buffer by then, it writes nothing and ends with result 1, EV_HST_WINDOW and
EV_XFER; a refused one ends with its result and EV_XFER. None ends while the module is stopped, and with none running
nothing ends. It rests on choices of the model where the spec is open: log entries 69, 135, 136, 137, 140, 141, 142,
143, 144. Commands that complete in it (exec answers next with the effect it states): NONCE, SUBMIT, NONCE_EXPIRY,
CLOSE, BACKOFF_END, CONFIRM, KEY_STORE, KEY_ERASE, EXPORT_CAL, EXPORT_MON, IMPORT_CAL, IMPORT_MON, FW_LOAD, XFER_DONE. -/
def Obligations.TheSurveyLockAndTransfers : Prop :=
  (∀ (s : State) (v : List Byte), Runs s → s.m.sec.backoff = false →
    Becomes (.nonce v) s { (s.m.putBytes (Reg.SEC_NONCE 0) 4 (v.take 16)) with
      sec := { s.m.sec with nonceValid := true, nonceTick := s.m.now } }) ∧
  (∀ (s : State) (v : List Byte), Runs s → s.m.sec.backoff = true →
    Becomes (.nonce v) s { s.m with sec := { s.m.sec with result := 2 } }) ∧
  (∀ s : State, Runs s → s.m.sec.backoff = true →
    Becomes .submit s { s.m with sec := { s.m.sec with result := 2 } }) ∧
  (∀ s : State, Runs s → Becomes .nonceExpiry s (if s.m.sec.nonceTick + 30000000000 ≤ s.m.now then
    { s.m with sec := { s.m.sec with nonceValid := false } } else s.m)) ∧
  (∀ s : State, Runs s → s.m.sec.backoff = false →
    (s.m.sec.nonceValid = false ∨ s.m.sec.nonceTick + 30000000000 ≤ s.m.now) →
    Becomes .submit s { s.m with sec := { s.m.sec with result := 1 } }) ∧
  (∀ (s : State) (scope : Nat), Runs s → s.m.sec.backoff = false → s.m.sec.nonceValid = true →
    s.m.now < s.m.sec.nonceTick + 30000000000 → s.m.fld Reg.SEC_CTRL.scope = scope → s.m.sec.fails + 1 < 8 →
    (scope = 0 ∨ s.m.regBytes (Reg.SEC_RESP 0) 8 ≠ s.m.reply s.m.otp.vendorKey scope ∧
      s.m.otp.oemKey.map (fun k => s.m.reply k scope) ≠ some (s.m.regBytes (Reg.SEC_RESP 0) 8)) →
    Becomes .submit s (({ s.m with
      sec := { s.m.sec with nonceValid := false, fails := s.m.sec.fails + 1, result := 4 }
      nand := { s.m.nand with fails := s.m.sec.fails + 1 } } : Mach).raise Ev.lockFail .warning (s.m.sec.fails + 1) scope)) ∧
  (∀ (s : State) (scope : Nat), Runs s → s.m.sec.backoff = false → s.m.sec.nonceValid = true →
    s.m.now < s.m.sec.nonceTick + 30000000000 → s.m.fld Reg.SEC_CTRL.scope = scope → 8 ≤ s.m.sec.fails + 1 →
    (scope = 0 ∨ s.m.regBytes (Reg.SEC_RESP 0) 8 ≠ s.m.reply s.m.otp.vendorKey scope ∧
      s.m.otp.oemKey.map (fun k => s.m.reply k scope) ≠ some (s.m.regBytes (Reg.SEC_RESP 0) 8)) →
    Becomes .submit s (({ s.m with
      sec := { s.m.sec with nonceValid := false, fails := 8, result := 4, backoff := true, backoffSince := s.m.now }
      nand := { s.m.nand with fails := 8 } } : Mach).raise Ev.lockFail .warning 8 scope)) ∧
  (∀ (s : State) (scope : Nat), Runs s → s.m.sec.backoff = false → s.m.sec.nonceValid = true →
    s.m.now < s.m.sec.nonceTick + 30000000000 → s.m.fld Reg.SEC_CTRL.scope = scope → scope ≠ 0 →
    s.m.regBytes (Reg.SEC_RESP 0) 8 = s.m.reply s.m.otp.vendorKey scope →
    Becomes .submit s (({ s.m with
      sec := { s.m.sec with nonceValid := false, fails := 0, result := 0
                            opened := s.m.sec.opened ||| BitVec.ofNat 5 scope }
      nand := { s.m.nand with fails := 0 } } : Mach).raise Ev.lockOpen .info scope 0)) ∧
  (∀ (s : State) (scope : Nat) (k : List Byte), Runs s → s.m.sec.backoff = false → s.m.sec.nonceValid = true →
    s.m.now < s.m.sec.nonceTick + 30000000000 → s.m.fld Reg.SEC_CTRL.scope = scope → scope ≠ 0 → scope &&& 0b11100 = scope → s.m.otp.oemKey = some k →
    s.m.regBytes (Reg.SEC_RESP 0) 8 ≠ s.m.reply s.m.otp.vendorKey scope →
    s.m.regBytes (Reg.SEC_RESP 0) 8 = s.m.reply k scope →
    Becomes .submit s (({ s.m with
      sec := { s.m.sec with nonceValid := false, fails := 0, result := 0
                            opened := s.m.sec.opened ||| BitVec.ofNat 5 scope }
      nand := { s.m.nand with fails := 0 } } : Mach).raise Ev.lockOpen .info scope 1)) ∧
  (∀ (s : State) (scope : Nat) (k : List Byte), Runs s → s.m.sec.backoff = false → s.m.sec.nonceValid = true →
    s.m.now < s.m.sec.nonceTick + 30000000000 → s.m.fld Reg.SEC_CTRL.scope = scope → scope ≠ 0 → scope &&& 0b11100 ≠ scope → s.m.otp.oemKey = some k →
    s.m.regBytes (Reg.SEC_RESP 0) 8 ≠ s.m.reply s.m.otp.vendorKey scope →
    s.m.regBytes (Reg.SEC_RESP 0) 8 = s.m.reply k scope →
    Becomes .submit s { s.m with sec := { s.m.sec with nonceValid := false, result := 3 } }) ∧
  (∀ s : State, Runs s → s.m.sec.opened ≠ 0 →
    Becomes .close s
      (({ s.m with sec := { s.m.sec with opened := 0 } } : Mach).raise Ev.lockClose .info s.m.sec.opened.toNat 0)) ∧
  (∀ s : State, Runs s → s.m.sec.opened = 0 → Becomes .close s s.m) ∧
  (∀ s : State, Safe s → Becomes .backoffEnd s
    (if s.m.alive = true ∧ s.m.now < s.m.sec.backoffSince + 300000000000 then s.m
     else { s.m with sec := { s.m.sec with backoff := false } })) ∧
  (∀ s : State, Runs s → s.m.sec.confirmTaken = false →
    (s.m.glb.mode = .ready ∨ s.m.glb.mode = .run ∨ s.m.glb.mode = .benchmark) → s.m.sec.running ≠ 1 →
    Becomes .confirm s { s.m with
      nand := { s.m.nand with slotA := { s.m.nand.slotA with confirmed := true, starts := 0 } }
      sec := { s.m.sec with confirmTaken := true }
      otp := { s.m.otp with rollback := max s.m.otp.rollback s.m.nand.slotA.security } }) ∧
  (∀ s : State, Runs s → s.m.sec.confirmTaken = false →
    (s.m.glb.mode = .ready ∨ s.m.glb.mode = .run ∨ s.m.glb.mode = .benchmark) → s.m.sec.running = 1 →
    Becomes .confirm s { s.m with
      nand := { s.m.nand with slotB := { s.m.nand.slotB with confirmed := true, starts := 0 } }
      sec := { s.m.sec with confirmTaken := true }
      otp := { s.m.otp with rollback := max s.m.otp.rollback s.m.nand.slotB.security } }) ∧
  (∀ s : State, Runs s → s.m.sec.confirmTaken = true → Becomes .confirm s s.m) ∧
  (∀ (s : State) (k : Nat), Runs s → s.m.sec.opened.getLsbD 3 = true → s.m.fld Reg.SEC_KEY_CTRL.slot = k → k ≠ 0 →
    Becomes .keyStore s (((s.m.setKey k (s.m.regBytes (Reg.SEC_KEY_DATA 0) 8)).putBytes (Reg.SEC_KEY_DATA 0) 8 []).raise
      Ev.key .info k 1)) ∧
  (∀ (s : State) (k : Nat), Runs s → s.m.sec.opened.getLsbD 3 = true → s.m.fld Reg.SEC_KEY_CTRL.slot = k → k ≠ 0 →
    Becomes .keyErase s ((s.m.setKey k []).raise Ev.key .info k 0)) ∧
  (∀ s : State, Runs s → s.m.sec.opened.getLsbD 3 = false → Becomes .keyStore s s.m) ∧
  (∀ s : State, Runs s → s.m.sec.opened.getLsbD 3 = false → Becomes .keyErase s s.m) ∧
  (∀ s : State, Runs s → s.m.xfer = none → s.m.glb.mode ≠ .boot → s.m.dmaOk true s.m.xferAddr s.m.xferLen = true →
    Becomes .exportCal s { (s.m.setFld Reg.SEC_XFER.busy 1) with
      xfer := if s.m.exportLength 1 ≤ s.m.xferLen then
          some { op := 1, bytes := s.m.exportLength 1, work := .calOut s.m.xferAddr (s.m.takeCal (s.m.exportLength 1)) }
        else some { op := 1, result := 3 } }) ∧
  (∀ s : State, Runs s → s.m.xfer = none → s.m.glb.mode ≠ .boot → s.m.dmaOk true s.m.xferAddr s.m.xferLen = true →
    Becomes .exportMon s { (s.m.setFld Reg.SEC_XFER.busy 1) with
      xfer := if s.m.exportMonument.saved.length ≤ s.m.xferLen then
          some { op := 2, bytes := s.m.exportMonument.saved.length, work := .monOut s.m.xferAddr s.m.exportMonument }
        else some { op := 2, result := 3 } }) ∧
  (∀ (s : State) (e : CalExport), Runs s → s.m.xfer = none → s.m.glb.mode = .setup → s.m.glb.locked = true →
    s.m.xferLen = e.length → s.m.dmaOk false s.m.xferAddr s.m.xferLen = true →
    Becomes (.importCal e) s { (s.m.setFld Reg.SEC_XFER.busy 1) with
      xfer := some { op := 3, bytes := e.length, work := .calIn e } }) ∧
  (∀ (s : State) (p : Monument) (n : Nat) (ok : Bool), Runs s → s.m.xfer = none → s.m.glb.mode = .setup →
    s.m.glb.locked = true → s.m.chn.vote = .disarmed → s.m.xferLen = n → s.m.dmaOk false s.m.xferAddr s.m.xferLen = true →
    Becomes (.importMon p n ok) s { (s.m.setFld Reg.SEC_XFER.busy 1) with
      xfer := some { op := 4, bytes := n, work := .monIn p ok } }) ∧
  (∀ (s : State) (h i : List Byte), Runs s → s.m.xfer = none → s.m.glb.mode = .setup →
    s.m.xferLen = 256 + leField h 12 4 → s.m.xferLen = h.length + i.length →
    s.m.dmaOk false s.m.xferAddr s.m.xferLen = true →
    Becomes (.fwLoad h i) s { (s.m.setFld Reg.SEC_XFER.busy 1) with
      xfer := some { op := 5, bytes := s.m.xferLen, work := .fwIn h i } }) ∧
  (∀ (s : State) (e : CalExport) (p : Monument) (n : Nat) (ok : Bool), Runs s → s.m.xfer = none → s.m.glb.mode ≠ .setup →
    Becomes (.importCal e) s { (s.m.setFld Reg.SEC_XFER.busy 1) with xfer := some { op := 3, result := 2 } } ∧
    Becomes (.importMon p n ok) s { (s.m.setFld Reg.SEC_XFER.busy 1) with xfer := some { op := 4, result := 2 } }) ∧
  (∀ s : State, Runs s → s.m.xfer = none → s.m.glb.mode ≠ .boot → s.m.dmaOk true s.m.xferAddr s.m.xferLen = false →
    Becomes .exportCal s { (s.m.setFld Reg.SEC_XFER.busy 1) with xfer := some { op := 1, result := 1 } } ∧
    Becomes .exportMon s { (s.m.setFld Reg.SEC_XFER.busy 1) with xfer := some { op := 2, result := 1 } }) ∧
  (∀ (s : State) (e : CalExport) (p : Monument) (n : Nat) (ok : Bool) (h i : List Byte), Runs s → s.m.xfer ≠ none →
    Becomes .exportCal s s.m ∧ Becomes .exportMon s s.m ∧ Becomes (.importCal e) s s.m ∧
    Becomes (.importMon p n ok) s s.m ∧ Becomes (.fwLoad h i) s s.m) ∧
  (∀ (s : State) (n a : Nat) (e : CalExport), Runs s → s.m.xfer = some { op := 1, bytes := n, work := .calOut a e } →
    s.m.hst.stopped = false → s.m.pwr.powerFail = false → s.m.dmaOk true a n = true →
    Becomes .xferDone s (((((({ s.m with xfer := none } : Mach).emit (.calExport a e)).setFld Reg.SEC_XFER.busy 0).setFld
      Reg.SEC_XFER.result 0).wr Reg.SEC_XFER_DONE n).raise Ev.xfer .info 1 0)) ∧
  (∀ (s : State) (n a : Nat) (p : Monument), Runs s → s.m.xfer = some { op := 2, bytes := n, work := .monOut a p } →
    s.m.hst.stopped = false → s.m.pwr.powerFail = false → s.m.dmaOk true a n = true →
    Becomes .xferDone s (((((({ s.m with xfer := none } : Mach).emit (.hostWrite a p.saved)).setFld Reg.SEC_XFER.busy
      0).setFld Reg.SEC_XFER.result 0).wr Reg.SEC_XFER_DONE n).raise Ev.xfer .info 2 0)) ∧
  (∀ (s : State) (n a : Nat) (p : Monument), Runs s → s.m.xfer = some { op := 2, bytes := n, work := .monOut a p } →
    s.m.hst.stopped = false → s.m.pwr.powerFail = false → s.m.dmaOk true a n = false →
    Becomes .xferDone s ((((((({ s.m with xfer := none } : Mach).setFld Reg.SEC_XFER.busy 0).setFld Reg.SEC_XFER.result
      1)).raise Ev.hstWindow .warning (Config.openValue 239 0) (Config.openValue 239 1)).wr Reg.SEC_XFER_DONE n).raise
        Ev.xfer .warning 2 1)) ∧
  (∀ (s : State) (x : Xfer), Runs s → s.m.xfer = some x → x.work = .refused → s.m.hst.stopped = false →
    s.m.pwr.powerFail = false → x.result ≠ 0 → x.result ≠ 1 →
    Becomes .xferDone s (((((({ s.m with xfer := none } : Mach).setFld Reg.SEC_XFER.busy 0).setFld
      Reg.SEC_XFER.result x.result)).wr Reg.SEC_XFER_DONE x.bytes).raise Ev.xfer .warning x.op x.result)) ∧
  (∀ s : State, Runs s → s.m.hst.stopped = true → Becomes .xferDone s s.m) ∧
  (∀ s : State, Runs s → s.m.xfer = none → Becomes .xferDone s s.m)

/-! ### Redundancy -/

/-- Pairing (R405 to R407). An attempt of a locked, strapped SOLO module with pairing enabled starts PAIRING, a second after
the last one. One that times out after 10 ms leaves the module SOLO, with the first failure recorded and no later one. A
HELLO of a partner of the same strap, or of one whose geometry, level or store does not fit, ends the attempt in SOLO
with a record. One that fits makes a module that holds the majority, or is strapped A while neither does, FORESIGHT and
paired, and any other SYNCING in BACKSIGHT and paired. The extra wait of a module strapped B ends after 50 ms. The
mirror (R410, R413, R414, R417). A follower takes the next record in sequence, an echo reference and a stop or release
of the partner with the effects said here and an ACK where the record is a commit, and keeps the record until a monument
has it; it answers a failed CRC or a gap with NAK. An ACK with no commit held frees what it covers, and a stale one
nothing; a NAK of a record still held sends from it again. A monument of one part that passes is kept, and one that
fails its check is not. The active module of a pair sends one when it is due. It rests on choices of the model where the
spec is open: log entries 98, 101, 102. Commands that complete in it (exec answers next with the effect it states):
PAIRING_ATTEMPT, PAIRING_TIMEOUT, HELLO_RX, CLAIM_HOLDOFF_EXPIRY, MIRROR_RX, ACK_RX, NAK_RX, MONUMENT_RX, MONUMENT_DUE. -/
def Obligations.PairingAndTheMirror : Prop :=
  (∀ s : State, Runs s → s.m.flag Reg.PTN_CFG.en = true → (s.m.ptn.straps = 1 ∨ s.m.ptn.straps = 2) → s.m.glb.locked = true →
    s.m.ptn.state = .solo → (s.m.lane 40).state ≠ .cal → (s.m.lane 41).state ≠ .cal →
    (∀ t, s.m.ptn.pairTick = some t → t + 500000000 ≤ s.m.now) →
    Reaches .pairingAttempt s fun m =>
      m = { s.m with ptn := { s.m.ptn with state := .pairing, pairTick := some s.m.now }, skx := m.skx, evt := m.evt, regs := m.regs }) ∧
  (∀ (s : State) (t : Nat), Runs s → s.m.ptn.pairTick = some t →
    (s.m.now < t + 500000000 → Becomes .pairingAttempt s s.m) ∧ (s.m.now < t + 5000000 → Becomes .pairingTimeout s s.m)) ∧
  (∀ s : State, Runs s → s.m.ptn.state = .pairing → s.m.glb.mode ≠ .backsight → s.m.ptn.failRaised = true →
    (∀ t, s.m.ptn.pairTick = some t → t + 5000000 ≤ s.m.now) →
    Reaches .pairingTimeout s fun m =>
      m.ptn = { s.m.ptn with
        state := .solo, attemptDone := true, waitB := s.m.ptn.waitB || (!s.m.ptn.attemptDone && s.m.ptn.straps = 2)
        waitTick := if s.m.ptn.attemptDone then s.m.ptn.waitTick else s.m.now } ∧
      m = { s.m with ptn := m.ptn, skx := m.skx, regs := m.regs }) ∧
  (∀ s : State, Runs s → s.m.ptn.state = .pairing → s.m.glb.mode ≠ .backsight → s.m.ptn.failRaised = false →
    (∀ t, s.m.ptn.pairTick = some t → t + 5000000 ≤ s.m.now) →
    Reaches .pairingTimeout s fun m =>
      m.ptn = { s.m.ptn with
        state := .solo, failRaised := true, attemptDone := true
        waitTick := if s.m.ptn.attemptDone then s.m.ptn.waitTick else s.m.now
        waitB := s.m.ptn.waitB || (!s.m.ptn.attemptDone && s.m.ptn.straps = 2) } ∧
      m.evt.seq = s.m.evt.seq + 1 ∧ m = { s.m with ptn := m.ptn, skx := m.skx, evt := m.evt, regs := m.regs }) ∧
  (∀ (s : State) (p : Hello), Runs s → s.m.ptn.state = .pairing → s.m.laneUp 40 = true → s.m.laneUp 41 = true →
    (p.straps = s.m.ptn.straps ∨ p.geometry ≠ s.m.geometryHash ∨ p.level ≠ s.m.level ∨ p.storeSize.toNat ≠ s.m.storeSize) →
    s.m.glb.mode ≠ .backsight →
    Reaches (.helloRx p) s fun m =>
      m.ptn.state = .solo ∧ m.evt.seq = s.m.evt.seq + 1 ∧ m.ptn.paired = s.m.ptn.paired ∧ m.ptn.claimSeen = max s.m.ptn.claimSeen p.claim ∧
      m = { s.m with ptn := m.ptn, evt := m.evt, regs := m.regs }) ∧
  (∀ (s : State) (p : Hello), Runs s → s.m.ptn.state = .pairing → s.m.laneUp 40 = true → s.m.laneUp 41 = true →
    p.straps ≠ s.m.ptn.straps → p.geometry = s.m.geometryHash → p.level = s.m.level → p.storeSize.toNat = s.m.storeSize →
    s.m.glb.mode ≠ .backsight → (s.m.ptn.majority = true ∨ p.majority = false ∧ s.m.ptn.straps = 1) → s.m.ptn.held = [] →
    Reaches (.helloRx p) s fun m =>
      m.ptn.state = .foresight ∧ m.ptn.paired = true ∧ m.ptn.partner = PtnState.syncing.code ∧ m.ptn.inStep = false ∧
      m.glb = s.m.glb ∧ m.chn = s.m.chn ∧ m.dtm = s.m.dtm) ∧
  (∀ (s : State) (p : Hello), Runs s → s.m.ptn.state = .pairing → s.m.laneUp 40 = true → s.m.laneUp 41 = true →
    p.straps ≠ s.m.ptn.straps → p.geometry = s.m.geometryHash → p.level = s.m.level → p.storeSize.toNat = s.m.storeSize →
    s.m.ptn.majority = false → (p.majority = true ∨ s.m.ptn.straps ≠ 1) →
    Reaches (.helloRx p) s fun m =>
      m.ptn.state = .syncing ∧ m.ptn.paired = true ∧ m.ptn.partner = PtnState.foresight.code ∧ m.glb.mode = .backsight ∧
      m.chn = s.m.chn ∧ m.dtm = s.m.dtm) ∧
  (∀ s : State, Runs s →
    (s.m.ptn.waitTick + 25000000 ≤ s.m.now → Becomes .claimHoldoffExpiry s { s.m with ptn := { s.m.ptn with waitB := false } }) ∧
    (s.m.now < s.m.ptn.waitTick + 25000000 → Becomes .claimHoldoffExpiry s s.m)) ∧
  (∀ (s : State) (rs : List MirrorItem), Runs s → s.m.follows = true →
    Becomes (.mirrorRx rs false) s ((s.m.checked 22 1 1).sendFarsil 0x14 (leBytes 4 (s.m.ptn.applied + 1).toNat) [])) ∧
  (∀ (s : State) (i : MirrorItem), Runs s → s.m.follows = true → s.m.ptn.resync = false → i.seq = s.m.ptn.applied + 1 →
    Reaches (.mirrorRx [i] true) s fun m => m.ptn.applied = i.seq ∧ m.dtm = s.m.dtm) ∧
  (∀ (s : State) (i : MirrorItem) (hub tag : Nat) (lc hc : Word) (d : Mach), Runs s → s.m.follows = true →
    s.m.ptn.resync = false → i.seq = s.m.ptn.applied + 1 → i.body = .echoRef hub tag lc hc →
    d = { (s.m.checked 22 1 0) with ptn := { s.m.ptn with
      echoRefs := s.m.ptn.echoRefs ++ [(hub, tag, lc, hc)], applied := i.seq, after := s.m.ptn.after ++ [i] } } →
    Becomes (.mirrorRx [i] true) s (if i.isCommit = true then d.sendFarsil 0x13 (leBytes 4 i.seq.toNat) [] else d)) ∧
  (∀ (s : State) (i : MirrorItem) (c : Chainage) (a b : Word) (d : Mach), Runs s → s.m.follows = true →
    s.m.ptn.resync = false → i.seq = s.m.ptn.applied + 1 → i.body = .decision 5 c a b →
    d = { (s.m.checked 22 1 0) with ptn := { s.m.ptn with
      partnerStopped := decide (b.toNat = 1), partnerSrc := if b.toNat = 1 then a.toNat % 32 else 0
      applied := i.seq, after := s.m.ptn.after ++ [i] } } →
    Becomes (.mirrorRx [i] true) s (if i.isCommit = true then d.sendFarsil 0x13 (leBytes 4 i.seq.toNat) [] else d)) ∧
  (∀ (s : State) (i : MirrorItem), Runs s → s.m.follows = true → s.m.ptn.resync = false →
    0 < epochDiff i.seq (s.m.ptn.applied + 1) →
    Becomes (.mirrorRx [i] true) s ((s.m.checked 22 1 0).sendFarsil 0x14 (leBytes 4 (s.m.ptn.applied + 1).toNat) [])) ∧
  (∀ (s : State) (q : Word) (n : Nat), Runs s → s.m.mirroring = true → s.m.ptn.commitHold = false → s.m.ptn.held = [] →
    0 < epochDiff q s.m.ptn.acked → epochNewer q s.m.ptn.sent = false →
    n = (s.m.ptn.staging.filter (fun i => !epochNewer i.seq q)).length →
    Becomes (.ackRx q) s { s.m with ptn := { s.m.ptn with
      acked := q, staging := s.m.ptn.staging.drop n, stagedAt := s.m.ptn.stagedAt.drop n } }) ∧
  (∀ (s : State) (q : Word), Runs s → epochDiff q s.m.ptn.acked ≤ 0 → Becomes (.ackRx q) s s.m) ∧
  (∀ (s : State) (q : Word) (i : MirrorItem) (l : List MirrorItem), Runs s → s.m.mirroring = true →
    s.m.ptn.commitHold = false → s.m.ptn.staging.filter (fun i => !epochNewer q i.seq) = i :: l → i.seq = q →
    Becomes (.nakRx q) s (s.m.sendMirror (i :: l))) ∧
  (∀ (s : State) (p : Monument), Runs s → s.m.follows = true → s.m.ptn.resync = false → s.m.ptn.monParts = none →
    Becomes (.monumentRx p 0 1 true) s { (s.m.checked 23 1 0) with ptn := { s.m.ptn with
      monument := some p, monNum := p.num, claimSeen := max s.m.ptn.claimSeen p.claim
      after := s.m.ptn.after.filter (fun i => epochNewer i.seq p.mirrorSeq) } }) ∧
  (∀ (s : State) (p : Monument) (k n : Nat), Runs s → s.m.follows = true →
    Becomes (.monumentRx p k n false) s (s.m.checked 23 1 1)) ∧
  (∀ s : State, Runs s → s.m.ptn.paired = true → s.m.mirroring = true → s.m.ptn.commitHold = false →
    s.m.lastBeat .monument + 5000000 ≤ s.m.now →
    Reaches .monumentDue s fun m =>
      m.ptn = { s.m.ptn with monNum := (s.m.ptn.monNum + 1) % 2 ^ 32 } ∧ s.m.out.length < m.out.length ∧
      m = { s.m.beaten .monument with ptn := m.ptn, out := m.out, regs := m.regs }) ∧
  (∀ s : State, Runs s → s.m.now < s.m.lastBeat .monument + 5000000 → Becomes .monumentDue s s.m)

/-- The standby's step (R415, R416, R424, R430). A HEARTBEAT adds the deviation to the slew pending, the first one after
pairing steps the printed chainage by it, and it names the partner's state; RESYNC starts SYNCING again; an alarm
answered with a different view drops the standby out of step; the echo window of a standby without a lack says nothing;
the active module answers an alarm by its own view, and with the same view hands over; the proof phase advances each
second. It rests on choices of the model where the spec is open: log entries 98, 99, 107. Commands that complete in it
(exec answers next with the effect it states): PARTNER_HEARTBEAT_RX, RESYNC, ALARM_REPLY_RX, ECHO_WINDOW, ECHO_ALARM_RX,
PROOF_PHASE_ADVANCE. -/
def Obligations.TheStandbyKeepsStep : Prop :=
  (∀ (s : State) (b : Heartbeat), Runs s → s.m.follows = true → s.m.ptn.commitHold = false → s.m.ptn.state = .backsight →
    s.m.chn.vote ≠ .disarmed → s.m.ptn.first = false →
    Reaches (.partnerHeartbeatRx b) s fun m =>
      m.chn = { s.m.chn with slew := s.m.chn.slew + s.m.chnDeviation b.chn } ∧ m.ptn.partner = b.state ∧
      m.ptn.partnerStopped = b.stopped ∧ m = { s.m with chn := m.chn, ptn := m.ptn, evt := m.evt, regs := m.regs }) ∧
  (∀ (s : State) (b : Heartbeat), Runs s → s.m.follows = true → s.m.ptn.commitHold = false → s.m.ptn.state = .syncing →
    s.m.chn.vote ≠ .disarmed → s.m.ptn.first = true →
    Reaches (.partnerHeartbeatRx b) s fun m =>
      m.chn = { s.m.chn with printed := s.m.chn.printed + BitVec.ofInt 48 (s.m.chnDeviation b.chn) } ∧
      m.ptn.first = false ∧ m.ptn.partner = b.state) ∧
  (∀ s : State, Runs s → s.m.ptn.state = .backsight →
    Becomes .resync s ((({ s.m with ptn := { s.m.ptn with
      state := .syncing, inStep := false, stepTick := none, resync := true, monument := none, monParts := none } } : Mach).setFld
        Reg.PTN_SYNC.pct 0).sendFarsil 0x14 (leBytes 4 0) [])) ∧
  (∀ s : State, Runs s → s.m.ptn.state = .backsight → s.m.ptn.echoWait = true →
    Reaches (.alarmReplyRx 0) s fun m =>
      m.ptn = { s.m.ptn with state := .syncing, inStep := false, stepTick := none, badBeats := 0, echoWait := false } ∧
      m = { s.m with ptn := m.ptn, evt := m.evt, regs := m.regs }) ∧
  (∀ s : State, Runs s → s.m.now < s.m.lastBeat .echoes + 500000 → Becomes .echoWindow s s.m) ∧
  (∀ s : State, Runs s → s.m.echoesLacking = false → s.m.lastBeat .echoes + 500000 ≤ s.m.now →
    Becomes .echoWindow s { s.m.beaten .echoes with ptn := { s.m.ptn with lackEcho := false, echoSeen := [] } }) ∧
  (∀ s : State, Runs s → s.m.echoesLacking = true → s.m.ptn.state = .backsight → s.m.lastBeat .echoes + 500000 ≤ s.m.now →
    Becomes .echoWindow s (({ s.m.beaten .echoes with ptn := { s.m.ptn with lackEcho := true, echoSeen := [], echoWait := true } } : Mach).sendControl
      5 0 0)) ∧
  (∀ s : State, Runs s → s.m.ptn.state = .foresight → s.m.ptn.lackEcho = false →
    Becomes .echoAlarmRx s (s.m.sendControl 6 0 0)) ∧
  (∀ s : State, Runs s → s.m.ptn.state = .foresight → s.m.ptn.lackEcho = true →
    Reaches .echoAlarmRx s fun m => m.ptn.state = .syncing ∧ m.glb.mode = .backsight ∧ m.ptn.staging = [] ∧ m.dtm = s.m.dtm) ∧
  (∀ s : State, Runs s → s.m.lastBeat .phase + 500000000 ≤ s.m.now →
    Becomes .proofPhaseAdvance s { s.m.beaten .phase with ptn := { s.m.ptn with proofPhase := (s.m.ptn.proofPhase + 1) % 64 } })

/-- The loss of the partner (R403, R409, R418, R419, R421). 500 µs without its HEARTBEAT, or a Farsil lane that loses lock,
and it is lost: an active module holds its commits while a BACKSIGHT partner may still answer, and is SOLO at the end of
the 6 ms of the hold; a standby in step claims the hubs; one that is SYNCING is DETACHED and stale; a claim window that
ends without the majority leaves it DETACHED; a hub's GRANT says whether the module holds it, an answer to a claim only
for its own claim number, and one that fails its check is discarded; claims go to the hubs that are open and free; a
claiming module's state is restored before it takes over. It rests on choices of the model where the spec is open: log
entries 93, 106. Commands that complete in it (exec answers next with the effect it states): PARTNER_LOST,
LANE_LOCK_LOST, COMMIT_HOLD_EXPIRY, CLAIM_WINDOW_EXPIRY, GRANT_RX, CLAIM_ROUND, STATE_RESTORED. -/
def Obligations.ALostPartnerIsReplaced : Prop :=
  (∀ s : State, Runs s → s.m.ptn.paired = true → s.m.ptn.commitHold = false → s.m.ptn.state = .foresight →
    s.m.ptn.partner = PtnState.backsight.code → s.m.glb.mode ≠ .backsight → s.m.ptn.beatTick + 250000 ≤ s.m.now →
    Reaches (.partnerLost none) s fun m =>
      m.ptn = { s.m.ptn with commitHold := true, holdTick := s.m.now } ∧ m.evt.seq = s.m.evt.seq + 1 ∧
      m = { s.m with ptn := m.ptn, evt := m.evt, regs := m.regs }) ∧
  (∀ s : State, Runs s → s.m.now < s.m.ptn.beatTick + 250000 → Becomes (.partnerLost none) s s.m) ∧
  (∀ (s : State) (n cause : Nat), Runs s → (n = 40 ∨ n = 41) → s.m.laneUp n = true → s.m.ptn.paired = true →
    s.m.ptn.commitHold = false → s.m.ptn.state = .foresight → s.m.ptn.partner = PtnState.backsight.code →
    Reaches (.laneLockLost n cause) s fun m =>
      m.ptn = { s.m.ptn with commitHold := true, holdTick := s.m.now } ∧ (m.lane n).state = .lock ∧
      m.evt.seq = s.m.evt.seq + 1 ∧ m = { s.m with ptn := m.ptn, skx := m.skx, evt := m.evt, regs := m.regs }) ∧
  (∀ s : State, Runs s → s.m.now < s.m.ptn.holdTick + 3000000 → Becomes .commitHoldExpiry s s.m) ∧
  (∀ s : State, Runs s → s.m.ptn.commitHold = true → s.m.ptn.held = [] → s.m.ptn.holdTick + 3000000 ≤ s.m.now →
    Becomes .commitHoldExpiry s { s.m with ptn := { s.m.ptn with
      state := .solo, paired := false, commitHold := false, unmirrored := true, staging := [], stagedAt := [] } }) ∧
  (∀ s : State, Runs s → s.m.ptn.paired = true → s.m.ptn.commitHold = false → s.m.ptn.state = .backsight → s.m.ptn.beatTick + 250000 ≤ s.m.now →
    Reaches (.partnerLost none) s fun m =>
      m.ptn.state = .claiming ∧ m.ptn.lossTick = some s.m.now ∧ m.ptn.restored = false ∧ m.chn = s.m.chn ∧
      m.dtm = s.m.dtm ∧ m.glb = { s.m.glb with beats := m.glb.beats }) ∧
  (∀ s : State, Runs s → s.m.ptn.paired = true → s.m.ptn.commitHold = false → s.m.ptn.state = .syncing → s.m.ptn.beatTick + 250000 ≤ s.m.now →
    Reaches (.partnerLost none) s fun m =>
      m.ptn = { s.m.ptn with state := .detached, stale := true, paired := false, inStep := false } ∧
      m = { s.m with ptn := m.ptn, evt := m.evt, regs := m.regs }) ∧
  (∀ (s : State) (t : Nat), Runs s → s.m.ptn.lossTick = some t → s.m.now < t + 2500000 → Becomes .claimWindowExpiry s s.m) ∧
  (∀ s : State, Runs s → s.m.ptn.state = .claiming → (∀ t, s.m.ptn.lossTick = some t → t + 2500000 ≤ s.m.now) →
    Reaches .claimWindowExpiry s fun m =>
      m.ptn.state = .detached ∧ m.ptn.stale = true ∧ m.ptn.paired = false ∧ m.chn = s.m.chn ∧ m.dtm = s.m.dtm) ∧
  (∀ (s : State) (hub : Nat) (g : GrantF), Runs s → g.bad = true →
    Becomes (.grantRx hub g) s (s.m.discard (s.m.timingLane hub))) ∧
  (∀ (s : State) (hub : Nat) (g : GrantF), Runs s → g.bad = false → s.m.ptn.state = .solo →
    Reaches (.grantRx hub g) s fun m =>
      m.hub hub = { s.m.hub hub with
        seen := true, master := decide (g.masterPort = g.port), silence := g.silence
        held := decide (g.masterPort = g.port) && (decide (g.result ≠ 0 ∧ g.result ≠ 2) ||
          decide (g.claim.toNat = (s.m.hub hub).claimNo) || (s.m.hub hub).held)
        masterPort := if g.masterPort = 255 then none else some g.masterPort } ∧
      (∀ k ≠ hub, m.hub k = s.m.hub k) ∧ m.ptn.claimSeen = max s.m.ptn.claimSeen g.claim.toNat ∧
      m = { s.m with skx := m.skx, ptn := m.ptn }) ∧
  (∀ s : State, Runs s → s.m.glb.mode = .setup → s.m.ptn.state = .solo → s.m.mayClaim = true →
    s.m.lastBeat .claim + 500000 ≤ s.m.now →
    Reaches .claimRound s fun m =>
      m = { s.m.beaten .claim with ptn := { s.m.ptn with claim := m.ptn.claim }, skx := m.skx, regs := m.regs, out := m.out } ∧
      (s.m.hubsOpen.filter s.m.hubFree = [] → m = s.m.beaten .claim)) ∧
  (∀ s : State, Runs s → s.m.ptn.restored = false → s.m.ptn.state = .claiming →
    Becomes .stateRestored s { s.m with ptn := { s.m.ptn with restored := true } })

/-- Handover and revert (R423, R427 to R429). An active module without the majority for 2 ms hands over and stands by in
BACKSIGHT; HANDOVER and RELEASED make the standby claim, and RELEASED a reverting one claim every enabled hub; a revert
is asked for by a standby strapped A in step, agreed to by the active module while it prints, entered by the standby,
switched once the web has passed, and ended by an abort. It rests on choices of the model where the spec is open: log
entries 97, 105. Commands that complete in it (exec answers next with the effect it states): MAJORITY_LOSS_TIMEOUT,
HANDOVER_RX, RELEASED_RX, REVERT_NOW, REVERT_HOLD_EXPIRY, REVERT_REQ_RX, REVERT_ACK_RX, REVERT_SWITCH, REVERT_ABORT_RX,
REVERT_MAJORITY_TIMEOUT. -/
def Obligations.HandoverAndRevert : Prop :=
  (∀ (s : State) (t : Nat), Runs s → s.m.ptn.state = .foresight → s.m.ptn.partner = PtnState.backsight.code →
    s.m.ptn.commitHold = false → s.m.ptn.noMajSince = some t → t + 1000000 ≤ s.m.now →
    Reaches .majorityLossTimeout s fun m =>
      m.ptn.state = .syncing ∧ m.glb.mode = .backsight ∧ m.ptn.held = [] ∧ m.ptn.staging = [] ∧ m.chn = s.m.chn ∧
      m.dtm = s.m.dtm) ∧
  (∀ s : State, Runs s → s.m.ptn.state = .backsight →
    Becomes .handoverRx s { s.m with ptn := { s.m.ptn with handover := true } }) ∧
  (∀ s : State, Runs s → s.m.ptn.state = .backsight →
    Reaches .releasedRx s fun m =>
      m.ptn.state = .claiming ∧ m.ptn.handover = true ∧ m.ptn.lossTick = some s.m.now ∧ m.chn = s.m.chn ∧ m.dtm = s.m.dtm) ∧
  (∀ s : State, Runs s → s.m.ptn.state = .reverting → s.m.ptn.oldActive = false →
    Reaches .releasedRx s fun m => m.ptn.revertTick = some s.m.now ∧ m.ptn.state = .reverting ∧
      m.chn = s.m.chn ∧ m.dtm = s.m.dtm ∧ m.glb = s.m.glb) ∧
  (∀ (s : State) (c : Chainage) (q : Mach), Runs s → s.m.mayRevert = true →
    q = { s.m with ptn := { s.m.ptn with stepTick := some s.m.now } } → q.switchPoint = some c →
    Becomes .revertNow s (({ q with ptn := { q.ptn with cSw := some c } } : Mach).sendControl 1 c 0)) ∧
  (∀ s : State, Runs s → s.m.mayRevert = false → Becomes .revertNow s s.m) ∧
  (∀ (s : State) (c : Chainage) (q : Mach) (t : Nat), Runs s → s.m.mayRevert = true → s.m.ptn.stepTick = some t →
    t + max 1 (s.m.fld Reg.PTN_CFG.revert_hold_s) * 500000000 ≤ s.m.now →
    q = { s.m with ptn := { s.m.ptn with stepTick := some s.m.now } } → q.switchPoint = some c →
    Becomes .revertHoldExpiry s (({ q with ptn := { q.ptn with cSw := some c } } : Mach).sendControl 1 c 0)) ∧
  (∀ (s : State) (c : Chainage), Runs s → s.m.ptn.state = .foresight → s.m.ptn.partner = PtnState.backsight.code →
    s.m.ptn.commitHold = false → s.m.glb.mode = .run → (s.m.job 0).state = .printing → s.m.hst.stopped = false →
    s.m.mot.axis = [] →
    Reaches (.revertReqRx c) s fun m =>
      m.ptn = { s.m.ptn with state := .reverting, cSw := some c, oldActive := true, revertTick := none } ∧
      m = { s.m with ptn := m.ptn, evt := m.evt, regs := m.regs, out := m.out }) ∧
  (∀ (s : State) (c : Chainage), Runs s → s.m.ptn.state = .backsight → s.m.ptn.cSw = some c →
    Reaches (.revertAckRx c) s fun m =>
      m.ptn.state = .reverting ∧ m.ptn.oldActive = false ∧ m.glb.mode = .run ∧ m.chn = s.m.chn ∧ m.dtm = s.m.dtm) ∧
  (∀ (s : State) (w : Chainage), Runs s → s.m.ptn.state = .reverting → s.m.ptn.oldActive = true → s.m.ptn.revertTick = none →
    s.m.ptn.cSw = some w → s.m.fld Reg.CHN_SPEED_LINKS.links = 0 → chnAtOrAhead s.m.chainage w = true →
    (List.range 12).any (fun a => (s.m.axis a).state.busy) = false →
    Reaches .revertSwitch s fun m => (∀ a < 12, (m.axis a).state = .off) ∧
      m.ptn.state = .reverting ∧ m.ptn.revertTick = some s.m.now ∧ m.ptn.cSw = some w ∧ m.chn = s.m.chn ∧ m.dtm = s.m.dtm ∧
      m.glb = s.m.glb) ∧
  (∀ s : State, Runs s → s.m.ptn.state = .reverting → s.m.ptn.oldActive = true →
    Reaches .revertAbortRx s fun m =>
      m.ptn = { s.m.ptn with
        state := .foresight, oldActive := false, cSw := none, revertTick := none
        reclaim := s.m.ptn.revertTick.isSome && !s.m.ptn.majority
        noMajSince := if s.m.ptn.majority then s.m.ptn.noMajSince else s.m.ptn.noMajSince.or (some s.m.now) } ∧
      m = { s.m with ptn := m.ptn, evt := m.evt, regs := m.regs }) ∧
  (∀ (s : State) (t : Nat), Runs s → s.m.ptn.state = .reverting → s.m.ptn.oldActive = false → s.m.ptn.revertTick = some t →
    t + 2500000 ≤ s.m.now → s.m.hubsHeld = [] → s.m.ptn.majority = false →
    Reaches .revertMajorityTimeout s fun m =>
      m.ptn.state = .backsight ∧ m.ptn.cSw = none ∧ m.ptn.revertTick = none ∧ m.glb.mode = .backsight ∧ m.chn = s.m.chn ∧
      m.dtm = s.m.dtm)

/-! ### Power, heat, trims and DRAM -/

/-- The supplies (R458, R459, R461 to R463). An input is bad below 9.4 V or above 14.8 V, good again above 9.6 V or below
14.4 V, and in between as it was; the other input takes the load when the one that carries it fails, and VMAIN takes it
back once it has been good for return_ms and not before, each with one record; both inputs bad for 100 µs is power-fail:
a final monument is being written, every station output is off, no lane sends, the clock goes on, and the higher of the
two inputs carries what is left; the monument done joins the older slot; without an input the module goes off. It rests
on choices of the model where the spec is open: log entries 124, 125, 126. Commands that complete in it (exec answers
next with the effect it states): SUPPLY_GOOD_CHANGE, SUPPLY_RETURN, POWER_FAIL, FINAL_MONUMENT_DONE, POWER_DOWN. -/
def Obligations.SuppliesCarryTheLoad : Prop :=
  (∀ (s : State) (v : InputLevel) (mv : Nat), Runs s → s.m.pwr.vmainGood = true → s.m.pwr.vbackGood = true → s.m.pwr.onBack = false →
    s.m.pwr.powerFail = false → (v.mv < 9400 ∨ 14800 < v.mv) →
    Becomes (.supplyGoodChange 0 v mv) s (((({ s.m with pwr := { s.m.pwr with
      vmainGood := false, vmainHigh := decide (14800 < v.mv), mainMv := v.mv } } : Mach).raise
      Ev.supplyGood .warning 0 0)).supplySwitch true mv)) ∧
  (∀ (s : State) (v : InputLevel) (mv : Nat), Runs s → s.m.pwr.vmainGood = true → s.m.pwr.vmainHigh = false → 9400 ≤ v.mv →
    v.mv ≤ 14800 → s.m.pwr.powerFail = false → (s.m.pwr.onBack = true → s.m.pwr.vbackGood = true) →
    Becomes (.supplyGoodChange 0 v mv) s { s.m with pwr := { s.m.pwr with mainMv := v.mv } }) ∧
  (∀ (s : State) (v : InputLevel) (mv : Nat), Runs s → s.m.pwr.vbackGood = false → s.m.pwr.vmainGood = true → s.m.pwr.onBack = false →
    s.m.pwr.powerFail = false → (s.m.pwr.vbackHigh = false ∧ 9600 < v.mv ∧ v.mv ≤ 14800 ∨ s.m.pwr.vbackHigh = true ∧ 9400 ≤ v.mv ∧ v.mv < 14400) →
    Becomes (.supplyGoodChange 1 v mv) s (({ s.m with pwr := { s.m.pwr with vbackGood := true, vbackHigh := false, backMv := v.mv } } : Mach).raise
      Ev.supplyGood .info 1 1)) ∧
  (∀ (s : State) (mv : Nat), Runs s → s.m.now < s.m.pwr.mainTick + max 1 (s.m.fld Reg.PWR_CFG.return_ms) * 500000 →
    Becomes (.supplyReturn mv) s s.m) ∧
  (∀ (s : State) (mv : Nat), Runs s → s.m.pwr.vmainGood = true → s.m.pwr.onBack = true → s.m.pwr.powerFail = false →
    s.m.pwr.mainTick + max 1 (s.m.fld Reg.PWR_CFG.return_ms) * 500000 ≤ s.m.now →
    Becomes (.supplyReturn mv) s ((({ s.m with pwr := { s.m.pwr with onBack := false } } : Mach).addSat
      Reg.PWR_SWITCH_CNT.cnt 1).raise Ev.supplySwitch .warning 0 mv)) ∧
  (∀ (s : State) (a b : Nat), Runs s → s.m.pwr.vmainGood = false → s.m.pwr.vbackGood = false → s.m.pwr.powerFail = false →
    s.m.thm.latch = none → s.m.glb.mode ≠ .boot → s.m.pwr.badTick + 50000 ≤ s.m.now →
    Reaches (.powerFail a b) s fun m =>
      m.pwr = { s.m.pwr with powerFail := true, mainMv := a, backMv := b
                             onBack := if s.m.pwr.onBack then decide (a ≤ b) else decide (a < b) } ∧ m.skx.silent = true ∧ m.stn.out = [] ∧ m.finals.writing ≠ none ∧
      m.chn = s.m.chn ∧ m.dtm = s.m.dtm ∧ m.glb = s.m.glb) ∧
  (∀ (s : State) (p : Monument), Runs s → s.m.finals.writing = some p → s.m.pwr.vmainGood = false →
    s.m.pwr.vbackGood = false →
    Becomes .finalMonumentDone s { s.m with
      finals := { slots := p :: s.m.finals.slots.take 1, writing := none, last := 1 } }) ∧
  (∀ s : State, Runs s → s.m.pwr.vmainGood = false → s.m.pwr.vbackGood = false → s.m.finals.writing = none →
    Becomes .powerDown s { s.m with
      glb := { s.m.glb with powerOff := true }, fgd := { s.m.fgd with headPwr := false } })

/-- Heat and clocks (R464 to R468, R479). A tripped sensor latches its channel and reading, drops HEAD_PWR_EN, turns every
station output off and stops every lane; its record, which unit 23 checks, done switches the module off and drives PGOOD
low; a round of readings, 1.024 ms after the last, takes the hold-up state and raises a package's band at once; a PLL
that unlocks silences the lanes, and its lock lets them send again. It rests on choices of the model where the spec is
open: log entries 126, 129. Commands that complete in it (exec answers next with the effect it states):
THERMAL_SHUTDOWN, SHUTDOWN_RECORD_DONE, HOUSEKEEPING_ROUND, LANE_PLL_UNLOCK, LANE_PLL_RELOCK. -/
def Obligations.HeatAndClocks : Prop :=
  (∀ (s : State) (ch : Nat) (r : Int), Runs s → (ch < 16 ∨ ch = 20) → s.m.thm.latch = none → s.m.pwr.powerFail = false →
    Reaches (.thermalShutdown ch r) s fun m =>
      m.thm = { s.m.thm with latch := some (ch, unsigned 16 r) } ∧ m.fgd.headPwr = false ∧ m.skx.silent = true ∧
      m.stn.out = [] ∧ m.chn = s.m.chn ∧ m.dtm = s.m.dtm ∧ m.glb = s.m.glb) ∧
  (∀ (s : State) (r : Nat × Nat), Runs s → s.m.thm.latch = some r →
    Becomes .shutdownRecordDone s ((({ s.m with
      nand := { s.m.nand with shutdown := some r }
      glb := { s.m.glb with powerOff := true } } : Mach).checked 23 1 0).emit (.pgood false))) ∧
  (∀ (s : State) (r : Readings), Runs s → s.m.now < s.m.lastBeat .round + 512000 → Becomes (.housekeepingRound r) s s.m) ∧
  (∀ (s : State) (r : Readings), Runs s → s.m.copyDiffers r.upset = false → s.m.lastBeat .round + 512000 ≤ s.m.now →
    Reaches (.housekeepingRound r) s fun m =>
      m.pwr.holdupOk = r.holdupOk ∧ m.chn = s.m.chn ∧ m.dtm = s.m.dtm ∧ m.glb = (s.m.beaten .round).glb ∧
      ∀ k < 4, 16 + k ∉ r.opens → (Tab.get ({} : Package) s.m.drm.pkg k).band < clampNat 0 3 (r.ch.getD (16 + k) 0).toNat →
        (Tab.get ({} : Package) m.drm.pkg k).band = clampNat 0 3 (r.ch.getD (16 + k) 0).toNat) ∧
  (∀ (s : State) (net : Bool), Runs s → s.m.skx.lane = [] →
    Becomes (.lanePllUnlock net) s { s.m with skx := { s.m.skx with
      pllDown := s.m.skx.pllDown ||| pllBit net, silent := true } }) ∧
  (∀ (s : State) (net : Bool), Runs s → s.m.skx.pllDown = pllBit net → s.m.pwr.powerFail = false → s.m.thm.latch = none →
    Reaches (.lanePllRelock net) s fun m => m.skx.pllDown = 0 ∧ m.skx.silent = false ∧
      (∀ n, (m.lane n).state = (s.m.lane n).state) ∧ m = { s.m with skx := m.skx, regs := m.regs } ∧
      (s.m.skx.lane = [] → m = { s.m with skx := { s.m.skx with pllDown := 0, silent := false } }))

/-- Trims (R470 to R472). A calibration of a temperature channel that may run is busy until it ends; its one word is put in
place with result OK, or nothing is and the result is FAILED; a request while one runs is refused with result 1; a trim
word written before the lock in SETUP is taken, and under the lock discarded and counted. It rests on choices of the
model where the spec is open: log entry 132. Commands that complete in it (exec answers next with the effect it states):
CAL_REQUEST, CALIBRATION_DONE, TRIM_WORD_WRITE. -/
def Obligations.TrimsAreFoundAndWritten : Prop :=
  (∀ (s : State) (i : Nat), Runs s → s.m.glb.mode = .setup → s.m.cal.running = none → s.m.fld Reg.CAL_REQ.kind = 4 →
    s.m.fld Reg.CAL_REQ.index = i → i < 16 →
    Becomes .calRequest s { (((s.m.setFld Reg.CAL_STATUS.kind 4).setFld Reg.CAL_STATUS.index i).setFld
      Reg.CAL_STATUS.busy 1) with cal := { running := some (4, i) } }) ∧
  (∀ s : State, Runs s → s.m.glb.mode ≠ .boot → s.m.cal.running ≠ none →
    Becomes .calRequest s (((s.m.setFld Reg.CAL_STATUS.kind (s.m.fld Reg.CAL_REQ.kind)).setFld Reg.CAL_STATUS.index
      (s.m.fld Reg.CAL_REQ.index)).setFld Reg.CAL_STATUS.result 1)) ∧
  (∀ (s : State) (i : Nat) (w : Word), Runs s → s.m.cal.running = some (4, i) → i < 16 →
    Becomes (.calibrationDone [w] true) s ((((({ s.m with cal := { running := none } } : Mach).putTrim (Reg.CAL_THM i)
      w.toNat).setFld Reg.CAL_STATUS.busy 0).setFld Reg.CAL_STATUS.result 0).raise Ev.calDone .info (4 + 256 * i) 0)) ∧
  (∀ (s : State) (i : Nat) (ws : List Word), Runs s → s.m.cal.running = some (4, i) →
    Becomes (.calibrationDone ws false) s (((({ s.m with cal := { running := none } } : Mach).setFld
      Reg.CAL_STATUS.busy 0).setFld Reg.CAL_STATUS.result 4).raise Ev.calDone .warning (4 + 256 * i) 4)) ∧
  (∀ (s : State) (a v : Nat), Runs s → isTrim a = true → s.m.glb.mode = .setup → s.m.glb.locked = false →
    trimOk a v = true → Becomes (.trimWordWrite a v) s (s.m.wr a (v &&& trimMask a))) ∧
  (∀ (s : State) (a v : Nat), Runs s → isTrim a = true → s.m.glb.mode ≠ .boot → s.m.glb.locked = true →
    Becomes (.trimWordWrite a v) s
      { s.m with glb := { s.m.glb with wdisc := min (s.m.glb.wdisc + 1) (2 ^ 26 - 1) } })

/-- Module DRAM (R384, R385, R391, R393, R396). An accepted write stores its bytes, and an accepted read stores nothing and
returns the bytes stored; of the requests of one MEM cycle a read gives the byte that a write of that cycle replaced,
and a write of a lower port than one that has written the byte changes nothing; a refresh that is due is issued, or owed
where it may wait, and at eight owed forced; ZQ upkeep changes nothing but its own date; a code page that fails once is
reloaded and counted, and one that fails again holds the Surveyor cores in reset. It rests on choices of the model where
the spec is open: log entry 51. Commands that complete in it (exec answers next with the effect it states):
DRAM_REQUEST_ACCEPT, REFRESH_DUE, ZQ_LATCH, CODE_PAGE_CHECK. -/
def Obligations.DramServesItsPorts : Prop :=
  (∀ (s : State) (p a n : Nat) (w : Bool) (d : List Byte) (t : DramTiming), Runs s → a + n ≤ dramSize → s.m.dramUp = true →
    s.m.thm.latch = none → s.m.drm.cycle ≠ some t.cycle →
    Reaches (.dramRequestAccept p w a n d t) s fun m =>
      (∀ b, m.dramByte b = if w then (s.m.dramWrite a (d.take n)).dramByte b else s.m.dramByte b) ∧
      (w = false → m.dram = s.m.dram) ∧ m.drm.bytes = s.m.drm.bytes + n ∧
      m.out = (if w then s.m.out else .dramRead a (s.m.dramRead a n) :: s.m.out) ∧
      m = { s.m with drm := m.drm, evt := m.evt, regs := m.regs, dram := m.dram, out := m.out }) ∧
  (∀ (s : State) (p a q : Nat) (b v : Byte) (t : DramTiming), Runs s → a < dramSize → s.m.dramUp = true →
    s.m.thm.latch = none → s.m.drm.cycle = some t.cycle → Tab.get none s.m.drm.replaced a = some (b, q) →
    (Reaches (.dramRequestAccept p false a 1 [] t) s fun m => m.out = .dramRead a [b] :: s.m.out ∧ m.dram = s.m.dram) ∧
    (p < q → Reaches (.dramRequestAccept p true a 1 [v] t) s fun m => m.dram = s.m.dram)) ∧
  (∀ (s : State) (c : Nat), Runs s → s.m.now < (s.m.dramCh c).due → Becomes (.refreshDue c) s s.m) ∧
  (∀ (s : State) (c : Nat) (x : DramCh), Runs s → s.m.dramUp = true → (s.m.dramCh c).due ≤ s.m.now →
    x = { s.m.dramCh c with due := s.m.now + s.m.refreshInterval c } →
    (s.m.postpones c = false → Becomes (.refreshDue c) s (s.m.setDramCh c x)) ∧
    (s.m.postpones c = true → (s.m.dramCh c).owed < 8 →
      Becomes (.refreshDue c) s ((s.m.setDramCh c x).setDramCh c { x with owed := x.owed + 1, paid := s.m.now })) ∧
    (s.m.postpones c = true → 8 ≤ (s.m.dramCh c).owed →
      Becomes (.refreshDue c) s
        (((s.m.setDramCh c x).addSat (Reg.DRM_CH_FORCED.cnt c) 1).raiseRated Ev.drmRefreshForced 0 .warning c 0 1))) ∧
  (∀ s : State, Runs s →
    Becomes .zqLatch s (if s.m.lastBeat .zq + 32000000 ≤ s.m.now then s.m.beaten .zq else s.m)) ∧
  (∀ (s : State) (p : Nat), Runs s → s.m.dramUp = true → s.m.lastBeat .pages + 500000000 ≤ s.m.now →
    Becomes (.codePageCheck [p] []) s (((s.m.beaten .pages).raise Ev.drmCheck .warning 1 p).addSat Reg.DRM_CHECK_CNT.cnt 1)) ∧
  (∀ (s : State) (p : Nat), Runs s → s.m.dramUp = true → s.m.lastBeat .pages + 500000000 ≤ s.m.now →
    Reaches (.codePageCheck [p] [p]) s fun m =>
      m.drm = { s.m.drm with coresHeld := true } ∧ m.evt.seq = s.m.evt.seq + 2 ∧
      m = { s.m.beaten .pages with drm := m.drm, evt := m.evt, regs := m.regs })

/-! ### Jobs and composition -/

/-- Descriptors that find the module stopped or in HALT (R118, R124, R127, R461, R498): each that its ring holds completes
and nothing else changes. With stop executing these fourteen complete STOPPED; in HALT, not stopped, these twelve
complete BAD_STATE and NOP completes OK; on a CAMO ring with earlier buffers a BUFFER waits behind them for it. In
power-fail the four whose data would come from the host change nothing. It rests on choices of the model where the spec
is open: log entries 189, 190. Commands that complete in it (exec answers next with the effect it states): BUFFER,
POWER_FAIL, JOB_OPEN, JOB_IMAGE, JOB_CLOSE, JOB_ARM, JOB_DELETE, BLOCK_DATA, ABORT, REVOKE, ITEM, FENCE, TABLE_COMMIT,
MODE, NOP, STOP. -/
def Obligations.DescriptorsCompleteWhileStopped : Prop :=
  ∀ (s : State) (h : DescRef) (oj : JobOpenF) (im : JobImageF) (ja : JobArmF) (bd : BlockDataF) (rv : RevokeF)
    (it : ItemF) (tb : TableF) (bu : BufferF) (tag layer : Nat) (v : Word) (data : List Byte) (entries : List Nat) (d : Mach),
    Runs s → d = s.m.takeDesc h → layer = h.ring - 2 →
    (∀ c ∈ [(Instr.jobImage h im data, 0x02), (.blockData h bd data, 0x06), (.item h it data, 0x40),
        (.tableCommit h tb entries, 0x60)], s.m.pwr.powerFail = true → Becomes c.1 s s.m) ∧
    (Held s h 0x80 → s.m.hst.stopped = true → 12 ≤ h.ring → h.ring < 20 → s.m.camBufs (h.ring - 12) ≠ [] →
      Becomes (.buffer h bu) s (d.setCamBufs (h.ring - 12)
        (s.m.camBufs (h.ring - 12) ++ [{ desc := h, refused := some .stopped }]))) ∧
    (s.m.pwr.powerFail = false → (h.ring < 12 ∨ 20 ≤ h.ring ∨ s.m.camBufs (h.ring - 12) = []) →
    (∀ c ∈ [(Instr.jobOpen h oj, 0x01), (.jobImage h im data, 0x02), (.jobClose h tag, 0x03), (.jobArm h ja, 0x04),
        (.jobDelete h tag, 0x05), (.blockData h bd data, 0x06), (.abort h tag, 0x21), (.revoke h rv, 0x23),
        (.item h it data, 0x40), (.fence h layer v, 0x41), (.tableCommit h tb entries, 0x60), (.buffer h bu, 0x80)],
      Held s h c.2 →
      (s.m.hst.stopped = true → Becomes c.1 s (d.complete h (cplOf h .stopped))) ∧
      (s.m.hst.stopped = false → s.m.glb.mode = .halt → Becomes c.1 s (d.complete h (cplOf h .badState)))) ∧
    (Held s h 0x20 → s.m.hst.stopped = true → Becomes (.nop h) s (d.complete h (cplOf h .stopped))) ∧
    (Held s h 0x22 → s.m.hst.stopped = true → Becomes (.stop h) s (d.complete h (cplOf h .stopped))) ∧
    (Held s h 0x20 → s.m.hst.stopped = false → s.m.glb.mode = .halt → s.m.mirroring = false →
      Becomes (.nop h) s (d.complete h (cplOf h .ok))))

/-- A job from JOB_OPEN to JOB_DELETE (R151 to R155, R160, R162). JOB_OPEN takes the lowest FREE slot for its job; a
JOB_IMAGE band that fits enters the job's stream; JOB_CLOSE closes the job's streams, gives a REPEAT's unused
reservation back and stores an OPEN job; JOB_DELETE frees the job. No other job changes. Space and repair of a stream
(R151, R162, R177). A waiting band goes on once firing has released its extents and waits while it has not; a BLOCK_DATA
that names a block of the stream and decodes to that block's size replaces its pixels in its job alone and takes its
extents from the pool where the pool has them. It rests on choices of the model where the spec is open: log entries 55,
190, 195, 196. Commands that complete in it (exec answers next with the effect it states): JOB_OPEN, JOB_IMAGE,
JOB_CLOSE, JOB_DELETE, STREAM_SPACE_RESUME, BLOCK_DATA. -/
def Obligations.JobsAreFilledRepairedAndFreed : Prop :=
  (∀ (s : State) (h : DescRef) (f : JobOpenF) (j : Nat) (d : Mach),
    Runs s → Held s h 0x01 → d = s.m.takeDesc h → d.hst.stopped = false → d.glb.mode ≠ .halt →
    d.glb.mode ≠ .backsight → d.mirroring = false →
    (List.range 8).find? (fun k => (d.job k).state = .free) = some j → d.jobSlot f.jobTag = none →
    jobOpenOk f = true → ceilDiv f.reserve 4096 ≤ d.storeFree →
    Reaches (.jobOpen h f) s fun m => m = (d.openJob j f).done h .ok ∧ (m.job j).state = .opened ∧
      (m.job j).tag = f.jobTag ∧ ∀ k ≠ j, m.job k = s.m.job k) ∧
  (∀ (s : State) (h : DescRef) (f : JobImageF) (data : List Byte) (j : Nat) (t : Stream) (d : Mach),
    Runs s → Held s h 0x02 → d = s.m.takeDesc h →
    d.hst.stopped = false → d.glb.mode ≠ .halt → d.glb.mode ≠ .backsight → d.mirroring = false →
    d.jobSlot f.jobTag = some j → (d.job j).takesImage = true → d.dmaOk false f.addr f.byteLen = true →
    d.pwr.powerFail = false → d.bandFired (d.job j) f = false → (bandResult (d.job j) f data).toOption = some t →
    d.jobUsed ((d.job j).setStream f.layer f.plane t) - d.jobUsed (d.job j) ≤ d.jobRoom (d.job j) →
    Reaches (.jobImage h f data) s fun m => m = d.storeBand h f data j t ∧
      m.job j = (d.job j).setStream f.layer f.plane t ∧ ∀ k ≠ j, m.job k = s.m.job k) ∧
  (∀ (s : State) (h : DescRef) (tag j : Nat) (d : Mach) (y : Job),
    Runs s → Held s h 0x03 → d = s.m.takeDesc h → d.hst.stopped = false → d.glb.mode ≠ .halt →
    d.glb.mode ≠ .backsight → d.mirroring = false → d.jobSlot tag = some j → (d.job j).state = .opened →
    (d.job j).takesClose = true → y = { (d.job j).closeStreams with closed := true } →
    d.jobUsed y - d.jobUsed (d.job j) ≤ d.jobRoom (d.job j) →
    Reaches (.jobClose h tag) s fun m =>
      m.job j = { y with reserve := if (d.job j).streamed then y.reserve else 0, state := .stored } ∧
      ∀ k ≠ j, m.job k = s.m.job k) ∧
  (∀ (s : State) (h : DescRef) (tag j : Nat) (d : Mach),
    Runs s → Held s h 0x05 → d = s.m.takeDesc h → d.hst.stopped = false → d.glb.mode ≠ .halt →
    d.glb.mode ≠ .backsight → d.mirroring = false → d.jobSlot tag = some j →
    ((d.job j).state = .opened ∨ (d.job j).state = .stored) →
    Reaches (.jobDelete h tag) s fun m => m = (d.freeJob j).done h .ok ∧ ∀ k ≠ j, m.job k = s.m.job k) ∧
  (∀ (s : State) (h : DescRef) (f : JobImageF) (data : List Byte) (j : Nat) (t : Stream) (x : Job), Runs s →
    s.m.vgp.imageWait = some (h, f, data) → s.m.jobSlot f.jobTag = some j → s.m.job j = x → x.state = .printing →
    s.m.bandFired x f = false → (bandResult x f data).toOption = some t →
    (s.m.jobRoom x < s.m.jobUsed (x.setStream f.layer f.plane t) - s.m.jobUsed x → Becomes .streamSpaceResume s s.m) ∧
    (s.m.jobUsed (x.setStream f.layer f.plane t) - s.m.jobUsed x ≤ s.m.jobRoom x →
      Reaches .streamSpaceResume s fun m => m.vgp.imageWait = none ∧ m.job j = x.setStream f.layer f.plane t ∧
        ∀ k ≠ j, m.job k = s.m.job k)) ∧
  (∀ s : State, Runs s → s.m.vgp.imageWait = none → Becomes .streamSpaceResume s s.m) ∧
  (∀ (s : State) (h : DescRef) (f : BlockDataF) (data px : List Byte) (j : Nat) (b : Block) (d : Mach) (x : Job) (t : Stream), Runs s → Held s h 0x06 → d = s.m.takeDesc h →
    d.hst.stopped = false → d.glb.mode ≠ .halt → d.glb.mode ≠ .backsight → d.mirroring = false →
    d.jobSlot f.jobTag = some j → d.job j = x → x.stream f.layer f.plane = t → x.takesStream f.layer f.plane = true →
    t.blocks.find? (fun c => c.row * x.blockCols f.layer + c.col = f.block) = some b →
    d.pwr.powerFail = false → d.dmaOk false f.addr f.byteLen = true → vangopBlock data = some ((b.lines, b.width, px), []) →
    d.poolUsed + ceilDiv data.length 4096 ≤ 2048 →
    Reaches (.blockData h f data) s fun m =>
      m.job j = { x.setStream f.layer f.plane { t with
        blocks := t.blocks.map (fun c => if c = b then { b with pixels := px, code := data, repair := true } else c) } with
        pool := x.pool + ceilDiv data.length 4096 } ∧ ∀ k ≠ j, m.job k = s.m.job k)

/-- Commits (R126, R151, R200, R201, R227, R239). Where nothing refuses it and no standby is followed, a TABLE_COMMIT, a
REVOKE and a JOB_ARM at an origin each take the next epoch at their commit point; the armed job is ARMED, and one armed
by station takes no epoch and leaves the other jobs alone. A commit whose effect is known everywhere leaves the list of
commits. It rests on choices of the model where the spec is open: log entries 193, 194. Commands that complete in it
(exec answers next with the effect it states): TABLE_COMMIT, REVOKE, JOB_ARM, EFFECT_KNOWN. -/
def Obligations.CommitsTakeAnEpoch : Prop :=
  (∀ (s : State) (h : DescRef) (f : TableF) (entries : List Nat) (d : Mach),
    Runs s → Held s h 0x60 → d = s.m.takeDesc h → d.hst.stopped = false →
    d.glb.mode ≠ .halt → d.glb.mode ≠ .backsight → d.glb.mode ≠ .boot → d.glb.mode ≠ .setup →
    d.mirroring = false → d.pwr.powerFail = false → d.tableOk f entries = true → d.dmaOk false f.addr f.byteLen = true →
    d.hasRoom (d.scopeOf (.table h f entries)) = true →
    Reaches (.tableCommit h f entries) s fun m => m = d.submit (.table h f entries) ∧
      m.epo.counter = s.m.epo.counter + 1 ∧ m.vgp.job = s.m.vgp.job) ∧
  (∀ (s : State) (h : DescRef) (f : RevokeF) (d : Mach),
    Runs s → Held s h 0x23 → d = s.m.takeDesc h → d.hst.stopped = false →
    d.glb.mode ≠ .halt → d.glb.mode ≠ .backsight → d.mirroring = false →
    d.itemSourced f.layer = true → 0 ≤ epochDiff f.last f.first → (d.liveRanges f.layer).length < rangeMax →
    d.hasRoom (d.scopeOf (.revoke h f)) = true →
    Reaches (.revoke h f) s fun m => m = d.submit (.revoke h f) ∧ m.epo.counter = s.m.epo.counter + 1 ∧
      m.vgp.job = s.m.vgp.job) ∧
  (∀ (s : State) (h : DescRef) (f : JobArmF) (j : Nat) (d : Mach),
    Runs s → Held s h 0x04 → d = s.m.takeDesc h → d.hst.stopped = false →
    (d.glb.mode = .ready ∨ d.glb.mode = .run ∨ d.glb.mode = .benchmark) → d.mirroring = false →
    d.jobSlot f.jobTag = some j → (d.job j).takesArm = true → d.armOk (d.latchJob (d.job j)) = true →
    (f.start = 0 → d.hasRoom (d.scopeOf (.arm h f)) = true →
      Reaches (.jobArm h f) s fun m => m = (d.armJob j h f).submit (.arm h f) ∧
        m.epo.counter = s.m.epo.counter + 1 ∧ (m.job j).state = .armed) ∧
    (f.start = 1 → f.origin < 2 ^ 47 →
      Reaches (.jobArm h f) s fun m => m = (d.armJob j h f).done h .ok ∧ m.epo.counter = s.m.epo.counter ∧
        (m.job j).state = .armed ∧ ∀ k ≠ j, m.job k = s.m.job k)) ∧
  (∀ (s : State) (e : Word) (c : Commit), Runs s → s.m.epo.commits.find? (fun d => d.epoch = e) = some c →
    s.m.effectKnown e = true →
    Reaches (.effectKnown e) s fun m => m.epo.commits = s.m.epo.commits.filter (fun d => d.epoch ≠ e) ∧
      m.epo.counter = s.m.epo.counter ∧ m.vgp.job = s.m.vgp.job) ∧
  (∀ (s : State) (e : Word), Runs s → s.m.epo.commits.find? (fun d => d.epoch = e) = none →
    Becomes (.effectKnown e) s s.m)

/-- An armed job starts and a job is aborted (R133, R134, R170). An ARMED job whose effect chainage the printed chainage has
crossed under a valid vote is PRINTING; before that nothing happens. ABORT of an active job ends it ABORTED at the
printed chainage and takes its rows back; of a job that has ended it completes NO_EFFECT with the chainage of its end;
on a tick that has taken one job end it waits. It rests on choices of the model where the spec is open: log entry 192.
Commands that complete in it (exec answers next with the effect it states): JOB_EFFECT_CROSSED, ABORT. -/
def Obligations.JobsStartAndAbort : Prop :=
  (∀ (s : State) (tag j : Nat), Runs s → s.m.isBacksight = false → s.m.jobSlot tag = some j →
    (s.m.job j).state = .armed → (s.m.job j).hasLines = true → s.m.chn.vote.valid = true → s.m.mirroring = false →
    (chnAtOrAhead s.m.chainage (s.m.job j).effect = true →
      Reaches (.jobEffectCrossed tag) s fun m => m = s.m.jobState j .printing ∧
        m.job j = { s.m.job j with state := .printing } ∧ ∀ k ≠ j, m.job k = s.m.job k) ∧
    (chnAtOrAhead s.m.chainage (s.m.job j).effect = false → Becomes (.jobEffectCrossed tag) s s.m)) ∧
  (∀ (s : State) (h : DescRef) (tag j : Nat) (d : Mach),
    Runs s → Held s h 0x21 → d = s.m.takeDesc h → d.hst.stopped = false → d.glb.mode ≠ .halt →
    d.glb.mode ≠ .backsight → d.mirroring = false → d.vgp.endTick ≠ some d.now → d.vgp.abortWait = none →
    d.jobSlot tag = some j → (d.job j).active = true →
    Reaches (.abort h tag) s fun m =>
      m = ((d.endTaken.cutJob j 9).1.endJob j .aborted d.chainage (d.endTaken.cutJob j 9).2).complete h
        { cplOf h .ok with chn := some d.chainage } ∧
      Tab.get none m.vgp.ended (d.job j).tag = some d.chainage ∧ ((d.job j).streamed = false → (m.job j).state = .stored) ∧
      ∀ k ≠ j, m.job k = s.m.job k) ∧
  (∀ (s : State) (h : DescRef) (tag : Nat) (c : Chainage) (d : Mach),
    Runs s → Held s h 0x21 → d = s.m.takeDesc h → d.hst.stopped = false → d.glb.mode ≠ .halt →
    d.glb.mode ≠ .backsight → d.vgp.endTick ≠ some d.now → d.vgp.abortWait = none → d.jobSlot tag = none →
    Tab.get none d.vgp.ended tag = some c →
    Becomes (.abort h tag) s (d.endTaken.complete h { cplOf h .noEffect with chn := some c })) ∧
  (∀ (s : State) (h : DescRef) (tag : Nat) (d : Mach), Runs s → Held s h 0x21 → d = s.m.takeDesc h → d.hst.stopped = false →
    d.glb.mode ≠ .halt → d.glb.mode ≠ .backsight → d.vgp.endTick = some d.now →
    Becomes (.abort h tag) s { d with vgp := { d.vgp with abortWait := some (h, tag) } })

/-- Items, fences, slots and buffers (R192 to R196, R344). An ITEM whose part is right and for which there is room enters
its layer; one for which there is none waits and goes on once there is; a FENCE moves fence_reached of its ring's layer
to a value ahead of it and never back; a slot that is due in one job alone binds in that job and changes no other layer;
a BUFFER joins its context's buffers. It rests on choices of the model where the spec is open: log entries 55, 190, 199.
Commands that complete in it (exec answers next with the effect it states): ITEM, ITEM_WAIT_RESUME, FENCE, SLOT_BIND,
BUFFER. -/
def Obligations.ItemsAreStoredAndBound : Prop :=
  (∀ (s : State) (h : DescRef) (f : ItemF) (data : List Byte) (n : Nat) (p : Part) (d : Mach),
    Runs s → Held s h 0x40 → d = s.m.takeDesc h → d.hst.stopped = false →
    d.glb.mode ≠ .halt → d.glb.mode ≠ .backsight → d.mirroring = false → h.ring = n + 2 → itemOk n f = true →
    d.pwr.powerFail = false → d.dmaOk false f.addr f.byteLen = true → d.itemRefused n f.item = false → itemPart f data = some p →
    (d.itemWaits n f p = none → Reaches (.item h f data) s fun m => m = (d.storePart n f p).done h .ok ∧
      (m.layer n).items.length = (d.layer n).items.length + (if ((d.layer n).item f.item).isNone then 1 else 0) ∧
      ∀ k ≠ n, m.layer k = s.m.layer k) ∧
    (∀ c, d.itemWaits n f p = some c → Reaches (.item h f data) s fun m =>
      m.layer n = { d.layer n with wait := some (h, f, data) } ∧ ∀ k ≠ n, m.layer k = s.m.layer k)) ∧
  (∀ (s : State) (n : Nat) (h : DescRef) (f : ItemF) (data : List Byte) (p : Part), Runs s →
    (s.m.layer n).wait = some (h, f, data) → s.m.itemRefused n f.item = false → itemPart f data = some p →
    (∀ c, s.m.itemWaits n f p = some c → Becomes (.itemWaitResume n) s s.m) ∧
    (s.m.itemWaits n f p = none → s.m.mirroring = false → Reaches (.itemWaitResume n) s fun m =>
      m = ((s.m.setLayer n { s.m.layer n with wait := none }).storePart n f p).done h .ok ∧
      ∀ k ≠ n, m.layer k = s.m.layer k)) ∧
  (∀ (s : State) (n : Nat), Runs s → (s.m.layer n).wait = none → Becomes (.itemWaitResume n) s s.m) ∧
  (∀ (s : State) (h : DescRef) (n : Nat) (v : Word) (d : Mach),
    Runs s → h.ring = n + 2 → Held s h 0x41 → d = s.m.takeDesc h → d.hst.stopped = false →
    d.glb.mode ≠ .halt → d.glb.mode ≠ .backsight → d.mirroring = false →
    (epochNewer v (d.layer n).fence = true →
      Becomes (.fence h n v) s ((d.setLayer n { d.layer n with fence := v }).done h .ok)) ∧
    (epochNewer v (d.layer n).fence = false → Becomes (.fence h n v) s (d.done h .ok))) ∧
  (∀ (s : State) (n j k : Nat), Runs s → s.m.isBacksight = false → j < 8 → s.m.bindDue j n = true →
    (∀ i, i ≠ j → s.m.bindDue i n = false) → k = s.m.slotNext j n → s.m.mirroring = false →
    Reaches (.slotBind n) s fun m => (∀ l ≠ n, m.layer l = s.m.layer l) ∧ m.vgp.job = s.m.vgp.job ∧
      (m.layer n).slots.any (fun x => x.job = j ∧ x.k = k) = true) ∧
  (∀ (s : State) (n : Nat), Runs s → (∀ j, s.m.bindDue j n = false) → Becomes (.slotBind n) s s.m) ∧
  (∀ (s : State) (h : DescRef) (f : BufferF) (n : Nat) (d : Mach),
    Runs s → Held s h 0x80 → d = s.m.takeDesc h → d.hst.stopped = false →
    d.glb.mode ≠ .halt → d.glb.mode ≠ .backsight → d.mirroring = false → h.ring = n + 12 → f.len % 64 = 0 →
    4096 ≤ f.len → f.len ≤ 2 ^ 24 → f.addr % 64 = 0 → d.dmaOk true f.addr f.len = true →
    Becomes (.buffer h f) s
      ((d.setCamBufs n (d.camBufs n ++ [{ desc := h, addr := f.addr, len := f.len }])).camDrain n))

/-! ### Traverse -/

/-- What an engine does (R238 to R242). An engine that may work and holds nothing starts what it has selected when the tile
RAM has room: it is BUSY at the epoch counter's value and the swath is rendering. One that holds a swath selects the
next of the queue for itself. A completed render before its deadline leaves its tile and one at or after it is
abandoned. A stalled engine counts its waiting cycles and starts; a waiting swath starts once there is room. No other
engine or swath changes. It rests on choices of the model where the spec is open: log entries 196, 198. Commands that
complete in it (exec answers next with the effect it states): TILE_WAIT_RESUME, ENGINE_SELECT, SWATH_RENDER_DONE,
PREFETCH_STALL_END. -/
def Obligations.EnginesSelectAndRender : Prop :=
  (∀ (s : State) (e k slot : Nat) (reads : List BlockRead) (loads : List TableLoad) (t : Mach), Runs s →
    (s.m.engine e).cur = none → (s.m.engine e).next = some k → (s.m.engine e).stalled = false →
    s.m.tileSlot (tileUnits (s.m.job (keyJob k)).depth) = some slot →
    (s.m.isUrgent k = true ∨ s.m.tileCap / 16 ≤ s.m.tileFree) →
    t = (s.m.setSwath k { s.m.swath k with
        urgent := s.m.isUrgent k, claimed := none, rendering := true, requeue := false, waiting := false, slot := slot
        again := false }).setEngine e { s.m.engine e with
        cur := some k, next := none, epoch := s.m.epo.counter, stalled := false, state := .busy } →
    Becomes (.tileWaitResume e) s t ∧ (s.m.mayWork e = true → Becomes (.engineSelect e reads loads) s t) ∧
    (∀ i ≠ e, t.engine i = s.m.engine i) ∧ ∀ i ≠ k, t.swath i = s.m.swath i) ∧
  (∀ (s : State) (e k c : Nat) (reads : List BlockRead) (loads : List TableLoad) (r : Mach), Runs s →
    s.m.mayWork e = true → (s.m.engine e).next = none → (s.m.engine e).cur = some c → s.m.pick e = some k →
    r = loads.foldl (fun m l => m.tableLoad k l) (s.m.select e k reads) → r.needsBroken k = false →
    Reaches (.engineSelect e reads loads) s fun m => m = r ∧ (m.engine e).next = some k ∧
      (m.swath k).claimed = some e ∧ ∀ i ≠ e, m.engine i = s.m.engine i) ∧
  (∀ (s : State) (e : Nat) (reads : List BlockRead) (loads : List TableLoad), Runs s → s.m.mayWork e = false →
    Becomes (.engineSelect e reads loads) s s.m) ∧
  (∀ (s : State) (e k : Nat), Runs s → (s.m.engine e).cur = some k → (s.m.swath k).rendering = true →
    s.m.mirroring = false →
    (s.m.reached k = false → (s.m.swath k).again = false →
      (∀ p ∈ (s.m.swath k).pend, epochNewer p.epoch (s.m.engine e).epoch = false) →
      Reaches (.swathRenderDone e) s fun m => (m.swath k).tile = some (s.m.makeTile k (s.m.engine e).epoch).1 ∧
        (m.swath k).rendering = false ∧ (∀ i ≠ k, m.swath i = s.m.swath i) ∧ ∀ i ≠ e, m.engine i = s.m.engine i) ∧
    (s.m.reached k = true → Becomes (.swathRenderDone e) s
      (((s.m.setSwath k { s.m.swath k with rendering := false }).addSat Reg.TRV_ABANDONED.cnt 1).setEngine e
        { (s.m.engine e).drop with stalled := (s.m.engine e).next.isSome, ended := s.m.now }))) ∧
  (∀ (s : State) (e : Nat), Runs s →
    ((s.m.engine e).cur = none → Becomes (.swathRenderDone e) s s.m) ∧
    ((s.m.engine e).stalled = true → (s.m.engine e).cur = none → Becomes (.prefetchStallEnd e) s
      (((s.m.addPair Reg.TRV_STALL_LO ((s.m.now - (s.m.engine e).ended) * 12 / 5)).setEngine e
        { s.m.engine e with stalled := false }).startNext e)) ∧
    ((s.m.engine e).stalled = false → Becomes (.prefetchStallEnd e) s s.m) ∧
    ((s.m.engine e).next = none → Becomes (.tileWaitResume e) s s.m))

/-- Deadlines (R178, R243, R245). When every swath of a plane's row has its tile and its deadline is reached, each is
decided for its tile and no other swath changes; a bad block that is not repaired at its horizon is marked blank and its
lines are counted in its job alone, with EV_BLOCK_CHECK; a repaired one is not, and none is before its horizon. On a
standby neither happens. Parking (R10, R249, R250, R251). PARK_ORDER takes a permutation of the clusters in SETUP,
unlocked; locked, the write is counted and dropped. The steps asked for are the greatest of the host's, the package's
and the supply's, and the source names who asks. A cluster whose engines are all ordered to park and hold no swath
parks; a woken one is idle. It rests on choices of the model where the spec is open: log entries 19, 196. Commands that
complete in it (exec answers next with the effect it states): SWATH_DEADLINE, BLOCK_HORIZON_REACHED, PARK_ORDER_WRITE,
PARK_STEP_CHANGE, CLUSTER_PARKED, CLUSTER_WOKEN. -/
def Obligations.DeadlinesDecideAndClustersPark : Prop :=
  (∀ (s : State) (j p row : Nat), Runs s → s.m.isBacksight = false → (s.m.job j).hasLines = true →
    (s.m.job j).hasPlane p = true → (s.m.job j).rowLines row ≠ [] →
    (∀ i < s.m.swathCount p, s.m.reached (swathKey j p i row) = true ∧
      (s.m.swath (swathKey j p i row)).decided = .undecided ∧ (s.m.swath (swathKey j p i row)).tile.isSome = true) →
    Reaches (.swathDeadline j p row) s fun m =>
      (∀ i < s.m.swathCount p, m.swath (swathKey j p i row) =
        { s.m.swath (swathKey j p i row) with decided := .tile, spent := [], urgent := false, requeue := false }) ∧
      ∀ k, (∀ i < s.m.swathCount p, k ≠ swathKey j p i row) → m.swath k = s.m.swath k) ∧
  (∀ (s : State) (j l p b : Nat) (q : BadBlock) (x : Job) (k : Option Block), Runs s → s.m.isBacksight = false →
    s.m.vgp.bad.find? (fun q => q.job = j && q.layer = l && q.plane = p && q.block = b && !q.blank && !q.repaired &&
      chnAtOrAhead s.m.chainage q.horizon) = some q →
    x = s.m.job j → k = (x.stream l p).blocks.find? (fun c => c.row * x.blockCols l + c.col = b) →
    Reaches (.blockHorizonReached j l p b) s fun m =>
      m.vgp.bad = s.m.vgp.bad.map (fun a => if a = q then { a with blank := true } else a) ∧
      (∀ i ≠ j, m.job i = s.m.job i) ∧ m.evt.seq = s.m.evt.seq + 1 ∧ m.job j = { x with
        blanked := min (x.blanked + (match k with | some c => c.lines * x.alongOf l | none => 0)) (2 ^ 32 - 1) }) ∧
  (∀ (s : State) (j l p b : Nat), Runs s → s.m.isBacksight = false →
    (∀ q ∈ s.m.vgp.bad, q.job = j → q.layer = l → q.plane = p → q.block = b → q.blank = false → q.repaired = false →
      chnAtOrAhead s.m.chainage q.horizon = false) →
    Becomes (.blockHorizonReached j l p b) s s.m) ∧
  (∀ (s : State) (a b c d : Nat), Runs s → s.m.isBacksight = true →
    Becomes (.swathDeadline a b c) s s.m ∧ Becomes (.blockHorizonReached a b c d) s s.m) ∧
  (∀ (s : State) (v : Nat), Runs s →
    (s.m.glb.locked = true → Becomes (.parkOrderWrite v) s s.m.countDiscard) ∧
    (s.m.glb.locked = false → s.m.glb.mode = .setup → parkOrderOk v = true →
      Becomes (.parkOrderWrite v) s (s.m.setFld Reg.TRV_PARK_ORDER.order v)) ∧
    (s.m.glb.locked = false → (s.m.glb.mode ≠ .setup ∨ parkOrderOk v = false) → Becomes (.parkOrderWrite v) s s.m)) ∧
  (∀ s : State, Runs s → Reaches .parkStepChange s fun m => m = s.m.parkUpdate ∧
    m.trv.steps = max (min 8 (s.m.fld Reg.TRV_PARK_REQ.host_steps)) (max s.m.trv.thermalSteps s.m.trv.supplySteps) ∧
    bitAt m.trv.src 0 = decide (s.m.fld Reg.TRV_PARK_REQ.host_steps ≠ 0) ∧
    bitAt m.trv.src 1 = decide (s.m.trv.thermalSteps ≠ 0) ∧ bitAt m.trv.src 2 = decide (s.m.trv.supplySteps ≠ 0)) ∧
  (∀ (s : State) (c : Nat), Runs s →
    ((clusterEngines c).all (fun e => (s.m.engine e).parking && (s.m.engine e).cur.isNone) = true →
      Reaches (.clusterParked c) s fun m =>
        m.trv.eng = (clusterEngines c).foldl (fun t e => Tab.set {} t e {}) s.m.trv.eng) ∧
    ((clusterEngines c).all (fun e => (s.m.engine e).parking && (s.m.engine e).cur.isNone) = false →
      Becomes (.clusterParked c) s s.m)) ∧
  (∀ (s : State) (c : Nat), Runs s → Reaches (.clusterWoken c) s fun m =>
    (∀ e ∈ clusterEngines c, (s.m.engine e).state = .waking → m.engine e = { s.m.engine e with state := .idle }) ∧
    ∀ e, (e ∉ clusterEngines c ∨ (s.m.engine e).state ≠ .waking) → m.engine e = s.m.engine e)

/-! ### The fire path -/

/-- A line's way to its lane (R264, R266, R274). The next line of a job for a hub that is due is fetched, and the next is
the one after it; a line whose fetch is done is queued, once no earlier line of its job and hub still fetches, and no
other line changes; a queued line that no earlier line of its job and hub holds back leaves and waits for its ECHO from
then on. A commit instant (R267, R270, R271, R277). Of a line that was sent, the named rows that are crossed and the
rows whose commit instant has come in the slot of a named one are committed and no other, while more rows remain:
afterwards the line's committed rows are those and the ones before, its codes are the same and so are the other lines.
On a standby no row is. It rests on choices of the model where the spec is open: log entries 22, 23, 200, 203. Commands
that complete in it (exec answers next with the effect it states): FIRE_FETCH_START, FIRE_FETCH_DONE, LINE_PACKET_SENT,
FIRE_COMMIT. -/
def Obligations.LinesAreFetchedSentAndCommitted : Prop :=
  (∀ (s : State) (j n hub : Nat), Runs s → s.m.isBacksight = false → (s.m.job j).hasLines = true →
    (s.m.jobHubs (s.m.job j)).contains hub = true → (s.m.job j).prints n = true → n = s.m.nextFetch j hub →
    s.m.fetchDue j n hub = true → s.m.lineSkipped j n = false → s.m.mirroring = false →
    Reaches (.fireFetchStart j n hub) s fun m =>
      (m.fireLine (fireKey j n hub)).cause = (if s.m.hubFires hub then none else some 7) ∧
      (m.fireLine (fireKey j n hub)).codes.map (fun c => c.1) = (s.m.lineHeads (s.m.job j) hub).map (fun h => h.id) ∧
      Tab.get 0 m.fgd.next (jobHubKey j hub) = n + 1) ∧
  (∀ (s : State) (j n hub : Nat), Runs s → s.m.fetchDue j n hub = false → Becomes (.fireFetchStart j n hub) s s.m) ∧
  (∀ (s : State) (j n hub : Nat), Runs s → s.m.hasFireLine (fireKey j n hub) = true →
    (s.m.fireLine (fireKey j n hub)).stage = .fetching →
    s.m.lineBefore j n hub (fun e => e.stage = .fetching) = false →
    Reaches (.fireFetchDone j n hub) s fun m => (m.fireLine (fireKey j n hub)).stage = .queued ∧
      ∀ k ≠ fireKey j n hub, m.fireLine k = s.m.fireLine k) ∧
  (∀ (s : State) (j n hub : Nat) (e : FireLine), Runs s → s.m.hasFireLine (fireKey j n hub) = true →
    s.m.fireLine (fireKey j n hub) = e → e.stage = .queued → e.cause ≠ some 7 →
    s.m.lineBefore j n hub FireLine.unsent = false → s.m.mirroring = false →
    Becomes (.linePacketSent j n hub) s
      ((s.m.sendLine j n hub e).setFireLine (fireKey j n hub) { e with stage := .sent, sentAt := s.m.now })) ∧
  (∀ (s : State) (j n hub : Nat), Runs s → s.m.hasFireLine (fireKey j n hub) = false →
    Becomes (.fireFetchDone j n hub) s s.m ∧ Becomes (.linePacketSent j n hub) s s.m) ∧
  (∀ (s : State) (j n hub rows : Nat), Runs s → s.m.isBacksight = true → Becomes (.fireCommit j n hub rows) s s.m) ∧
  (∀ (s : State) (j n hub rows : Nat) (e : FireLine) (all : List RowSight) (lead : Nat)
    (slots : List Int) (due : List RowSight), Runs s → lead = e.lead.getD (s.m.hubLead hub) →
    s.m.isBacksight = false → (s.m.job j).hasLines = true → (s.m.job j).prints n = true →
    (s.m.jobHubs (s.m.job j)).contains hub = true → s.m.hasFireLine (fireKey j n hub) = true →
    s.m.fireLine (fireKey j n hub) = e → e.counted = false → e.stage = .sent → all = s.m.openRows j n hub →
    slots = s.m.rowSlots hub lead (all.filter (fun d => bitAt rows (4 * d.1.1.slot + d.1.2) && s.m.commitDue lead d)) →
    due = all.filter (fun d => bitAt rows (4 * d.1.1.slot + d.1.2) && d.2.2 ||
      s.m.commitDue lead d && slots.contains (s.m.rowSlot hub lead d)) →
    due ≠ [] → e.rows ||| rowsMask (due.map (fun d => d.1)) ≠ rowsMask (headRows (s.m.lineHeads (s.m.job j) hub)) →
    Reaches (.fireCommit j n hub rows) s fun m =>
      (m.fireLine (fireKey j n hub)).rows = e.rows ||| rowsMask (due.map (fun d => d.1)) ∧
      (m.fireLine (fireKey j n hub)).codes = e.codes ∧ (m.fireLine (fireKey j n hub)).lead = some lead ∧
      ∀ k ≠ fireKey j n hub, m.fireLine k = s.m.fireLine k)

/-- Downshift, telemetry and usage (R275, R282, R283, R286 to R288). At the boundary the module changes between printing
every line and every second one, and keeps where it did; before it, and with no change pending, nothing happens; a head
whose telemetry is stale raises its event once; a usage record that is owed or whose period is over is written for every
head, or with no key EV_FIRE_USAGE is raised once, and otherwise nothing is; a record written and not acknowledged
within 10 ms is sent again twice and then given up, for its head alone, and the head's other records wait on. It rests
on choices of the model where the spec is open: log entries 201, 202. Commands that complete in it (exec answers next
with the effect it states): DOWNSHIFT_BOUNDARY, TLM_STALE, USAGE_RECORD_WRITE, USAGE_WRITE_RETRY. -/
def Obligations.HeadsAreWatched : Prop :=
  (∀ (s : State) (b : Shift) (r : List Shift), Runs s → s.m.fgd.shifts = b :: r → b.down ≠ s.m.fgd.downActive →
    s.m.fgd.downPending = true →
    ((s.m.job b.job).hasLines = true → chnAtOrAhead s.m.chainage b.chn = false → Becomes .downshiftBoundary s s.m) ∧
    ((s.m.job b.job).hasLines = true → chnAtOrAhead s.m.chainage b.chn = true →
      Reaches .downshiftBoundary s fun m => m.fgd = { s.m.fgd with
        downActive := b.down, downPending := false, quietWindows := 0, shifts := b :: r }) ∧
    ((s.m.job b.job).hasLines = false → Reaches .downshiftBoundary s fun m => m.fgd = { s.m.fgd with
        downActive := b.down, downPending := false, quietWindows := 0
        shifts := { b with chn := s.m.chainage } :: r })) ∧
  (∀ s : State, Runs s → s.m.fgd.downPending = false → Becomes .downshiftBoundary s s.m) ∧
  (∀ (s : State) (h : Nat), Runs s → s.m.headEn h = true → s.m.headStale h = true →
    ((s.m.headState h).staleRaised = false → Reaches (.tlmStale h) s fun m =>
      m.headState h = { s.m.headState h with staleRaised := true } ∧ m.evt.seq = s.m.evt.seq + 1 ∧
      ∀ k ≠ h, m.headState k = s.m.headState k) ∧
    ((s.m.headState h).staleRaised = true → Becomes (.tlmStale h) s s.m)) ∧
  (∀ (s : State) (u : Mach), Runs s → s.m.flag Reg.FGD_USAGE_CFG.en = true → s.m.isBacksight = false →
    (s.m.fgd.usageOwed ≠ 0 ∨ s.m.usagePeriod = true) →
    u = { s.m with fgd := { s.m.fgd with
      usageOwed := s.m.fgd.usageOwed - 1
      usageTick := if s.m.fgd.usageOwed = 0 then s.m.now else s.m.fgd.usageTick } } →
    (s.m.usageKey.isEmpty = true → s.m.fgd.noKeyRaised = true →
      Becomes .usageRecordWrite s (u.setFld Reg.FGD_USAGE_STATUS.no_key 1)) ∧
    (s.m.usageKey.isEmpty = true → s.m.fgd.noKeyRaised = false → Reaches .usageRecordWrite s fun m =>
      m.fgd = { u.fgd with noKeyRaised := true } ∧ m.evt.seq = s.m.evt.seq + 1) ∧
    (s.m.usageKey.isEmpty = false → Reaches .usageRecordWrite s fun m => m = u.heads.foldl Mach.usageOne u ∧
      ∀ h ∈ s.m.heads, (m.headState h.id).usagePend ≠ [])) ∧
  (∀ s : State, Runs s → (s.m.flag Reg.FGD_USAGE_CFG.en = false ∨ s.m.isBacksight = true ∨
    s.m.fgd.usageOwed = 0 ∧ s.m.usagePeriod = false) → Becomes .usageRecordWrite s s.m) ∧
  (∀ (s : State) (h : Nat) (x : Head), Runs s → s.m.headState h = x →
    (∀ w ∈ x.usagePend, s.m.now < w.tick + ticks10ms) → Becomes (.usageWriteRetry h) s s.m) ∧
  (∀ (s : State) (h : Nat) (w : UsageWrite) (x : Head) (r : Mach × List Nat), Runs s → s.m.headState h = x →
    x.usagePend.find? (fun w => decide (w.tick + ticks10ms ≤ s.m.now)) = some w →
    r = s.m.usageSend (s.m.headRec h) w.data →
    (w.tries < 2 → Becomes (.usageWriteRetry h) s (r.1.setHead h { r.1.headState h with
      usagePend := (r.1.headState h).usagePend.map (fun v =>
        if v = w then { w with tries := w.tries + 1, tick := s.m.now, ids := w.ids ++ r.2 } else v) })) ∧
    (2 ≤ w.tries → Reaches (.usageWriteRetry h) s fun m => m.evt.seq = s.m.evt.seq + 1 ∧
      m.fgd = { s.m.fgd with head := Tab.set {} s.m.fgd.head h { x with usagePend := x.usagePend.filter (· ≠ w) } }))

/-! ### Skovex -/

/-- Training (R322, R323, R327). A lane that gains CDR lock waits in ALIGN for its markers and with them sends T1 and waits
for the handshake; a T2 that accepts leads to MEASURE and one that refuses to the next rate or to failure; sixty-four
LOOPs lead a head lane to CAPS; a lane whose hub's capabilities hold, or that serves no hub and was answered, is UP and
one whose do not FAILED with the cause; a step that has taken its longest time leads to the next rate or to failure;
loss of lock, a retrain and the repeat of a failed one after 10 ms start again at LOCK; a set that fails its check is
discarded and counted. No other lane changes but in the cause that it reports. It rests on choices of the model where
the spec is open: log entries 34, 203. Commands that complete in it (exec answers next with the effect it states):
LANE_LOCK_ACQUIRED, T2_RX, LOOP_RET_RX, RXLOST_RX, LANE_UP, TRAIN_STEP_TIMEOUT, LANE_LOCK_LOST, LANE_RETRAIN,
RETRAIN_RETRY. -/
def Obligations.LanesTrain : Prop :=
  (∀ (s : State) (n : Nat) (x : Lane), Runs s → s.m.lane n = x → (x.state = .lock ∨ x.state = .align) →
    s.m.skx.silent = false →
    (Reaches (.laneLockAcquired ⟨n, true⟩) s fun m =>
      m.lane n = { x with state := .handshake, tSeq := (x.tSeq + 1) % 256, since := s.m.now, t1At := s.m.now } ∧
      m.out = .laneSymbols n kC (checkedSet (leBytes 1 1 ++ (leBytes 1 x.rate ++ leBytes 1 (s.m.laneByte n) ++
        leBytes 1 ((x.tSeq + 1) % 256) ++ leBytes 1 0))) :: s.m.out ∧ ∀ k ≠ n, m.lane k = s.m.lane k) ∧
    (Reaches (.laneLockAcquired ⟨n, false⟩) s fun m =>
      m.lane n = { x with state := .align } ∧ m.out = s.m.out ∧ ∀ k ≠ n, m.lane k = s.m.lane k)) ∧
  (∀ (s : State) (n num rt : Nat) (t : T2F), Runs s → (s.m.lane n).state ≠ .off →
    (t.bad = true → Becomes (.t2Rx n t) s (s.m.discard n)) ∧
    Becomes (.loopRetRx ⟨n, true⟩ num rt) s (s.m.discard n) ∧ Becomes (.rxlostRx ⟨n, true⟩) s (s.m.discard n)) ∧
  (∀ (s : State) (n : Nat) (t : T2F) (x : Lane), Runs s → s.m.lane n = x → x.state = .handshake → t.bad = false →
    t.what = 2 → t.seq = x.tSeq →
    Reaches (.t2Rx n t) s fun m => (∀ k ≠ n, m.lane k = s.m.lane k) ∧ m.lane n =
      (if t.rate = 0xFF then
        (if x.full = true ∧ 0 < x.rate ∧ n < 40 then
           { x with state := .lock, full := true, rate := x.rate - 1, since := s.m.now,
                              aSeq := (m.lane n).aSeq, aDue := (m.lane n).aDue, sDue := (m.lane n).sDue }
         else { x with state := .failed, trainCause := 1, since := s.m.now })
       else { x with state := .measure, port := t.port, t2Hash := t.hash, loops := [], loopNum := (x.loopNum + 1) % 256, since := s.m.now })) ∧
  (∀ (s : State) (n rt : Nat) (x : Lane), Runs s → s.m.lane n = x → x.state = .measure → s.m.ptn.state ≠ .pairing →
    Reaches (.loopRetRx ⟨n, false⟩ x.loopNum rt) s fun m => (∀ k ≠ n, m.lane k = s.m.lane k) ∧ m.lane n =
      (if x.loops.length < 63 then { x with loops := (rt :: x.loops).take 64, loopNum := (x.loopNum + 1) % 256 }
       else { x with loops := (rt :: x.loops).take 64, state := if 40 ≤ n then .up else .caps, since := s.m.now
                     trained := if 40 ≤ n then ({ x with loops := (rt :: x.loops).take 64 } : Lane).meanTrip else x.trained })) ∧
  (∀ (s : State) (n h : Nat) (x : Lane), Runs s → s.m.lane n = x → x.state = .caps → s.m.hubOfLane n = some h →
    (s.m.hub (s.m.capsHub n)).reqs.any (CtrlReq.capsOf n) = false →
    Reaches (.laneUp n) s fun m =>
      (∀ k ≠ n, m.lane k = { s.m.lane k with trainCause := (m.lane k).trainCause }) ∧ m.lane n =
      (if s.m.capsCause n h = 0 then { x with state := .up, trainCause := 0, hash := x.t2Hash, since := s.m.now }
       else { x with state := .failed, trainCause := s.m.capsCause n h, since := s.m.now })) ∧
  (∀ (s : State) (n : Nat) (x : Lane), Runs s → s.m.lane n = x → x.state = .caps → s.m.hubOfLane n = none →
    (s.m.hub (s.m.capsHub n)).reqs.any (CtrlReq.capsOf n) = false →
    Reaches (.laneUp n) s fun m => (∀ k ≠ n, m.lane k = s.m.lane k) ∧ m.lane n =
      (if s.m.spareCause n = 0 then { x with state := .up, trainCause := 0, hash := x.t2Hash, since := s.m.now }
       else { x with state := .failed, trainCause := s.m.spareCause n, since := s.m.now })) ∧
  (∀ (s : State) (n limit : Nat) (x : Lane), Runs s → s.m.lane n = x → s.m.skx.silent = false →
    ((x.state = .lock ∨ x.state = .align) ∧ limit = 250000 ∨ x.state = .handshake ∧ limit = 100000) →
    (s.m.now < x.since + limit → Becomes (.trainStepTimeout n) s s.m) ∧
    (x.since + limit ≤ s.m.now →
      Reaches (.trainStepTimeout n) s fun m => (∀ k ≠ n, m.lane k = s.m.lane k) ∧ m.lane n =
        (if x.full = true ∧ 0 < x.rate ∧ n < 40 then
           { x with state := .lock, full := true, rate := x.rate - 1, since := s.m.now,
                              aSeq := (m.lane n).aSeq, aDue := (m.lane n).aDue, sDue := (m.lane n).sDue }
         else { x with state := .failed, trainCause := 1, since := s.m.now }))) ∧
  (∀ (s : State) (n cause : Nat) (x : Lane), Runs s → s.m.lane n = x → x.state = .up →
    (Reaches (.laneLockLost n cause) s fun m =>
      (m.lane n = { x with state := .lock, full := false, since := s.m.now,
                              aSeq := (m.lane n).aSeq, aDue := (m.lane n).aDue, sDue := (m.lane n).sDue }) ∧
      ∀ k ≠ n, m.lane k = { s.m.lane k with trainCause := (m.lane k).trainCause }) ∧
    (Reaches (.rxlostRx ⟨n, false⟩) s fun m =>
      (m.lane n = { x with state := .lock, full := false, since := s.m.now,
                              aSeq := (m.lane n).aSeq, aDue := (m.lane n).aDue, sDue := (m.lane n).sDue }) ∧
      ∀ k ≠ n, m.lane k = { s.m.lane k with trainCause := (m.lane k).trainCause })) ∧
  (∀ (s : State) (n : Nat) (x : Lane), Runs s → n < 40 → s.m.lane n = x →
    (s.m.fld (Reg.SKX_L_CFG.en n) ≠ 0 → x.state ≠ .cal → Reaches (.laneRetrain n) s fun m =>
      (m.lane n = { x with
        state := .lock, full := true, rate := s.m.topRate n, since := s.m.now,
                              aSeq := (m.lane n).aSeq, aDue := (m.lane n).aDue, sDue := (m.lane n).sDue }) ∧
      ∀ k ≠ n, m.lane k = { s.m.lane k with trainCause := (m.lane k).trainCause }) ∧
    (x.state = .failed → x.full = false →
      (s.m.now < x.since + 5000000 → Becomes (.retrainRetry n) s s.m) ∧
      (x.since + 5000000 ≤ s.m.now → Reaches (.retrainRetry n) s fun m => m = { s.m with skx := m.skx } ∧
        (m.lane n = { x with state := .lock, since := s.m.now,
                              aSeq := (m.lane n).aSeq, aDue := (m.lane n).aDue, sDue := (m.lane n).sDue }) ∧
        ∀ k ≠ n, m.lane k = s.m.lane k)))

/-- Echoes, replies and telemetry (R275, R288, R314, R316, R326, R424). An ECHO that agrees stands its line, one that does
not agree with a line sent again withholds it, and after 50 µs without one the line waits no longer; a standby holds the
ECHO against its reference. A reply to a capability request gives the hub's capabilities, one to a usage write ends the
head's wait, and one that nothing asked for does nothing. A packet that is to be discarded is. Telemetry is dated for
its hub, and no other hub or head changes. What the lanes carry on time and how they are judged (R307, R310, R311, R318,
R329, R333). The figure of merit and its least are kept for its lane; an alignment marker, where it is due, and a
HEARTBEAT move their sequence on each driven lane, and in BOOT there is no HEARTBEAT, nor on a lane before 100 µs have
passed since its last; a skip that is due reaches every driven lane of the group; a hub dark for longer than dark_ms is
judged once; the self-test runs in SETUP and READY alone, and raises an event where a unit failed. It rests on choices
of the model where the spec is open: log entries 32, 161. Commands that complete in it (exec answers next with the
effect it states): ECHO_RX, HUB_TLM_RX, CTRL_REPLY_RX, ECHO_TIMEOUT, FOM_WINDOW, ALIGN_MARKER_DUE, HEARTBEAT_DUE,
LOOP_MEASURE, SKIP_DUE, HUB_DARK_TIMEOUT, CHK_SELFTEST. -/
def Obligations.HubsAnswerAndLanesAreServed : Prop :=
  (∀ (s : State) (hub : Nat) (e : EchoF) (t : HubTlmF) (r : CtrlReplyF), Runs s →
    (e.bad = true → Becomes (.echoRx hub e) s (s.m.discard (s.m.timingLane hub))) ∧
    (t.bad = true → Becomes (.hubTlmRx hub t) s (s.m.discard (s.m.timingLane hub))) ∧
    (r.bad = true → r.lane = none → Becomes (.ctrlReplyRx hub r) s (s.m.discard (s.m.timingLane hub)))) ∧
  (∀ (s : State) (hub k : Nat) (e : EchoF) (l : FireLine), Runs s → s.m.isBacksight = false → e.bad = false → e.status = 0 →
    s.m.echoLine hub e.tag = some k → s.m.fireLine k = l →
    (l.line = e.lineCrc → l.hdr = e.hdrCrc → Reaches (.echoRx hub e) s fun m =>
      m.fireLine k = { l with echoed := true } ∧ m.ptn.echoSeen = s.m.ptn.echoSeen ++ [(hub, e.tag)] ∧
      ∀ i ≠ k, m.fireLine i = s.m.fireLine i) ∧
    (l.line ≠ e.lineCrc → l.resent = true → Reaches (.echoRx hub e) s fun m =>
      m.fireLine k = { l with echoed := true, cause := firstCause l.cause (some 7) } ∧
      ∀ i ≠ k, m.fireLine i = s.m.fireLine i)) ∧
  (∀ (s : State) (hub : Nat) (e : EchoF) (lc hc : Word), Runs s → s.m.isBacksight = true → e.bad = false →
    s.m.ptn.echoRefs.find? (fun r => r.1 = hub && r.2.1 = e.tag) = some (hub, e.tag, lc, hc) →
    Reaches (.echoRx hub e) s fun m =>
      m.ptn.echoRefs = s.m.ptn.echoRefs.filter (fun r => !(r.1 = hub && r.2.1 = e.tag)) ∧
      m.ptn.echoSeen = s.m.ptn.echoSeen ++ (if lc = e.lineCrc ∧ hc = e.hdrCrc then [(hub, e.tag)] else [])) ∧
  (∀ (s : State) (j n hub : Nat) (l : FireLine), Runs s → s.m.fireLine (fireKey j n hub) = l → l.stage = .sent →
    l.echoed = false →
    (s.m.now < l.sentAt + 25000 → Becomes (.echoTimeout j n hub) s s.m) ∧
    (l.sentAt + 25000 ≤ s.m.now → Reaches (.echoTimeout j n hub) s fun m =>
      m.fireLine (fireKey j n hub) = { l with echoed := true } ∧
      ∀ i ≠ fireKey j n hub, m.fireLine i = s.m.fireLine i)) ∧
  (∀ (s : State) (hub : Nat) (r : CtrlReplyF) (x : Hub), Runs s → s.m.hub hub = x → r.lane = none → r.bad = false →
    (x.reqs.find? (fun q => q.id = r.id && q.slot = r.slot) = none → Becomes (.ctrlReplyRx hub r) s s.m) ∧
    (∀ q, x.reqs.find? (fun q => q.id = r.id && q.slot = r.slot) = some q → r.status = 0 →
      (q.use = .caps → Reaches (.ctrlReplyRx hub r) s fun m =>
        m = (s.m.setHub hub { x with reqs := x.reqs.filter (fun p => p ≠ q) }).setHub hub
          { (s.m.setHub hub { x with reqs := x.reqs.filter (fun p => p ≠ q) }).hub hub with caps := r.data.take 144 } ∧
        ∀ k ≠ hub, m.hub k = s.m.hub k) ∧
      (∀ h, q.use = .usageWrite → (s.m.hubHeads hub).find? (fun h => h.slot = q.slot) = some h →
        Reaches (.ctrlReplyRx hub r) s fun m =>
          m.fgd = { s.m.fgd with head := Tab.set {} s.m.fgd.head h.id { s.m.headState h.id with
            usagePend := (s.m.headState h.id).usagePend.filter (fun w => !w.ids.contains q.id) } } ∧
          ∀ k ≠ hub, m.hub k = s.m.hub k))) ∧
  (∀ (s : State) (hub : Nat) (t : HubTlmF), Runs s → hub < 40 → t.bad = false →
    Reaches (.hubTlmRx hub t) s fun m => m.hub hub = { s.m.hub hub with tlmTick := some s.m.now } ∧
      (∀ k ≠ hub, m.hub k = s.m.hub k) ∧
      ∀ i, i ∉ (s.m.hubHeads hub).map (fun h => h.id) → m.headState i = s.m.headState i) ∧
  (∀ (s : State) (n fom : Nat) (w : LaneMs) (x : Lane), Runs s → fom = w.fom → s.m.lane n = x → x.state ≠ .off →
    (∀ t, x.fomTick = some t → t + 500000 ≤ s.m.now) →
    Reaches (.fomWindow n w) s fun m => (∀ k ≠ n, m.lane k = s.m.lane k) ∧ (s.m.now, fom) ∈ (m.lane n).foms ∧ (m.lane n =
      { x with fom := fom, fomTick := some s.m.now, foms := (m.lane n).foms, fomLow :=
        if fom < 64 then 2 else if fom < 96 then max 1 x.fomLow else if 104 ≤ fom then 0 else x.fomLow }) ∧
      m.lowestFom (m.lane n) ≤ fom) ∧
  (∀ s : State, Runs s → Reaches .alignMarkerDue s fun m => ∀ n, m.lane n =
    (if n < 42 ∧ s.m.laneDriven n = true ∧ (s.m.lane n).aDue < 5 * (s.m.now + 1) then { s.m.lane n with
      aSeq := ((s.m.lane n).aSeq + 1) % 256
      aDue := (s.m.lane n).aDue + 4096 * (if (s.m.lane n).rate = 2 then 2 else if (s.m.lane n).rate = 1 then 4 else 8) }
     else s.m.lane n)) ∧
  (∀ s : State, Runs s → s.m.glb.mode ≠ .boot → Reaches .heartbeatDue s fun m => ∀ n, m.lane n =
    (if n < 40 ∧ s.m.laneBeatDue n = true then
      { s.m.lane n with hbSeq := ((s.m.lane n).hbSeq + 1) % 256, hbAt := some s.m.now } else s.m.lane n)) ∧
  (∀ (s : State) (n : Nat), s.m.laneBeatDue n = (s.m.laneDriven n &&
    (match (s.m.lane n).hbAt with | some t => decide (t + 50000 ≤ s.m.now) | none => true))) ∧
  (∀ s : State, Runs s → s.m.glb.mode = .boot → Becomes .heartbeatDue s s.m) ∧
  (∀ s : State, Runs s → (∀ n < 40, s.m.laneBeatDue n = false) →
    (s.m.ptn.state = .solo ∨ s.m.ptn.state = .pairing ∨ s.m.skx.silent = true ∨ s.m.now < s.m.lastBeat .heart + 50000) →
    Becomes .heartbeatDue s s.m) ∧
  (∀ s : State, Runs s → s.m.lastBeat .loop + 5000000 ≤ s.m.now → Reaches .loopMeasure s fun m => ∀ n, m.lane n =
    (if n < 42 ∧ s.m.laneUp n = true then { s.m.lane n with loopNum := ((s.m.lane n).loopNum + 1) % 256 } else s.m.lane n)) ∧
  (∀ (s : State) (n h : Nat), Runs s → n < 40 → s.m.hubOfLane n = some h →
    (5 * (s.m.now + 1) ≤ (s.m.lane n).sDue → Becomes (.skipDue n) s s.m) ∧
    ((s.m.lane n).sDue < 5 * (s.m.now + 1) → Reaches (.skipDue n) s fun m =>
      m = { s.m with out := m.out, skx := m.skx } ∧
      m.out.length = s.m.out.length + ((s.m.hubLanes h).filter s.m.laneDriven).length ∧
      ∀ k, m.lane k = { s.m.lane k with sDue := (m.lane k).sDue })) ∧
  (∀ (s : State) (hub t : Nat), Runs s → (s.m.hub hub).darkSince = some t → s.m.isBacksight = false →
    (s.m.lineJobs.any (fun j => (s.m.job j).state = .printing &&
      (s.m.hubHeads hub).any (fun h => (s.m.job j).hasPlane h.plane)) = true) →
    ((s.m.hub hub).darkDone = true → Becomes (.hubDarkTimeout hub) s s.m) ∧
    ((s.m.hub hub).darkDone = false → t + s.m.fld Reg.SKX_CFG.dark_ms * 500000 < s.m.now →
      s.m.fld Reg.SKX_CFG.dark_policy = 0 →
      Becomes (.hubDarkTimeout hub) s (s.m.setHub hub { s.m.hub hub with darkDone := true }))) ∧
  (∀ (s : State) (bad : Nat), Runs s →
    (s.m.glb.mode ≠ .setup → s.m.glb.mode ≠ .ready → Becomes (.chkSelftest bad) s s.m) ∧
    (s.m.glb.mode = .setup ∨ s.m.glb.mode = .ready → Reaches (.chkSelftest bad) s fun m =>
      m = { s.m with regs := m.regs, evt := m.evt } ∧
      m.evt.seq = s.m.evt.seq + (if bad % 2 ^ 24 = 0 then 0 else 1)))

/-! ### Cameras and closure -/

/-- Devices and connections (R10, R337 to R339). Enabling a device in SETUP brings it up; after the lock the write is
counted and dropped. A FAILED device is tried again but for cause CONFIG; a discovery ends UP or FAILED with its cause.
A lost connection takes its device DOWN, and a returned one brings it up again. An event packet is counted. A mailbox
access is sent to an UP device and refused with result 3 otherwise, and its answer frees the mailbox. It rests on
choices of the model where the spec is open: log entry 38. Commands that complete in it (exec answers next with the
effect it states): CAM_DEVICE_ENABLE, CAM_BRINGUP_RETRY, DEVICE_BRINGUP_DONE, CXP_LOCK_LOST, CXP_CONNECTION_RETURN,
CXP_EVENT_PACKET, MAILBOX_READ, MAILBOX_WRITE, MAILBOX_DONE. -/
def Obligations.CameraDevicesComeUp : Prop :=
  (∀ (s : State) (d : Nat), Runs s →
    (s.m.glb.locked = true → Becomes (.camDeviceEnable d) s s.m.countDiscard) ∧
    (s.m.glb.locked = false → s.m.glb.mode ≠ .setup → Becomes (.camDeviceEnable d) s s.m) ∧
    (s.m.glb.locked = false → s.m.glb.mode = .setup → Reaches (.camDeviceEnable d) s fun m =>
      m = (s.m.setFld (Reg.CAM_D_CFG.en d) 1).devBringup d ∧
      ((m.dev d).state = .discovery ∧ (m.dev d).cause = 0 ∨ (m.dev d).state = .failed ∧ (m.dev d).cause = 5)) ∧
    (s.m.devEn d = true → (s.m.dev d).state = .failed → (s.m.dev d).cause ≠ 5 → (s.m.dev d).since + 500000000 ≤ s.m.now →
      Reaches (.camBringupRetry d) s fun m => m = s.m.devBringup d ∧ ((m.dev d).state = .discovery ∨ (m.dev d).cause = 5)) ∧
    (((s.m.dev d).cause = 5 ∨ s.m.now < (s.m.dev d).since + 500000000) → Becomes (.camBringupRetry d) s s.m)) ∧
  (∀ (s : State) (d cause : Nat), Runs s → (s.m.dev d).state = .discovery → cause ≤ 4 →
    Reaches (.deviceBringupDone d cause) s fun m => (∀ k ≠ d, m.dev k = s.m.dev k) ∧
      m.dev d = (if cause = 0 then { s.m.dev d with state := .up, cause := 0, lost := [], lastTrig := none, since := s.m.now }
        else { s.m.dev d with state := .failed, cause := cause, since := s.m.now }) ∧ m.evt.seq = s.m.evt.seq + 1) ∧
  (∀ (s : State) (k d : Nat), Runs s → s.m.connDev k = some d →
    ((s.m.dev d).state = .up → Reaches (.cxpLockLost k) s fun m =>
      m = (((s.m.setConns [k] false).setDev d { s.m.dev d with lost := [k] }).devTo d .down 0).closeOn d ∧
      (m.dev d).state = .down ∧ (m.dev d).lost = [k]) ∧
    ((s.m.dev d).lost.contains k = false → Becomes (.cxpConnectionReturn k) s s.m) ∧
    ((s.m.dev d).lost.contains k = true → (s.m.dev d).state = .down → Reaches (.cxpConnectionReturn k) s fun m =>
      m = ((s.m.setConns [k] true).setDev d { s.m.dev d with lost := (s.m.dev d).lost.filter (· ≠ k) }).devBringup d ∧
      ((m.dev d).state = .discovery ∨ (m.dev d).state = .failed)) ∧
    Becomes (.cxpEventPacket k) s (s.m.addSat (Reg.CAM_X_EVPKT.cnt k) 1)) ∧
  (∀ (s : State) (k : Nat), Runs s → s.m.connDev k = none →
    Becomes (.cxpLockLost k) s s.m ∧ Becomes (.cxpConnectionReturn k) s s.m ∧ Becomes (.cxpEventPacket k) s s.m) ∧
  (∀ (s : State) (d : Nat), Runs s → s.m.cam.mbx = none → d = s.m.fld Reg.CAM_MBX_CMD.device →
    ((s.m.dev d).state ≠ .up → Becomes .mailboxRead s (s.m.setFld Reg.CAM_MBX_CMD.result 3) ∧
      Becomes .mailboxWrite s (s.m.setFld Reg.CAM_MBX_CMD.result 3)) ∧
    ((s.m.dev d).state = .up →
      (Reaches .mailboxRead s fun m => m.cam = { s.m.cam with mbx := some { device := d, write := false } } ∧
        m.out.length = s.m.out.length + 1) ∧
      (Reaches .mailboxWrite s fun m => m.cam = { s.m.cam with mbx := some { device := d, write := true } } ∧
        m.out.length = s.m.out.length + 1))) ∧
  (∀ (s : State) (x : Mailbox) (r : Nat) (v : Word), Runs s → s.m.cam.mbx = some x →
    Reaches (.mailboxDone r v) s fun m => m = { s.m with cam := { s.m.cam with mbx := none }, regs := m.regs })

/-- Triggers, lines and generations (R340 to R348, R350, R356, R357). A crossed trigger that is not too soon is sent and
waits for its line; a line that no frame takes answers the oldest waiting trigger; a frame past its timeout closes and
one before it does not. A generation is refused where it is bad, copied where it is not, and pending once copied; a
table access writes the staged set or returns its entry, and moves to the next. It rests on choices of the model where
the spec is open: log entry 40. Commands that complete in it (exec answers next with the effect it states):
LINE_TRIGGER, CAMERA_LINE_RX, FRAME_TIMEOUT, GEN_COMMIT, GEN_COPY_DONE, CAM_TBL_DATA_ACCESS. -/
def Obligations.CamerasSendAndRead : Prop :=
  (∀ (s : State) (d : Nat) (x : Device) (sch : Sched), Runs s → s.m.dev d = x → x.sched = some sch →
    (sch.crossed s.m.chainage = 0 → Becomes (.lineTrigger d) s s.m) ∧
    (sch.crossed s.m.chainage = 1 → chnAtOrAhead s.m.chainage (sch.chn sch.next) = true → s.m.trigSoon d = false →
      s.m.openOn d = [] → Reaches (.lineTrigger d) s fun m =>
        m.dev d = { x with
          sched := some { sch with next := sch.next + 1 }, lastTrig := some s.m.now
          trigs := x.trigs ++ [{ k := sch.next, chn := sch.chn sch.next, tick := s.m.now, time := s.m.time }] } ∧
        ∀ k ≠ d, m.dev k = s.m.dev k) ∧
    (0 < sch.crossed s.m.chainage → chnAtOrAhead s.m.chainage (sch.chn sch.next) = true → s.m.trigSoon d = true →
      s.m.openOn d = [] → Reaches (.lineTrigger d) s fun m =>
        m.dev d = { x with sched := some { sch with next := sch.next + sch.crossed s.m.chainage } } ∧
        ∀ k ≠ d, m.dev k = s.m.dev k)) ∧
  (∀ (s : State) (d : Nat), Runs s → (s.m.dev d).sched = none → Becomes (.lineTrigger d) s s.m) ∧
  (∀ (s : State) (d : Nat) (l : CamLine), Runs s →
    ((s.m.dev d).state ≠ .up → Becomes (.cameraLineRx d l) s s.m) ∧
    (∀ t r, d < 4 → (s.m.dev d).state = .up → s.m.openOn d = [] → (s.m.dev d).trigs = t :: r →
      Reaches (.cameraLineRx d l) s fun m => m.dev d = { s.m.dev d with trigs := r } ∧
        (∀ k ≠ d, m.dev k = s.m.dev k) ∧ m.cam.ctx = s.m.cam.ctx)) ∧
  (∀ (s : State) (c : Nat) (f : Frame), Runs s → s.m.frame c = some f →
    (s.m.now < f.lastTick + 500 * f.gen.fld (Reg.CAM_C_TIMEOUT.us c) → Becomes (.frameTimeout c) s s.m) ∧
    (f.lastTick + 500 * f.gen.fld (Reg.CAM_C_TIMEOUT.us c) ≤ s.m.now → (f.line = true → f.gen.len c ≤ f.crossed) →
      Becomes (.frameTimeout c) s (s.m.closeFrame c .timeout))) ∧
  (∀ (s : State) (c : Nat), Runs s → (s.m.ctx c).copying = none →
    (s.m.genBad c (s.m.staged c) = true → Becomes (.genCommit c) s (s.m.setCtx c { s.m.ctx c with result := 1 })) ∧
    (s.m.genBad c (s.m.staged c) = false → Reaches (.genCommit c) s fun m =>
      m.ctx c = { s.m.ctx c with result := 0, copying := some (s.m.staged c) } ∧ ∀ k ≠ c, m.ctx k = s.m.ctx k) ∧
    Becomes (.genCopyDone c) s s.m) ∧
  (∀ (s : State) (c : Nat) (g : Gen), Runs s → (s.m.ctx c).copying = some g → Becomes (.genCommit c) s s.m ∧
    Reaches (.genCopyDone c) s fun m => (∀ k ≠ c, m.ctx k = s.m.ctx k) ∧
      m.ctx c = { s.m.ctx c with copying := none, pending := some g, pendingAt := s.m.chainage }) ∧
  (∀ (s : State) (v c i : Nat), Runs s → c = s.m.fld Reg.CAM_TBL_SEL.context → i = s.m.fld Reg.CAM_TBL_IDX.idx →
    Becomes (.camTblDataAccess false v) s
      ((s.m.emit (.hostRead (leBytes 4 (s.m.camTblEntry % 2 ^ 32)))).addWrap Reg.CAM_TBL_IDX.idx 1) ∧
    ((s.m.ctx c).copying.isSome = true → Becomes (.camTblDataAccess true v) s (s.m.addWrap Reg.CAM_TBL_IDX.idx 1)) ∧
    ((s.m.ctx c).copying = none → i < camTableSize (s.m.fld Reg.CAM_TBL_SEL.table) →
      Becomes (.camTblDataAccess true v) s ((s.m.setCtx c
        (if s.m.fld Reg.CAM_TBL_SEL.table = 1
         then { s.m.ctx c with stageDf := Tab.setD (camTableReset 1) (s.m.ctx c).stageDf i (v % 2 ^ 32) }
         else { s.m.ctx c with stageMx := Tab.setD (camTableReset 2) (s.m.ctx c).stageMx i (v % 2 ^ 32) })).addWrap
        Reg.CAM_TBL_IDX.idx 1)))

/-- Closure (R362, R365, R370, R375, R377). The strip frame of a context that is due starts and the next strip of its job is
the one after; the oldest unit reaches closure and a strip is measured once its last unit is in; KEEP and RELEASE
answer, list and unlist their nozzle; a benchmark starts on a printing job in BENCHMARK alone, while the module owns
closure, and ends on abort. It rests on choices of the model where the spec is open: log entry 67. Commands that
complete in it (exec answers next with the effect it states): STRIP_FRAME_START, STATS_UNIT, KEEP, RELEASE, BENCH_START,
BENCH_ABORT. -/
def Obligations.ClosureMeasures : Prop :=
  (∀ (s : State) (j : Nat), Runs s →
    (s.m.fld Reg.CAM_CLS_CFG.trig = 0 ∨ s.m.chn.vote.valid = false ∨ s.m.glb.mode = .halt) →
    Becomes (.stripFrameStart j) s s.m) ∧
  (∀ (s : State) (j c : Nat) (x : Job), Runs s → s.m.job j = x → s.m.flag Reg.CAM_CLS_CFG.trig = true → x.hasLines = true →
    x.lfld Reg.CAM_CLS_STRIP.lines ≠ 0 → s.m.glb.mode.working = true → s.m.chn.vote.valid = true →
    s.m.vgp.past.filter (fun p => p.slot = j) = [] →
    s.m.measuring.filter (fun c => chnAtOrAhead s.m.chainage (s.m.stripTarget x (s.m.nextStrip x c) c) &&
      x.prints (x.stripLine (s.m.nextStrip x c) 0)) = [c] →
    s.m.cls.strips.any (fun e => e.1.run = x.run && e.1.num = s.m.nextStrip x c) = true →
    Reaches (.stripFrameStart j) s fun m => m = s.m.stripFrame x j c ∧
      Tab.get 0 m.cls.nextStrip (8 * x.run + c) = s.m.nextStrip x c + 1) ∧
  (∀ (s : State) (u : StatUnit) (r : List StatUnit), Runs s → s.m.cls.units = u :: r →
    (s.m.drm.coresHeld = true → Becomes .statsUnit s s.m) ∧
    (s.m.drm.coresHeld = false → u.ring = none →
      (u.strip = none → Becomes .statsUnit s { s.m with cls := { s.m.cls with units := r } }) ∧
      (∀ a e, u.stats = true → u.strip = some a →
        s.m.cls.strips.find? (fun e => e.1.run = a.run && e.1.num = a.num) = some e →
        (e.2.filter (· ≠ u.ctx) ≠ [] → Becomes .statsUnit s { s.m with cls := { s.m.cls with
          units := r, arrived := s.m.cls.arrived ++ [u]
          strips := s.m.cls.strips.map (fun e =>
            if e.1.run = a.run && e.1.num = a.num then (e.1, e.2.filter (· ≠ u.ctx)) else e) } }) ∧
        (e.2.filter (· ≠ u.ctx) = [] → Reaches .statsUnit s fun m =>
          m.cls.units = r ∧ ∀ e ∈ m.cls.strips, (e.1.run = a.run && e.1.num = a.num) = false)))) ∧
  (∀ s : State, Runs s → s.m.cls.units = [] → Becomes .statsUnit s s.m) ∧
  (∀ (s : State) (n : Nat × Nat), Runs s → s.m.mirroring = false →
    n = (s.m.fld Reg.CAM_CLS_OVR.plane, s.m.fld Reg.CAM_CLS_OVR.u) →
    (s.m.cls.keep.contains n = false → keepMax ≤ s.m.cls.keep.length →
      Becomes .keep s { s.m with cls := { s.m.cls with ovrResult := 1 } }) ∧
    (s.m.cls.keep.contains n = false → s.m.cls.keep.length < keepMax →
      ((s.m.closedOf n.1).contains n.2 = false ∨ s.m.flag Reg.CAM_CLS_CFG.owner = true) →
      Becomes .keep s { s.m with cls := { s.m.cls with ovrResult := 0, keep := s.m.cls.keep ++ [n] } }) ∧
    (s.m.cls.keep.contains n = true → Becomes .release s
      { s.m with cls := { s.m.cls with ovrResult := 0, keep := s.m.cls.keep.filter (· ≠ n) } }) ∧
    (s.m.cls.keep.contains n = false → Becomes .release s { s.m with cls := { s.m.cls with ovrResult := 2 } })) ∧
  (∀ (s : State) (j : Nat), Runs s → (List.range 8).find? (fun j =>
      (s.m.job j).state = .printing && (s.m.job j).lfld Reg.CAM_CLS_STRIP.lines ≠ 0) = some j →
    ((s.m.glb.mode ≠ .benchmark ∨ s.m.cls.bench.isSome = true ∨ s.m.flag Reg.CAM_CLS_CFG.owner = true) → Becomes .benchStart s s.m) ∧
    (s.m.glb.mode = .benchmark → s.m.cls.bench = none → s.m.flag Reg.CAM_CLS_CFG.owner = false → bitAt (s.m.fld Reg.CAM_CLS_BENCH.what) 0 = false →
      bitAt (s.m.fld Reg.CAM_CLS_BENCH.what) 1 = true → Reaches .benchStart s fun m =>
        ∃ b, m = { s.m with cls := { s.m.cls with bench := some b, benchStatus := 1 } } ∧ b.job = j ∧ b.step = .gain ∧
          b.iter = max 1 (s.m.fld Reg.CAM_CLS_BENCH.iter))) ∧
  (∀ s : State, Runs s → (s.m.cls.bench = none → Becomes .benchAbort s s.m) ∧
    (s.m.cls.bench.isSome = true → Reaches .benchAbort s fun m =>
      m.cls = { s.m.cls with bench := none, benchStatus := 3 } ∧ m.evt.seq = s.m.evt.seq + 1))
end

