-- ==== Sys2Proof/Laws/State.lean ====
section
/-! SUPPORT. What the shared operations leave as it was: one lemma per operation and field, for simp. -/

namespace Sys2Proof.Laws

open Sys2Proof Sys2Proof.Machine


/-! ### Mach.wr -/

@[simp] theorem wr_glb (m : Mach) (off v : Nat) : (m.wr off v).glb = m.glb := rfl
@[simp] theorem wr_sec (m : Mach) (off v : Nat) : (m.wr off v).sec = m.sec := rfl
@[simp] theorem wr_xfer (m : Mach) (off v : Nat) : (m.wr off v).xfer = m.xfer := rfl
@[simp] theorem wr_otp (m : Mach) (off v : Nat) : (m.wr off v).otp = m.otp := rfl
@[simp] theorem wr_nand (m : Mach) (off v : Nat) : (m.wr off v).nand = m.nand := rfl
@[simp] theorem wr_finals (m : Mach) (off v : Nat) : (m.wr off v).finals = m.finals := rfl
@[simp] theorem wr_evt (m : Mach) (off v : Nat) : (m.wr off v).evt = m.evt := rfl
@[simp] theorem wr_hst (m : Mach) (off v : Nat) : (m.wr off v).hst = m.hst := rfl
@[simp] theorem wr_chn (m : Mach) (off v : Nat) : (m.wr off v).chn = m.chn := rfl
@[simp] theorem wr_stn (m : Mach) (off v : Nat) : (m.wr off v).stn = m.stn := rfl
@[simp] theorem wr_dtm (m : Mach) (off v : Nat) : (m.wr off v).dtm = m.dtm := rfl
@[simp] theorem wr_eth (m : Mach) (off v : Nat) : (m.wr off v).eth = m.eth := rfl
@[simp] theorem wr_vgp (m : Mach) (off v : Nat) : (m.wr off v).vgp = m.vgp := rfl
@[simp] theorem wr_cmp (m : Mach) (off v : Nat) : (m.wr off v).cmp = m.cmp := rfl
@[simp] theorem wr_epo (m : Mach) (off v : Nat) : (m.wr off v).epo = m.epo := rfl
@[simp] theorem wr_trv (m : Mach) (off v : Nat) : (m.wr off v).trv = m.trv := rfl
@[simp] theorem wr_fgd (m : Mach) (off v : Nat) : (m.wr off v).fgd = m.fgd := rfl
@[simp] theorem wr_skx (m : Mach) (off v : Nat) : (m.wr off v).skx = m.skx := rfl
@[simp] theorem wr_cam (m : Mach) (off v : Nat) : (m.wr off v).cam = m.cam := rfl
@[simp] theorem wr_cls (m : Mach) (off v : Nat) : (m.wr off v).cls = m.cls := rfl
@[simp] theorem wr_drm (m : Mach) (off v : Nat) : (m.wr off v).drm = m.drm := rfl
@[simp] theorem wr_mot (m : Mach) (off v : Nat) : (m.wr off v).mot = m.mot := rfl
@[simp] theorem wr_thm (m : Mach) (off v : Nat) : (m.wr off v).thm = m.thm := rfl
@[simp] theorem wr_pwr (m : Mach) (off v : Nat) : (m.wr off v).pwr = m.pwr := rfl
@[simp] theorem wr_cal (m : Mach) (off v : Nat) : (m.wr off v).cal = m.cal := rfl
@[simp] theorem wr_ptn (m : Mach) (off v : Nat) : (m.wr off v).ptn = m.ptn := rfl
@[simp] theorem wr_loStage (m : Mach) (off v : Nat) : (m.wr off v).loStage = m.loStage := rfl
@[simp] theorem wr_hiLatch (m : Mach) (off v : Nat) : (m.wr off v).hiLatch = m.hiLatch := rfl
@[simp] theorem wr_dram (m : Mach) (off v : Nat) : (m.wr off v).dram = m.dram := rfl
@[simp] theorem wr_out (m : Mach) (off v : Nat) : (m.wr off v).out = m.out := rfl

/-! ### Mach.setFld -/

@[simp] theorem setFld_glb (m : Mach) (f : Fld) (v : Nat) : (m.setFld f v).glb = m.glb := rfl
@[simp] theorem setFld_sec (m : Mach) (f : Fld) (v : Nat) : (m.setFld f v).sec = m.sec := rfl
@[simp] theorem setFld_xfer (m : Mach) (f : Fld) (v : Nat) : (m.setFld f v).xfer = m.xfer := rfl
@[simp] theorem setFld_otp (m : Mach) (f : Fld) (v : Nat) : (m.setFld f v).otp = m.otp := rfl
@[simp] theorem setFld_nand (m : Mach) (f : Fld) (v : Nat) : (m.setFld f v).nand = m.nand := rfl
@[simp] theorem setFld_finals (m : Mach) (f : Fld) (v : Nat) : (m.setFld f v).finals = m.finals := rfl
@[simp] theorem setFld_evt (m : Mach) (f : Fld) (v : Nat) : (m.setFld f v).evt = m.evt := rfl
@[simp] theorem setFld_hst (m : Mach) (f : Fld) (v : Nat) : (m.setFld f v).hst = m.hst := rfl
@[simp] theorem setFld_chn (m : Mach) (f : Fld) (v : Nat) : (m.setFld f v).chn = m.chn := rfl
@[simp] theorem setFld_stn (m : Mach) (f : Fld) (v : Nat) : (m.setFld f v).stn = m.stn := rfl
@[simp] theorem setFld_dtm (m : Mach) (f : Fld) (v : Nat) : (m.setFld f v).dtm = m.dtm := rfl
@[simp] theorem setFld_eth (m : Mach) (f : Fld) (v : Nat) : (m.setFld f v).eth = m.eth := rfl
@[simp] theorem setFld_vgp (m : Mach) (f : Fld) (v : Nat) : (m.setFld f v).vgp = m.vgp := rfl
@[simp] theorem setFld_cmp (m : Mach) (f : Fld) (v : Nat) : (m.setFld f v).cmp = m.cmp := rfl
@[simp] theorem setFld_epo (m : Mach) (f : Fld) (v : Nat) : (m.setFld f v).epo = m.epo := rfl
@[simp] theorem setFld_trv (m : Mach) (f : Fld) (v : Nat) : (m.setFld f v).trv = m.trv := rfl
@[simp] theorem setFld_fgd (m : Mach) (f : Fld) (v : Nat) : (m.setFld f v).fgd = m.fgd := rfl
@[simp] theorem setFld_skx (m : Mach) (f : Fld) (v : Nat) : (m.setFld f v).skx = m.skx := rfl
@[simp] theorem setFld_cam (m : Mach) (f : Fld) (v : Nat) : (m.setFld f v).cam = m.cam := rfl
@[simp] theorem setFld_cls (m : Mach) (f : Fld) (v : Nat) : (m.setFld f v).cls = m.cls := rfl
@[simp] theorem setFld_drm (m : Mach) (f : Fld) (v : Nat) : (m.setFld f v).drm = m.drm := rfl
@[simp] theorem setFld_mot (m : Mach) (f : Fld) (v : Nat) : (m.setFld f v).mot = m.mot := rfl
@[simp] theorem setFld_thm (m : Mach) (f : Fld) (v : Nat) : (m.setFld f v).thm = m.thm := rfl
@[simp] theorem setFld_pwr (m : Mach) (f : Fld) (v : Nat) : (m.setFld f v).pwr = m.pwr := rfl
@[simp] theorem setFld_cal (m : Mach) (f : Fld) (v : Nat) : (m.setFld f v).cal = m.cal := rfl
@[simp] theorem setFld_ptn (m : Mach) (f : Fld) (v : Nat) : (m.setFld f v).ptn = m.ptn := rfl
@[simp] theorem setFld_loStage (m : Mach) (f : Fld) (v : Nat) : (m.setFld f v).loStage = m.loStage := rfl
@[simp] theorem setFld_hiLatch (m : Mach) (f : Fld) (v : Nat) : (m.setFld f v).hiLatch = m.hiLatch := rfl
@[simp] theorem setFld_dram (m : Mach) (f : Fld) (v : Nat) : (m.setFld f v).dram = m.dram := rfl
@[simp] theorem setFld_out (m : Mach) (f : Fld) (v : Nat) : (m.setFld f v).out = m.out := rfl

/-! ### Mach.addSat -/

@[simp] theorem addSat_glb (m : Mach) (f : Fld) (n : Nat) : (m.addSat f n).glb = m.glb := rfl
@[simp] theorem addSat_sec (m : Mach) (f : Fld) (n : Nat) : (m.addSat f n).sec = m.sec := rfl
@[simp] theorem addSat_xfer (m : Mach) (f : Fld) (n : Nat) : (m.addSat f n).xfer = m.xfer := rfl
@[simp] theorem addSat_otp (m : Mach) (f : Fld) (n : Nat) : (m.addSat f n).otp = m.otp := rfl
@[simp] theorem addSat_nand (m : Mach) (f : Fld) (n : Nat) : (m.addSat f n).nand = m.nand := rfl
@[simp] theorem addSat_finals (m : Mach) (f : Fld) (n : Nat) : (m.addSat f n).finals = m.finals := rfl
@[simp] theorem addSat_evt (m : Mach) (f : Fld) (n : Nat) : (m.addSat f n).evt = m.evt := rfl
@[simp] theorem addSat_hst (m : Mach) (f : Fld) (n : Nat) : (m.addSat f n).hst = m.hst := rfl
@[simp] theorem addSat_chn (m : Mach) (f : Fld) (n : Nat) : (m.addSat f n).chn = m.chn := rfl
@[simp] theorem addSat_stn (m : Mach) (f : Fld) (n : Nat) : (m.addSat f n).stn = m.stn := rfl
@[simp] theorem addSat_dtm (m : Mach) (f : Fld) (n : Nat) : (m.addSat f n).dtm = m.dtm := rfl
@[simp] theorem addSat_eth (m : Mach) (f : Fld) (n : Nat) : (m.addSat f n).eth = m.eth := rfl
@[simp] theorem addSat_vgp (m : Mach) (f : Fld) (n : Nat) : (m.addSat f n).vgp = m.vgp := rfl
@[simp] theorem addSat_cmp (m : Mach) (f : Fld) (n : Nat) : (m.addSat f n).cmp = m.cmp := rfl
@[simp] theorem addSat_epo (m : Mach) (f : Fld) (n : Nat) : (m.addSat f n).epo = m.epo := rfl
@[simp] theorem addSat_trv (m : Mach) (f : Fld) (n : Nat) : (m.addSat f n).trv = m.trv := rfl
@[simp] theorem addSat_fgd (m : Mach) (f : Fld) (n : Nat) : (m.addSat f n).fgd = m.fgd := rfl
@[simp] theorem addSat_skx (m : Mach) (f : Fld) (n : Nat) : (m.addSat f n).skx = m.skx := rfl
@[simp] theorem addSat_cam (m : Mach) (f : Fld) (n : Nat) : (m.addSat f n).cam = m.cam := rfl
@[simp] theorem addSat_cls (m : Mach) (f : Fld) (n : Nat) : (m.addSat f n).cls = m.cls := rfl
@[simp] theorem addSat_drm (m : Mach) (f : Fld) (n : Nat) : (m.addSat f n).drm = m.drm := rfl
@[simp] theorem addSat_mot (m : Mach) (f : Fld) (n : Nat) : (m.addSat f n).mot = m.mot := rfl
@[simp] theorem addSat_thm (m : Mach) (f : Fld) (n : Nat) : (m.addSat f n).thm = m.thm := rfl
@[simp] theorem addSat_pwr (m : Mach) (f : Fld) (n : Nat) : (m.addSat f n).pwr = m.pwr := rfl
@[simp] theorem addSat_cal (m : Mach) (f : Fld) (n : Nat) : (m.addSat f n).cal = m.cal := rfl
@[simp] theorem addSat_ptn (m : Mach) (f : Fld) (n : Nat) : (m.addSat f n).ptn = m.ptn := rfl
@[simp] theorem addSat_loStage (m : Mach) (f : Fld) (n : Nat) : (m.addSat f n).loStage = m.loStage := rfl
@[simp] theorem addSat_hiLatch (m : Mach) (f : Fld) (n : Nat) : (m.addSat f n).hiLatch = m.hiLatch := rfl
@[simp] theorem addSat_dram (m : Mach) (f : Fld) (n : Nat) : (m.addSat f n).dram = m.dram := rfl
@[simp] theorem addSat_out (m : Mach) (f : Fld) (n : Nat) : (m.addSat f n).out = m.out := rfl

/-! ### Mach.addWrap -/

@[simp] theorem addWrap_glb (m : Mach) (f : Fld) (n : Nat) : (m.addWrap f n).glb = m.glb := rfl
@[simp] theorem addWrap_sec (m : Mach) (f : Fld) (n : Nat) : (m.addWrap f n).sec = m.sec := rfl
@[simp] theorem addWrap_xfer (m : Mach) (f : Fld) (n : Nat) : (m.addWrap f n).xfer = m.xfer := rfl
@[simp] theorem addWrap_otp (m : Mach) (f : Fld) (n : Nat) : (m.addWrap f n).otp = m.otp := rfl
@[simp] theorem addWrap_nand (m : Mach) (f : Fld) (n : Nat) : (m.addWrap f n).nand = m.nand := rfl
@[simp] theorem addWrap_finals (m : Mach) (f : Fld) (n : Nat) : (m.addWrap f n).finals = m.finals := rfl
@[simp] theorem addWrap_evt (m : Mach) (f : Fld) (n : Nat) : (m.addWrap f n).evt = m.evt := rfl
@[simp] theorem addWrap_hst (m : Mach) (f : Fld) (n : Nat) : (m.addWrap f n).hst = m.hst := rfl
@[simp] theorem addWrap_chn (m : Mach) (f : Fld) (n : Nat) : (m.addWrap f n).chn = m.chn := rfl
@[simp] theorem addWrap_stn (m : Mach) (f : Fld) (n : Nat) : (m.addWrap f n).stn = m.stn := rfl
@[simp] theorem addWrap_dtm (m : Mach) (f : Fld) (n : Nat) : (m.addWrap f n).dtm = m.dtm := rfl
@[simp] theorem addWrap_eth (m : Mach) (f : Fld) (n : Nat) : (m.addWrap f n).eth = m.eth := rfl
@[simp] theorem addWrap_vgp (m : Mach) (f : Fld) (n : Nat) : (m.addWrap f n).vgp = m.vgp := rfl
@[simp] theorem addWrap_cmp (m : Mach) (f : Fld) (n : Nat) : (m.addWrap f n).cmp = m.cmp := rfl
@[simp] theorem addWrap_epo (m : Mach) (f : Fld) (n : Nat) : (m.addWrap f n).epo = m.epo := rfl
@[simp] theorem addWrap_trv (m : Mach) (f : Fld) (n : Nat) : (m.addWrap f n).trv = m.trv := rfl
@[simp] theorem addWrap_fgd (m : Mach) (f : Fld) (n : Nat) : (m.addWrap f n).fgd = m.fgd := rfl
@[simp] theorem addWrap_skx (m : Mach) (f : Fld) (n : Nat) : (m.addWrap f n).skx = m.skx := rfl
@[simp] theorem addWrap_cam (m : Mach) (f : Fld) (n : Nat) : (m.addWrap f n).cam = m.cam := rfl
@[simp] theorem addWrap_cls (m : Mach) (f : Fld) (n : Nat) : (m.addWrap f n).cls = m.cls := rfl
@[simp] theorem addWrap_drm (m : Mach) (f : Fld) (n : Nat) : (m.addWrap f n).drm = m.drm := rfl
@[simp] theorem addWrap_mot (m : Mach) (f : Fld) (n : Nat) : (m.addWrap f n).mot = m.mot := rfl
@[simp] theorem addWrap_thm (m : Mach) (f : Fld) (n : Nat) : (m.addWrap f n).thm = m.thm := rfl
@[simp] theorem addWrap_pwr (m : Mach) (f : Fld) (n : Nat) : (m.addWrap f n).pwr = m.pwr := rfl
@[simp] theorem addWrap_cal (m : Mach) (f : Fld) (n : Nat) : (m.addWrap f n).cal = m.cal := rfl
@[simp] theorem addWrap_ptn (m : Mach) (f : Fld) (n : Nat) : (m.addWrap f n).ptn = m.ptn := rfl
@[simp] theorem addWrap_loStage (m : Mach) (f : Fld) (n : Nat) : (m.addWrap f n).loStage = m.loStage := rfl
@[simp] theorem addWrap_hiLatch (m : Mach) (f : Fld) (n : Nat) : (m.addWrap f n).hiLatch = m.hiLatch := rfl
@[simp] theorem addWrap_dram (m : Mach) (f : Fld) (n : Nat) : (m.addWrap f n).dram = m.dram := rfl
@[simp] theorem addWrap_out (m : Mach) (f : Fld) (n : Nat) : (m.addWrap f n).out = m.out := rfl

/-! ### Mach.setPair -/

@[simp] theorem setPair_glb (m : Mach) (lo v : Nat) : (m.setPair lo v).glb = m.glb := rfl
@[simp] theorem setPair_sec (m : Mach) (lo v : Nat) : (m.setPair lo v).sec = m.sec := rfl
@[simp] theorem setPair_xfer (m : Mach) (lo v : Nat) : (m.setPair lo v).xfer = m.xfer := rfl
@[simp] theorem setPair_otp (m : Mach) (lo v : Nat) : (m.setPair lo v).otp = m.otp := rfl
@[simp] theorem setPair_nand (m : Mach) (lo v : Nat) : (m.setPair lo v).nand = m.nand := rfl
@[simp] theorem setPair_finals (m : Mach) (lo v : Nat) : (m.setPair lo v).finals = m.finals := rfl
@[simp] theorem setPair_evt (m : Mach) (lo v : Nat) : (m.setPair lo v).evt = m.evt := rfl
@[simp] theorem setPair_hst (m : Mach) (lo v : Nat) : (m.setPair lo v).hst = m.hst := rfl
@[simp] theorem setPair_chn (m : Mach) (lo v : Nat) : (m.setPair lo v).chn = m.chn := rfl
@[simp] theorem setPair_stn (m : Mach) (lo v : Nat) : (m.setPair lo v).stn = m.stn := rfl
@[simp] theorem setPair_dtm (m : Mach) (lo v : Nat) : (m.setPair lo v).dtm = m.dtm := rfl
@[simp] theorem setPair_eth (m : Mach) (lo v : Nat) : (m.setPair lo v).eth = m.eth := rfl
@[simp] theorem setPair_vgp (m : Mach) (lo v : Nat) : (m.setPair lo v).vgp = m.vgp := rfl
@[simp] theorem setPair_cmp (m : Mach) (lo v : Nat) : (m.setPair lo v).cmp = m.cmp := rfl
@[simp] theorem setPair_epo (m : Mach) (lo v : Nat) : (m.setPair lo v).epo = m.epo := rfl
@[simp] theorem setPair_trv (m : Mach) (lo v : Nat) : (m.setPair lo v).trv = m.trv := rfl
@[simp] theorem setPair_fgd (m : Mach) (lo v : Nat) : (m.setPair lo v).fgd = m.fgd := rfl
@[simp] theorem setPair_skx (m : Mach) (lo v : Nat) : (m.setPair lo v).skx = m.skx := rfl
@[simp] theorem setPair_cam (m : Mach) (lo v : Nat) : (m.setPair lo v).cam = m.cam := rfl
@[simp] theorem setPair_cls (m : Mach) (lo v : Nat) : (m.setPair lo v).cls = m.cls := rfl
@[simp] theorem setPair_drm (m : Mach) (lo v : Nat) : (m.setPair lo v).drm = m.drm := rfl
@[simp] theorem setPair_mot (m : Mach) (lo v : Nat) : (m.setPair lo v).mot = m.mot := rfl
@[simp] theorem setPair_thm (m : Mach) (lo v : Nat) : (m.setPair lo v).thm = m.thm := rfl
@[simp] theorem setPair_pwr (m : Mach) (lo v : Nat) : (m.setPair lo v).pwr = m.pwr := rfl
@[simp] theorem setPair_cal (m : Mach) (lo v : Nat) : (m.setPair lo v).cal = m.cal := rfl
@[simp] theorem setPair_ptn (m : Mach) (lo v : Nat) : (m.setPair lo v).ptn = m.ptn := rfl
@[simp] theorem setPair_loStage (m : Mach) (lo v : Nat) : (m.setPair lo v).loStage = m.loStage := rfl
@[simp] theorem setPair_hiLatch (m : Mach) (lo v : Nat) : (m.setPair lo v).hiLatch = m.hiLatch := rfl
@[simp] theorem setPair_dram (m : Mach) (lo v : Nat) : (m.setPair lo v).dram = m.dram := rfl
@[simp] theorem setPair_out (m : Mach) (lo v : Nat) : (m.setPair lo v).out = m.out := rfl

/-! ### Mach.addPair -/

@[simp] theorem addPair_glb (m : Mach) (lo n : Nat) : (m.addPair lo n).glb = m.glb := rfl
@[simp] theorem addPair_sec (m : Mach) (lo n : Nat) : (m.addPair lo n).sec = m.sec := rfl
@[simp] theorem addPair_xfer (m : Mach) (lo n : Nat) : (m.addPair lo n).xfer = m.xfer := rfl
@[simp] theorem addPair_otp (m : Mach) (lo n : Nat) : (m.addPair lo n).otp = m.otp := rfl
@[simp] theorem addPair_nand (m : Mach) (lo n : Nat) : (m.addPair lo n).nand = m.nand := rfl
@[simp] theorem addPair_finals (m : Mach) (lo n : Nat) : (m.addPair lo n).finals = m.finals := rfl
@[simp] theorem addPair_evt (m : Mach) (lo n : Nat) : (m.addPair lo n).evt = m.evt := rfl
@[simp] theorem addPair_hst (m : Mach) (lo n : Nat) : (m.addPair lo n).hst = m.hst := rfl
@[simp] theorem addPair_chn (m : Mach) (lo n : Nat) : (m.addPair lo n).chn = m.chn := rfl
@[simp] theorem addPair_stn (m : Mach) (lo n : Nat) : (m.addPair lo n).stn = m.stn := rfl
@[simp] theorem addPair_dtm (m : Mach) (lo n : Nat) : (m.addPair lo n).dtm = m.dtm := rfl
@[simp] theorem addPair_eth (m : Mach) (lo n : Nat) : (m.addPair lo n).eth = m.eth := rfl
@[simp] theorem addPair_vgp (m : Mach) (lo n : Nat) : (m.addPair lo n).vgp = m.vgp := rfl
@[simp] theorem addPair_cmp (m : Mach) (lo n : Nat) : (m.addPair lo n).cmp = m.cmp := rfl
@[simp] theorem addPair_epo (m : Mach) (lo n : Nat) : (m.addPair lo n).epo = m.epo := rfl
@[simp] theorem addPair_trv (m : Mach) (lo n : Nat) : (m.addPair lo n).trv = m.trv := rfl
@[simp] theorem addPair_fgd (m : Mach) (lo n : Nat) : (m.addPair lo n).fgd = m.fgd := rfl
@[simp] theorem addPair_skx (m : Mach) (lo n : Nat) : (m.addPair lo n).skx = m.skx := rfl
@[simp] theorem addPair_cam (m : Mach) (lo n : Nat) : (m.addPair lo n).cam = m.cam := rfl
@[simp] theorem addPair_cls (m : Mach) (lo n : Nat) : (m.addPair lo n).cls = m.cls := rfl
@[simp] theorem addPair_drm (m : Mach) (lo n : Nat) : (m.addPair lo n).drm = m.drm := rfl
@[simp] theorem addPair_mot (m : Mach) (lo n : Nat) : (m.addPair lo n).mot = m.mot := rfl
@[simp] theorem addPair_thm (m : Mach) (lo n : Nat) : (m.addPair lo n).thm = m.thm := rfl
@[simp] theorem addPair_pwr (m : Mach) (lo n : Nat) : (m.addPair lo n).pwr = m.pwr := rfl
@[simp] theorem addPair_cal (m : Mach) (lo n : Nat) : (m.addPair lo n).cal = m.cal := rfl
@[simp] theorem addPair_ptn (m : Mach) (lo n : Nat) : (m.addPair lo n).ptn = m.ptn := rfl
@[simp] theorem addPair_loStage (m : Mach) (lo n : Nat) : (m.addPair lo n).loStage = m.loStage := rfl
@[simp] theorem addPair_hiLatch (m : Mach) (lo n : Nat) : (m.addPair lo n).hiLatch = m.hiLatch := rfl
@[simp] theorem addPair_dram (m : Mach) (lo n : Nat) : (m.addPair lo n).dram = m.dram := rfl
@[simp] theorem addPair_out (m : Mach) (lo n : Nat) : (m.addPair lo n).out = m.out := rfl

/-! ### Mach.addPairSat -/

@[simp] theorem addPairSat_glb (m : Mach) (lo n : Nat) : (m.addPairSat lo n).glb = m.glb := rfl
@[simp] theorem addPairSat_sec (m : Mach) (lo n : Nat) : (m.addPairSat lo n).sec = m.sec := rfl
@[simp] theorem addPairSat_xfer (m : Mach) (lo n : Nat) : (m.addPairSat lo n).xfer = m.xfer := rfl
@[simp] theorem addPairSat_otp (m : Mach) (lo n : Nat) : (m.addPairSat lo n).otp = m.otp := rfl
@[simp] theorem addPairSat_nand (m : Mach) (lo n : Nat) : (m.addPairSat lo n).nand = m.nand := rfl
@[simp] theorem addPairSat_finals (m : Mach) (lo n : Nat) : (m.addPairSat lo n).finals = m.finals := rfl
@[simp] theorem addPairSat_evt (m : Mach) (lo n : Nat) : (m.addPairSat lo n).evt = m.evt := rfl
@[simp] theorem addPairSat_hst (m : Mach) (lo n : Nat) : (m.addPairSat lo n).hst = m.hst := rfl
@[simp] theorem addPairSat_chn (m : Mach) (lo n : Nat) : (m.addPairSat lo n).chn = m.chn := rfl
@[simp] theorem addPairSat_stn (m : Mach) (lo n : Nat) : (m.addPairSat lo n).stn = m.stn := rfl
@[simp] theorem addPairSat_dtm (m : Mach) (lo n : Nat) : (m.addPairSat lo n).dtm = m.dtm := rfl
@[simp] theorem addPairSat_eth (m : Mach) (lo n : Nat) : (m.addPairSat lo n).eth = m.eth := rfl
@[simp] theorem addPairSat_vgp (m : Mach) (lo n : Nat) : (m.addPairSat lo n).vgp = m.vgp := rfl
@[simp] theorem addPairSat_cmp (m : Mach) (lo n : Nat) : (m.addPairSat lo n).cmp = m.cmp := rfl
@[simp] theorem addPairSat_epo (m : Mach) (lo n : Nat) : (m.addPairSat lo n).epo = m.epo := rfl
@[simp] theorem addPairSat_trv (m : Mach) (lo n : Nat) : (m.addPairSat lo n).trv = m.trv := rfl
@[simp] theorem addPairSat_fgd (m : Mach) (lo n : Nat) : (m.addPairSat lo n).fgd = m.fgd := rfl
@[simp] theorem addPairSat_skx (m : Mach) (lo n : Nat) : (m.addPairSat lo n).skx = m.skx := rfl
@[simp] theorem addPairSat_cam (m : Mach) (lo n : Nat) : (m.addPairSat lo n).cam = m.cam := rfl
@[simp] theorem addPairSat_cls (m : Mach) (lo n : Nat) : (m.addPairSat lo n).cls = m.cls := rfl
@[simp] theorem addPairSat_drm (m : Mach) (lo n : Nat) : (m.addPairSat lo n).drm = m.drm := rfl
@[simp] theorem addPairSat_mot (m : Mach) (lo n : Nat) : (m.addPairSat lo n).mot = m.mot := rfl
@[simp] theorem addPairSat_thm (m : Mach) (lo n : Nat) : (m.addPairSat lo n).thm = m.thm := rfl
@[simp] theorem addPairSat_pwr (m : Mach) (lo n : Nat) : (m.addPairSat lo n).pwr = m.pwr := rfl
@[simp] theorem addPairSat_cal (m : Mach) (lo n : Nat) : (m.addPairSat lo n).cal = m.cal := rfl
@[simp] theorem addPairSat_ptn (m : Mach) (lo n : Nat) : (m.addPairSat lo n).ptn = m.ptn := rfl
@[simp] theorem addPairSat_loStage (m : Mach) (lo n : Nat) : (m.addPairSat lo n).loStage = m.loStage := rfl
@[simp] theorem addPairSat_hiLatch (m : Mach) (lo n : Nat) : (m.addPairSat lo n).hiLatch = m.hiLatch := rfl
@[simp] theorem addPairSat_dram (m : Mach) (lo n : Nat) : (m.addPairSat lo n).dram = m.dram := rfl
@[simp] theorem addPairSat_out (m : Mach) (lo n : Nat) : (m.addPairSat lo n).out = m.out := rfl

/-! ### Mach.checked -/

@[simp] theorem checked_glb (m : Mach) (unit n bad : Nat) : (m.checked unit n bad).glb = m.glb := rfl
@[simp] theorem checked_sec (m : Mach) (unit n bad : Nat) : (m.checked unit n bad).sec = m.sec := rfl
@[simp] theorem checked_xfer (m : Mach) (unit n bad : Nat) : (m.checked unit n bad).xfer = m.xfer := rfl
@[simp] theorem checked_otp (m : Mach) (unit n bad : Nat) : (m.checked unit n bad).otp = m.otp := rfl
@[simp] theorem checked_nand (m : Mach) (unit n bad : Nat) : (m.checked unit n bad).nand = m.nand := rfl
@[simp] theorem checked_finals (m : Mach) (unit n bad : Nat) : (m.checked unit n bad).finals = m.finals := rfl
@[simp] theorem checked_evt (m : Mach) (unit n bad : Nat) : (m.checked unit n bad).evt = m.evt := rfl
@[simp] theorem checked_hst (m : Mach) (unit n bad : Nat) : (m.checked unit n bad).hst = m.hst := rfl
@[simp] theorem checked_chn (m : Mach) (unit n bad : Nat) : (m.checked unit n bad).chn = m.chn := rfl
@[simp] theorem checked_stn (m : Mach) (unit n bad : Nat) : (m.checked unit n bad).stn = m.stn := rfl
@[simp] theorem checked_dtm (m : Mach) (unit n bad : Nat) : (m.checked unit n bad).dtm = m.dtm := rfl
@[simp] theorem checked_eth (m : Mach) (unit n bad : Nat) : (m.checked unit n bad).eth = m.eth := rfl
@[simp] theorem checked_vgp (m : Mach) (unit n bad : Nat) : (m.checked unit n bad).vgp = m.vgp := rfl
@[simp] theorem checked_cmp (m : Mach) (unit n bad : Nat) : (m.checked unit n bad).cmp = m.cmp := rfl
@[simp] theorem checked_epo (m : Mach) (unit n bad : Nat) : (m.checked unit n bad).epo = m.epo := rfl
@[simp] theorem checked_trv (m : Mach) (unit n bad : Nat) : (m.checked unit n bad).trv = m.trv := rfl
@[simp] theorem checked_fgd (m : Mach) (unit n bad : Nat) : (m.checked unit n bad).fgd = m.fgd := rfl
@[simp] theorem checked_skx (m : Mach) (unit n bad : Nat) : (m.checked unit n bad).skx = m.skx := rfl
@[simp] theorem checked_cam (m : Mach) (unit n bad : Nat) : (m.checked unit n bad).cam = m.cam := rfl
@[simp] theorem checked_cls (m : Mach) (unit n bad : Nat) : (m.checked unit n bad).cls = m.cls := rfl
@[simp] theorem checked_drm (m : Mach) (unit n bad : Nat) : (m.checked unit n bad).drm = m.drm := rfl
@[simp] theorem checked_mot (m : Mach) (unit n bad : Nat) : (m.checked unit n bad).mot = m.mot := rfl
@[simp] theorem checked_thm (m : Mach) (unit n bad : Nat) : (m.checked unit n bad).thm = m.thm := rfl
@[simp] theorem checked_pwr (m : Mach) (unit n bad : Nat) : (m.checked unit n bad).pwr = m.pwr := rfl
@[simp] theorem checked_cal (m : Mach) (unit n bad : Nat) : (m.checked unit n bad).cal = m.cal := rfl
@[simp] theorem checked_ptn (m : Mach) (unit n bad : Nat) : (m.checked unit n bad).ptn = m.ptn := rfl
@[simp] theorem checked_loStage (m : Mach) (unit n bad : Nat) : (m.checked unit n bad).loStage = m.loStage := rfl
@[simp] theorem checked_hiLatch (m : Mach) (unit n bad : Nat) : (m.checked unit n bad).hiLatch = m.hiLatch := rfl
@[simp] theorem checked_dram (m : Mach) (unit n bad : Nat) : (m.checked unit n bad).dram = m.dram := rfl
@[simp] theorem checked_out (m : Mach) (unit n bad : Nat) : (m.checked unit n bad).out = m.out := rfl

/-! ### Mach.countDiscard -/

@[simp] theorem countDiscard_sec (m : Mach) : (m.countDiscard).sec = m.sec := rfl
@[simp] theorem countDiscard_xfer (m : Mach) : (m.countDiscard).xfer = m.xfer := rfl
@[simp] theorem countDiscard_otp (m : Mach) : (m.countDiscard).otp = m.otp := rfl
@[simp] theorem countDiscard_nand (m : Mach) : (m.countDiscard).nand = m.nand := rfl
@[simp] theorem countDiscard_finals (m : Mach) : (m.countDiscard).finals = m.finals := rfl
@[simp] theorem countDiscard_evt (m : Mach) : (m.countDiscard).evt = m.evt := rfl
@[simp] theorem countDiscard_hst (m : Mach) : (m.countDiscard).hst = m.hst := rfl
@[simp] theorem countDiscard_chn (m : Mach) : (m.countDiscard).chn = m.chn := rfl
@[simp] theorem countDiscard_stn (m : Mach) : (m.countDiscard).stn = m.stn := rfl
@[simp] theorem countDiscard_dtm (m : Mach) : (m.countDiscard).dtm = m.dtm := rfl
@[simp] theorem countDiscard_eth (m : Mach) : (m.countDiscard).eth = m.eth := rfl
@[simp] theorem countDiscard_vgp (m : Mach) : (m.countDiscard).vgp = m.vgp := rfl
@[simp] theorem countDiscard_cmp (m : Mach) : (m.countDiscard).cmp = m.cmp := rfl
@[simp] theorem countDiscard_epo (m : Mach) : (m.countDiscard).epo = m.epo := rfl
@[simp] theorem countDiscard_trv (m : Mach) : (m.countDiscard).trv = m.trv := rfl
@[simp] theorem countDiscard_fgd (m : Mach) : (m.countDiscard).fgd = m.fgd := rfl
@[simp] theorem countDiscard_skx (m : Mach) : (m.countDiscard).skx = m.skx := rfl
@[simp] theorem countDiscard_cam (m : Mach) : (m.countDiscard).cam = m.cam := rfl
@[simp] theorem countDiscard_cls (m : Mach) : (m.countDiscard).cls = m.cls := rfl
@[simp] theorem countDiscard_drm (m : Mach) : (m.countDiscard).drm = m.drm := rfl
@[simp] theorem countDiscard_mot (m : Mach) : (m.countDiscard).mot = m.mot := rfl
@[simp] theorem countDiscard_thm (m : Mach) : (m.countDiscard).thm = m.thm := rfl
@[simp] theorem countDiscard_pwr (m : Mach) : (m.countDiscard).pwr = m.pwr := rfl
@[simp] theorem countDiscard_cal (m : Mach) : (m.countDiscard).cal = m.cal := rfl
@[simp] theorem countDiscard_ptn (m : Mach) : (m.countDiscard).ptn = m.ptn := rfl
@[simp] theorem countDiscard_regs (m : Mach) : (m.countDiscard).regs = m.regs := rfl
@[simp] theorem countDiscard_loStage (m : Mach) : (m.countDiscard).loStage = m.loStage := rfl
@[simp] theorem countDiscard_hiLatch (m : Mach) : (m.countDiscard).hiLatch = m.hiLatch := rfl
@[simp] theorem countDiscard_dram (m : Mach) : (m.countDiscard).dram = m.dram := rfl
@[simp] theorem countDiscard_out (m : Mach) : (m.countDiscard).out = m.out := rfl

/-! ### Mach.setRing -/

@[simp] theorem setRing_glb (m : Mach) (r : Nat) (x : Ring) : (m.setRing r x).glb = m.glb := rfl
@[simp] theorem setRing_sec (m : Mach) (r : Nat) (x : Ring) : (m.setRing r x).sec = m.sec := rfl
@[simp] theorem setRing_xfer (m : Mach) (r : Nat) (x : Ring) : (m.setRing r x).xfer = m.xfer := rfl
@[simp] theorem setRing_otp (m : Mach) (r : Nat) (x : Ring) : (m.setRing r x).otp = m.otp := rfl
@[simp] theorem setRing_nand (m : Mach) (r : Nat) (x : Ring) : (m.setRing r x).nand = m.nand := rfl
@[simp] theorem setRing_finals (m : Mach) (r : Nat) (x : Ring) : (m.setRing r x).finals = m.finals := rfl
@[simp] theorem setRing_evt (m : Mach) (r : Nat) (x : Ring) : (m.setRing r x).evt = m.evt := rfl
@[simp] theorem setRing_chn (m : Mach) (r : Nat) (x : Ring) : (m.setRing r x).chn = m.chn := rfl
@[simp] theorem setRing_stn (m : Mach) (r : Nat) (x : Ring) : (m.setRing r x).stn = m.stn := rfl
@[simp] theorem setRing_dtm (m : Mach) (r : Nat) (x : Ring) : (m.setRing r x).dtm = m.dtm := rfl
@[simp] theorem setRing_eth (m : Mach) (r : Nat) (x : Ring) : (m.setRing r x).eth = m.eth := rfl
@[simp] theorem setRing_vgp (m : Mach) (r : Nat) (x : Ring) : (m.setRing r x).vgp = m.vgp := rfl
@[simp] theorem setRing_cmp (m : Mach) (r : Nat) (x : Ring) : (m.setRing r x).cmp = m.cmp := rfl
@[simp] theorem setRing_epo (m : Mach) (r : Nat) (x : Ring) : (m.setRing r x).epo = m.epo := rfl
@[simp] theorem setRing_trv (m : Mach) (r : Nat) (x : Ring) : (m.setRing r x).trv = m.trv := rfl
@[simp] theorem setRing_fgd (m : Mach) (r : Nat) (x : Ring) : (m.setRing r x).fgd = m.fgd := rfl
@[simp] theorem setRing_skx (m : Mach) (r : Nat) (x : Ring) : (m.setRing r x).skx = m.skx := rfl
@[simp] theorem setRing_cam (m : Mach) (r : Nat) (x : Ring) : (m.setRing r x).cam = m.cam := rfl
@[simp] theorem setRing_cls (m : Mach) (r : Nat) (x : Ring) : (m.setRing r x).cls = m.cls := rfl
@[simp] theorem setRing_drm (m : Mach) (r : Nat) (x : Ring) : (m.setRing r x).drm = m.drm := rfl
@[simp] theorem setRing_mot (m : Mach) (r : Nat) (x : Ring) : (m.setRing r x).mot = m.mot := rfl
@[simp] theorem setRing_thm (m : Mach) (r : Nat) (x : Ring) : (m.setRing r x).thm = m.thm := rfl
@[simp] theorem setRing_pwr (m : Mach) (r : Nat) (x : Ring) : (m.setRing r x).pwr = m.pwr := rfl
@[simp] theorem setRing_cal (m : Mach) (r : Nat) (x : Ring) : (m.setRing r x).cal = m.cal := rfl
@[simp] theorem setRing_ptn (m : Mach) (r : Nat) (x : Ring) : (m.setRing r x).ptn = m.ptn := rfl
@[simp] theorem setRing_regs (m : Mach) (r : Nat) (x : Ring) : (m.setRing r x).regs = m.regs := rfl
@[simp] theorem setRing_loStage (m : Mach) (r : Nat) (x : Ring) : (m.setRing r x).loStage = m.loStage := rfl
@[simp] theorem setRing_hiLatch (m : Mach) (r : Nat) (x : Ring) : (m.setRing r x).hiLatch = m.hiLatch := rfl
@[simp] theorem setRing_dram (m : Mach) (r : Nat) (x : Ring) : (m.setRing r x).dram = m.dram := rfl
@[simp] theorem setRing_out (m : Mach) (r : Nat) (x : Ring) : (m.setRing r x).out = m.out := rfl

/-! ### Mach.dramWrite -/

@[simp] theorem dramWrite_glb (m : Mach) (a : Nat) (l : List Byte) : (m.dramWrite a l).glb = m.glb := rfl
@[simp] theorem dramWrite_sec (m : Mach) (a : Nat) (l : List Byte) : (m.dramWrite a l).sec = m.sec := rfl
@[simp] theorem dramWrite_xfer (m : Mach) (a : Nat) (l : List Byte) : (m.dramWrite a l).xfer = m.xfer := rfl
@[simp] theorem dramWrite_otp (m : Mach) (a : Nat) (l : List Byte) : (m.dramWrite a l).otp = m.otp := rfl
@[simp] theorem dramWrite_nand (m : Mach) (a : Nat) (l : List Byte) : (m.dramWrite a l).nand = m.nand := rfl
@[simp] theorem dramWrite_finals (m : Mach) (a : Nat) (l : List Byte) : (m.dramWrite a l).finals = m.finals := rfl
@[simp] theorem dramWrite_evt (m : Mach) (a : Nat) (l : List Byte) : (m.dramWrite a l).evt = m.evt := rfl
@[simp] theorem dramWrite_hst (m : Mach) (a : Nat) (l : List Byte) : (m.dramWrite a l).hst = m.hst := rfl
@[simp] theorem dramWrite_chn (m : Mach) (a : Nat) (l : List Byte) : (m.dramWrite a l).chn = m.chn := rfl
@[simp] theorem dramWrite_stn (m : Mach) (a : Nat) (l : List Byte) : (m.dramWrite a l).stn = m.stn := rfl
@[simp] theorem dramWrite_dtm (m : Mach) (a : Nat) (l : List Byte) : (m.dramWrite a l).dtm = m.dtm := rfl
@[simp] theorem dramWrite_eth (m : Mach) (a : Nat) (l : List Byte) : (m.dramWrite a l).eth = m.eth := rfl
@[simp] theorem dramWrite_vgp (m : Mach) (a : Nat) (l : List Byte) : (m.dramWrite a l).vgp = m.vgp := rfl
@[simp] theorem dramWrite_cmp (m : Mach) (a : Nat) (l : List Byte) : (m.dramWrite a l).cmp = m.cmp := rfl
@[simp] theorem dramWrite_epo (m : Mach) (a : Nat) (l : List Byte) : (m.dramWrite a l).epo = m.epo := rfl
@[simp] theorem dramWrite_trv (m : Mach) (a : Nat) (l : List Byte) : (m.dramWrite a l).trv = m.trv := rfl
@[simp] theorem dramWrite_fgd (m : Mach) (a : Nat) (l : List Byte) : (m.dramWrite a l).fgd = m.fgd := rfl
@[simp] theorem dramWrite_skx (m : Mach) (a : Nat) (l : List Byte) : (m.dramWrite a l).skx = m.skx := rfl
@[simp] theorem dramWrite_cam (m : Mach) (a : Nat) (l : List Byte) : (m.dramWrite a l).cam = m.cam := rfl
@[simp] theorem dramWrite_cls (m : Mach) (a : Nat) (l : List Byte) : (m.dramWrite a l).cls = m.cls := rfl
@[simp] theorem dramWrite_drm (m : Mach) (a : Nat) (l : List Byte) : (m.dramWrite a l).drm = m.drm := rfl
@[simp] theorem dramWrite_mot (m : Mach) (a : Nat) (l : List Byte) : (m.dramWrite a l).mot = m.mot := rfl
@[simp] theorem dramWrite_thm (m : Mach) (a : Nat) (l : List Byte) : (m.dramWrite a l).thm = m.thm := rfl
@[simp] theorem dramWrite_pwr (m : Mach) (a : Nat) (l : List Byte) : (m.dramWrite a l).pwr = m.pwr := rfl
@[simp] theorem dramWrite_cal (m : Mach) (a : Nat) (l : List Byte) : (m.dramWrite a l).cal = m.cal := rfl
@[simp] theorem dramWrite_ptn (m : Mach) (a : Nat) (l : List Byte) : (m.dramWrite a l).ptn = m.ptn := rfl
@[simp] theorem dramWrite_regs (m : Mach) (a : Nat) (l : List Byte) : (m.dramWrite a l).regs = m.regs := rfl
@[simp] theorem dramWrite_loStage (m : Mach) (a : Nat) (l : List Byte) : (m.dramWrite a l).loStage = m.loStage := rfl
@[simp] theorem dramWrite_hiLatch (m : Mach) (a : Nat) (l : List Byte) : (m.dramWrite a l).hiLatch = m.hiLatch := rfl
@[simp] theorem dramWrite_out (m : Mach) (a : Nat) (l : List Byte) : (m.dramWrite a l).out = m.out := rfl

/-! ### Mach.emit -/

@[simp] theorem emit_glb (m : Mach) (o : Output) : (m.emit o).glb = m.glb := by unfold Mach.emit; split <;> rfl
@[simp] theorem emit_sec (m : Mach) (o : Output) : (m.emit o).sec = m.sec := by unfold Mach.emit; split <;> rfl
@[simp] theorem emit_xfer (m : Mach) (o : Output) : (m.emit o).xfer = m.xfer := by unfold Mach.emit; split <;> rfl
@[simp] theorem emit_otp (m : Mach) (o : Output) : (m.emit o).otp = m.otp := by unfold Mach.emit; split <;> rfl
@[simp] theorem emit_nand (m : Mach) (o : Output) : (m.emit o).nand = m.nand := by unfold Mach.emit; split <;> rfl
@[simp] theorem emit_finals (m : Mach) (o : Output) : (m.emit o).finals = m.finals := by unfold Mach.emit; split <;> rfl
@[simp] theorem emit_evt (m : Mach) (o : Output) : (m.emit o).evt = m.evt := by unfold Mach.emit; split <;> rfl
@[simp] theorem emit_hst (m : Mach) (o : Output) : (m.emit o).hst = m.hst := by unfold Mach.emit; split <;> rfl
@[simp] theorem emit_chn (m : Mach) (o : Output) : (m.emit o).chn = m.chn := by unfold Mach.emit; split <;> rfl
@[simp] theorem emit_stn (m : Mach) (o : Output) : (m.emit o).stn = m.stn := by unfold Mach.emit; split <;> rfl
@[simp] theorem emit_dtm (m : Mach) (o : Output) : (m.emit o).dtm = m.dtm := by unfold Mach.emit; split <;> rfl
@[simp] theorem emit_eth (m : Mach) (o : Output) : (m.emit o).eth = m.eth := by unfold Mach.emit; split <;> rfl
@[simp] theorem emit_vgp (m : Mach) (o : Output) : (m.emit o).vgp = m.vgp := by unfold Mach.emit; split <;> rfl
@[simp] theorem emit_cmp (m : Mach) (o : Output) : (m.emit o).cmp = m.cmp := by unfold Mach.emit; split <;> rfl
@[simp] theorem emit_epo (m : Mach) (o : Output) : (m.emit o).epo = m.epo := by unfold Mach.emit; split <;> rfl
@[simp] theorem emit_trv (m : Mach) (o : Output) : (m.emit o).trv = m.trv := by unfold Mach.emit; split <;> rfl
@[simp] theorem emit_fgd (m : Mach) (o : Output) : (m.emit o).fgd = m.fgd := by unfold Mach.emit; split <;> rfl
@[simp] theorem emit_skx (m : Mach) (o : Output) : (m.emit o).skx = m.skx := by unfold Mach.emit; split <;> rfl
@[simp] theorem emit_cam (m : Mach) (o : Output) : (m.emit o).cam = m.cam := by unfold Mach.emit; split <;> rfl
@[simp] theorem emit_cls (m : Mach) (o : Output) : (m.emit o).cls = m.cls := by unfold Mach.emit; split <;> rfl
@[simp] theorem emit_drm (m : Mach) (o : Output) : (m.emit o).drm = m.drm := by unfold Mach.emit; split <;> rfl
@[simp] theorem emit_mot (m : Mach) (o : Output) : (m.emit o).mot = m.mot := by unfold Mach.emit; split <;> rfl
@[simp] theorem emit_thm (m : Mach) (o : Output) : (m.emit o).thm = m.thm := by unfold Mach.emit; split <;> rfl
@[simp] theorem emit_pwr (m : Mach) (o : Output) : (m.emit o).pwr = m.pwr := by unfold Mach.emit; split <;> rfl
@[simp] theorem emit_cal (m : Mach) (o : Output) : (m.emit o).cal = m.cal := by unfold Mach.emit; split <;> rfl
@[simp] theorem emit_ptn (m : Mach) (o : Output) : (m.emit o).ptn = m.ptn := by unfold Mach.emit; split <;> rfl
@[simp] theorem emit_regs (m : Mach) (o : Output) : (m.emit o).regs = m.regs := by unfold Mach.emit; split <;> rfl
@[simp] theorem emit_loStage (m : Mach) (o : Output) : (m.emit o).loStage = m.loStage := by unfold Mach.emit; split <;> rfl
@[simp] theorem emit_hiLatch (m : Mach) (o : Output) : (m.emit o).hiLatch = m.hiLatch := by unfold Mach.emit; split <;> rfl
@[simp] theorem emit_dram (m : Mach) (o : Output) : (m.emit o).dram = m.dram := by unfold Mach.emit; split <;> rfl

/-! ### Mach.addRec -/

@[simp] theorem addRec_glb (m : Mach) (r : Rec) : (m.addRec r).glb = m.glb := by unfold Mach.addRec; dsimp only; split <;> rfl
@[simp] theorem addRec_sec (m : Mach) (r : Rec) : (m.addRec r).sec = m.sec := by unfold Mach.addRec; dsimp only; split <;> rfl
@[simp] theorem addRec_xfer (m : Mach) (r : Rec) : (m.addRec r).xfer = m.xfer := by unfold Mach.addRec; dsimp only; split <;> rfl
@[simp] theorem addRec_otp (m : Mach) (r : Rec) : (m.addRec r).otp = m.otp := by unfold Mach.addRec; dsimp only; split <;> rfl
@[simp] theorem addRec_nand (m : Mach) (r : Rec) : (m.addRec r).nand = m.nand := by unfold Mach.addRec; dsimp only; split <;> rfl
@[simp] theorem addRec_finals (m : Mach) (r : Rec) : (m.addRec r).finals = m.finals := by unfold Mach.addRec; dsimp only; split <;> rfl
@[simp] theorem addRec_hst (m : Mach) (r : Rec) : (m.addRec r).hst = m.hst := by unfold Mach.addRec; dsimp only; split <;> rfl
@[simp] theorem addRec_chn (m : Mach) (r : Rec) : (m.addRec r).chn = m.chn := by unfold Mach.addRec; dsimp only; split <;> rfl
@[simp] theorem addRec_stn (m : Mach) (r : Rec) : (m.addRec r).stn = m.stn := by unfold Mach.addRec; dsimp only; split <;> rfl
@[simp] theorem addRec_dtm (m : Mach) (r : Rec) : (m.addRec r).dtm = m.dtm := by unfold Mach.addRec; dsimp only; split <;> rfl
@[simp] theorem addRec_eth (m : Mach) (r : Rec) : (m.addRec r).eth = m.eth := by unfold Mach.addRec; dsimp only; split <;> rfl
@[simp] theorem addRec_vgp (m : Mach) (r : Rec) : (m.addRec r).vgp = m.vgp := by unfold Mach.addRec; dsimp only; split <;> rfl
@[simp] theorem addRec_cmp (m : Mach) (r : Rec) : (m.addRec r).cmp = m.cmp := by unfold Mach.addRec; dsimp only; split <;> rfl
@[simp] theorem addRec_epo (m : Mach) (r : Rec) : (m.addRec r).epo = m.epo := by unfold Mach.addRec; dsimp only; split <;> rfl
@[simp] theorem addRec_trv (m : Mach) (r : Rec) : (m.addRec r).trv = m.trv := by unfold Mach.addRec; dsimp only; split <;> rfl
@[simp] theorem addRec_fgd (m : Mach) (r : Rec) : (m.addRec r).fgd = m.fgd := by unfold Mach.addRec; dsimp only; split <;> rfl
@[simp] theorem addRec_skx (m : Mach) (r : Rec) : (m.addRec r).skx = m.skx := by unfold Mach.addRec; dsimp only; split <;> rfl
@[simp] theorem addRec_cam (m : Mach) (r : Rec) : (m.addRec r).cam = m.cam := by unfold Mach.addRec; dsimp only; split <;> rfl
@[simp] theorem addRec_cls (m : Mach) (r : Rec) : (m.addRec r).cls = m.cls := by unfold Mach.addRec; dsimp only; split <;> rfl
@[simp] theorem addRec_drm (m : Mach) (r : Rec) : (m.addRec r).drm = m.drm := by unfold Mach.addRec; dsimp only; split <;> rfl
@[simp] theorem addRec_mot (m : Mach) (r : Rec) : (m.addRec r).mot = m.mot := by unfold Mach.addRec; dsimp only; split <;> rfl
@[simp] theorem addRec_thm (m : Mach) (r : Rec) : (m.addRec r).thm = m.thm := by unfold Mach.addRec; dsimp only; split <;> rfl
@[simp] theorem addRec_pwr (m : Mach) (r : Rec) : (m.addRec r).pwr = m.pwr := by unfold Mach.addRec; dsimp only; split <;> rfl
@[simp] theorem addRec_cal (m : Mach) (r : Rec) : (m.addRec r).cal = m.cal := by unfold Mach.addRec; dsimp only; split <;> rfl
@[simp] theorem addRec_ptn (m : Mach) (r : Rec) : (m.addRec r).ptn = m.ptn := by unfold Mach.addRec; dsimp only; split <;> rfl
@[simp] theorem addRec_loStage (m : Mach) (r : Rec) : (m.addRec r).loStage = m.loStage := by unfold Mach.addRec; dsimp only; split <;> rfl
@[simp] theorem addRec_hiLatch (m : Mach) (r : Rec) : (m.addRec r).hiLatch = m.hiLatch := by unfold Mach.addRec; dsimp only; split <;> rfl
@[simp] theorem addRec_dram (m : Mach) (r : Rec) : (m.addRec r).dram = m.dram := by unfold Mach.addRec; dsimp only; split <;> rfl
@[simp] theorem addRec_out (m : Mach) (r : Rec) : (m.addRec r).out = m.out := by unfold Mach.addRec; dsimp only; split <;> rfl

/-! ### Mach.raiseAt -/

@[simp] theorem raiseAt_glb (m : Mach) (e : Ev) (c : Chainage) (v : Sev) (a b : Nat) : (m.raiseAt e c v a b).glb = m.glb := by simp [Mach.raiseAt]
@[simp] theorem raiseAt_sec (m : Mach) (e : Ev) (c : Chainage) (v : Sev) (a b : Nat) : (m.raiseAt e c v a b).sec = m.sec := by simp [Mach.raiseAt]
@[simp] theorem raiseAt_xfer (m : Mach) (e : Ev) (c : Chainage) (v : Sev) (a b : Nat) : (m.raiseAt e c v a b).xfer = m.xfer := by simp [Mach.raiseAt]
@[simp] theorem raiseAt_otp (m : Mach) (e : Ev) (c : Chainage) (v : Sev) (a b : Nat) : (m.raiseAt e c v a b).otp = m.otp := by simp [Mach.raiseAt]
@[simp] theorem raiseAt_nand (m : Mach) (e : Ev) (c : Chainage) (v : Sev) (a b : Nat) : (m.raiseAt e c v a b).nand = m.nand := by simp [Mach.raiseAt]
@[simp] theorem raiseAt_finals (m : Mach) (e : Ev) (c : Chainage) (v : Sev) (a b : Nat) : (m.raiseAt e c v a b).finals = m.finals := by simp [Mach.raiseAt]
@[simp] theorem raiseAt_hst (m : Mach) (e : Ev) (c : Chainage) (v : Sev) (a b : Nat) : (m.raiseAt e c v a b).hst = m.hst := by simp [Mach.raiseAt]
@[simp] theorem raiseAt_chn (m : Mach) (e : Ev) (c : Chainage) (v : Sev) (a b : Nat) : (m.raiseAt e c v a b).chn = m.chn := by simp [Mach.raiseAt]
@[simp] theorem raiseAt_stn (m : Mach) (e : Ev) (c : Chainage) (v : Sev) (a b : Nat) : (m.raiseAt e c v a b).stn = m.stn := by simp [Mach.raiseAt]
@[simp] theorem raiseAt_dtm (m : Mach) (e : Ev) (c : Chainage) (v : Sev) (a b : Nat) : (m.raiseAt e c v a b).dtm = m.dtm := by simp [Mach.raiseAt]
@[simp] theorem raiseAt_eth (m : Mach) (e : Ev) (c : Chainage) (v : Sev) (a b : Nat) : (m.raiseAt e c v a b).eth = m.eth := by simp [Mach.raiseAt]
@[simp] theorem raiseAt_vgp (m : Mach) (e : Ev) (c : Chainage) (v : Sev) (a b : Nat) : (m.raiseAt e c v a b).vgp = m.vgp := by simp [Mach.raiseAt]
@[simp] theorem raiseAt_cmp (m : Mach) (e : Ev) (c : Chainage) (v : Sev) (a b : Nat) : (m.raiseAt e c v a b).cmp = m.cmp := by simp [Mach.raiseAt]
@[simp] theorem raiseAt_epo (m : Mach) (e : Ev) (c : Chainage) (v : Sev) (a b : Nat) : (m.raiseAt e c v a b).epo = m.epo := by simp [Mach.raiseAt]
@[simp] theorem raiseAt_trv (m : Mach) (e : Ev) (c : Chainage) (v : Sev) (a b : Nat) : (m.raiseAt e c v a b).trv = m.trv := by simp [Mach.raiseAt]
@[simp] theorem raiseAt_fgd (m : Mach) (e : Ev) (c : Chainage) (v : Sev) (a b : Nat) : (m.raiseAt e c v a b).fgd = m.fgd := by simp [Mach.raiseAt]
@[simp] theorem raiseAt_skx (m : Mach) (e : Ev) (c : Chainage) (v : Sev) (a b : Nat) : (m.raiseAt e c v a b).skx = m.skx := by simp [Mach.raiseAt]
@[simp] theorem raiseAt_cam (m : Mach) (e : Ev) (c : Chainage) (v : Sev) (a b : Nat) : (m.raiseAt e c v a b).cam = m.cam := by simp [Mach.raiseAt]
@[simp] theorem raiseAt_cls (m : Mach) (e : Ev) (c : Chainage) (v : Sev) (a b : Nat) : (m.raiseAt e c v a b).cls = m.cls := by simp [Mach.raiseAt]
@[simp] theorem raiseAt_drm (m : Mach) (e : Ev) (c : Chainage) (v : Sev) (a b : Nat) : (m.raiseAt e c v a b).drm = m.drm := by simp [Mach.raiseAt]
@[simp] theorem raiseAt_mot (m : Mach) (e : Ev) (c : Chainage) (v : Sev) (a b : Nat) : (m.raiseAt e c v a b).mot = m.mot := by simp [Mach.raiseAt]
@[simp] theorem raiseAt_thm (m : Mach) (e : Ev) (c : Chainage) (v : Sev) (a b : Nat) : (m.raiseAt e c v a b).thm = m.thm := by simp [Mach.raiseAt]
@[simp] theorem raiseAt_pwr (m : Mach) (e : Ev) (c : Chainage) (v : Sev) (a b : Nat) : (m.raiseAt e c v a b).pwr = m.pwr := by simp [Mach.raiseAt]
@[simp] theorem raiseAt_cal (m : Mach) (e : Ev) (c : Chainage) (v : Sev) (a b : Nat) : (m.raiseAt e c v a b).cal = m.cal := by simp [Mach.raiseAt]
@[simp] theorem raiseAt_ptn (m : Mach) (e : Ev) (c : Chainage) (v : Sev) (a b : Nat) : (m.raiseAt e c v a b).ptn = m.ptn := by simp [Mach.raiseAt]
@[simp] theorem raiseAt_loStage (m : Mach) (e : Ev) (c : Chainage) (v : Sev) (a b : Nat) : (m.raiseAt e c v a b).loStage = m.loStage := by simp [Mach.raiseAt]
@[simp] theorem raiseAt_hiLatch (m : Mach) (e : Ev) (c : Chainage) (v : Sev) (a b : Nat) : (m.raiseAt e c v a b).hiLatch = m.hiLatch := by simp [Mach.raiseAt]
@[simp] theorem raiseAt_dram (m : Mach) (e : Ev) (c : Chainage) (v : Sev) (a b : Nat) : (m.raiseAt e c v a b).dram = m.dram := by simp [Mach.raiseAt]
@[simp] theorem raiseAt_out (m : Mach) (e : Ev) (c : Chainage) (v : Sev) (a b : Nat) : (m.raiseAt e c v a b).out = m.out := by simp [Mach.raiseAt]

/-! ### Mach.raise -/

@[simp] theorem raise_glb (m : Mach) (e : Ev) (v : Sev) (a b : Nat) : (m.raise e v a b).glb = m.glb := by simp [Mach.raise]
@[simp] theorem raise_sec (m : Mach) (e : Ev) (v : Sev) (a b : Nat) : (m.raise e v a b).sec = m.sec := by simp [Mach.raise]
@[simp] theorem raise_xfer (m : Mach) (e : Ev) (v : Sev) (a b : Nat) : (m.raise e v a b).xfer = m.xfer := by simp [Mach.raise]
@[simp] theorem raise_otp (m : Mach) (e : Ev) (v : Sev) (a b : Nat) : (m.raise e v a b).otp = m.otp := by simp [Mach.raise]
@[simp] theorem raise_nand (m : Mach) (e : Ev) (v : Sev) (a b : Nat) : (m.raise e v a b).nand = m.nand := by simp [Mach.raise]
@[simp] theorem raise_finals (m : Mach) (e : Ev) (v : Sev) (a b : Nat) : (m.raise e v a b).finals = m.finals := by simp [Mach.raise]
@[simp] theorem raise_hst (m : Mach) (e : Ev) (v : Sev) (a b : Nat) : (m.raise e v a b).hst = m.hst := by simp [Mach.raise]
@[simp] theorem raise_chn (m : Mach) (e : Ev) (v : Sev) (a b : Nat) : (m.raise e v a b).chn = m.chn := by simp [Mach.raise]
@[simp] theorem raise_stn (m : Mach) (e : Ev) (v : Sev) (a b : Nat) : (m.raise e v a b).stn = m.stn := by simp [Mach.raise]
@[simp] theorem raise_dtm (m : Mach) (e : Ev) (v : Sev) (a b : Nat) : (m.raise e v a b).dtm = m.dtm := by simp [Mach.raise]
@[simp] theorem raise_eth (m : Mach) (e : Ev) (v : Sev) (a b : Nat) : (m.raise e v a b).eth = m.eth := by simp [Mach.raise]
@[simp] theorem raise_vgp (m : Mach) (e : Ev) (v : Sev) (a b : Nat) : (m.raise e v a b).vgp = m.vgp := by simp [Mach.raise]
@[simp] theorem raise_cmp (m : Mach) (e : Ev) (v : Sev) (a b : Nat) : (m.raise e v a b).cmp = m.cmp := by simp [Mach.raise]
@[simp] theorem raise_epo (m : Mach) (e : Ev) (v : Sev) (a b : Nat) : (m.raise e v a b).epo = m.epo := by simp [Mach.raise]
@[simp] theorem raise_trv (m : Mach) (e : Ev) (v : Sev) (a b : Nat) : (m.raise e v a b).trv = m.trv := by simp [Mach.raise]
@[simp] theorem raise_fgd (m : Mach) (e : Ev) (v : Sev) (a b : Nat) : (m.raise e v a b).fgd = m.fgd := by simp [Mach.raise]
@[simp] theorem raise_skx (m : Mach) (e : Ev) (v : Sev) (a b : Nat) : (m.raise e v a b).skx = m.skx := by simp [Mach.raise]
@[simp] theorem raise_cam (m : Mach) (e : Ev) (v : Sev) (a b : Nat) : (m.raise e v a b).cam = m.cam := by simp [Mach.raise]
@[simp] theorem raise_cls (m : Mach) (e : Ev) (v : Sev) (a b : Nat) : (m.raise e v a b).cls = m.cls := by simp [Mach.raise]
@[simp] theorem raise_drm (m : Mach) (e : Ev) (v : Sev) (a b : Nat) : (m.raise e v a b).drm = m.drm := by simp [Mach.raise]
@[simp] theorem raise_mot (m : Mach) (e : Ev) (v : Sev) (a b : Nat) : (m.raise e v a b).mot = m.mot := by simp [Mach.raise]
@[simp] theorem raise_thm (m : Mach) (e : Ev) (v : Sev) (a b : Nat) : (m.raise e v a b).thm = m.thm := by simp [Mach.raise]
@[simp] theorem raise_pwr (m : Mach) (e : Ev) (v : Sev) (a b : Nat) : (m.raise e v a b).pwr = m.pwr := by simp [Mach.raise]
@[simp] theorem raise_cal (m : Mach) (e : Ev) (v : Sev) (a b : Nat) : (m.raise e v a b).cal = m.cal := by simp [Mach.raise]
@[simp] theorem raise_ptn (m : Mach) (e : Ev) (v : Sev) (a b : Nat) : (m.raise e v a b).ptn = m.ptn := by simp [Mach.raise]
@[simp] theorem raise_loStage (m : Mach) (e : Ev) (v : Sev) (a b : Nat) : (m.raise e v a b).loStage = m.loStage := by simp [Mach.raise]
@[simp] theorem raise_hiLatch (m : Mach) (e : Ev) (v : Sev) (a b : Nat) : (m.raise e v a b).hiLatch = m.hiLatch := by simp [Mach.raise]
@[simp] theorem raise_dram (m : Mach) (e : Ev) (v : Sev) (a b : Nat) : (m.raise e v a b).dram = m.dram := by simp [Mach.raise]
@[simp] theorem raise_out (m : Mach) (e : Ev) (v : Sev) (a b : Nat) : (m.raise e v a b).out = m.out := by simp [Mach.raise]

/-! ### Mach.rateFlush -/

@[simp] theorem rateFlush_glb (m : Mach) (e : Ev) (n : Nat) : (m.rateFlush e n).glb = m.glb := by simp [Mach.rateFlush]
@[simp] theorem rateFlush_sec (m : Mach) (e : Ev) (n : Nat) : (m.rateFlush e n).sec = m.sec := by simp [Mach.rateFlush]
@[simp] theorem rateFlush_xfer (m : Mach) (e : Ev) (n : Nat) : (m.rateFlush e n).xfer = m.xfer := by simp [Mach.rateFlush]
@[simp] theorem rateFlush_otp (m : Mach) (e : Ev) (n : Nat) : (m.rateFlush e n).otp = m.otp := by simp [Mach.rateFlush]
@[simp] theorem rateFlush_nand (m : Mach) (e : Ev) (n : Nat) : (m.rateFlush e n).nand = m.nand := by simp [Mach.rateFlush]
@[simp] theorem rateFlush_finals (m : Mach) (e : Ev) (n : Nat) : (m.rateFlush e n).finals = m.finals := by simp [Mach.rateFlush]
@[simp] theorem rateFlush_hst (m : Mach) (e : Ev) (n : Nat) : (m.rateFlush e n).hst = m.hst := by simp [Mach.rateFlush]
@[simp] theorem rateFlush_chn (m : Mach) (e : Ev) (n : Nat) : (m.rateFlush e n).chn = m.chn := by simp [Mach.rateFlush]
@[simp] theorem rateFlush_stn (m : Mach) (e : Ev) (n : Nat) : (m.rateFlush e n).stn = m.stn := by simp [Mach.rateFlush]
@[simp] theorem rateFlush_dtm (m : Mach) (e : Ev) (n : Nat) : (m.rateFlush e n).dtm = m.dtm := by simp [Mach.rateFlush]
@[simp] theorem rateFlush_eth (m : Mach) (e : Ev) (n : Nat) : (m.rateFlush e n).eth = m.eth := by simp [Mach.rateFlush]
@[simp] theorem rateFlush_vgp (m : Mach) (e : Ev) (n : Nat) : (m.rateFlush e n).vgp = m.vgp := by simp [Mach.rateFlush]
@[simp] theorem rateFlush_cmp (m : Mach) (e : Ev) (n : Nat) : (m.rateFlush e n).cmp = m.cmp := by simp [Mach.rateFlush]
@[simp] theorem rateFlush_epo (m : Mach) (e : Ev) (n : Nat) : (m.rateFlush e n).epo = m.epo := by simp [Mach.rateFlush]
@[simp] theorem rateFlush_trv (m : Mach) (e : Ev) (n : Nat) : (m.rateFlush e n).trv = m.trv := by simp [Mach.rateFlush]
@[simp] theorem rateFlush_fgd (m : Mach) (e : Ev) (n : Nat) : (m.rateFlush e n).fgd = m.fgd := by simp [Mach.rateFlush]
@[simp] theorem rateFlush_skx (m : Mach) (e : Ev) (n : Nat) : (m.rateFlush e n).skx = m.skx := by simp [Mach.rateFlush]
@[simp] theorem rateFlush_cam (m : Mach) (e : Ev) (n : Nat) : (m.rateFlush e n).cam = m.cam := by simp [Mach.rateFlush]
@[simp] theorem rateFlush_cls (m : Mach) (e : Ev) (n : Nat) : (m.rateFlush e n).cls = m.cls := by simp [Mach.rateFlush]
@[simp] theorem rateFlush_drm (m : Mach) (e : Ev) (n : Nat) : (m.rateFlush e n).drm = m.drm := by simp [Mach.rateFlush]
@[simp] theorem rateFlush_mot (m : Mach) (e : Ev) (n : Nat) : (m.rateFlush e n).mot = m.mot := by simp [Mach.rateFlush]
@[simp] theorem rateFlush_thm (m : Mach) (e : Ev) (n : Nat) : (m.rateFlush e n).thm = m.thm := by simp [Mach.rateFlush]
@[simp] theorem rateFlush_pwr (m : Mach) (e : Ev) (n : Nat) : (m.rateFlush e n).pwr = m.pwr := by simp [Mach.rateFlush]
@[simp] theorem rateFlush_cal (m : Mach) (e : Ev) (n : Nat) : (m.rateFlush e n).cal = m.cal := by simp [Mach.rateFlush]
@[simp] theorem rateFlush_ptn (m : Mach) (e : Ev) (n : Nat) : (m.rateFlush e n).ptn = m.ptn := by simp [Mach.rateFlush]
@[simp] theorem rateFlush_loStage (m : Mach) (e : Ev) (n : Nat) : (m.rateFlush e n).loStage = m.loStage := by simp [Mach.rateFlush]
@[simp] theorem rateFlush_hiLatch (m : Mach) (e : Ev) (n : Nat) : (m.rateFlush e n).hiLatch = m.hiLatch := by simp [Mach.rateFlush]
@[simp] theorem rateFlush_dram (m : Mach) (e : Ev) (n : Nat) : (m.rateFlush e n).dram = m.dram := by simp [Mach.rateFlush]
@[simp] theorem rateFlush_out (m : Mach) (e : Ev) (n : Nat) : (m.rateFlush e n).out = m.out := by simp [Mach.rateFlush]

/-! ### Mach.setRate -/

@[simp] theorem setRate_glb (m : Mach) (k : Nat) (r : RateSrc) : (m.setRate k r).glb = m.glb := rfl
@[simp] theorem setRate_sec (m : Mach) (k : Nat) (r : RateSrc) : (m.setRate k r).sec = m.sec := rfl
@[simp] theorem setRate_xfer (m : Mach) (k : Nat) (r : RateSrc) : (m.setRate k r).xfer = m.xfer := rfl
@[simp] theorem setRate_otp (m : Mach) (k : Nat) (r : RateSrc) : (m.setRate k r).otp = m.otp := rfl
@[simp] theorem setRate_nand (m : Mach) (k : Nat) (r : RateSrc) : (m.setRate k r).nand = m.nand := rfl
@[simp] theorem setRate_finals (m : Mach) (k : Nat) (r : RateSrc) : (m.setRate k r).finals = m.finals := rfl
@[simp] theorem setRate_hst (m : Mach) (k : Nat) (r : RateSrc) : (m.setRate k r).hst = m.hst := rfl
@[simp] theorem setRate_chn (m : Mach) (k : Nat) (r : RateSrc) : (m.setRate k r).chn = m.chn := rfl
@[simp] theorem setRate_stn (m : Mach) (k : Nat) (r : RateSrc) : (m.setRate k r).stn = m.stn := rfl
@[simp] theorem setRate_dtm (m : Mach) (k : Nat) (r : RateSrc) : (m.setRate k r).dtm = m.dtm := rfl
@[simp] theorem setRate_eth (m : Mach) (k : Nat) (r : RateSrc) : (m.setRate k r).eth = m.eth := rfl
@[simp] theorem setRate_vgp (m : Mach) (k : Nat) (r : RateSrc) : (m.setRate k r).vgp = m.vgp := rfl
@[simp] theorem setRate_cmp (m : Mach) (k : Nat) (r : RateSrc) : (m.setRate k r).cmp = m.cmp := rfl
@[simp] theorem setRate_epo (m : Mach) (k : Nat) (r : RateSrc) : (m.setRate k r).epo = m.epo := rfl
@[simp] theorem setRate_trv (m : Mach) (k : Nat) (r : RateSrc) : (m.setRate k r).trv = m.trv := rfl
@[simp] theorem setRate_fgd (m : Mach) (k : Nat) (r : RateSrc) : (m.setRate k r).fgd = m.fgd := rfl
@[simp] theorem setRate_skx (m : Mach) (k : Nat) (r : RateSrc) : (m.setRate k r).skx = m.skx := rfl
@[simp] theorem setRate_cam (m : Mach) (k : Nat) (r : RateSrc) : (m.setRate k r).cam = m.cam := rfl
@[simp] theorem setRate_cls (m : Mach) (k : Nat) (r : RateSrc) : (m.setRate k r).cls = m.cls := rfl
@[simp] theorem setRate_drm (m : Mach) (k : Nat) (r : RateSrc) : (m.setRate k r).drm = m.drm := rfl
@[simp] theorem setRate_mot (m : Mach) (k : Nat) (r : RateSrc) : (m.setRate k r).mot = m.mot := rfl
@[simp] theorem setRate_thm (m : Mach) (k : Nat) (r : RateSrc) : (m.setRate k r).thm = m.thm := rfl
@[simp] theorem setRate_pwr (m : Mach) (k : Nat) (r : RateSrc) : (m.setRate k r).pwr = m.pwr := rfl
@[simp] theorem setRate_cal (m : Mach) (k : Nat) (r : RateSrc) : (m.setRate k r).cal = m.cal := rfl
@[simp] theorem setRate_ptn (m : Mach) (k : Nat) (r : RateSrc) : (m.setRate k r).ptn = m.ptn := rfl
@[simp] theorem setRate_regs (m : Mach) (k : Nat) (r : RateSrc) : (m.setRate k r).regs = m.regs := rfl
@[simp] theorem setRate_loStage (m : Mach) (k : Nat) (r : RateSrc) : (m.setRate k r).loStage = m.loStage := rfl
@[simp] theorem setRate_hiLatch (m : Mach) (k : Nat) (r : RateSrc) : (m.setRate k r).hiLatch = m.hiLatch := rfl
@[simp] theorem setRate_dram (m : Mach) (k : Nat) (r : RateSrc) : (m.setRate k r).dram = m.dram := rfl
@[simp] theorem setRate_out (m : Mach) (k : Nat) (r : RateSrc) : (m.setRate k r).out = m.out := rfl

/-! ### Mach.raiseRated -/

@[simp] theorem raiseRated_glb (m : Mach) (e : Ev) (c : Nat) (v : Sev) (a b n : Nat) (j : Nat × Nat → Nat × Nat → Nat × Nat) : (m.raiseRated e c v a b n j).glb = m.glb := by
  unfold Mach.raiseRated
  split
  · rfl
  · dsimp only
    split <;> simp
@[simp] theorem raiseRated_sec (m : Mach) (e : Ev) (c : Nat) (v : Sev) (a b n : Nat) (j : Nat × Nat → Nat × Nat → Nat × Nat) : (m.raiseRated e c v a b n j).sec = m.sec := by
  unfold Mach.raiseRated
  split
  · rfl
  · dsimp only
    split <;> simp
@[simp] theorem raiseRated_xfer (m : Mach) (e : Ev) (c : Nat) (v : Sev) (a b n : Nat) (j : Nat × Nat → Nat × Nat → Nat × Nat) : (m.raiseRated e c v a b n j).xfer = m.xfer := by
  unfold Mach.raiseRated
  split
  · rfl
  · dsimp only
    split <;> simp
@[simp] theorem raiseRated_otp (m : Mach) (e : Ev) (c : Nat) (v : Sev) (a b n : Nat) (j : Nat × Nat → Nat × Nat → Nat × Nat) : (m.raiseRated e c v a b n j).otp = m.otp := by
  unfold Mach.raiseRated
  split
  · rfl
  · dsimp only
    split <;> simp
@[simp] theorem raiseRated_nand (m : Mach) (e : Ev) (c : Nat) (v : Sev) (a b n : Nat) (j : Nat × Nat → Nat × Nat → Nat × Nat) : (m.raiseRated e c v a b n j).nand = m.nand := by
  unfold Mach.raiseRated
  split
  · rfl
  · dsimp only
    split <;> simp
@[simp] theorem raiseRated_finals (m : Mach) (e : Ev) (c : Nat) (v : Sev) (a b n : Nat) (j : Nat × Nat → Nat × Nat → Nat × Nat) : (m.raiseRated e c v a b n j).finals = m.finals := by
  unfold Mach.raiseRated
  split
  · rfl
  · dsimp only
    split <;> simp
@[simp] theorem raiseRated_hst (m : Mach) (e : Ev) (c : Nat) (v : Sev) (a b n : Nat) (j : Nat × Nat → Nat × Nat → Nat × Nat) : (m.raiseRated e c v a b n j).hst = m.hst := by
  unfold Mach.raiseRated
  split
  · rfl
  · dsimp only
    split <;> simp
@[simp] theorem raiseRated_chn (m : Mach) (e : Ev) (c : Nat) (v : Sev) (a b n : Nat) (j : Nat × Nat → Nat × Nat → Nat × Nat) : (m.raiseRated e c v a b n j).chn = m.chn := by
  unfold Mach.raiseRated
  split
  · rfl
  · dsimp only
    split <;> simp
@[simp] theorem raiseRated_stn (m : Mach) (e : Ev) (c : Nat) (v : Sev) (a b n : Nat) (j : Nat × Nat → Nat × Nat → Nat × Nat) : (m.raiseRated e c v a b n j).stn = m.stn := by
  unfold Mach.raiseRated
  split
  · rfl
  · dsimp only
    split <;> simp
@[simp] theorem raiseRated_dtm (m : Mach) (e : Ev) (c : Nat) (v : Sev) (a b n : Nat) (j : Nat × Nat → Nat × Nat → Nat × Nat) : (m.raiseRated e c v a b n j).dtm = m.dtm := by
  unfold Mach.raiseRated
  split
  · rfl
  · dsimp only
    split <;> simp
@[simp] theorem raiseRated_eth (m : Mach) (e : Ev) (c : Nat) (v : Sev) (a b n : Nat) (j : Nat × Nat → Nat × Nat → Nat × Nat) : (m.raiseRated e c v a b n j).eth = m.eth := by
  unfold Mach.raiseRated
  split
  · rfl
  · dsimp only
    split <;> simp
@[simp] theorem raiseRated_vgp (m : Mach) (e : Ev) (c : Nat) (v : Sev) (a b n : Nat) (j : Nat × Nat → Nat × Nat → Nat × Nat) : (m.raiseRated e c v a b n j).vgp = m.vgp := by
  unfold Mach.raiseRated
  split
  · rfl
  · dsimp only
    split <;> simp
@[simp] theorem raiseRated_cmp (m : Mach) (e : Ev) (c : Nat) (v : Sev) (a b n : Nat) (j : Nat × Nat → Nat × Nat → Nat × Nat) : (m.raiseRated e c v a b n j).cmp = m.cmp := by
  unfold Mach.raiseRated
  split
  · rfl
  · dsimp only
    split <;> simp
@[simp] theorem raiseRated_epo (m : Mach) (e : Ev) (c : Nat) (v : Sev) (a b n : Nat) (j : Nat × Nat → Nat × Nat → Nat × Nat) : (m.raiseRated e c v a b n j).epo = m.epo := by
  unfold Mach.raiseRated
  split
  · rfl
  · dsimp only
    split <;> simp
@[simp] theorem raiseRated_trv (m : Mach) (e : Ev) (c : Nat) (v : Sev) (a b n : Nat) (j : Nat × Nat → Nat × Nat → Nat × Nat) : (m.raiseRated e c v a b n j).trv = m.trv := by
  unfold Mach.raiseRated
  split
  · rfl
  · dsimp only
    split <;> simp
@[simp] theorem raiseRated_fgd (m : Mach) (e : Ev) (c : Nat) (v : Sev) (a b n : Nat) (j : Nat × Nat → Nat × Nat → Nat × Nat) : (m.raiseRated e c v a b n j).fgd = m.fgd := by
  unfold Mach.raiseRated
  split
  · rfl
  · dsimp only
    split <;> simp
@[simp] theorem raiseRated_skx (m : Mach) (e : Ev) (c : Nat) (v : Sev) (a b n : Nat) (j : Nat × Nat → Nat × Nat → Nat × Nat) : (m.raiseRated e c v a b n j).skx = m.skx := by
  unfold Mach.raiseRated
  split
  · rfl
  · dsimp only
    split <;> simp
@[simp] theorem raiseRated_cam (m : Mach) (e : Ev) (c : Nat) (v : Sev) (a b n : Nat) (j : Nat × Nat → Nat × Nat → Nat × Nat) : (m.raiseRated e c v a b n j).cam = m.cam := by
  unfold Mach.raiseRated
  split
  · rfl
  · dsimp only
    split <;> simp
@[simp] theorem raiseRated_cls (m : Mach) (e : Ev) (c : Nat) (v : Sev) (a b n : Nat) (j : Nat × Nat → Nat × Nat → Nat × Nat) : (m.raiseRated e c v a b n j).cls = m.cls := by
  unfold Mach.raiseRated
  split
  · rfl
  · dsimp only
    split <;> simp
@[simp] theorem raiseRated_drm (m : Mach) (e : Ev) (c : Nat) (v : Sev) (a b n : Nat) (j : Nat × Nat → Nat × Nat → Nat × Nat) : (m.raiseRated e c v a b n j).drm = m.drm := by
  unfold Mach.raiseRated
  split
  · rfl
  · dsimp only
    split <;> simp
@[simp] theorem raiseRated_mot (m : Mach) (e : Ev) (c : Nat) (v : Sev) (a b n : Nat) (j : Nat × Nat → Nat × Nat → Nat × Nat) : (m.raiseRated e c v a b n j).mot = m.mot := by
  unfold Mach.raiseRated
  split
  · rfl
  · dsimp only
    split <;> simp
@[simp] theorem raiseRated_thm (m : Mach) (e : Ev) (c : Nat) (v : Sev) (a b n : Nat) (j : Nat × Nat → Nat × Nat → Nat × Nat) : (m.raiseRated e c v a b n j).thm = m.thm := by
  unfold Mach.raiseRated
  split
  · rfl
  · dsimp only
    split <;> simp
@[simp] theorem raiseRated_pwr (m : Mach) (e : Ev) (c : Nat) (v : Sev) (a b n : Nat) (j : Nat × Nat → Nat × Nat → Nat × Nat) : (m.raiseRated e c v a b n j).pwr = m.pwr := by
  unfold Mach.raiseRated
  split
  · rfl
  · dsimp only
    split <;> simp
@[simp] theorem raiseRated_cal (m : Mach) (e : Ev) (c : Nat) (v : Sev) (a b n : Nat) (j : Nat × Nat → Nat × Nat → Nat × Nat) : (m.raiseRated e c v a b n j).cal = m.cal := by
  unfold Mach.raiseRated
  split
  · rfl
  · dsimp only
    split <;> simp
@[simp] theorem raiseRated_ptn (m : Mach) (e : Ev) (c : Nat) (v : Sev) (a b n : Nat) (j : Nat × Nat → Nat × Nat → Nat × Nat) : (m.raiseRated e c v a b n j).ptn = m.ptn := by
  unfold Mach.raiseRated
  split
  · rfl
  · dsimp only
    split <;> simp
@[simp] theorem raiseRated_loStage (m : Mach) (e : Ev) (c : Nat) (v : Sev) (a b n : Nat) (j : Nat × Nat → Nat × Nat → Nat × Nat) : (m.raiseRated e c v a b n j).loStage = m.loStage := by
  unfold Mach.raiseRated
  split
  · rfl
  · dsimp only
    split <;> simp
@[simp] theorem raiseRated_hiLatch (m : Mach) (e : Ev) (c : Nat) (v : Sev) (a b n : Nat) (j : Nat × Nat → Nat × Nat → Nat × Nat) : (m.raiseRated e c v a b n j).hiLatch = m.hiLatch := by
  unfold Mach.raiseRated
  split
  · rfl
  · dsimp only
    split <;> simp
@[simp] theorem raiseRated_dram (m : Mach) (e : Ev) (c : Nat) (v : Sev) (a b n : Nat) (j : Nat × Nat → Nat × Nat → Nat × Nat) : (m.raiseRated e c v a b n j).dram = m.dram := by
  unfold Mach.raiseRated
  split
  · rfl
  · dsimp only
    split <;> simp
@[simp] theorem raiseRated_out (m : Mach) (e : Ev) (c : Nat) (v : Sev) (a b n : Nat) (j : Nat × Nat → Nat × Nat → Nat × Nat) : (m.raiseRated e c v a b n j).out = m.out := by
  unfold Mach.raiseRated
  split
  · rfl
  · dsimp only
    split <;> simp

/-! ### Mach.settle -/

@[simp] theorem settle_glb (m : Mach) : (m.settle).glb = m.glb := by unfold Mach.settle; split <;> simp
@[simp] theorem settle_sec (m : Mach) : (m.settle).sec = m.sec := by unfold Mach.settle; split <;> simp
@[simp] theorem settle_xfer (m : Mach) : (m.settle).xfer = m.xfer := by unfold Mach.settle; split <;> simp
@[simp] theorem settle_otp (m : Mach) : (m.settle).otp = m.otp := by unfold Mach.settle; split <;> simp
@[simp] theorem settle_nand (m : Mach) : (m.settle).nand = m.nand := by unfold Mach.settle; split <;> simp
@[simp] theorem settle_finals (m : Mach) : (m.settle).finals = m.finals := by unfold Mach.settle; split <;> simp
@[simp] theorem settle_hst (m : Mach) : (m.settle).hst = m.hst := by unfold Mach.settle; split <;> simp
@[simp] theorem settle_chn (m : Mach) : (m.settle).chn = m.chn := by unfold Mach.settle; split <;> simp
@[simp] theorem settle_stn (m : Mach) : (m.settle).stn = m.stn := by unfold Mach.settle; split <;> simp
@[simp] theorem settle_dtm (m : Mach) : (m.settle).dtm = m.dtm := by unfold Mach.settle; split <;> simp
@[simp] theorem settle_eth (m : Mach) : (m.settle).eth = m.eth := by unfold Mach.settle; split <;> simp
@[simp] theorem settle_vgp (m : Mach) : (m.settle).vgp = m.vgp := by unfold Mach.settle; split <;> simp
@[simp] theorem settle_cmp (m : Mach) : (m.settle).cmp = m.cmp := by unfold Mach.settle; split <;> simp
@[simp] theorem settle_epo (m : Mach) : (m.settle).epo = m.epo := by unfold Mach.settle; split <;> simp
@[simp] theorem settle_trv (m : Mach) : (m.settle).trv = m.trv := by unfold Mach.settle; split <;> simp
@[simp] theorem settle_skx (m : Mach) : (m.settle).skx = m.skx := by unfold Mach.settle; split <;> simp
@[simp] theorem settle_cam (m : Mach) : (m.settle).cam = m.cam := by unfold Mach.settle; split <;> simp
@[simp] theorem settle_cls (m : Mach) : (m.settle).cls = m.cls := by unfold Mach.settle; split <;> simp
@[simp] theorem settle_drm (m : Mach) : (m.settle).drm = m.drm := by unfold Mach.settle; split <;> simp
@[simp] theorem settle_mot (m : Mach) : (m.settle).mot = m.mot := by unfold Mach.settle; split <;> simp
@[simp] theorem settle_thm (m : Mach) : (m.settle).thm = m.thm := by unfold Mach.settle; split <;> simp
@[simp] theorem settle_pwr (m : Mach) : (m.settle).pwr = m.pwr := by unfold Mach.settle; split <;> simp
@[simp] theorem settle_cal (m : Mach) : (m.settle).cal = m.cal := by unfold Mach.settle; split <;> simp
@[simp] theorem settle_ptn (m : Mach) : (m.settle).ptn = m.ptn := by unfold Mach.settle; split <;> simp
@[simp] theorem settle_loStage (m : Mach) : (m.settle).loStage = m.loStage := by unfold Mach.settle; split <;> simp
@[simp] theorem settle_hiLatch (m : Mach) : (m.settle).hiLatch = m.hiLatch := by unfold Mach.settle; split <;> simp
@[simp] theorem settle_dram (m : Mach) : (m.settle).dram = m.dram := by unfold Mach.settle; split <;> simp
@[simp] theorem settle_out (m : Mach) : (m.settle).out = m.out := by unfold Mach.settle; split <;> simp

end Sys2Proof.Laws
end

