-- ==== Sys2Proof/Laws/Tab.lean ====
section
/-! SUPPORT. The laws of tables: what a written key reads, that other keys read as before, and that writing keeps the
canonical form. -/

namespace Sys2Proof.Laws

open Sys2Proof.Machine

variable {α : Type}

theorem getD_insert (d : Nat → α) (t : Tab α) (i j : Nat) (v : α) :
    Tab.getD d (Tab.insert t i v) j = if i = j then v else Tab.getD d t j := by
  induction t with
  | nil => simp [Tab.insert, Tab.getD]
  | cons e r ih =>
    obtain ⟨k, w⟩ := e
    simp only [Tab.insert]
    split
    · next h => subst h; simp only [Tab.getD]; split <;> simp_all
    · split
      · simp only [Tab.getD]
      · simp only [Tab.getD, ih]; split <;> split <;> simp_all

theorem getD_erase_ne (d : Nat → α) (t : Tab α) (i j : Nat) (h : i ≠ j) :
    Tab.getD d (Tab.erase t i) j = Tab.getD d t j := by
  induction t with
  | nil => rfl
  | cons e r ih =>
    obtain ⟨k, w⟩ := e
    simp only [Tab.erase]
    split
    · next hk => subst hk; simp only [Tab.getD, if_neg h]
    · split
      · rfl
      · simp only [Tab.getD, ih]

/-- Writing one key leaves every other key as it was. -/
theorem getD_setD_ne [DecidableEq α] (d : Nat → α) (t : Tab α) (i j : Nat) (v : α) (h : i ≠ j) :
    Tab.getD d (Tab.setD d t i v) j = Tab.getD d t j := by
  unfold Tab.setD
  split
  · exact getD_erase_ne d t i j h
  · rw [getD_insert, if_neg h]

theorem wfFrom_mono [DecidableEq α] (d : Nat → α) (t : Tab α) (a b : Nat) (hab : a ≤ b)
    (h : Tab.wfFrom d b t = true) : Tab.wfFrom d a t = true := by
  cases t with
  | nil => rfl
  | cons e r =>
    obtain ⟨k, w⟩ := e
    simp only [Tab.wfFrom, Bool.and_eq_true, decide_eq_true_eq] at h ⊢
    exact ⟨⟨by omega, h.1.2⟩, h.2⟩

theorem getD_below [DecidableEq α] (d : Nat → α) (t : Tab α) (b i : Nat) (h : Tab.wfFrom d b t = true) (hi : i < b) :
    Tab.getD d t i = d i := by
  induction t generalizing b with
  | nil => rfl
  | cons e r ih =>
    obtain ⟨k, w⟩ := e
    simp only [Tab.wfFrom, Bool.and_eq_true, decide_eq_true_eq] at h
    have hk : k ≠ i := by omega
    simp only [Tab.getD, if_neg hk]
    exact ih (k + 1) h.2 (by omega)

theorem getD_erase_self [DecidableEq α] (d : Nat → α) (t : Tab α) (b i : Nat) (h : Tab.wfFrom d b t = true) :
    Tab.getD d (Tab.erase t i) i = d i := by
  induction t generalizing b with
  | nil => rfl
  | cons e r ih =>
    obtain ⟨k, w⟩ := e
    have h' := h
    simp only [Tab.wfFrom, Bool.and_eq_true, decide_eq_true_eq] at h
    simp only [Tab.erase]
    split
    · next hk => subst hk; exact getD_below d r (k + 1) k h.2 (by omega)
    · next hk =>
      split
      · next hlt =>
        simp only [Tab.getD, if_neg hk]
        exact getD_below d r (k + 1) i h.2 (by omega)
      · simp only [Tab.getD, if_neg hk]
        exact ih (k + 1) h.2

/-- A written key reads what was written. -/
theorem getD_setD_self [DecidableEq α] (d : Nat → α) (t : Tab α) (i : Nat) (v : α) (h : Tab.wf d t = true) :
    Tab.getD d (Tab.setD d t i v) i = v := by
  unfold Tab.setD
  split
  · next hv => rw [getD_erase_self d t 0 i h, hv]
  · rw [getD_insert, if_pos rfl]

theorem wfFrom_erase [DecidableEq α] (d : Nat → α) (t : Tab α) (b i : Nat) (h : Tab.wfFrom d b t = true) :
    Tab.wfFrom d b (Tab.erase t i) = true := by
  induction t generalizing b with
  | nil => rfl
  | cons e r ih =>
    obtain ⟨k, w⟩ := e
    have h' := h
    simp only [Tab.wfFrom, Bool.and_eq_true, decide_eq_true_eq] at h
    simp only [Tab.erase]
    split
    · exact wfFrom_mono d r b (k + 1) (by omega) h.2
    · split
      · exact h'
      · simp only [Tab.wfFrom, Bool.and_eq_true, decide_eq_true_eq]
        exact ⟨h.1, ih (k + 1) h.2⟩

theorem wfFrom_insert [DecidableEq α] (d : Nat → α) (t : Tab α) (b i : Nat) (v : α) (hv : v ≠ d i) (hb : b ≤ i)
    (h : Tab.wfFrom d b t = true) : Tab.wfFrom d b (Tab.insert t i v) = true := by
  induction t generalizing b with
  | nil => simp [Tab.insert, Tab.wfFrom, hv, hb]
  | cons e r ih =>
    obtain ⟨k, w⟩ := e
    simp only [Tab.wfFrom, Bool.and_eq_true, decide_eq_true_eq] at h
    simp only [Tab.insert]
    split
    · next hk =>
      subst hk
      simp only [Tab.wfFrom, Bool.and_eq_true, decide_eq_true_eq]
      exact ⟨⟨h.1.1, hv⟩, h.2⟩
    · split
      · simp only [Tab.wfFrom, Bool.and_eq_true, decide_eq_true_eq]
        exact ⟨⟨hb, hv⟩, ⟨by omega, h.1.2⟩, h.2⟩
      · simp only [Tab.wfFrom, Bool.and_eq_true, decide_eq_true_eq]
        exact ⟨h.1, ih (k + 1) (by omega) h.2⟩

/-- Writing a table keeps its canonical form. -/
theorem wf_setD [DecidableEq α] (d : Nat → α) (t : Tab α) (i : Nat) (v : α) (h : Tab.wf d t = true) :
    Tab.wf d (Tab.setD d t i v) = true := by
  unfold Tab.setD
  split
  · exact wfFrom_erase d t 0 i h
  · next hv => exact wfFrom_insert d t 0 i v hv (by omega) h

theorem get_set_ne [DecidableEq α] (d : α) (t : Tab α) (i j : Nat) (v : α) (h : i ≠ j) :
    Tab.get d (Tab.set d t i v) j = Tab.get d t j := getD_setD_ne _ t i j v h

theorem get_set_self [DecidableEq α] (d : α) (t : Tab α) (i : Nat) (v : α) (h : Tab.wf (fun _ => d) t = true) :
    Tab.get d (Tab.set d t i v) i = v := getD_setD_self _ t i v h

theorem wf_set [DecidableEq α] (d : α) (t : Tab α) (i : Nat) (v : α) (h : Tab.wf (fun _ => d) t = true) :
    Tab.wf (fun _ => d) (Tab.set d t i v) = true := wf_setD _ t i v h

end Sys2Proof.Laws
end

