-- ==== Sys2Proof/Laws/Run.lean ====
section
/-! SUPPORT. What one command can do, said once: every command runs a change of the module and then settles head power. -/

namespace Sys2Proof.Laws

open Sys2Proof Sys2Proof.Machine

/-- Every command runs some change of the module, and nothing faults or is refused. -/
theorem exec_cases (c : Instr) (s : State) : ∃ f : Mach → Mach,
    exec c s = s.run f ∨ exec c s = s.runMem f ∨ exec c s = s.runFuse f ∨ exec c s = s.runAon f ∨
      exec c s = s.runReset f := by
  cases c with
  | registerWrite addr size val => exact ⟨_, .inl <| (rfl : execRegisterWrite addr size val s = _)⟩
  | loReadLatch acc => exact ⟨_, .inl <| (rfl : execLoReadLatch acc s = _)⟩
  | pinLevelWrite val => exact ⟨_, .inl <| (rfl : execPinLevelWrite val s = _)⟩
  | dtmTick residual => exact ⟨_, .inr <| .inl <| (rfl : execDtmTick residual s = _)⟩
  | sincosSample ch sin cos mark => exact ⟨_, .inl <| (rfl : execSincosSample ch sin cos mark s = _)⟩
  | amplitudeFault ch => exact ⟨_, .inl <| (rfl : execAmplitudeFault ch s = _)⟩
  | quadEdge ch a b z => exact ⟨_, .inl <| (rfl : execQuadEdge ch a b z s = _)⟩
  | transitionsFault ch => exact ⟨_, .inl <| (rfl : execTransitionsFault ch s = _)⟩
  | toothEdge ch stable => exact ⟨_, .inl <| (rfl : execToothEdge ch stable s = _)⟩
  | ssiRequest ch dataHigh => exact ⟨_, .inl <| (rfl : execSsiRequest ch dataHigh s = _)⟩
  | ssiWord ch word parity => exact ⟨_, .inl <| (rfl : execSsiWord ch word parity s = _)⟩
  | wordsFault ch => exact ⟨_, .inl <| (rfl : execWordsFault ch s = _)⟩
  | disagreeFault ch => exact ⟨_, .inl <| (rfl : execDisagreeFault ch s = _)⟩
  | pairDisagreement => exact ⟨_, .inl <| (rfl : execPairDisagreement s = _)⟩
  | probationPassed ch => exact ⟨_, .inl <| (rfl : execProbationPassed ch s = _)⟩
  | indexPulse ch => exact ⟨_, .inl <| (rfl : execIndexPulse ch s = _)⟩
  | indexMissing ch => exact ⟨_, .inl <| (rfl : execIndexMissing ch s = _)⟩
  | arm => exact ⟨_, .inl <| (rfl : execArm s = _)⟩
  | disarm => exact ⟨_, .inl <| (rfl : execDisarm s = _)⟩
  | readmit ch => exact ⟨_, .inl <| (rfl : execReadmit ch s = _)⟩
  | auxClear ch => exact ⟨_, .inl <| (rfl : execAuxClear ch s = _)⟩
  | slewCancel => exact ⟨_, .inl <| (rfl : execSlewCancel s = _)⟩
  | backstepRelease => exact ⟨_, .inl <| (rfl : execBackstepRelease s = _)⟩
  | speedWindowEnd => exact ⟨_, .inl <| (rfl : execSpeedWindowEnd s = _)⟩
  | probeEdge n rising => exact ⟨_, .inl <| (rfl : execProbeEdge n rising s = _)⟩
  | stakePop n => exact ⟨_, .inl <| (rfl : execStakePop n s = _)⟩
  | stnCmdCommit slot => exact ⟨_, .inl <| (rfl : execStnCmdCommit slot s = _)⟩
  | stnCmdCancel slot => exact ⟨_, .inl <| (rfl : execStnCmdCancel slot s = _)⟩
  | stnCmdRead slot => exact ⟨_, .inl <| (rfl : execStnCmdRead slot s = _)⟩
  | stnCommandTaken => exact ⟨_, .inl <| (rfl : execStnCommandTaken s = _)⟩
  | stationCrossing => exact ⟨_, .inl <| (rfl : execStationCrossing s = _)⟩
  | pulseEnd out => exact ⟨_, .inl <| (rfl : execPulseEnd out s = _)⟩
  | minGapEnd out => exact ⟨_, .inl <| (rfl : execMinGapEnd out s = _)⟩
  | liftInhibitEnd group => exact ⟨_, .inl <| (rfl : execLiftInhibitEnd group s = _)⟩
  | rateLimitedRecord code source => exact ⟨_, .inl <| (rfl : execRateLimitedRecord code source s = _)⟩
  | dtmIncrWrite lo hi firmware => exact ⟨_, .inl <| (rfl : execDtmIncrWrite lo hi firmware s = _)⟩
  | dtmOffsetWrite lo hi firmware => exact ⟨_, .inl <| (rfl : execDtmOffsetWrite lo hi firmware s = _)⟩
  | dtmOffsetApplied => exact ⟨_, .inl <| (rfl : execDtmOffsetApplied s = _)⟩
  | dtmEpochWrite lo hi firmware => exact ⟨_, .inl <| (rfl : execDtmEpochWrite lo hi firmware s = _)⟩
  | snap => exact ⟨_, .inl <| (rfl : execSnap s = _)⟩
  | ptpFrameRx port kind seq => exact ⟨_, .inl <| (rfl : execPtpFrameRx port kind seq s = _)⟩
  | ptpFrameTx port kind seq twoStep frame taken => exact ⟨_, .inl <| (rfl : execPtpFrameTx port kind seq twoStep frame taken s = _)⟩
  | ptpSamplePost payload => exact ⟨_, .inl <| (rfl : execPtpSamplePost payload s = _)⟩
  | ptpPortStateChange state servo offset => exact ⟨_, .inl <| (rfl : execPtpPortStateChange state servo offset s = _)⟩
  | ethLinkChange port up => exact ⟨_, .inl <| (rfl : execEthLinkChange port up s = _)⟩
  | ptpFailover => exact ⟨_, .inl <| (rfl : execPtpFailover s = _)⟩
  | ethFrameRx port f => exact ⟨_, .inl <| (rfl : execEthFrameRx port f s = _)⟩
  | beaconSample resolved => exact ⟨_, .inl <| (rfl : execBeaconSample resolved s = _)⟩
  | diagRead off len => exact ⟨_, .inl <| (rfl : execDiagRead off len s = _)⟩
  | diagWrite off data => exact ⟨_, .inr <| .inl <| (rfl : execDiagWrite off data s = _)⟩
  | functionLevelReset => exact ⟨_, .inl <| (rfl : execFunctionLevelReset s = _)⟩
  | d3hotEntry => exact ⟨_, .inl <| (rfl : execD3hotEntry s = _)⟩
  | pcieLinkDown => exact ⟨_, .inl <| (rfl : execPcieLinkDown s = _)⟩
  | pcieLinkUp speed width => exact ⟨_, .inl <| (rfl : execPcieLinkUp speed width s = _)⟩
  | ringEnable r => exact ⟨_, .inl <| (rfl : execRingEnable r s = _)⟩
  | ringDisable r => exact ⟨_, .inl <| (rfl : execRingDisable r s = _)⟩
  | doorbell page off val => exact ⟨_, .inl <| (rfl : execDoorbell page off val s = _)⟩
  | descriptorFetched r d => exact ⟨_, .inl <| (rfl : execDescriptorFetched r d s = _)⟩
  | hostDmaError h status => exact ⟨_, .inl <| (rfl : execHostDmaError h status s = _)⟩
  | completionQueued target => exact ⟨_, .inl <| (rfl : execCompletionQueued target s = _)⟩
  | fieldbookDrain => exact ⟨_, .inl <| (rfl : execFieldbookDrain s = _)⟩
  | tlmSnapshot => exact ⟨_, .inl <| (rfl : execTlmSnapshot s = _)⟩
  | vectorHoldoffExpiry v => exact ⟨_, .inl <| (rfl : execVectorHoldoffExpiry v s = _)⟩
  | stopPageWrite => exact ⟨_, .inl <| (rfl : execStopPageWrite s = _)⟩
  | stopNFall => exact ⟨_, .inr <| .inr <| .inr <| .inl <| (rfl : execStopNFall s = _)⟩
  | stopNRise => exact ⟨_, .inr <| .inr <| .inr <| .inl <| (rfl : execStopNRise s = _)⟩
  | hstStop => exact ⟨_, .inl <| (rfl : execHstStop s = _)⟩
  | stopRelease => exact ⟨_, .inl <| (rfl : execStopRelease s = _)⟩
  | jobOpen h f => exact ⟨_, .inl <| (rfl : execJobOpen h f s = _)⟩
  | jobImage h f data => exact ⟨_, .inl <| (rfl : execJobImage h f data s = _)⟩
  | streamSpaceResume => exact ⟨_, .inl <| (rfl : execStreamSpaceResume s = _)⟩
  | jobClose h tag => exact ⟨_, .inl <| (rfl : execJobClose h tag s = _)⟩
  | jobArm h f => exact ⟨_, .inl <| (rfl : execJobArm h f s = _)⟩
  | jobDelete h tag => exact ⟨_, .inl <| (rfl : execJobDelete h tag s = _)⟩
  | blockData h f data => exact ⟨_, .inl <| (rfl : execBlockData h f data s = _)⟩
  | jobEffectCrossed tag => exact ⟨_, .inl <| (rfl : execJobEffectCrossed tag s = _)⟩
  | nop h => exact ⟨_, .inl <| (rfl : execNop h s = _)⟩
  | abort h tag => exact ⟨_, .inl <| (rfl : execAbort h tag s = _)⟩
  | stop h => exact ⟨_, .inl <| (rfl : execStop h s = _)⟩
  | revoke h f => exact ⟨_, .inl <| (rfl : execRevoke h f s = _)⟩
  | mode h target => exact ⟨_, .inl <| (rfl : execMode h target s = _)⟩
  | stnCommit h f => exact ⟨_, .inl <| (rfl : execStnCommit h f s = _)⟩
  | stnCancel h slot => exact ⟨_, .inl <| (rfl : execStnCancel h slot s = _)⟩
  | item h f data => exact ⟨_, .inl <| (rfl : execItem h f data s = _)⟩
  | itemWaitResume layer => exact ⟨_, .inl <| (rfl : execItemWaitResume layer s = _)⟩
  | fence h layer v => exact ⟨_, .inl <| (rfl : execFence h layer v s = _)⟩
  | tableCommit h f entries => exact ⟨_, .inl <| (rfl : execTableCommit h f entries s = _)⟩
  | effectKnown epoch => exact ⟨_, .inl <| (rfl : execEffectKnown epoch s = _)⟩
  | buffer h f => exact ⟨_, .inl <| (rfl : execBuffer h f s = _)⟩
  | slotBind layer => exact ⟨_, .inl <| (rfl : execSlotBind layer s = _)⟩
  | engineSelect e reads loads => exact ⟨_, .inl <| (rfl : execEngineSelect e reads loads s = _)⟩
  | swathRenderDone e => exact ⟨_, .inr <| .inl <| (rfl : execSwathRenderDone e s = _)⟩
  | swathDeadline job plane row => exact ⟨_, .inl <| (rfl : execSwathDeadline job plane row s = _)⟩
  | blockHorizonReached job layer plane block => exact ⟨_, .inl <| (rfl : execBlockHorizonReached job layer plane block s = _)⟩
  | tileWaitResume e => exact ⟨_, .inl <| (rfl : execTileWaitResume e s = _)⟩
  | parkOrderWrite val => exact ⟨_, .inl <| (rfl : execParkOrderWrite val s = _)⟩
  | parkStepChange => exact ⟨_, .inl <| (rfl : execParkStepChange s = _)⟩
  | clusterParked c => exact ⟨_, .inl <| (rfl : execClusterParked c s = _)⟩
  | clusterWoken c => exact ⟨_, .inl <| (rfl : execClusterWoken c s = _)⟩
  | fireFetchStart job line hub => exact ⟨_, .inr <| .inl <| (rfl : execFireFetchStart job line hub s = _)⟩
  | fireFetchDone job line hub => exact ⟨_, .inl <| (rfl : execFireFetchDone job line hub s = _)⟩
  | linePacketSent job line hub => exact ⟨_, .inl <| (rfl : execLinePacketSent job line hub s = _)⟩
  | fireCommit job line hub rows => exact ⟨_, .inr <| .inl <| (rfl : execFireCommit job line hub rows s = _)⟩
  | downshiftBoundary => exact ⟨_, .inl <| (rfl : execDownshiftBoundary s = _)⟩
  | tlmStale head => exact ⟨_, .inl <| (rfl : execTlmStale head s = _)⟩
  | usageRecordWrite => exact ⟨_, .inl <| (rfl : execUsageRecordWrite s = _)⟩
  | usageWriteRetry head => exact ⟨_, .inl <| (rfl : execUsageWriteRetry head s = _)⟩
  | tableWindowWrite addr val => exact ⟨_, .inl <| (rfl : execTableWindowWrite addr val s = _)⟩
  | watchdogRefresh val firmware => exact ⟨_, .inl <| (rfl : execWatchdogRefresh val firmware s = _)⟩
  | watchdogExpiry => exact ⟨_, .inl <| (rfl : execWatchdogExpiry s = _)⟩
  | ceilingSave => exact ⟨_, .inl <| (rfl : execCeilingSave s = _)⟩
  | headPwrChange => exact ⟨_, .inl <| (rfl : execHeadPwrChange s = _)⟩
  | echoRx hub e => exact ⟨_, .inl <| (rfl : execEchoRx hub e s = _)⟩
  | echoTimeout job line hub => exact ⟨_, .inl <| (rfl : execEchoTimeout job line hub s = _)⟩
  | hubTlmRx hub t => exact ⟨_, .inl <| (rfl : execHubTlmRx hub t s = _)⟩
  | grantRx hub g => exact ⟨_, .inl <| (rfl : execGrantRx hub g s = _)⟩
  | ctrlReplyRx hub r => exact ⟨_, .inl <| (rfl : execCtrlReplyRx hub r s = _)⟩
  | rxlostRx x => exact ⟨_, .inl <| (rfl : execRxlostRx x s = _)⟩
  | alignMarkerDue => exact ⟨_, .inl <| (rfl : execAlignMarkerDue s = _)⟩
  | skipDue lane => exact ⟨_, .inl <| (rfl : execSkipDue lane s = _)⟩
  | heartbeatDue => exact ⟨_, .inl <| (rfl : execHeartbeatDue s = _)⟩
  | laneLockLost lane cause => exact ⟨_, .inl <| (rfl : execLaneLockLost lane cause s = _)⟩
  | laneRetrain lane => exact ⟨_, .inl <| (rfl : execLaneRetrain lane s = _)⟩
  | trainStepTimeout lane => exact ⟨_, .inl <| (rfl : execTrainStepTimeout lane s = _)⟩
  | laneUp lane => exact ⟨_, .inl <| (rfl : execLaneUp lane s = _)⟩
  | retrainRetry lane => exact ⟨_, .inl <| (rfl : execRetrainRetry lane s = _)⟩
  | loopMeasure => exact ⟨_, .inl <| (rfl : execLoopMeasure s = _)⟩
  | fomWindow lane w => exact ⟨_, .inl <| (rfl : execFomWindow lane w s = _)⟩
  | hubDarkTimeout hub => exact ⟨_, .inl <| (rfl : execHubDarkTimeout hub s = _)⟩
  | chkSelftest bad => exact ⟨_, .inl <| (rfl : execChkSelftest bad s = _)⟩
  | camDeviceEnable d => exact ⟨_, .inl <| (rfl : execCamDeviceEnable d s = _)⟩
  | camBringupRetry d => exact ⟨_, .inl <| (rfl : execCamBringupRetry d s = _)⟩
  | cxpLockLost conn => exact ⟨_, .inl <| (rfl : execCxpLockLost conn s = _)⟩
  | cxpConnectionReturn conn => exact ⟨_, .inl <| (rfl : execCxpConnectionReturn conn s = _)⟩
  | mailboxRead => exact ⟨_, .inl <| (rfl : execMailboxRead s = _)⟩
  | mailboxWrite => exact ⟨_, .inl <| (rfl : execMailboxWrite s = _)⟩
  | mailboxDone result data => exact ⟨_, .inl <| (rfl : execMailboxDone result data s = _)⟩
  | cameraLineRx d l => exact ⟨_, .inr <| .inl <| (rfl : execCameraLineRx d l s = _)⟩
  | cxpEventPacket conn => exact ⟨_, .inl <| (rfl : execCxpEventPacket conn s = _)⟩
  | lineTrigger d => exact ⟨_, .inl <| (rfl : execLineTrigger d s = _)⟩
  | frameTimeout ctx => exact ⟨_, .inl <| (rfl : execFrameTimeout ctx s = _)⟩
  | camTblDataAccess write val => exact ⟨_, .inl <| (rfl : execCamTblDataAccess write val s = _)⟩
  | genCommit ctx => exact ⟨_, .inl <| (rfl : execGenCommit ctx s = _)⟩
  | genCopyDone ctx => exact ⟨_, .inl <| (rfl : execGenCopyDone ctx s = _)⟩
  | stripFrameStart job => exact ⟨_, .inl <| (rfl : execStripFrameStart job s = _)⟩
  | statsUnit => exact ⟨_, .inl <| (rfl : execStatsUnit s = _)⟩
  | keep => exact ⟨_, .inl <| (rfl : execKeep s = _)⟩
  | release => exact ⟨_, .inl <| (rfl : execRelease s = _)⟩
  | benchStart => exact ⟨_, .inl <| (rfl : execBenchStart s = _)⟩
  | benchAbort => exact ⟨_, .inl <| (rfl : execBenchAbort s = _)⟩
  | dramRequestAccept port write addr len data t => exact ⟨_, .inr <| .inl <| (rfl : execDramRequestAccept port write addr len data t s = _)⟩
  | refreshDue ch => exact ⟨_, .inl <| (rfl : execRefreshDue ch s = _)⟩
  | codePageCheck bad lost => exact ⟨_, .inl <| (rfl : execCodePageCheck bad lost s = _)⟩
  | pairingAttempt => exact ⟨_, .inl <| (rfl : execPairingAttempt s = _)⟩
  | pairingTimeout => exact ⟨_, .inl <| (rfl : execPairingTimeout s = _)⟩
  | helloRx p => exact ⟨_, .inl <| (rfl : execHelloRx p s = _)⟩
  | partnerHeartbeatRx b => exact ⟨_, .inl <| (rfl : execPartnerHeartbeatRx b s = _)⟩
  | mirrorRx rs crcOk => exact ⟨_, .inl <| (rfl : execMirrorRx rs crcOk s = _)⟩
  | ackRx seq => exact ⟨_, .inl <| (rfl : execAckRx seq s = _)⟩
  | nakRx seq => exact ⟨_, .inl <| (rfl : execNakRx seq s = _)⟩
  | monumentRx p part parts crcOk => exact ⟨_, .inl <| (rfl : execMonumentRx p part parts crcOk s = _)⟩
  | monumentDue => exact ⟨_, .inl <| (rfl : execMonumentDue s = _)⟩
  | partnerLost lane => exact ⟨_, .inl <| (rfl : execPartnerLost lane s = _)⟩
  | commitHoldExpiry => exact ⟨_, .inl <| (rfl : execCommitHoldExpiry s = _)⟩
  | claimRound => exact ⟨_, .inl <| (rfl : execClaimRound s = _)⟩
  | claimHoldoffExpiry => exact ⟨_, .inl <| (rfl : execClaimHoldoffExpiry s = _)⟩
  | claimWindowExpiry => exact ⟨_, .inl <| (rfl : execClaimWindowExpiry s = _)⟩
  | stateRestored => exact ⟨_, .inl <| (rfl : execStateRestored s = _)⟩
  | majorityLossTimeout => exact ⟨_, .inl <| (rfl : execMajorityLossTimeout s = _)⟩
  | handoverRx => exact ⟨_, .inl <| (rfl : execHandoverRx s = _)⟩
  | releasedRx => exact ⟨_, .inl <| (rfl : execReleasedRx s = _)⟩
  | echoWindow => exact ⟨_, .inl <| (rfl : execEchoWindow s = _)⟩
  | echoAlarmRx => exact ⟨_, .inl <| (rfl : execEchoAlarmRx s = _)⟩
  | alarmReplyRx result => exact ⟨_, .inl <| (rfl : execAlarmReplyRx result s = _)⟩
  | haltResetTimer => exact ⟨_, .inr <| .inl <| (rfl : execHaltResetTimer s = _)⟩
  | revertHoldExpiry => exact ⟨_, .inl <| (rfl : execRevertHoldExpiry s = _)⟩
  | revertNow => exact ⟨_, .inl <| (rfl : execRevertNow s = _)⟩
  | revertReqRx c => exact ⟨_, .inl <| (rfl : execRevertReqRx c s = _)⟩
  | revertAckRx c => exact ⟨_, .inl <| (rfl : execRevertAckRx c s = _)⟩
  | revertSwitch => exact ⟨_, .inl <| (rfl : execRevertSwitch s = _)⟩
  | revertAbortRx => exact ⟨_, .inl <| (rfl : execRevertAbortRx s = _)⟩
  | revertMajorityTimeout => exact ⟨_, .inl <| (rfl : execRevertMajorityTimeout s = _)⟩
  | resync => exact ⟨_, .inl <| (rfl : execResync s = _)⟩
  | proofPhaseAdvance => exact ⟨_, .inl <| (rfl : execProofPhaseAdvance s = _)⟩
  | move a => exact ⟨_, .inl <| (rfl : execMove a s = _)⟩
  | preset a => exact ⟨_, .inl <| (rfl : execPreset a s = _)⟩
  | stopAxis a => exact ⟨_, .inl <| (rfl : execStopAxis a s = _)⟩
  | limits a => exact ⟨_, .inl <| (rfl : execLimits a s = _)⟩
  | home a => exact ⟨_, .inl <| (rfl : execHome a s = _)⟩
  | setPos a => exact ⟨_, .inl <| (rfl : execSetPos a s = _)⟩
  | gearOn a => exact ⟨_, .inl <| (rfl : execGearOn a s = _)⟩
  | gearOff a => exact ⟨_, .inl <| (rfl : execGearOff a s = _)⟩
  | clear a => exact ⟨_, .inl <| (rfl : execClear a s = _)⟩
  | off a => exact ⟨_, .inl <| (rfl : execOff a s = _)⟩
  | axisEnable a => exact ⟨_, .inl <| (rfl : execAxisEnable a s = _)⟩
  | plannerTick senses => exact ⟨_, .inl <| (rfl : execPlannerTick senses s = _)⟩
  | stall a => exact ⟨_, .inl <| (rfl : execStall a s = _)⟩
  | overcurrent a coilA coilB => exact ⟨_, .inl <| (rfl : execOvercurrent a coilA coilB s = _)⟩
  | gearLag a => exact ⟨_, .inl <| (rfl : execGearLag a s = _)⟩
  | cmpArm a m => exact ⟨_, .inl <| (rfl : execCmpArm a m s = _)⟩
  | cmpCancel a m => exact ⟨_, .inl <| (rfl : execCmpCancel a m s = _)⟩
  | supplyGoodChange input level otherMv => exact ⟨_, .inr <| .inr <| .inr <| .inl <| (rfl : execSupplyGoodChange input level otherMv s = _)⟩
  | supplyReturn otherMv => exact ⟨_, .inl <| (rfl : execSupplyReturn otherMv s = _)⟩
  | powerFail vmainMv vbackMv => exact ⟨_, .inl <| (rfl : execPowerFail vmainMv vbackMv s = _)⟩
  | finalMonumentDone => exact ⟨_, .inr <| .inl <| (rfl : execFinalMonumentDone s = _)⟩
  | housekeepingRound r => exact ⟨_, .inl <| (rfl : execHousekeepingRound r s = _)⟩
  | thermalShutdown ch reading => exact ⟨_, .inr <| .inr <| .inr <| .inl <| (rfl : execThermalShutdown ch reading s = _)⟩
  | shutdownRecordDone => exact ⟨_, .inr <| .inr <| .inr <| .inl <| (rfl : execShutdownRecordDone s = _)⟩
  | calRequest => exact ⟨_, .inl <| (rfl : execCalRequest s = _)⟩
  | calibrationDone words ok => exact ⟨_, .inl <| (rfl : execCalibrationDone words ok s = _)⟩
  | trimWordWrite addr val => exact ⟨_, .inl <| (rfl : execTrimWordWrite addr val s = _)⟩
  | clockFailure => exact ⟨_, .inr <| .inr <| .inr <| .inr <| (rfl : execClockFailure s = _)⟩
  | clockStable => exact ⟨_, .inr <| .inr <| .inr <| .inl <| (rfl : execClockStable s = _)⟩
  | lanePllUnlock net => exact ⟨_, .inl <| (rfl : execLanePllUnlock net s = _)⟩
  | lanePllRelock net => exact ⟨_, .inl <| (rfl : execLanePllRelock net s = _)⟩
  | powerOn straps => exact ⟨_, .inr <| .inr <| .inr <| .inr <| (rfl : execPowerOn straps s = _)⟩
  | resetPin straps => exact ⟨_, .inr <| .inr <| .inr <| .inr <| (rfl : execResetPin straps s = _)⟩
  | softwareReset key straps => exact ⟨_, .inr <| .inl <| (rfl : execSoftwareReset key straps s = _)⟩
  | bootStageDone b => exact ⟨_, .inl <| (rfl : execBootStageDone b s = _)⟩
  | modeRequest target => exact ⟨_, .inl <| (rfl : execModeRequest target s = _)⟩
  | lock => exact ⟨_, .inl <| (rfl : execLock s = _)⟩
  | lockChecksDone => exact ⟨_, .inl <| (rfl : execLockChecksDone s = _)⟩
  | nonce value => exact ⟨_, .inl <| (rfl : execNonce value s = _)⟩
  | nonceExpiry => exact ⟨_, .inl <| (rfl : execNonceExpiry s = _)⟩
  | submit => exact ⟨_, .inl <| (rfl : execSubmit s = _)⟩
  | close => exact ⟨_, .inl <| (rfl : execClose s = _)⟩
  | backoffEnd => exact ⟨_, .inr <| .inr <| .inr <| .inl <| (rfl : execBackoffEnd s = _)⟩
  | keyStore => exact ⟨_, .inl <| (rfl : execKeyStore s = _)⟩
  | keyErase => exact ⟨_, .inl <| (rfl : execKeyErase s = _)⟩
  | confirm => exact ⟨_, .inr <| .inr <| .inl <| (rfl : execConfirm s = _)⟩
  | exportCal => exact ⟨_, .inl <| (rfl : execExportCal s = _)⟩
  | exportMon => exact ⟨_, .inl <| (rfl : execExportMon s = _)⟩
  | importCal p => exact ⟨_, .inl <| (rfl : execImportCal p s = _)⟩
  | importMon p length crcOk => exact ⟨_, .inl <| (rfl : execImportMon p length crcOk s = _)⟩
  | fwLoad header image => exact ⟨_, .inl <| (rfl : execFwLoad header image s = _)⟩
  | xferDone => exact ⟨_, .inl <| (rfl : execXferDone s = _)⟩
  | prefetchStallEnd e => exact ⟨_, .inl <| (rfl : execPrefetchStallEnd e s = _)⟩
  | zqLatch => exact ⟨_, .inl <| (rfl : execZqLatch s = _)⟩
  | laneLockAcquired x => exact ⟨_, .inl <| (rfl : execLaneLockAcquired x s = _)⟩
  | t2Rx lane t => exact ⟨_, .inl <| (rfl : execT2Rx lane t s = _)⟩
  | loopRetRx x num rt => exact ⟨_, .inl <| (rfl : execLoopRetRx x num rt s = _)⟩
  | deviceBringupDone d cause => exact ⟨_, .inl <| (rfl : execDeviceBringupDone d cause s = _)⟩
  | powerDown => exact ⟨_, .inr <| .inr <| .inr <| .inl <| (rfl : execPowerDown s = _)⟩

/-- Settling leaves the conditions of R301 as they are. -/
theorem settle_pwrOff (m : Mach) : m.settle.pwrOff = m.pwrOff := by
  unfold Mach.settle
  split <;> simp [Mach.pwrOff]

/-- After settling, HEAD_PWR_EN is high only while every condition of R301 holds. -/
theorem settle_safe (m : Mach) : Mach.powerSafe m.settle := by
  intro h
  rw [settle_pwrOff]
  unfold Mach.settle at h
  split at h
  · simp at h
  · next hc => simp at hc; exact hc h

/-- Where head power obeys R301 already, settling does nothing. -/
theorem settle_of_safe (m : Mach) (h : Mach.powerSafe m) : m.settle = m := by
  unfold Mach.settle
  split
  · next hc =>
    simp only [Bool.and_eq_true, decide_eq_true_eq] at hc
    exact absurd (h hc.1) hc.2
  · rfl

/-- Whatever a command changes, its next state obeys R301 where the state before did. -/
theorem exec_next (c : Instr) (s : State) : ∃ m : Mach, exec c s = .next { s with m := m } ∧
    (Mach.powerSafe s.m → Mach.powerSafe m) := by
  obtain ⟨f, h | h | h | h | h⟩ := exec_cases c s <;> rw [h]
  all_goals
    first
    | exact ⟨_, rfl, fun _ => settle_safe _⟩
    | refine ⟨_, rfl, fun hs => ?_⟩
      split
      · exact settle_safe _
      · exact hs

/-- A command of a running module whose change leaves head power within R301. -/
theorem run_of_safe (s : State) (f : Mach → Mach) (ha : s.m.alive = true)
    (h : Mach.powerSafe ({ f s.m with dram := s.m.dram, otp := s.m.otp } : Mach)) :
    s.run f = .next { s with m := { f s.m with dram := s.m.dram, otp := s.m.otp } } := by
  simp only [State.run, ha, if_true, settle_of_safe _ h]

/-- A command of a running module: its change, settled. -/
theorem run_alive (s : State) (f : Mach → Mach) (ha : s.m.alive = true) :
    s.run f = .next { s with m := ({ f s.m with dram := s.m.dram, otp := s.m.otp } : Mach).settle } := by
  simp only [State.run, ha, if_true]

/-- While every domain but AON is held in reset a command changes nothing. -/
theorem run_held (s : State) (f : Mach → Mach) (ha : s.m.alive = false) : s.run f = .next s := by
  simp [State.run, ha]

/-- Writing DRAM keeps its canonical form. -/
theorem dramWriteList_wf (l : List Byte) (a : Nat) (d : List Host.Cell) (h : Memory.wf d = true) :
    Memory.wf (dramWriteList l a d) = true := by
  induction l generalizing a d with
  | nil => exact h
  | cons b r ih => exact ih (a + 1) _ (wf_set _ _ _ _ h)

theorem dramWrite_wf (m : Mach) (a : Nat) (l : List Byte) (h : Memory.wf m.dram = true) :
    Memory.wf (m.dramWrite a l).dram = true := dramWriteList_wf l a _ h

/-- The module's memory after reset is in its canonical form. -/
theorem reset_memory_wf : Memory.wf State.reset.m.dram = true := rfl

/-- A write leaves every byte outside it as it was. -/
theorem dramWriteList_outside (l : List Byte) (a b : Nat) (d : List Host.Cell) (h : b < a ∨ a + l.length ≤ b) :
    Tab.get (0 : Byte) (dramWriteList l a d) b = Tab.get (0 : Byte) d b := by
  induction l generalizing a d with
  | nil => rfl
  | cons x r ih =>
    simp only [List.length_cons] at h
    rw [dramWriteList, ih (a + 1) _ (by omega)]
    exact get_set_ne _ _ _ _ _ (by omega)

theorem dramWrite_outside (m : Mach) (a b : Nat) (l : List Byte) (h : b < a ∨ a + l.length ≤ b) :
    (m.dramWrite a l).dramByte b = m.dramByte b := dramWriteList_outside l a b _ h

/-- Within a write, a byte reads what was written. -/
theorem dramWriteList_inside (l : List Byte) (a i : Nat) (d : List Host.Cell) (hw : Memory.wf d = true) (hi : i < l.length) :
    Tab.get (0 : Byte) (dramWriteList l a d) (a + i) = l.getD i 0 := by
  induction l generalizing a i d with
  | nil => simp at hi
  | cons x r ih =>
    rw [dramWriteList]
    cases i with
    | zero =>
      rw [dramWriteList_outside r (a + 1) (a + 0) _ (by omega)]
      simpa using get_set_self _ _ _ _ hw
    | succ k =>
      have := ih (a + 1) k (Tab.set (0 : Byte) d a x) (wf_set _ _ _ _ hw) (by simpa using hi)
      simpa [Nat.add_assoc, Nat.add_comm 1 k] using this

theorem dramWrite_inside (m : Mach) (a i : Nat) (l : List Byte) (hw : Memory.wf m.dram = true) (hi : i < l.length) :
    (m.dramWrite a l).dramByte (a + i) = l.getD i 0 := dramWriteList_inside l a i _ hw hi

end Sys2Proof.Laws
end

