-- ==== Sys2Proof/Laws/Frames.lean ====
section
/-! SUPPORT. What the shared operations that take more than one step leave as it was: one lemma per operation, its parts for
simp; and what a command comes to once its effect is known. -/

namespace Sys2Proof.Laws

open Sys2Proof Sys2Proof.Machine

section

/-- A command's effect that leaves DRAM, the fuses and the safety of head power gives exactly its machine. -/
theorem becomes_of_run {s : State} {f : Mach → Mach} {m : Mach} (h : Runs s) (e : f s.m = m) (hd : m.dram = s.m.dram)
    (ho : m.otp = s.m.otp) (hs : Mach.powerSafe m) : s.run f = .next { s with m := m } := by
  have : ({ f s.m with dram := s.m.dram, otp := s.m.otp } : Mach) = m := by rw [e, ← hd, ← ho]
  rw [run_of_safe s f h.1 (this ▸ hs), this]

/-- A command's effect reaches what its machine, with DRAM and the fuses as they were and head power judged, has. -/
theorem reaches_of_run {s : State} {f : Mach → Mach} {p : Mach → Prop} (ha : s.m.alive = true)
    (h : p ({ f s.m with dram := s.m.dram, otp := s.m.otp } : Mach).settle) :
    ∃ m : Mach, s.run f = .next { s with m := m } ∧ p m := ⟨_, run_alive s f ha, h⟩

/-- What each step of a fold keeps, the fold keeps. -/
theorem foldl_keeps {α β : Type} (g : Mach → β) (f : Mach → α → Mach) (h : ∀ m x, g (f m x) = g m) (l : List α)
    (m : Mach) : g (l.foldl f m) = g m := by
  induction l generalizing m with
  | nil => rfl
  | cons x l ih => rw [List.foldl_cons, ih, h]

/-- Head power stays safe where nothing that its conditions read changes. -/
theorem powerSafe_of_eq {a m : Mach} (h : Mach.powerSafe a) (h1 : m.glb.locked = a.glb.locked)
    (h2 : m.glb.mode = a.glb.mode) (h3 : m.hst.stopN = a.hst.stopN) (h4 : m.hst.stopSrc = a.hst.stopSrc)
    (h5 : m.fgd.headPwr = a.fgd.headPwr) (h6 : m.fgd.wdgRefreshed = a.fgd.wdgRefreshed)
    (h7 : m.fgd.wdgExpired = a.fgd.wdgExpired) (h8 : m.fgd.fatalCause = a.fgd.fatalCause) : Mach.powerSafe m := by
  intro hp
  have := h (h5 ▸ hp)
  simpa [Mach.pwrOff, h1, h2, h3, h4, h6, h7, h8] using this


@[simp] theorem raiseVector_frame (m : Mach) (v : Nat) :
    (m.raiseVector v).glb = m.glb ∧ (m.raiseVector v).sec = m.sec ∧ (m.raiseVector v).xfer = m.xfer ∧
    (m.raiseVector v).otp = m.otp ∧ (m.raiseVector v).nand = m.nand ∧ (m.raiseVector v).finals = m.finals ∧
    (m.raiseVector v).chn = m.chn ∧ (m.raiseVector v).dtm = m.dtm ∧ (m.raiseVector v).eth = m.eth ∧
    (m.raiseVector v).vgp = m.vgp ∧ (m.raiseVector v).cmp = m.cmp ∧ (m.raiseVector v).epo = m.epo ∧
    (m.raiseVector v).trv = m.trv ∧ (m.raiseVector v).fgd = m.fgd ∧ (m.raiseVector v).skx = m.skx ∧
    (m.raiseVector v).cam = m.cam ∧ (m.raiseVector v).cls = m.cls ∧ (m.raiseVector v).drm = m.drm ∧
    (m.raiseVector v).mot = m.mot ∧ (m.raiseVector v).thm = m.thm ∧ (m.raiseVector v).pwr = m.pwr ∧
    (m.raiseVector v).cal = m.cal ∧ (m.raiseVector v).loStage = m.loStage ∧
    (m.raiseVector v).hiLatch = m.hiLatch ∧ (m.raiseVector v).dram = m.dram ∧ (m.raiseVector v).stn = m.stn ∧
    (m.raiseVector v).ptn = m.ptn ∧ (m.raiseVector v).regs = m.regs ∧ (m.raiseVector v).hst.stopN = m.hst.stopN ∧
    (m.raiseVector v).hst.stopSrc = m.hst.stopSrc := by
  unfold Mach.raiseVector
  try dsimp only
  refine ⟨?_, ?_, ?_, ?_, ?_, ?_, ?_, ?_, ?_, ?_, ?_, ?_, ?_, ?_, ?_, ?_, ?_, ?_, ?_, ?_, ?_, ?_, ?_, ?_, ?_, ?_, ?_, ?_, ?_, ?_⟩ <;>
    (repeat' (first | with_reducible rfl | split | simp))

@[simp] theorem notify_frame (m : Mach) (v : Nat) (bypass : Bool) :
    (m.notify v bypass).glb = m.glb ∧ (m.notify v bypass).sec = m.sec ∧ (m.notify v bypass).xfer = m.xfer ∧
    (m.notify v bypass).otp = m.otp ∧ (m.notify v bypass).nand = m.nand ∧ (m.notify v bypass).finals = m.finals ∧
    (m.notify v bypass).chn = m.chn ∧ (m.notify v bypass).dtm = m.dtm ∧ (m.notify v bypass).eth = m.eth ∧
    (m.notify v bypass).vgp = m.vgp ∧ (m.notify v bypass).cmp = m.cmp ∧ (m.notify v bypass).epo = m.epo ∧
    (m.notify v bypass).trv = m.trv ∧ (m.notify v bypass).fgd = m.fgd ∧ (m.notify v bypass).skx = m.skx ∧
    (m.notify v bypass).cam = m.cam ∧ (m.notify v bypass).cls = m.cls ∧ (m.notify v bypass).drm = m.drm ∧
    (m.notify v bypass).mot = m.mot ∧ (m.notify v bypass).thm = m.thm ∧ (m.notify v bypass).pwr = m.pwr ∧
    (m.notify v bypass).cal = m.cal ∧ (m.notify v bypass).loStage = m.loStage ∧
    (m.notify v bypass).hiLatch = m.hiLatch ∧ (m.notify v bypass).dram = m.dram ∧
    (m.notify v bypass).stn = m.stn ∧ (m.notify v bypass).ptn = m.ptn ∧ (m.notify v bypass).regs = m.regs ∧
    (m.notify v bypass).hst.stopN = m.hst.stopN ∧ (m.notify v bypass).hst.stopSrc = m.hst.stopSrc := by
  unfold Mach.notify
  try dsimp only
  refine ⟨?_, ?_, ?_, ?_, ?_, ?_, ?_, ?_, ?_, ?_, ?_, ?_, ?_, ?_, ?_, ?_, ?_, ?_, ?_, ?_, ?_, ?_, ?_, ?_, ?_, ?_, ?_, ?_, ?_, ?_⟩ <;>
    (repeat' (first | with_reducible rfl | split | simp))

@[simp] theorem setRing_frame (m : Mach) (r : Nat) (x : Ring) :
    (m.setRing r x).hst.stopN = m.hst.stopN ∧ (m.setRing r x).hst.stopSrc = m.hst.stopSrc ∧
    (m.setRing r x).hst.stopped = m.hst.stopped := by
  unfold Mach.setRing
  try dsimp only
  refine ⟨?_, ?_, ?_⟩ <;>
    (repeat' (first | with_reducible rfl | split | simp))

@[simp] theorem takeDesc_frame (m : Mach) (h : DescRef) :
    (m.takeDesc h).glb = m.glb ∧ (m.takeDesc h).sec = m.sec ∧ (m.takeDesc h).xfer = m.xfer ∧
    (m.takeDesc h).otp = m.otp ∧ (m.takeDesc h).nand = m.nand ∧ (m.takeDesc h).finals = m.finals ∧
    (m.takeDesc h).chn = m.chn ∧ (m.takeDesc h).dtm = m.dtm ∧ (m.takeDesc h).eth = m.eth ∧
    (m.takeDesc h).vgp = m.vgp ∧ (m.takeDesc h).cmp = m.cmp ∧ (m.takeDesc h).epo = m.epo ∧
    (m.takeDesc h).trv = m.trv ∧ (m.takeDesc h).fgd = m.fgd ∧ (m.takeDesc h).skx = m.skx ∧
    (m.takeDesc h).cam = m.cam ∧ (m.takeDesc h).cls = m.cls ∧ (m.takeDesc h).drm = m.drm ∧
    (m.takeDesc h).mot = m.mot ∧ (m.takeDesc h).thm = m.thm ∧ (m.takeDesc h).pwr = m.pwr ∧
    (m.takeDesc h).cal = m.cal ∧ (m.takeDesc h).loStage = m.loStage ∧ (m.takeDesc h).hiLatch = m.hiLatch ∧
    (m.takeDesc h).dram = m.dram ∧ (m.takeDesc h).stn = m.stn ∧ (m.takeDesc h).ptn = m.ptn ∧
    (m.takeDesc h).regs = m.regs ∧ (m.takeDesc h).out = m.out ∧ (m.takeDesc h).evt = m.evt ∧
    (m.takeDesc h).hst.stopped = m.hst.stopped ∧ (m.takeDesc h).hst.stopN = m.hst.stopN ∧
    (m.takeDesc h).hst.stopSrc = m.hst.stopSrc := by
  unfold Mach.takeDesc
  try dsimp only
  refine ⟨?_, ?_, ?_, ?_, ?_, ?_, ?_, ?_, ?_, ?_, ?_, ?_, ?_, ?_, ?_, ?_, ?_, ?_, ?_, ?_, ?_, ?_, ?_, ?_, ?_, ?_, ?_, ?_, ?_, ?_, ?_, ?_, ?_⟩ <;>
    (repeat' (first | with_reducible rfl | split | simp))

@[simp] theorem raise_frame (m : Mach) (e : Ev) (sev : Sev) (a0 a1 : Nat) :
    (m.raise e sev a0 a1).hst.stopN = m.hst.stopN ∧ (m.raise e sev a0 a1).hst.stopSrc = m.hst.stopSrc := by
  unfold Mach.raise
  try dsimp only
  refine ⟨?_, ?_⟩ <;>
    (repeat' (first | with_reducible rfl | split | simp))

@[simp] theorem raiseRated_frame (m : Mach) (e : Ev) (source : Nat) (sev : Sev) (a0 a1 n : Nat) (join : Nat × Nat → Nat × Nat → Nat × Nat) :
    (m.raiseRated e source sev a0 a1 n join).hst.stopN = m.hst.stopN ∧
    (m.raiseRated e source sev a0 a1 n join).hst.stopSrc = m.hst.stopSrc := by
  unfold Mach.raiseRated
  try dsimp only
  refine ⟨?_, ?_⟩ <;>
    (repeat' (first | with_reducible rfl | split | simp))

@[simp] theorem ringWrite_frame (m : Mach) (r : Nat) (entry : List Byte) :
    (m.ringWrite r entry).glb = m.glb ∧ (m.ringWrite r entry).sec = m.sec ∧ (m.ringWrite r entry).xfer = m.xfer ∧
    (m.ringWrite r entry).otp = m.otp ∧ (m.ringWrite r entry).nand = m.nand ∧
    (m.ringWrite r entry).finals = m.finals ∧ (m.ringWrite r entry).chn = m.chn ∧
    (m.ringWrite r entry).dtm = m.dtm ∧ (m.ringWrite r entry).eth = m.eth ∧ (m.ringWrite r entry).vgp = m.vgp ∧
    (m.ringWrite r entry).cmp = m.cmp ∧ (m.ringWrite r entry).epo = m.epo ∧ (m.ringWrite r entry).trv = m.trv ∧
    (m.ringWrite r entry).fgd = m.fgd ∧ (m.ringWrite r entry).skx = m.skx ∧ (m.ringWrite r entry).cam = m.cam ∧
    (m.ringWrite r entry).cls = m.cls ∧ (m.ringWrite r entry).drm = m.drm ∧ (m.ringWrite r entry).mot = m.mot ∧
    (m.ringWrite r entry).thm = m.thm ∧ (m.ringWrite r entry).pwr = m.pwr ∧ (m.ringWrite r entry).cal = m.cal ∧
    (m.ringWrite r entry).loStage = m.loStage ∧ (m.ringWrite r entry).hiLatch = m.hiLatch ∧
    (m.ringWrite r entry).dram = m.dram ∧ (m.ringWrite r entry).stn = m.stn ∧ (m.ringWrite r entry).ptn = m.ptn ∧
    (m.ringWrite r entry).regs = m.regs ∧ (m.ringWrite r entry).hst.stopN = m.hst.stopN ∧
    (m.ringWrite r entry).hst.stopSrc = m.hst.stopSrc := by
  unfold Mach.ringWrite
  try dsimp only
  refine ⟨?_, ?_, ?_, ?_, ?_, ?_, ?_, ?_, ?_, ?_, ?_, ?_, ?_, ?_, ?_, ?_, ?_, ?_, ?_, ?_, ?_, ?_, ?_, ?_, ?_, ?_, ?_, ?_, ?_, ?_⟩ <;>
    (repeat' (first | with_reducible rfl | split | simp))

@[simp] theorem ringNotify_frame (m : Mach) (r : Nat) (wanted : Bool) :
    (m.ringNotify r wanted).glb = m.glb ∧ (m.ringNotify r wanted).sec = m.sec ∧
    (m.ringNotify r wanted).xfer = m.xfer ∧ (m.ringNotify r wanted).otp = m.otp ∧
    (m.ringNotify r wanted).nand = m.nand ∧ (m.ringNotify r wanted).finals = m.finals ∧
    (m.ringNotify r wanted).chn = m.chn ∧ (m.ringNotify r wanted).dtm = m.dtm ∧
    (m.ringNotify r wanted).eth = m.eth ∧ (m.ringNotify r wanted).vgp = m.vgp ∧
    (m.ringNotify r wanted).cmp = m.cmp ∧ (m.ringNotify r wanted).epo = m.epo ∧
    (m.ringNotify r wanted).trv = m.trv ∧ (m.ringNotify r wanted).fgd = m.fgd ∧
    (m.ringNotify r wanted).skx = m.skx ∧ (m.ringNotify r wanted).cam = m.cam ∧
    (m.ringNotify r wanted).cls = m.cls ∧ (m.ringNotify r wanted).drm = m.drm ∧
    (m.ringNotify r wanted).mot = m.mot ∧ (m.ringNotify r wanted).thm = m.thm ∧
    (m.ringNotify r wanted).pwr = m.pwr ∧ (m.ringNotify r wanted).cal = m.cal ∧
    (m.ringNotify r wanted).loStage = m.loStage ∧ (m.ringNotify r wanted).hiLatch = m.hiLatch ∧
    (m.ringNotify r wanted).dram = m.dram ∧ (m.ringNotify r wanted).stn = m.stn ∧
    (m.ringNotify r wanted).ptn = m.ptn ∧ (m.ringNotify r wanted).regs = m.regs ∧
    (m.ringNotify r wanted).hst.stopN = m.hst.stopN ∧ (m.ringNotify r wanted).hst.stopSrc = m.hst.stopSrc := by
  unfold Mach.ringNotify
  try dsimp only
  refine ⟨?_, ?_, ?_, ?_, ?_, ?_, ?_, ?_, ?_, ?_, ?_, ?_, ?_, ?_, ?_, ?_, ?_, ?_, ?_, ?_, ?_, ?_, ?_, ?_, ?_, ?_, ?_, ?_, ?_, ?_⟩ <;>
    (repeat' (first | with_reducible rfl | split | simp))

@[simp] theorem cplRecord_frame (m : Mach) (c : Cpl) :
    (m.cplRecord c).glb = m.glb ∧ (m.cplRecord c).sec = m.sec ∧ (m.cplRecord c).xfer = m.xfer ∧
    (m.cplRecord c).otp = m.otp ∧ (m.cplRecord c).nand = m.nand ∧ (m.cplRecord c).finals = m.finals ∧
    (m.cplRecord c).chn = m.chn ∧ (m.cplRecord c).dtm = m.dtm ∧ (m.cplRecord c).eth = m.eth ∧
    (m.cplRecord c).vgp = m.vgp ∧ (m.cplRecord c).cmp = m.cmp ∧ (m.cplRecord c).epo = m.epo ∧
    (m.cplRecord c).trv = m.trv ∧ (m.cplRecord c).fgd = m.fgd ∧ (m.cplRecord c).skx = m.skx ∧
    (m.cplRecord c).cam = m.cam ∧ (m.cplRecord c).cls = m.cls ∧ (m.cplRecord c).drm = m.drm ∧
    (m.cplRecord c).mot = m.mot ∧ (m.cplRecord c).thm = m.thm ∧ (m.cplRecord c).pwr = m.pwr ∧
    (m.cplRecord c).cal = m.cal ∧ (m.cplRecord c).loStage = m.loStage ∧ (m.cplRecord c).hiLatch = m.hiLatch ∧
    (m.cplRecord c).dram = m.dram ∧ (m.cplRecord c).stn = m.stn ∧ (m.cplRecord c).ptn = m.ptn ∧
    (m.cplRecord c).hst = m.hst := by
  unfold Mach.cplRecord
  try dsimp only
  refine ⟨?_, ?_, ?_, ?_, ?_, ?_, ?_, ?_, ?_, ?_, ?_, ?_, ?_, ?_, ?_, ?_, ?_, ?_, ?_, ?_, ?_, ?_, ?_, ?_, ?_, ?_, ?_, ?_⟩ <;>
    (repeat' (first | with_reducible rfl | split | simp))

@[simp] theorem setWaiting_frame (m : Mach) (target : Nat) (l : List Cpl) :
    (m.setWaiting target l).glb = m.glb ∧ (m.setWaiting target l).sec = m.sec ∧
    (m.setWaiting target l).xfer = m.xfer ∧ (m.setWaiting target l).otp = m.otp ∧
    (m.setWaiting target l).nand = m.nand ∧ (m.setWaiting target l).finals = m.finals ∧
    (m.setWaiting target l).chn = m.chn ∧ (m.setWaiting target l).dtm = m.dtm ∧
    (m.setWaiting target l).eth = m.eth ∧ (m.setWaiting target l).vgp = m.vgp ∧
    (m.setWaiting target l).cmp = m.cmp ∧ (m.setWaiting target l).epo = m.epo ∧
    (m.setWaiting target l).trv = m.trv ∧ (m.setWaiting target l).fgd = m.fgd ∧
    (m.setWaiting target l).skx = m.skx ∧ (m.setWaiting target l).cam = m.cam ∧
    (m.setWaiting target l).cls = m.cls ∧ (m.setWaiting target l).drm = m.drm ∧
    (m.setWaiting target l).mot = m.mot ∧ (m.setWaiting target l).thm = m.thm ∧
    (m.setWaiting target l).pwr = m.pwr ∧ (m.setWaiting target l).cal = m.cal ∧
    (m.setWaiting target l).loStage = m.loStage ∧ (m.setWaiting target l).hiLatch = m.hiLatch ∧
    (m.setWaiting target l).dram = m.dram ∧ (m.setWaiting target l).stn = m.stn ∧
    (m.setWaiting target l).ptn = m.ptn ∧ (m.setWaiting target l).regs = m.regs ∧
    (m.setWaiting target l).out = m.out ∧ (m.setWaiting target l).evt = m.evt ∧
    (m.setWaiting target l).hst.stopN = m.hst.stopN ∧ (m.setWaiting target l).hst.stopSrc = m.hst.stopSrc := by
  unfold Mach.setWaiting
  try dsimp only
  refine ⟨?_, ?_, ?_, ?_, ?_, ?_, ?_, ?_, ?_, ?_, ?_, ?_, ?_, ?_, ?_, ?_, ?_, ?_, ?_, ?_, ?_, ?_, ?_, ?_, ?_, ?_, ?_, ?_, ?_, ?_, ?_, ?_⟩ <;>
    (repeat' (first | with_reducible rfl | split | simp))

@[simp] theorem ringBarred_frame (m : Mach) (r : Nat) (sev : Sev) :
    (m.ringBarred r sev).glb = m.glb ∧ (m.ringBarred r sev).sec = m.sec ∧ (m.ringBarred r sev).xfer = m.xfer ∧
    (m.ringBarred r sev).otp = m.otp ∧ (m.ringBarred r sev).nand = m.nand ∧
    (m.ringBarred r sev).finals = m.finals ∧ (m.ringBarred r sev).chn = m.chn ∧
    (m.ringBarred r sev).dtm = m.dtm ∧ (m.ringBarred r sev).eth = m.eth ∧ (m.ringBarred r sev).vgp = m.vgp ∧
    (m.ringBarred r sev).cmp = m.cmp ∧ (m.ringBarred r sev).epo = m.epo ∧ (m.ringBarred r sev).trv = m.trv ∧
    (m.ringBarred r sev).fgd = m.fgd ∧ (m.ringBarred r sev).skx = m.skx ∧ (m.ringBarred r sev).cam = m.cam ∧
    (m.ringBarred r sev).cls = m.cls ∧ (m.ringBarred r sev).drm = m.drm ∧ (m.ringBarred r sev).mot = m.mot ∧
    (m.ringBarred r sev).thm = m.thm ∧ (m.ringBarred r sev).pwr = m.pwr ∧ (m.ringBarred r sev).cal = m.cal ∧
    (m.ringBarred r sev).loStage = m.loStage ∧ (m.ringBarred r sev).hiLatch = m.hiLatch ∧
    (m.ringBarred r sev).dram = m.dram ∧ (m.ringBarred r sev).stn = m.stn ∧ (m.ringBarred r sev).ptn = m.ptn ∧
    (m.ringBarred r sev).hst.stopN = m.hst.stopN ∧ (m.ringBarred r sev).hst.stopSrc = m.hst.stopSrc := by
  unfold Mach.ringBarred
  try dsimp only
  refine ⟨?_, ?_, ?_, ?_, ?_, ?_, ?_, ?_, ?_, ?_, ?_, ?_, ?_, ?_, ?_, ?_, ?_, ?_, ?_, ?_, ?_, ?_, ?_, ?_, ?_, ?_, ?_, ?_, ?_⟩ <;>
    (repeat' (first | with_reducible rfl | split | simp))

@[simp] theorem recWrite_frame (m : Mach) (r : Rec) :
    (m.recWrite r).glb = m.glb ∧ (m.recWrite r).sec = m.sec ∧ (m.recWrite r).xfer = m.xfer ∧
    (m.recWrite r).otp = m.otp ∧ (m.recWrite r).nand = m.nand ∧ (m.recWrite r).finals = m.finals ∧
    (m.recWrite r).chn = m.chn ∧ (m.recWrite r).dtm = m.dtm ∧ (m.recWrite r).eth = m.eth ∧
    (m.recWrite r).vgp = m.vgp ∧ (m.recWrite r).cmp = m.cmp ∧ (m.recWrite r).epo = m.epo ∧
    (m.recWrite r).trv = m.trv ∧ (m.recWrite r).fgd = m.fgd ∧ (m.recWrite r).skx = m.skx ∧
    (m.recWrite r).cam = m.cam ∧ (m.recWrite r).cls = m.cls ∧ (m.recWrite r).drm = m.drm ∧
    (m.recWrite r).mot = m.mot ∧ (m.recWrite r).thm = m.thm ∧ (m.recWrite r).pwr = m.pwr ∧
    (m.recWrite r).cal = m.cal ∧ (m.recWrite r).loStage = m.loStage ∧ (m.recWrite r).hiLatch = m.hiLatch ∧
    (m.recWrite r).dram = m.dram ∧ (m.recWrite r).stn = m.stn ∧ (m.recWrite r).ptn = m.ptn ∧
    (m.recWrite r).hst.stopN = m.hst.stopN ∧ (m.recWrite r).hst.stopSrc = m.hst.stopSrc := by
  unfold Mach.recWrite
  try dsimp only
  refine ⟨?_, ?_, ?_, ?_, ?_, ?_, ?_, ?_, ?_, ?_, ?_, ?_, ?_, ?_, ?_, ?_, ?_, ?_, ?_, ?_, ?_, ?_, ?_, ?_, ?_, ?_, ?_, ?_, ?_⟩ <;>
    (repeat' (first | with_reducible rfl | split | simp))

@[simp] theorem recDrain_frame (m : Mach) (n : Nat) :
    (m.recDrain n).glb = m.glb ∧ (m.recDrain n).sec = m.sec ∧ (m.recDrain n).xfer = m.xfer ∧
    (m.recDrain n).otp = m.otp ∧ (m.recDrain n).nand = m.nand ∧ (m.recDrain n).finals = m.finals ∧
    (m.recDrain n).chn = m.chn ∧ (m.recDrain n).dtm = m.dtm ∧ (m.recDrain n).eth = m.eth ∧
    (m.recDrain n).vgp = m.vgp ∧ (m.recDrain n).cmp = m.cmp ∧ (m.recDrain n).epo = m.epo ∧
    (m.recDrain n).trv = m.trv ∧ (m.recDrain n).fgd = m.fgd ∧ (m.recDrain n).skx = m.skx ∧
    (m.recDrain n).cam = m.cam ∧ (m.recDrain n).cls = m.cls ∧ (m.recDrain n).drm = m.drm ∧
    (m.recDrain n).mot = m.mot ∧ (m.recDrain n).thm = m.thm ∧ (m.recDrain n).pwr = m.pwr ∧
    (m.recDrain n).cal = m.cal ∧ (m.recDrain n).loStage = m.loStage ∧ (m.recDrain n).hiLatch = m.hiLatch ∧
    (m.recDrain n).dram = m.dram ∧ (m.recDrain n).stn = m.stn ∧ (m.recDrain n).ptn = m.ptn ∧
    (m.recDrain n).hst.stopN = m.hst.stopN ∧ (m.recDrain n).hst.stopSrc = m.hst.stopSrc := by
  induction n generalizing m with
  | zero => simp [Mach.recDrain]
  | succ n ih =>
    unfold Mach.recDrain
    refine ⟨?_, ?_, ?_, ?_, ?_, ?_, ?_, ?_, ?_, ?_, ?_, ?_, ?_, ?_, ?_, ?_, ?_, ?_, ?_, ?_, ?_, ?_, ?_, ?_, ?_, ?_, ?_, ?_, ?_⟩ <;>
    (split <;> first | rfl | (split <;> simp [ih]))

@[simp] theorem bookBar_frame (m : Mach) :
    m.bookBar.glb = m.glb ∧ m.bookBar.sec = m.sec ∧ m.bookBar.xfer = m.xfer ∧ m.bookBar.otp = m.otp ∧
    m.bookBar.nand = m.nand ∧ m.bookBar.finals = m.finals ∧ m.bookBar.chn = m.chn ∧ m.bookBar.dtm = m.dtm ∧
    m.bookBar.eth = m.eth ∧ m.bookBar.vgp = m.vgp ∧ m.bookBar.cmp = m.cmp ∧ m.bookBar.epo = m.epo ∧
    m.bookBar.trv = m.trv ∧ m.bookBar.fgd = m.fgd ∧ m.bookBar.skx = m.skx ∧ m.bookBar.cam = m.cam ∧
    m.bookBar.cls = m.cls ∧ m.bookBar.drm = m.drm ∧ m.bookBar.mot = m.mot ∧ m.bookBar.thm = m.thm ∧
    m.bookBar.pwr = m.pwr ∧ m.bookBar.cal = m.cal ∧ m.bookBar.loStage = m.loStage ∧
    m.bookBar.hiLatch = m.hiLatch ∧ m.bookBar.dram = m.dram ∧ m.bookBar.stn = m.stn ∧ m.bookBar.ptn = m.ptn ∧
    m.bookBar.hst.stopN = m.hst.stopN ∧ m.bookBar.hst.stopSrc = m.hst.stopSrc := by
  unfold Mach.bookBar
  try dsimp only
  refine ⟨?_, ?_, ?_, ?_, ?_, ?_, ?_, ?_, ?_, ?_, ?_, ?_, ?_, ?_, ?_, ?_, ?_, ?_, ?_, ?_, ?_, ?_, ?_, ?_, ?_, ?_, ?_, ?_, ?_⟩ <;>
    (repeat' (first | with_reducible rfl | split | simp))

@[simp] theorem bookDrain_frame (m : Mach) :
    m.bookDrain.glb = m.glb ∧ m.bookDrain.sec = m.sec ∧ m.bookDrain.xfer = m.xfer ∧ m.bookDrain.otp = m.otp ∧
    m.bookDrain.nand = m.nand ∧ m.bookDrain.finals = m.finals ∧ m.bookDrain.chn = m.chn ∧
    m.bookDrain.dtm = m.dtm ∧ m.bookDrain.eth = m.eth ∧ m.bookDrain.vgp = m.vgp ∧ m.bookDrain.cmp = m.cmp ∧
    m.bookDrain.epo = m.epo ∧ m.bookDrain.trv = m.trv ∧ m.bookDrain.fgd = m.fgd ∧ m.bookDrain.skx = m.skx ∧
    m.bookDrain.cam = m.cam ∧ m.bookDrain.cls = m.cls ∧ m.bookDrain.drm = m.drm ∧ m.bookDrain.mot = m.mot ∧
    m.bookDrain.thm = m.thm ∧ m.bookDrain.pwr = m.pwr ∧ m.bookDrain.cal = m.cal ∧
    m.bookDrain.loStage = m.loStage ∧ m.bookDrain.hiLatch = m.hiLatch ∧ m.bookDrain.dram = m.dram ∧
    m.bookDrain.stn = m.stn ∧ m.bookDrain.ptn = m.ptn ∧ m.bookDrain.hst.stopN = m.hst.stopN ∧
    m.bookDrain.hst.stopSrc = m.hst.stopSrc := by
  unfold Mach.bookDrain
  try dsimp only
  refine ⟨?_, ?_, ?_, ?_, ?_, ?_, ?_, ?_, ?_, ?_, ?_, ?_, ?_, ?_, ?_, ?_, ?_, ?_, ?_, ?_, ?_, ?_, ?_, ?_, ?_, ?_, ?_, ?_, ?_⟩ <;>
    (repeat' (first | with_reducible rfl | split | simp))

@[simp] theorem cqPut_frame (m : Mach) (target : Nat) (c : Cpl) :
    (m.cqPut target c).glb = m.glb ∧ (m.cqPut target c).sec = m.sec ∧ (m.cqPut target c).xfer = m.xfer ∧
    (m.cqPut target c).otp = m.otp ∧ (m.cqPut target c).nand = m.nand ∧ (m.cqPut target c).finals = m.finals ∧
    (m.cqPut target c).chn = m.chn ∧ (m.cqPut target c).dtm = m.dtm ∧ (m.cqPut target c).eth = m.eth ∧
    (m.cqPut target c).vgp = m.vgp ∧ (m.cqPut target c).cmp = m.cmp ∧ (m.cqPut target c).epo = m.epo ∧
    (m.cqPut target c).trv = m.trv ∧ (m.cqPut target c).fgd = m.fgd ∧ (m.cqPut target c).skx = m.skx ∧
    (m.cqPut target c).cam = m.cam ∧ (m.cqPut target c).cls = m.cls ∧ (m.cqPut target c).drm = m.drm ∧
    (m.cqPut target c).mot = m.mot ∧ (m.cqPut target c).thm = m.thm ∧ (m.cqPut target c).pwr = m.pwr ∧
    (m.cqPut target c).cal = m.cal ∧ (m.cqPut target c).loStage = m.loStage ∧
    (m.cqPut target c).hiLatch = m.hiLatch ∧ (m.cqPut target c).dram = m.dram ∧ (m.cqPut target c).stn = m.stn ∧
    (m.cqPut target c).ptn = m.ptn ∧ (m.cqPut target c).hst.stopN = m.hst.stopN ∧
    (m.cqPut target c).hst.stopSrc = m.hst.stopSrc := by
  unfold Mach.cqPut
  try dsimp only
  refine ⟨?_, ?_, ?_, ?_, ?_, ?_, ?_, ?_, ?_, ?_, ?_, ?_, ?_, ?_, ?_, ?_, ?_, ?_, ?_, ?_, ?_, ?_, ?_, ?_, ?_, ?_, ?_, ?_, ?_⟩ <;>
    (repeat' (first | with_reducible rfl | split | simp))

@[simp] theorem ctrlDrain_frame (m : Mach) (t n : Nat) :
    (m.ctrlDrain t n).glb = m.glb ∧ (m.ctrlDrain t n).sec = m.sec ∧ (m.ctrlDrain t n).xfer = m.xfer ∧
    (m.ctrlDrain t n).otp = m.otp ∧ (m.ctrlDrain t n).nand = m.nand ∧ (m.ctrlDrain t n).finals = m.finals ∧
    (m.ctrlDrain t n).chn = m.chn ∧ (m.ctrlDrain t n).dtm = m.dtm ∧ (m.ctrlDrain t n).eth = m.eth ∧
    (m.ctrlDrain t n).vgp = m.vgp ∧ (m.ctrlDrain t n).cmp = m.cmp ∧ (m.ctrlDrain t n).epo = m.epo ∧
    (m.ctrlDrain t n).trv = m.trv ∧ (m.ctrlDrain t n).fgd = m.fgd ∧ (m.ctrlDrain t n).skx = m.skx ∧
    (m.ctrlDrain t n).cam = m.cam ∧ (m.ctrlDrain t n).cls = m.cls ∧ (m.ctrlDrain t n).drm = m.drm ∧
    (m.ctrlDrain t n).mot = m.mot ∧ (m.ctrlDrain t n).thm = m.thm ∧ (m.ctrlDrain t n).pwr = m.pwr ∧
    (m.ctrlDrain t n).cal = m.cal ∧ (m.ctrlDrain t n).loStage = m.loStage ∧
    (m.ctrlDrain t n).hiLatch = m.hiLatch ∧ (m.ctrlDrain t n).dram = m.dram ∧ (m.ctrlDrain t n).stn = m.stn ∧
    (m.ctrlDrain t n).ptn = m.ptn ∧ (m.ctrlDrain t n).hst.stopN = m.hst.stopN ∧
    (m.ctrlDrain t n).hst.stopSrc = m.hst.stopSrc := by
  induction n generalizing m with
  | zero => simp [Mach.ctrlDrain]
  | succ n ih =>
    unfold Mach.ctrlDrain
    refine ⟨?_, ?_, ?_, ?_, ?_, ?_, ?_, ?_, ?_, ?_, ?_, ?_, ?_, ?_, ?_, ?_, ?_, ?_, ?_, ?_, ?_, ?_, ?_, ?_, ?_, ?_, ?_, ?_, ?_⟩ <;>
    (split <;> first | rfl | (split <;> simp [ih]))

@[simp] theorem drainFirst_frame (m : Mach) :
    m.drainFirst.glb = m.glb ∧ m.drainFirst.sec = m.sec ∧ m.drainFirst.xfer = m.xfer ∧ m.drainFirst.otp = m.otp ∧
    m.drainFirst.nand = m.nand ∧ m.drainFirst.finals = m.finals ∧ m.drainFirst.chn = m.chn ∧
    m.drainFirst.dtm = m.dtm ∧ m.drainFirst.eth = m.eth ∧ m.drainFirst.vgp = m.vgp ∧ m.drainFirst.cmp = m.cmp ∧
    m.drainFirst.epo = m.epo ∧ m.drainFirst.trv = m.trv ∧ m.drainFirst.fgd = m.fgd ∧ m.drainFirst.skx = m.skx ∧
    m.drainFirst.cam = m.cam ∧ m.drainFirst.cls = m.cls ∧ m.drainFirst.drm = m.drm ∧ m.drainFirst.mot = m.mot ∧
    m.drainFirst.thm = m.thm ∧ m.drainFirst.pwr = m.pwr ∧ m.drainFirst.cal = m.cal ∧
    m.drainFirst.loStage = m.loStage ∧ m.drainFirst.hiLatch = m.hiLatch ∧ m.drainFirst.dram = m.dram ∧
    m.drainFirst.stn = m.stn ∧ m.drainFirst.ptn = m.ptn ∧ m.drainFirst.hst.stopN = m.hst.stopN ∧
    m.drainFirst.hst.stopSrc = m.hst.stopSrc := by
  unfold Mach.drainFirst
  dsimp only
  refine ⟨?_, ?_, ?_, ?_, ?_, ?_, ?_, ?_, ?_, ?_, ?_, ?_, ?_, ?_, ?_, ?_, ?_, ?_, ?_, ?_, ?_, ?_, ?_, ?_, ?_, ?_, ?_, ?_, ?_⟩
  · split
    · simp
    · exact (foldl_keeps (fun m => m.glb) _ (fun _ _ => by simp) _ _).trans (by simp)
  · split
    · simp
    · exact (foldl_keeps (fun m => m.sec) _ (fun _ _ => by simp) _ _).trans (by simp)
  · split
    · simp
    · exact (foldl_keeps (fun m => m.xfer) _ (fun _ _ => by simp) _ _).trans (by simp)
  · split
    · simp
    · exact (foldl_keeps (fun m => m.otp) _ (fun _ _ => by simp) _ _).trans (by simp)
  · split
    · simp
    · exact (foldl_keeps (fun m => m.nand) _ (fun _ _ => by simp) _ _).trans (by simp)
  · split
    · simp
    · exact (foldl_keeps (fun m => m.finals) _ (fun _ _ => by simp) _ _).trans (by simp)
  · split
    · simp
    · exact (foldl_keeps (fun m => m.chn) _ (fun _ _ => by simp) _ _).trans (by simp)
  · split
    · simp
    · exact (foldl_keeps (fun m => m.dtm) _ (fun _ _ => by simp) _ _).trans (by simp)
  · split
    · simp
    · exact (foldl_keeps (fun m => m.eth) _ (fun _ _ => by simp) _ _).trans (by simp)
  · split
    · simp
    · exact (foldl_keeps (fun m => m.vgp) _ (fun _ _ => by simp) _ _).trans (by simp)
  · split
    · simp
    · exact (foldl_keeps (fun m => m.cmp) _ (fun _ _ => by simp) _ _).trans (by simp)
  · split
    · simp
    · exact (foldl_keeps (fun m => m.epo) _ (fun _ _ => by simp) _ _).trans (by simp)
  · split
    · simp
    · exact (foldl_keeps (fun m => m.trv) _ (fun _ _ => by simp) _ _).trans (by simp)
  · split
    · simp
    · exact (foldl_keeps (fun m => m.fgd) _ (fun _ _ => by simp) _ _).trans (by simp)
  · split
    · simp
    · exact (foldl_keeps (fun m => m.skx) _ (fun _ _ => by simp) _ _).trans (by simp)
  · split
    · simp
    · exact (foldl_keeps (fun m => m.cam) _ (fun _ _ => by simp) _ _).trans (by simp)
  · split
    · simp
    · exact (foldl_keeps (fun m => m.cls) _ (fun _ _ => by simp) _ _).trans (by simp)
  · split
    · simp
    · exact (foldl_keeps (fun m => m.drm) _ (fun _ _ => by simp) _ _).trans (by simp)
  · split
    · simp
    · exact (foldl_keeps (fun m => m.mot) _ (fun _ _ => by simp) _ _).trans (by simp)
  · split
    · simp
    · exact (foldl_keeps (fun m => m.thm) _ (fun _ _ => by simp) _ _).trans (by simp)
  · split
    · simp
    · exact (foldl_keeps (fun m => m.pwr) _ (fun _ _ => by simp) _ _).trans (by simp)
  · split
    · simp
    · exact (foldl_keeps (fun m => m.cal) _ (fun _ _ => by simp) _ _).trans (by simp)
  · split
    · simp
    · exact (foldl_keeps (fun m => m.loStage) _ (fun _ _ => by simp) _ _).trans (by simp)
  · split
    · simp
    · exact (foldl_keeps (fun m => m.hiLatch) _ (fun _ _ => by simp) _ _).trans (by simp)
  · split
    · simp
    · exact (foldl_keeps (fun m => m.dram) _ (fun _ _ => by simp) _ _).trans (by simp)
  · split
    · simp
    · exact (foldl_keeps (fun m => m.stn) _ (fun _ _ => by simp) _ _).trans (by simp)
  · split
    · simp
    · exact (foldl_keeps (fun m => m.ptn) _ (fun _ _ => by simp) _ _).trans (by simp)
  · split
    · simp
    · exact (foldl_keeps (fun m => m.hst.stopN) _ (fun _ _ => by simp) _ _).trans (by simp)
  · split
    · simp
    · exact (foldl_keeps (fun m => m.hst.stopSrc) _ (fun _ _ => by simp) _ _).trans (by simp)

@[simp] theorem cqWrite_frame (m : Mach) (target : Nat) (c : Cpl) :
    (m.cqWrite target c).glb = m.glb ∧ (m.cqWrite target c).sec = m.sec ∧ (m.cqWrite target c).xfer = m.xfer ∧
    (m.cqWrite target c).otp = m.otp ∧ (m.cqWrite target c).nand = m.nand ∧
    (m.cqWrite target c).finals = m.finals ∧ (m.cqWrite target c).chn = m.chn ∧
    (m.cqWrite target c).dtm = m.dtm ∧ (m.cqWrite target c).eth = m.eth ∧ (m.cqWrite target c).vgp = m.vgp ∧
    (m.cqWrite target c).cmp = m.cmp ∧ (m.cqWrite target c).epo = m.epo ∧ (m.cqWrite target c).trv = m.trv ∧
    (m.cqWrite target c).fgd = m.fgd ∧ (m.cqWrite target c).skx = m.skx ∧ (m.cqWrite target c).cam = m.cam ∧
    (m.cqWrite target c).cls = m.cls ∧ (m.cqWrite target c).drm = m.drm ∧ (m.cqWrite target c).mot = m.mot ∧
    (m.cqWrite target c).thm = m.thm ∧ (m.cqWrite target c).pwr = m.pwr ∧ (m.cqWrite target c).cal = m.cal ∧
    (m.cqWrite target c).loStage = m.loStage ∧ (m.cqWrite target c).hiLatch = m.hiLatch ∧
    (m.cqWrite target c).dram = m.dram ∧ (m.cqWrite target c).stn = m.stn ∧ (m.cqWrite target c).ptn = m.ptn ∧
    (m.cqWrite target c).hst.stopN = m.hst.stopN ∧ (m.cqWrite target c).hst.stopSrc = m.hst.stopSrc := by
  unfold Mach.cqWrite
  try dsimp only
  refine ⟨?_, ?_, ?_, ?_, ?_, ?_, ?_, ?_, ?_, ?_, ?_, ?_, ?_, ?_, ?_, ?_, ?_, ?_, ?_, ?_, ?_, ?_, ?_, ?_, ?_, ?_, ?_, ?_, ?_⟩ <;>
    (repeat' (first | with_reducible rfl | split | simp))

@[simp] theorem cplSend_frame (m : Mach) (target : Nat) (c : Cpl) :
    (m.cplSend target c).glb = m.glb ∧ (m.cplSend target c).sec = m.sec ∧ (m.cplSend target c).xfer = m.xfer ∧
    (m.cplSend target c).otp = m.otp ∧ (m.cplSend target c).nand = m.nand ∧
    (m.cplSend target c).finals = m.finals ∧ (m.cplSend target c).chn = m.chn ∧
    (m.cplSend target c).dtm = m.dtm ∧ (m.cplSend target c).eth = m.eth ∧ (m.cplSend target c).vgp = m.vgp ∧
    (m.cplSend target c).cmp = m.cmp ∧ (m.cplSend target c).epo = m.epo ∧ (m.cplSend target c).trv = m.trv ∧
    (m.cplSend target c).fgd = m.fgd ∧ (m.cplSend target c).skx = m.skx ∧ (m.cplSend target c).cam = m.cam ∧
    (m.cplSend target c).cls = m.cls ∧ (m.cplSend target c).drm = m.drm ∧ (m.cplSend target c).mot = m.mot ∧
    (m.cplSend target c).thm = m.thm ∧ (m.cplSend target c).pwr = m.pwr ∧ (m.cplSend target c).cal = m.cal ∧
    (m.cplSend target c).loStage = m.loStage ∧ (m.cplSend target c).hiLatch = m.hiLatch ∧
    (m.cplSend target c).dram = m.dram ∧ (m.cplSend target c).stn = m.stn ∧ (m.cplSend target c).ptn = m.ptn ∧
    (m.cplSend target c).hst.stopN = m.hst.stopN ∧ (m.cplSend target c).hst.stopSrc = m.hst.stopSrc := by
  unfold Mach.cplSend
  try dsimp only
  refine ⟨?_, ?_, ?_, ?_, ?_, ?_, ?_, ?_, ?_, ?_, ?_, ?_, ?_, ?_, ?_, ?_, ?_, ?_, ?_, ?_, ?_, ?_, ?_, ?_, ?_, ?_, ?_, ?_, ?_⟩ <;>
    (repeat' (first | with_reducible rfl | split | simp))

@[simp] theorem cplQueue_frame (m : Mach) (target : Nat) (c : Cpl) :
    (m.cplQueue target c).glb = m.glb ∧ (m.cplQueue target c).sec = m.sec ∧ (m.cplQueue target c).xfer = m.xfer ∧
    (m.cplQueue target c).otp = m.otp ∧ (m.cplQueue target c).nand = m.nand ∧
    (m.cplQueue target c).finals = m.finals ∧ (m.cplQueue target c).chn = m.chn ∧
    (m.cplQueue target c).dtm = m.dtm ∧ (m.cplQueue target c).eth = m.eth ∧ (m.cplQueue target c).vgp = m.vgp ∧
    (m.cplQueue target c).cmp = m.cmp ∧ (m.cplQueue target c).epo = m.epo ∧ (m.cplQueue target c).trv = m.trv ∧
    (m.cplQueue target c).fgd = m.fgd ∧ (m.cplQueue target c).skx = m.skx ∧ (m.cplQueue target c).cam = m.cam ∧
    (m.cplQueue target c).cls = m.cls ∧ (m.cplQueue target c).drm = m.drm ∧ (m.cplQueue target c).mot = m.mot ∧
    (m.cplQueue target c).thm = m.thm ∧ (m.cplQueue target c).pwr = m.pwr ∧ (m.cplQueue target c).cal = m.cal ∧
    (m.cplQueue target c).loStage = m.loStage ∧ (m.cplQueue target c).hiLatch = m.hiLatch ∧
    (m.cplQueue target c).dram = m.dram ∧ (m.cplQueue target c).stn = m.stn ∧ (m.cplQueue target c).ptn = m.ptn ∧
    (m.cplQueue target c).hst.stopN = m.hst.stopN ∧ (m.cplQueue target c).hst.stopSrc = m.hst.stopSrc := by
  unfold Mach.cplQueue
  try dsimp only
  refine ⟨?_, ?_, ?_, ?_, ?_, ?_, ?_, ?_, ?_, ?_, ?_, ?_, ?_, ?_, ?_, ?_, ?_, ?_, ?_, ?_, ?_, ?_, ?_, ?_, ?_, ?_, ?_, ?_, ?_⟩ <;>
    (repeat' (first | with_reducible rfl | split | simp))

@[simp] theorem complete_frame (m : Mach) (h : DescRef) (c : Cpl) :
    (m.complete h c).glb = m.glb ∧ (m.complete h c).sec = m.sec ∧ (m.complete h c).xfer = m.xfer ∧
    (m.complete h c).otp = m.otp ∧ (m.complete h c).nand = m.nand ∧ (m.complete h c).finals = m.finals ∧
    (m.complete h c).chn = m.chn ∧ (m.complete h c).dtm = m.dtm ∧ (m.complete h c).eth = m.eth ∧
    (m.complete h c).vgp = m.vgp ∧ (m.complete h c).cmp = m.cmp ∧ (m.complete h c).epo = m.epo ∧
    (m.complete h c).trv = m.trv ∧ (m.complete h c).fgd = m.fgd ∧ (m.complete h c).skx = m.skx ∧
    (m.complete h c).cam = m.cam ∧ (m.complete h c).cls = m.cls ∧ (m.complete h c).drm = m.drm ∧
    (m.complete h c).mot = m.mot ∧ (m.complete h c).thm = m.thm ∧ (m.complete h c).pwr = m.pwr ∧
    (m.complete h c).cal = m.cal ∧ (m.complete h c).loStage = m.loStage ∧ (m.complete h c).hiLatch = m.hiLatch ∧
    (m.complete h c).dram = m.dram ∧ (m.complete h c).stn = m.stn ∧ (m.complete h c).ptn = m.ptn ∧
    (m.complete h c).hst.stopN = m.hst.stopN ∧ (m.complete h c).hst.stopSrc = m.hst.stopSrc := by
  unfold Mach.complete
  try dsimp only
  refine ⟨?_, ?_, ?_, ?_, ?_, ?_, ?_, ?_, ?_, ?_, ?_, ?_, ?_, ?_, ?_, ?_, ?_, ?_, ?_, ?_, ?_, ?_, ?_, ?_, ?_, ?_, ?_, ?_, ?_⟩ <;>
    (repeat' (first | with_reducible rfl | split | simp))

@[simp] theorem done_frame (m : Mach) (h : DescRef) (st : Status) :
    (m.done h st).glb = m.glb ∧ (m.done h st).sec = m.sec ∧ (m.done h st).xfer = m.xfer ∧
    (m.done h st).otp = m.otp ∧ (m.done h st).nand = m.nand ∧ (m.done h st).finals = m.finals ∧
    (m.done h st).chn = m.chn ∧ (m.done h st).dtm = m.dtm ∧ (m.done h st).eth = m.eth ∧
    (m.done h st).vgp = m.vgp ∧ (m.done h st).cmp = m.cmp ∧ (m.done h st).epo = m.epo ∧
    (m.done h st).trv = m.trv ∧ (m.done h st).fgd = m.fgd ∧ (m.done h st).skx = m.skx ∧
    (m.done h st).cam = m.cam ∧ (m.done h st).cls = m.cls ∧ (m.done h st).drm = m.drm ∧
    (m.done h st).mot = m.mot ∧ (m.done h st).thm = m.thm ∧ (m.done h st).pwr = m.pwr ∧
    (m.done h st).cal = m.cal ∧ (m.done h st).loStage = m.loStage ∧ (m.done h st).hiLatch = m.hiLatch ∧
    (m.done h st).dram = m.dram ∧ (m.done h st).stn = m.stn ∧ (m.done h st).ptn = m.ptn ∧
    (m.done h st).hst.stopN = m.hst.stopN ∧ (m.done h st).hst.stopSrc = m.hst.stopSrc := by
  unfold Mach.done
  try dsimp only
  refine ⟨?_, ?_, ?_, ?_, ?_, ?_, ?_, ?_, ?_, ?_, ?_, ?_, ?_, ?_, ?_, ?_, ?_, ?_, ?_, ?_, ?_, ?_, ?_, ?_, ?_, ?_, ?_, ?_, ?_⟩ <;>
    (repeat' (first | with_reducible rfl | split | simp))

@[simp] theorem sendSymbol_frame (m : Mach) (lanes : List Nat) (k : Nat) :
    (m.sendSymbol lanes k).glb = m.glb ∧ (m.sendSymbol lanes k).sec = m.sec ∧
    (m.sendSymbol lanes k).xfer = m.xfer ∧ (m.sendSymbol lanes k).otp = m.otp ∧
    (m.sendSymbol lanes k).nand = m.nand ∧ (m.sendSymbol lanes k).finals = m.finals ∧
    (m.sendSymbol lanes k).chn = m.chn ∧ (m.sendSymbol lanes k).dtm = m.dtm ∧
    (m.sendSymbol lanes k).eth = m.eth ∧ (m.sendSymbol lanes k).vgp = m.vgp ∧
    (m.sendSymbol lanes k).cmp = m.cmp ∧ (m.sendSymbol lanes k).epo = m.epo ∧
    (m.sendSymbol lanes k).trv = m.trv ∧ (m.sendSymbol lanes k).fgd = m.fgd ∧
    (m.sendSymbol lanes k).skx = m.skx ∧ (m.sendSymbol lanes k).cam = m.cam ∧
    (m.sendSymbol lanes k).cls = m.cls ∧ (m.sendSymbol lanes k).drm = m.drm ∧
    (m.sendSymbol lanes k).mot = m.mot ∧ (m.sendSymbol lanes k).thm = m.thm ∧
    (m.sendSymbol lanes k).pwr = m.pwr ∧ (m.sendSymbol lanes k).cal = m.cal ∧
    (m.sendSymbol lanes k).loStage = m.loStage ∧ (m.sendSymbol lanes k).hiLatch = m.hiLatch ∧
    (m.sendSymbol lanes k).dram = m.dram ∧ (m.sendSymbol lanes k).stn = m.stn ∧
    (m.sendSymbol lanes k).ptn = m.ptn ∧ (m.sendSymbol lanes k).regs = m.regs ∧
    (m.sendSymbol lanes k).evt = m.evt ∧ (m.sendSymbol lanes k).hst = m.hst := by
  unfold Mach.sendSymbol
  refine ⟨?_, ?_, ?_, ?_, ?_, ?_, ?_, ?_, ?_, ?_, ?_, ?_, ?_, ?_, ?_, ?_, ?_, ?_, ?_, ?_, ?_, ?_, ?_, ?_, ?_, ?_, ?_, ?_, ?_, ?_⟩
  · exact foldl_keeps (fun m => m.glb) _ (fun _ _ => by simp) _ _
  · exact foldl_keeps (fun m => m.sec) _ (fun _ _ => by simp) _ _
  · exact foldl_keeps (fun m => m.xfer) _ (fun _ _ => by simp) _ _
  · exact foldl_keeps (fun m => m.otp) _ (fun _ _ => by simp) _ _
  · exact foldl_keeps (fun m => m.nand) _ (fun _ _ => by simp) _ _
  · exact foldl_keeps (fun m => m.finals) _ (fun _ _ => by simp) _ _
  · exact foldl_keeps (fun m => m.chn) _ (fun _ _ => by simp) _ _
  · exact foldl_keeps (fun m => m.dtm) _ (fun _ _ => by simp) _ _
  · exact foldl_keeps (fun m => m.eth) _ (fun _ _ => by simp) _ _
  · exact foldl_keeps (fun m => m.vgp) _ (fun _ _ => by simp) _ _
  · exact foldl_keeps (fun m => m.cmp) _ (fun _ _ => by simp) _ _
  · exact foldl_keeps (fun m => m.epo) _ (fun _ _ => by simp) _ _
  · exact foldl_keeps (fun m => m.trv) _ (fun _ _ => by simp) _ _
  · exact foldl_keeps (fun m => m.fgd) _ (fun _ _ => by simp) _ _
  · exact foldl_keeps (fun m => m.skx) _ (fun _ _ => by simp) _ _
  · exact foldl_keeps (fun m => m.cam) _ (fun _ _ => by simp) _ _
  · exact foldl_keeps (fun m => m.cls) _ (fun _ _ => by simp) _ _
  · exact foldl_keeps (fun m => m.drm) _ (fun _ _ => by simp) _ _
  · exact foldl_keeps (fun m => m.mot) _ (fun _ _ => by simp) _ _
  · exact foldl_keeps (fun m => m.thm) _ (fun _ _ => by simp) _ _
  · exact foldl_keeps (fun m => m.pwr) _ (fun _ _ => by simp) _ _
  · exact foldl_keeps (fun m => m.cal) _ (fun _ _ => by simp) _ _
  · exact foldl_keeps (fun m => m.loStage) _ (fun _ _ => by simp) _ _
  · exact foldl_keeps (fun m => m.hiLatch) _ (fun _ _ => by simp) _ _
  · exact foldl_keeps (fun m => m.dram) _ (fun _ _ => by simp) _ _
  · exact foldl_keeps (fun m => m.stn) _ (fun _ _ => by simp) _ _
  · exact foldl_keeps (fun m => m.ptn) _ (fun _ _ => by simp) _ _
  · exact foldl_keeps (fun m => m.regs) _ (fun _ _ => by simp) _ _
  · exact foldl_keeps (fun m => m.evt) _ (fun _ _ => by simp) _ _
  · exact foldl_keeps (fun m => m.hst) _ (fun _ _ => by simp) _ _

@[simp] theorem sendIdle_frame (m : Mach) (lanes : List Nat) :
    (m.sendIdle lanes).glb = m.glb ∧ (m.sendIdle lanes).sec = m.sec ∧ (m.sendIdle lanes).xfer = m.xfer ∧
    (m.sendIdle lanes).otp = m.otp ∧ (m.sendIdle lanes).nand = m.nand ∧ (m.sendIdle lanes).finals = m.finals ∧
    (m.sendIdle lanes).chn = m.chn ∧ (m.sendIdle lanes).dtm = m.dtm ∧ (m.sendIdle lanes).eth = m.eth ∧
    (m.sendIdle lanes).vgp = m.vgp ∧ (m.sendIdle lanes).cmp = m.cmp ∧ (m.sendIdle lanes).epo = m.epo ∧
    (m.sendIdle lanes).trv = m.trv ∧ (m.sendIdle lanes).fgd = m.fgd ∧ (m.sendIdle lanes).skx = m.skx ∧
    (m.sendIdle lanes).cam = m.cam ∧ (m.sendIdle lanes).cls = m.cls ∧ (m.sendIdle lanes).drm = m.drm ∧
    (m.sendIdle lanes).mot = m.mot ∧ (m.sendIdle lanes).thm = m.thm ∧ (m.sendIdle lanes).pwr = m.pwr ∧
    (m.sendIdle lanes).cal = m.cal ∧ (m.sendIdle lanes).loStage = m.loStage ∧
    (m.sendIdle lanes).hiLatch = m.hiLatch ∧ (m.sendIdle lanes).dram = m.dram ∧ (m.sendIdle lanes).stn = m.stn ∧
    (m.sendIdle lanes).ptn = m.ptn ∧ (m.sendIdle lanes).regs = m.regs ∧ (m.sendIdle lanes).evt = m.evt ∧
    (m.sendIdle lanes).hst = m.hst := by
  unfold Mach.sendIdle
  refine ⟨?_, ?_, ?_, ?_, ?_, ?_, ?_, ?_, ?_, ?_, ?_, ?_, ?_, ?_, ?_, ?_, ?_, ?_, ?_, ?_, ?_, ?_, ?_, ?_, ?_, ?_, ?_, ?_, ?_, ?_⟩
  · exact foldl_keeps (fun m => m.glb) _ (fun _ _ => by simp) _ _
  · exact foldl_keeps (fun m => m.sec) _ (fun _ _ => by simp) _ _
  · exact foldl_keeps (fun m => m.xfer) _ (fun _ _ => by simp) _ _
  · exact foldl_keeps (fun m => m.otp) _ (fun _ _ => by simp) _ _
  · exact foldl_keeps (fun m => m.nand) _ (fun _ _ => by simp) _ _
  · exact foldl_keeps (fun m => m.finals) _ (fun _ _ => by simp) _ _
  · exact foldl_keeps (fun m => m.chn) _ (fun _ _ => by simp) _ _
  · exact foldl_keeps (fun m => m.dtm) _ (fun _ _ => by simp) _ _
  · exact foldl_keeps (fun m => m.eth) _ (fun _ _ => by simp) _ _
  · exact foldl_keeps (fun m => m.vgp) _ (fun _ _ => by simp) _ _
  · exact foldl_keeps (fun m => m.cmp) _ (fun _ _ => by simp) _ _
  · exact foldl_keeps (fun m => m.epo) _ (fun _ _ => by simp) _ _
  · exact foldl_keeps (fun m => m.trv) _ (fun _ _ => by simp) _ _
  · exact foldl_keeps (fun m => m.fgd) _ (fun _ _ => by simp) _ _
  · exact foldl_keeps (fun m => m.skx) _ (fun _ _ => by simp) _ _
  · exact foldl_keeps (fun m => m.cam) _ (fun _ _ => by simp) _ _
  · exact foldl_keeps (fun m => m.cls) _ (fun _ _ => by simp) _ _
  · exact foldl_keeps (fun m => m.drm) _ (fun _ _ => by simp) _ _
  · exact foldl_keeps (fun m => m.mot) _ (fun _ _ => by simp) _ _
  · exact foldl_keeps (fun m => m.thm) _ (fun _ _ => by simp) _ _
  · exact foldl_keeps (fun m => m.pwr) _ (fun _ _ => by simp) _ _
  · exact foldl_keeps (fun m => m.cal) _ (fun _ _ => by simp) _ _
  · exact foldl_keeps (fun m => m.loStage) _ (fun _ _ => by simp) _ _
  · exact foldl_keeps (fun m => m.hiLatch) _ (fun _ _ => by simp) _ _
  · exact foldl_keeps (fun m => m.dram) _ (fun _ _ => by simp) _ _
  · exact foldl_keeps (fun m => m.stn) _ (fun _ _ => by simp) _ _
  · exact foldl_keeps (fun m => m.ptn) _ (fun _ _ => by simp) _ _
  · exact foldl_keeps (fun m => m.regs) _ (fun _ _ => by simp) _ _
  · exact foldl_keeps (fun m => m.evt) _ (fun _ _ => by simp) _ _
  · exact foldl_keeps (fun m => m.hst) _ (fun _ _ => by simp) _ _

@[simp] theorem sendPacket_frame (m : Mach) (lanes : List Nat) (kind : Nat) (d : List Byte) :
    (m.sendPacket lanes kind d).glb = m.glb ∧ (m.sendPacket lanes kind d).sec = m.sec ∧
    (m.sendPacket lanes kind d).xfer = m.xfer ∧ (m.sendPacket lanes kind d).otp = m.otp ∧
    (m.sendPacket lanes kind d).nand = m.nand ∧ (m.sendPacket lanes kind d).finals = m.finals ∧
    (m.sendPacket lanes kind d).chn = m.chn ∧ (m.sendPacket lanes kind d).dtm = m.dtm ∧
    (m.sendPacket lanes kind d).eth = m.eth ∧ (m.sendPacket lanes kind d).vgp = m.vgp ∧
    (m.sendPacket lanes kind d).cmp = m.cmp ∧ (m.sendPacket lanes kind d).epo = m.epo ∧
    (m.sendPacket lanes kind d).trv = m.trv ∧ (m.sendPacket lanes kind d).fgd = m.fgd ∧
    (m.sendPacket lanes kind d).skx = m.skx ∧ (m.sendPacket lanes kind d).cam = m.cam ∧
    (m.sendPacket lanes kind d).cls = m.cls ∧ (m.sendPacket lanes kind d).drm = m.drm ∧
    (m.sendPacket lanes kind d).mot = m.mot ∧ (m.sendPacket lanes kind d).thm = m.thm ∧
    (m.sendPacket lanes kind d).pwr = m.pwr ∧ (m.sendPacket lanes kind d).cal = m.cal ∧
    (m.sendPacket lanes kind d).loStage = m.loStage ∧ (m.sendPacket lanes kind d).hiLatch = m.hiLatch ∧
    (m.sendPacket lanes kind d).dram = m.dram ∧ (m.sendPacket lanes kind d).stn = m.stn ∧
    (m.sendPacket lanes kind d).ptn = m.ptn ∧ (m.sendPacket lanes kind d).regs = m.regs ∧
    (m.sendPacket lanes kind d).evt = m.evt ∧ (m.sendPacket lanes kind d).hst = m.hst := by
  unfold Mach.sendPacket
  simp only [sendSymbol_frame, sendIdle_frame]
  refine ⟨?_, ?_, ?_, ?_, ?_, ?_, ?_, ?_, ?_, ?_, ?_, ?_, ?_, ?_, ?_, ?_, ?_, ?_, ?_, ?_, ?_, ?_, ?_, ?_, ?_, ?_, ?_, ?_, ?_, ?_⟩
  · exact (foldl_keeps (fun m => m.glb) _ (fun _ _ => by simp) _ _).trans (by simp)
  · exact (foldl_keeps (fun m => m.sec) _ (fun _ _ => by simp) _ _).trans (by simp)
  · exact (foldl_keeps (fun m => m.xfer) _ (fun _ _ => by simp) _ _).trans (by simp)
  · exact (foldl_keeps (fun m => m.otp) _ (fun _ _ => by simp) _ _).trans (by simp)
  · exact (foldl_keeps (fun m => m.nand) _ (fun _ _ => by simp) _ _).trans (by simp)
  · exact (foldl_keeps (fun m => m.finals) _ (fun _ _ => by simp) _ _).trans (by simp)
  · exact (foldl_keeps (fun m => m.chn) _ (fun _ _ => by simp) _ _).trans (by simp)
  · exact (foldl_keeps (fun m => m.dtm) _ (fun _ _ => by simp) _ _).trans (by simp)
  · exact (foldl_keeps (fun m => m.eth) _ (fun _ _ => by simp) _ _).trans (by simp)
  · exact (foldl_keeps (fun m => m.vgp) _ (fun _ _ => by simp) _ _).trans (by simp)
  · exact (foldl_keeps (fun m => m.cmp) _ (fun _ _ => by simp) _ _).trans (by simp)
  · exact (foldl_keeps (fun m => m.epo) _ (fun _ _ => by simp) _ _).trans (by simp)
  · exact (foldl_keeps (fun m => m.trv) _ (fun _ _ => by simp) _ _).trans (by simp)
  · exact (foldl_keeps (fun m => m.fgd) _ (fun _ _ => by simp) _ _).trans (by simp)
  · exact (foldl_keeps (fun m => m.skx) _ (fun _ _ => by simp) _ _).trans (by simp)
  · exact (foldl_keeps (fun m => m.cam) _ (fun _ _ => by simp) _ _).trans (by simp)
  · exact (foldl_keeps (fun m => m.cls) _ (fun _ _ => by simp) _ _).trans (by simp)
  · exact (foldl_keeps (fun m => m.drm) _ (fun _ _ => by simp) _ _).trans (by simp)
  · exact (foldl_keeps (fun m => m.mot) _ (fun _ _ => by simp) _ _).trans (by simp)
  · exact (foldl_keeps (fun m => m.thm) _ (fun _ _ => by simp) _ _).trans (by simp)
  · exact (foldl_keeps (fun m => m.pwr) _ (fun _ _ => by simp) _ _).trans (by simp)
  · exact (foldl_keeps (fun m => m.cal) _ (fun _ _ => by simp) _ _).trans (by simp)
  · exact (foldl_keeps (fun m => m.loStage) _ (fun _ _ => by simp) _ _).trans (by simp)
  · exact (foldl_keeps (fun m => m.hiLatch) _ (fun _ _ => by simp) _ _).trans (by simp)
  · exact (foldl_keeps (fun m => m.dram) _ (fun _ _ => by simp) _ _).trans (by simp)
  · exact (foldl_keeps (fun m => m.stn) _ (fun _ _ => by simp) _ _).trans (by simp)
  · exact (foldl_keeps (fun m => m.ptn) _ (fun _ _ => by simp) _ _).trans (by simp)
  · exact (foldl_keeps (fun m => m.regs) _ (fun _ _ => by simp) _ _).trans (by simp)
  · exact (foldl_keeps (fun m => m.evt) _ (fun _ _ => by simp) _ _).trans (by simp)
  · exact (foldl_keeps (fun m => m.hst) _ (fun _ _ => by simp) _ _).trans (by simp)

@[simp] theorem sendFarsil_frame (m : Mach) (typ : Nat) (mid payload : List Byte) :
    (m.sendFarsil typ mid payload).glb = m.glb ∧ (m.sendFarsil typ mid payload).sec = m.sec ∧
    (m.sendFarsil typ mid payload).xfer = m.xfer ∧ (m.sendFarsil typ mid payload).otp = m.otp ∧
    (m.sendFarsil typ mid payload).nand = m.nand ∧ (m.sendFarsil typ mid payload).finals = m.finals ∧
    (m.sendFarsil typ mid payload).chn = m.chn ∧ (m.sendFarsil typ mid payload).dtm = m.dtm ∧
    (m.sendFarsil typ mid payload).eth = m.eth ∧ (m.sendFarsil typ mid payload).vgp = m.vgp ∧
    (m.sendFarsil typ mid payload).cmp = m.cmp ∧ (m.sendFarsil typ mid payload).epo = m.epo ∧
    (m.sendFarsil typ mid payload).trv = m.trv ∧ (m.sendFarsil typ mid payload).fgd = m.fgd ∧
    (m.sendFarsil typ mid payload).skx = m.skx ∧ (m.sendFarsil typ mid payload).cam = m.cam ∧
    (m.sendFarsil typ mid payload).cls = m.cls ∧ (m.sendFarsil typ mid payload).drm = m.drm ∧
    (m.sendFarsil typ mid payload).mot = m.mot ∧ (m.sendFarsil typ mid payload).thm = m.thm ∧
    (m.sendFarsil typ mid payload).pwr = m.pwr ∧ (m.sendFarsil typ mid payload).cal = m.cal ∧
    (m.sendFarsil typ mid payload).loStage = m.loStage ∧ (m.sendFarsil typ mid payload).hiLatch = m.hiLatch ∧
    (m.sendFarsil typ mid payload).dram = m.dram ∧ (m.sendFarsil typ mid payload).stn = m.stn ∧
    (m.sendFarsil typ mid payload).ptn = m.ptn ∧ (m.sendFarsil typ mid payload).regs = m.regs ∧
    (m.sendFarsil typ mid payload).evt = m.evt ∧ (m.sendFarsil typ mid payload).hst = m.hst := by
  unfold Mach.sendFarsil
  try dsimp only
  refine ⟨?_, ?_, ?_, ?_, ?_, ?_, ?_, ?_, ?_, ?_, ?_, ?_, ?_, ?_, ?_, ?_, ?_, ?_, ?_, ?_, ?_, ?_, ?_, ?_, ?_, ?_, ?_, ?_, ?_, ?_⟩ <;>
    (repeat' (first | with_reducible rfl | split | simp))

@[simp] theorem sendMirror_frame (m : Mach) (rs : List MirrorItem) :
    (m.sendMirror rs).glb = m.glb ∧ (m.sendMirror rs).sec = m.sec ∧ (m.sendMirror rs).xfer = m.xfer ∧
    (m.sendMirror rs).otp = m.otp ∧ (m.sendMirror rs).nand = m.nand ∧ (m.sendMirror rs).finals = m.finals ∧
    (m.sendMirror rs).chn = m.chn ∧ (m.sendMirror rs).dtm = m.dtm ∧ (m.sendMirror rs).eth = m.eth ∧
    (m.sendMirror rs).vgp = m.vgp ∧ (m.sendMirror rs).cmp = m.cmp ∧ (m.sendMirror rs).epo = m.epo ∧
    (m.sendMirror rs).trv = m.trv ∧ (m.sendMirror rs).fgd = m.fgd ∧ (m.sendMirror rs).skx = m.skx ∧
    (m.sendMirror rs).cam = m.cam ∧ (m.sendMirror rs).cls = m.cls ∧ (m.sendMirror rs).drm = m.drm ∧
    (m.sendMirror rs).mot = m.mot ∧ (m.sendMirror rs).thm = m.thm ∧ (m.sendMirror rs).pwr = m.pwr ∧
    (m.sendMirror rs).cal = m.cal ∧ (m.sendMirror rs).loStage = m.loStage ∧
    (m.sendMirror rs).hiLatch = m.hiLatch ∧ (m.sendMirror rs).dram = m.dram ∧ (m.sendMirror rs).stn = m.stn ∧
    (m.sendMirror rs).ptn = m.ptn ∧ (m.sendMirror rs).evt = m.evt ∧ (m.sendMirror rs).hst = m.hst := by
  unfold Mach.sendMirror
  refine ⟨?_, ?_, ?_, ?_, ?_, ?_, ?_, ?_, ?_, ?_, ?_, ?_, ?_, ?_, ?_, ?_, ?_, ?_, ?_, ?_, ?_, ?_, ?_, ?_, ?_, ?_, ?_, ?_, ?_⟩
  · exact foldl_keeps (fun m => m.glb) _ (fun _ _ => foldl_keeps (fun m => m.glb) _ (fun _ _ => by simp) _ _) _ _
  · exact foldl_keeps (fun m => m.sec) _ (fun _ _ => foldl_keeps (fun m => m.sec) _ (fun _ _ => by simp) _ _) _ _
  · exact foldl_keeps (fun m => m.xfer) _ (fun _ _ => foldl_keeps (fun m => m.xfer) _ (fun _ _ => by simp) _ _) _ _
  · exact foldl_keeps (fun m => m.otp) _ (fun _ _ => foldl_keeps (fun m => m.otp) _ (fun _ _ => by simp) _ _) _ _
  · exact foldl_keeps (fun m => m.nand) _ (fun _ _ => foldl_keeps (fun m => m.nand) _ (fun _ _ => by simp) _ _) _ _
  · exact foldl_keeps (fun m => m.finals) _ (fun _ _ => foldl_keeps (fun m => m.finals) _ (fun _ _ => by simp) _ _) _ _
  · exact foldl_keeps (fun m => m.chn) _ (fun _ _ => foldl_keeps (fun m => m.chn) _ (fun _ _ => by simp) _ _) _ _
  · exact foldl_keeps (fun m => m.dtm) _ (fun _ _ => foldl_keeps (fun m => m.dtm) _ (fun _ _ => by simp) _ _) _ _
  · exact foldl_keeps (fun m => m.eth) _ (fun _ _ => foldl_keeps (fun m => m.eth) _ (fun _ _ => by simp) _ _) _ _
  · exact foldl_keeps (fun m => m.vgp) _ (fun _ _ => foldl_keeps (fun m => m.vgp) _ (fun _ _ => by simp) _ _) _ _
  · exact foldl_keeps (fun m => m.cmp) _ (fun _ _ => foldl_keeps (fun m => m.cmp) _ (fun _ _ => by simp) _ _) _ _
  · exact foldl_keeps (fun m => m.epo) _ (fun _ _ => foldl_keeps (fun m => m.epo) _ (fun _ _ => by simp) _ _) _ _
  · exact foldl_keeps (fun m => m.trv) _ (fun _ _ => foldl_keeps (fun m => m.trv) _ (fun _ _ => by simp) _ _) _ _
  · exact foldl_keeps (fun m => m.fgd) _ (fun _ _ => foldl_keeps (fun m => m.fgd) _ (fun _ _ => by simp) _ _) _ _
  · exact foldl_keeps (fun m => m.skx) _ (fun _ _ => foldl_keeps (fun m => m.skx) _ (fun _ _ => by simp) _ _) _ _
  · exact foldl_keeps (fun m => m.cam) _ (fun _ _ => foldl_keeps (fun m => m.cam) _ (fun _ _ => by simp) _ _) _ _
  · exact foldl_keeps (fun m => m.cls) _ (fun _ _ => foldl_keeps (fun m => m.cls) _ (fun _ _ => by simp) _ _) _ _
  · exact foldl_keeps (fun m => m.drm) _ (fun _ _ => foldl_keeps (fun m => m.drm) _ (fun _ _ => by simp) _ _) _ _
  · exact foldl_keeps (fun m => m.mot) _ (fun _ _ => foldl_keeps (fun m => m.mot) _ (fun _ _ => by simp) _ _) _ _
  · exact foldl_keeps (fun m => m.thm) _ (fun _ _ => foldl_keeps (fun m => m.thm) _ (fun _ _ => by simp) _ _) _ _
  · exact foldl_keeps (fun m => m.pwr) _ (fun _ _ => foldl_keeps (fun m => m.pwr) _ (fun _ _ => by simp) _ _) _ _
  · exact foldl_keeps (fun m => m.cal) _ (fun _ _ => foldl_keeps (fun m => m.cal) _ (fun _ _ => by simp) _ _) _ _
  · exact foldl_keeps (fun m => m.loStage) _ (fun _ _ => foldl_keeps (fun m => m.loStage) _ (fun _ _ => by simp) _ _) _ _
  · exact foldl_keeps (fun m => m.hiLatch) _ (fun _ _ => foldl_keeps (fun m => m.hiLatch) _ (fun _ _ => by simp) _ _) _ _
  · exact foldl_keeps (fun m => m.dram) _ (fun _ _ => foldl_keeps (fun m => m.dram) _ (fun _ _ => by simp) _ _) _ _
  · exact foldl_keeps (fun m => m.stn) _ (fun _ _ => foldl_keeps (fun m => m.stn) _ (fun _ _ => by simp) _ _) _ _
  · exact foldl_keeps (fun m => m.ptn) _ (fun _ _ => foldl_keeps (fun m => m.ptn) _ (fun _ _ => by simp) _ _) _ _
  · exact foldl_keeps (fun m => m.evt) _ (fun _ _ => foldl_keeps (fun m => m.evt) _ (fun _ _ => by simp) _ _) _ _
  · exact foldl_keeps (fun m => m.hst) _ (fun _ _ => foldl_keeps (fun m => m.hst) _ (fun _ _ => by simp) _ _) _ _

@[simp] theorem mirror_frame (m : Mach) (isCommit : Bool) (body : MirrorRec) :
    (m.mirror isCommit body).glb = m.glb ∧ (m.mirror isCommit body).sec = m.sec ∧
    (m.mirror isCommit body).xfer = m.xfer ∧ (m.mirror isCommit body).otp = m.otp ∧
    (m.mirror isCommit body).nand = m.nand ∧ (m.mirror isCommit body).finals = m.finals ∧
    (m.mirror isCommit body).chn = m.chn ∧ (m.mirror isCommit body).dtm = m.dtm ∧
    (m.mirror isCommit body).eth = m.eth ∧ (m.mirror isCommit body).vgp = m.vgp ∧
    (m.mirror isCommit body).cmp = m.cmp ∧ (m.mirror isCommit body).epo = m.epo ∧
    (m.mirror isCommit body).trv = m.trv ∧ (m.mirror isCommit body).fgd = m.fgd ∧
    (m.mirror isCommit body).skx = m.skx ∧ (m.mirror isCommit body).cam = m.cam ∧
    (m.mirror isCommit body).cls = m.cls ∧ (m.mirror isCommit body).drm = m.drm ∧
    (m.mirror isCommit body).mot = m.mot ∧ (m.mirror isCommit body).thm = m.thm ∧
    (m.mirror isCommit body).pwr = m.pwr ∧ (m.mirror isCommit body).cal = m.cal ∧
    (m.mirror isCommit body).loStage = m.loStage ∧ (m.mirror isCommit body).hiLatch = m.hiLatch ∧
    (m.mirror isCommit body).dram = m.dram ∧ (m.mirror isCommit body).stn = m.stn ∧
    (m.mirror isCommit body).hst.stopN = m.hst.stopN ∧ (m.mirror isCommit body).hst.stopSrc = m.hst.stopSrc := by
  unfold Mach.mirror
  try dsimp only
  refine ⟨?_, ?_, ?_, ?_, ?_, ?_, ?_, ?_, ?_, ?_, ?_, ?_, ?_, ?_, ?_, ?_, ?_, ?_, ?_, ?_, ?_, ?_, ?_, ?_, ?_, ?_, ?_, ?_⟩ <;>
    (repeat' (first | with_reducible rfl | split | simp))

@[simp] theorem decide__frame (m : Mach) (typ : Nat) (c : Chainage) (v1 v2 : Nat) :
    (m.decide_ typ c v1 v2).glb = m.glb ∧ (m.decide_ typ c v1 v2).sec = m.sec ∧
    (m.decide_ typ c v1 v2).xfer = m.xfer ∧ (m.decide_ typ c v1 v2).otp = m.otp ∧
    (m.decide_ typ c v1 v2).nand = m.nand ∧ (m.decide_ typ c v1 v2).finals = m.finals ∧
    (m.decide_ typ c v1 v2).chn = m.chn ∧ (m.decide_ typ c v1 v2).dtm = m.dtm ∧
    (m.decide_ typ c v1 v2).eth = m.eth ∧ (m.decide_ typ c v1 v2).vgp = m.vgp ∧
    (m.decide_ typ c v1 v2).cmp = m.cmp ∧ (m.decide_ typ c v1 v2).epo = m.epo ∧
    (m.decide_ typ c v1 v2).trv = m.trv ∧ (m.decide_ typ c v1 v2).fgd = m.fgd ∧
    (m.decide_ typ c v1 v2).skx = m.skx ∧ (m.decide_ typ c v1 v2).cam = m.cam ∧
    (m.decide_ typ c v1 v2).cls = m.cls ∧ (m.decide_ typ c v1 v2).drm = m.drm ∧
    (m.decide_ typ c v1 v2).mot = m.mot ∧ (m.decide_ typ c v1 v2).thm = m.thm ∧
    (m.decide_ typ c v1 v2).pwr = m.pwr ∧ (m.decide_ typ c v1 v2).cal = m.cal ∧
    (m.decide_ typ c v1 v2).loStage = m.loStage ∧ (m.decide_ typ c v1 v2).hiLatch = m.hiLatch ∧
    (m.decide_ typ c v1 v2).dram = m.dram ∧ (m.decide_ typ c v1 v2).stn = m.stn ∧
    (m.decide_ typ c v1 v2).hst.stopN = m.hst.stopN ∧ (m.decide_ typ c v1 v2).hst.stopSrc = m.hst.stopSrc := by
  unfold Mach.decide_
  try dsimp only
  refine ⟨?_, ?_, ?_, ?_, ?_, ?_, ?_, ?_, ?_, ?_, ?_, ?_, ?_, ?_, ?_, ?_, ?_, ?_, ?_, ?_, ?_, ?_, ?_, ?_, ?_, ?_, ?_, ?_⟩ <;>
    (repeat' (first | with_reducible rfl | split | simp))

@[simp] theorem mirrorDesc_frame (m : Mach) (h : DescRef) (b : DescBody) (epoch : Word) (effect : Chainage) (isCommit : Bool) :
    (m.mirrorDesc h b epoch effect isCommit).glb = m.glb ∧ (m.mirrorDesc h b epoch effect isCommit).sec = m.sec ∧
    (m.mirrorDesc h b epoch effect isCommit).xfer = m.xfer ∧
    (m.mirrorDesc h b epoch effect isCommit).otp = m.otp ∧
    (m.mirrorDesc h b epoch effect isCommit).nand = m.nand ∧
    (m.mirrorDesc h b epoch effect isCommit).finals = m.finals ∧
    (m.mirrorDesc h b epoch effect isCommit).chn = m.chn ∧ (m.mirrorDesc h b epoch effect isCommit).dtm = m.dtm ∧
    (m.mirrorDesc h b epoch effect isCommit).eth = m.eth ∧ (m.mirrorDesc h b epoch effect isCommit).vgp = m.vgp ∧
    (m.mirrorDesc h b epoch effect isCommit).cmp = m.cmp ∧ (m.mirrorDesc h b epoch effect isCommit).epo = m.epo ∧
    (m.mirrorDesc h b epoch effect isCommit).trv = m.trv ∧ (m.mirrorDesc h b epoch effect isCommit).fgd = m.fgd ∧
    (m.mirrorDesc h b epoch effect isCommit).skx = m.skx ∧ (m.mirrorDesc h b epoch effect isCommit).cam = m.cam ∧
    (m.mirrorDesc h b epoch effect isCommit).cls = m.cls ∧ (m.mirrorDesc h b epoch effect isCommit).drm = m.drm ∧
    (m.mirrorDesc h b epoch effect isCommit).mot = m.mot ∧ (m.mirrorDesc h b epoch effect isCommit).thm = m.thm ∧
    (m.mirrorDesc h b epoch effect isCommit).pwr = m.pwr ∧ (m.mirrorDesc h b epoch effect isCommit).cal = m.cal ∧
    (m.mirrorDesc h b epoch effect isCommit).loStage = m.loStage ∧
    (m.mirrorDesc h b epoch effect isCommit).hiLatch = m.hiLatch ∧
    (m.mirrorDesc h b epoch effect isCommit).dram = m.dram ∧
    (m.mirrorDesc h b epoch effect isCommit).stn = m.stn ∧
    (m.mirrorDesc h b epoch effect isCommit).hst.stopN = m.hst.stopN ∧
    (m.mirrorDesc h b epoch effect isCommit).hst.stopSrc = m.hst.stopSrc := by
  unfold Mach.mirrorDesc
  try dsimp only
  refine ⟨?_, ?_, ?_, ?_, ?_, ?_, ?_, ?_, ?_, ?_, ?_, ?_, ?_, ?_, ?_, ?_, ?_, ?_, ?_, ?_, ?_, ?_, ?_, ?_, ?_, ?_, ?_, ?_⟩ <;>
    (repeat' (first | with_reducible rfl | split | simp))

@[simp] theorem driveLand_frame (m : Mach) (n : Nat) (was : Bool) :
    (m.driveLand n was).glb = m.glb ∧ (m.driveLand n was).sec = m.sec ∧ (m.driveLand n was).xfer = m.xfer ∧
    (m.driveLand n was).otp = m.otp ∧ (m.driveLand n was).nand = m.nand ∧ (m.driveLand n was).finals = m.finals ∧
    (m.driveLand n was).chn = m.chn ∧ (m.driveLand n was).dtm = m.dtm ∧ (m.driveLand n was).eth = m.eth ∧
    (m.driveLand n was).vgp = m.vgp ∧ (m.driveLand n was).cmp = m.cmp ∧ (m.driveLand n was).epo = m.epo ∧
    (m.driveLand n was).trv = m.trv ∧ (m.driveLand n was).fgd = m.fgd ∧ (m.driveLand n was).skx = m.skx ∧
    (m.driveLand n was).cam = m.cam ∧ (m.driveLand n was).cls = m.cls ∧ (m.driveLand n was).drm = m.drm ∧
    (m.driveLand n was).mot = m.mot ∧ (m.driveLand n was).thm = m.thm ∧ (m.driveLand n was).pwr = m.pwr ∧
    (m.driveLand n was).cal = m.cal ∧ (m.driveLand n was).loStage = m.loStage ∧
    (m.driveLand n was).hiLatch = m.hiLatch ∧ (m.driveLand n was).dram = m.dram ∧
    (m.driveLand n was).stn = m.stn ∧ (m.driveLand n was).ptn = m.ptn ∧ (m.driveLand n was).regs = m.regs ∧
    (m.driveLand n was).evt = m.evt ∧ (m.driveLand n was).hst = m.hst := by
  unfold Mach.driveLand
  try dsimp only
  refine ⟨?_, ?_, ?_, ?_, ?_, ?_, ?_, ?_, ?_, ?_, ?_, ?_, ?_, ?_, ?_, ?_, ?_, ?_, ?_, ?_, ?_, ?_, ?_, ?_, ?_, ?_, ?_, ?_, ?_, ?_⟩ <;>
    (repeat' (first | with_reducible rfl | split | simp))

@[simp] theorem setOut_frame (m : Mach) (n : Nat) (x : StnOut) :
    (m.setOut n x).glb = m.glb ∧ (m.setOut n x).sec = m.sec ∧ (m.setOut n x).xfer = m.xfer ∧
    (m.setOut n x).otp = m.otp ∧ (m.setOut n x).nand = m.nand ∧ (m.setOut n x).finals = m.finals ∧
    (m.setOut n x).chn = m.chn ∧ (m.setOut n x).dtm = m.dtm ∧ (m.setOut n x).eth = m.eth ∧
    (m.setOut n x).vgp = m.vgp ∧ (m.setOut n x).cmp = m.cmp ∧ (m.setOut n x).epo = m.epo ∧
    (m.setOut n x).trv = m.trv ∧ (m.setOut n x).fgd = m.fgd ∧ (m.setOut n x).skx = m.skx ∧
    (m.setOut n x).cam = m.cam ∧ (m.setOut n x).cls = m.cls ∧ (m.setOut n x).drm = m.drm ∧
    (m.setOut n x).mot = m.mot ∧ (m.setOut n x).thm = m.thm ∧ (m.setOut n x).pwr = m.pwr ∧
    (m.setOut n x).cal = m.cal ∧ (m.setOut n x).loStage = m.loStage ∧ (m.setOut n x).hiLatch = m.hiLatch ∧
    (m.setOut n x).dram = m.dram ∧ (m.setOut n x).ptn = m.ptn ∧ (m.setOut n x).regs = m.regs ∧
    (m.setOut n x).evt = m.evt ∧ (m.setOut n x).hst = m.hst := by
  unfold Mach.setOut
  try dsimp only
  refine ⟨?_, ?_, ?_, ?_, ?_, ?_, ?_, ?_, ?_, ?_, ?_, ?_, ?_, ?_, ?_, ?_, ?_, ?_, ?_, ?_, ?_, ?_, ?_, ?_, ?_, ?_, ?_, ?_, ?_⟩ <;>
    (repeat' (first | with_reducible rfl | split | simp))

@[simp] theorem outPulse_frame (m : Mach) (n width : Nat) :
    (m.outPulse n width).glb = m.glb ∧ (m.outPulse n width).sec = m.sec ∧ (m.outPulse n width).xfer = m.xfer ∧
    (m.outPulse n width).otp = m.otp ∧ (m.outPulse n width).nand = m.nand ∧
    (m.outPulse n width).finals = m.finals ∧ (m.outPulse n width).chn = m.chn ∧
    (m.outPulse n width).dtm = m.dtm ∧ (m.outPulse n width).eth = m.eth ∧ (m.outPulse n width).vgp = m.vgp ∧
    (m.outPulse n width).cmp = m.cmp ∧ (m.outPulse n width).epo = m.epo ∧ (m.outPulse n width).trv = m.trv ∧
    (m.outPulse n width).fgd = m.fgd ∧ (m.outPulse n width).skx = m.skx ∧ (m.outPulse n width).cam = m.cam ∧
    (m.outPulse n width).cls = m.cls ∧ (m.outPulse n width).drm = m.drm ∧ (m.outPulse n width).mot = m.mot ∧
    (m.outPulse n width).thm = m.thm ∧ (m.outPulse n width).pwr = m.pwr ∧ (m.outPulse n width).cal = m.cal ∧
    (m.outPulse n width).loStage = m.loStage ∧ (m.outPulse n width).hiLatch = m.hiLatch ∧
    (m.outPulse n width).dram = m.dram ∧ (m.outPulse n width).ptn = m.ptn ∧ (m.outPulse n width).hst = m.hst := by
  unfold Mach.outPulse
  try dsimp only
  refine ⟨?_, ?_, ?_, ?_, ?_, ?_, ?_, ?_, ?_, ?_, ?_, ?_, ?_, ?_, ?_, ?_, ?_, ?_, ?_, ?_, ?_, ?_, ?_, ?_, ?_, ?_, ?_⟩ <;>
    (repeat' (first | with_reducible rfl | split | simp))

@[simp] theorem endPulse_frame (m : Mach) (n : Nat) (active : Bool) (t : Nat) :
    (m.endPulse n active t).glb = m.glb ∧ (m.endPulse n active t).sec = m.sec ∧
    (m.endPulse n active t).xfer = m.xfer ∧ (m.endPulse n active t).otp = m.otp ∧
    (m.endPulse n active t).nand = m.nand ∧ (m.endPulse n active t).finals = m.finals ∧
    (m.endPulse n active t).chn = m.chn ∧ (m.endPulse n active t).dtm = m.dtm ∧
    (m.endPulse n active t).eth = m.eth ∧ (m.endPulse n active t).vgp = m.vgp ∧
    (m.endPulse n active t).cmp = m.cmp ∧ (m.endPulse n active t).epo = m.epo ∧
    (m.endPulse n active t).trv = m.trv ∧ (m.endPulse n active t).fgd = m.fgd ∧
    (m.endPulse n active t).skx = m.skx ∧ (m.endPulse n active t).cam = m.cam ∧
    (m.endPulse n active t).cls = m.cls ∧ (m.endPulse n active t).drm = m.drm ∧
    (m.endPulse n active t).mot = m.mot ∧ (m.endPulse n active t).thm = m.thm ∧
    (m.endPulse n active t).pwr = m.pwr ∧ (m.endPulse n active t).cal = m.cal ∧
    (m.endPulse n active t).loStage = m.loStage ∧ (m.endPulse n active t).hiLatch = m.hiLatch ∧
    (m.endPulse n active t).dram = m.dram ∧ (m.endPulse n active t).ptn = m.ptn := by
  unfold Mach.endPulse
  try dsimp only
  refine ⟨?_, ?_, ?_, ?_, ?_, ?_, ?_, ?_, ?_, ?_, ?_, ?_, ?_, ?_, ?_, ?_, ?_, ?_, ?_, ?_, ?_, ?_, ?_, ?_, ?_, ?_⟩ <;>
    (repeat' (first | with_reducible rfl | split | simp))

@[simp] theorem setSlot_frame (m : Mach) (n : Nat) (x : Slot) :
    (m.setSlot n x).glb = m.glb ∧ (m.setSlot n x).sec = m.sec ∧ (m.setSlot n x).xfer = m.xfer ∧
    (m.setSlot n x).otp = m.otp ∧ (m.setSlot n x).nand = m.nand ∧ (m.setSlot n x).finals = m.finals ∧
    (m.setSlot n x).chn = m.chn ∧ (m.setSlot n x).dtm = m.dtm ∧ (m.setSlot n x).eth = m.eth ∧
    (m.setSlot n x).vgp = m.vgp ∧ (m.setSlot n x).cmp = m.cmp ∧ (m.setSlot n x).epo = m.epo ∧
    (m.setSlot n x).trv = m.trv ∧ (m.setSlot n x).fgd = m.fgd ∧ (m.setSlot n x).skx = m.skx ∧
    (m.setSlot n x).cam = m.cam ∧ (m.setSlot n x).cls = m.cls ∧ (m.setSlot n x).drm = m.drm ∧
    (m.setSlot n x).mot = m.mot ∧ (m.setSlot n x).thm = m.thm ∧ (m.setSlot n x).pwr = m.pwr ∧
    (m.setSlot n x).cal = m.cal ∧ (m.setSlot n x).loStage = m.loStage ∧ (m.setSlot n x).hiLatch = m.hiLatch ∧
    (m.setSlot n x).dram = m.dram ∧ (m.setSlot n x).ptn = m.ptn ∧ (m.setSlot n x).regs = m.regs ∧
    (m.setSlot n x).out = m.out ∧ (m.setSlot n x).evt = m.evt ∧ (m.setSlot n x).hst = m.hst := by
  unfold Mach.setSlot
  try dsimp only
  refine ⟨?_, ?_, ?_, ?_, ?_, ?_, ?_, ?_, ?_, ?_, ?_, ?_, ?_, ?_, ?_, ?_, ?_, ?_, ?_, ?_, ?_, ?_, ?_, ?_, ?_, ?_, ?_, ?_, ?_, ?_⟩ <;>
    (repeat' (first | with_reducible rfl | split | simp))

@[simp] theorem slotTo_frame (m : Mach) (n : Nat) (x : Slot) (st : SlotState) :
    (m.slotTo n x st).glb = m.glb ∧ (m.slotTo n x st).sec = m.sec ∧ (m.slotTo n x st).xfer = m.xfer ∧
    (m.slotTo n x st).otp = m.otp ∧ (m.slotTo n x st).nand = m.nand ∧ (m.slotTo n x st).finals = m.finals ∧
    (m.slotTo n x st).chn = m.chn ∧ (m.slotTo n x st).dtm = m.dtm ∧ (m.slotTo n x st).eth = m.eth ∧
    (m.slotTo n x st).vgp = m.vgp ∧ (m.slotTo n x st).cmp = m.cmp ∧ (m.slotTo n x st).epo = m.epo ∧
    (m.slotTo n x st).trv = m.trv ∧ (m.slotTo n x st).fgd = m.fgd ∧ (m.slotTo n x st).skx = m.skx ∧
    (m.slotTo n x st).cam = m.cam ∧ (m.slotTo n x st).cls = m.cls ∧ (m.slotTo n x st).drm = m.drm ∧
    (m.slotTo n x st).mot = m.mot ∧ (m.slotTo n x st).thm = m.thm ∧ (m.slotTo n x st).pwr = m.pwr ∧
    (m.slotTo n x st).cal = m.cal ∧ (m.slotTo n x st).loStage = m.loStage ∧
    (m.slotTo n x st).hiLatch = m.hiLatch ∧ (m.slotTo n x st).dram = m.dram ∧
    (m.slotTo n x st).hst.stopN = m.hst.stopN ∧ (m.slotTo n x st).hst.stopSrc = m.hst.stopSrc := by
  unfold Mach.slotTo
  try dsimp only
  refine ⟨?_, ?_, ?_, ?_, ?_, ?_, ?_, ?_, ?_, ?_, ?_, ?_, ?_, ?_, ?_, ?_, ?_, ?_, ?_, ?_, ?_, ?_, ?_, ?_, ?_, ?_, ?_⟩ <;>
    (repeat' (first | with_reducible rfl | split | simp))

end

end Sys2Proof.Laws
end

