-- ==== Sys2Proof/WellFormed.lean ====
section
/-! DEFINITION. Which commands are well formed: every index a command names lies in the range the spec gives it, and
a BAR0 access is an access of 32 bits at an aligned offset of BAR0, or one of the accesses R14 answers otherwise. -/

namespace Sys2Proof

/-- A command that is well formed names only channels, slots, rings, engines, lanes, hubs, heads, axes and layers
that the module has. -/
def wellFormed (i : Instr) : Bool :=
  match i with
  | .registerWrite addr _ _ => decide (addr < 4194304)
  | .loReadLatch acc => decide (acc.addr < 4194304)
  | .pinLevelWrite _ => true
  | .dtmTick _ => true
  | .sincosSample ch _ _ _ => decide (ch < 5)
  | .amplitudeFault ch => decide (ch < 5)
  | .quadEdge ch _ _ _ => decide (ch < 5)
  | .transitionsFault ch => decide (ch < 5)
  | .toothEdge ch _ => decide (ch < 5)
  | .ssiRequest ch _ => decide (ch < 5)
  | .ssiWord ch _ _ => decide (ch < 5)
  | .wordsFault ch => decide (ch < 5)
  | .disagreeFault ch => decide (ch < 3)
  | .pairDisagreement => true
  | .probationPassed ch => decide (ch < 3)
  | .indexPulse ch => decide (ch < 5)
  | .indexMissing ch => decide (ch < 5)
  | .arm => true
  | .disarm => true
  | .readmit ch => decide (ch < 3)
  | .auxClear ch => decide (3 ≤ ch) && decide (ch < 5)
  | .slewCancel => true
  | .backstepRelease => true
  | .speedWindowEnd => true
  | .probeEdge n _ => decide (n < 8)
  | .stakePop n => decide (n < 8)
  | .stnCmdCommit slot => decide (slot < 256)
  | .stnCmdCancel slot => decide (slot < 256)
  | .stnCmdRead slot => decide (slot < 256)
  | .stnCommandTaken => true
  | .stationCrossing => true
  | .pulseEnd out => decide (out < 16)
  | .minGapEnd out => decide (out < 16)
  | .liftInhibitEnd group => decide (group < 4)
  | .rateLimitedRecord _ _ => true
  | .dtmIncrWrite _ _ _ => true
  | .dtmOffsetWrite _ _ _ => true
  | .dtmOffsetApplied => true
  | .dtmEpochWrite _ _ _ => true
  | .snap => true
  | .ptpFrameRx port _ _ => decide (port < 2)
  | .ptpFrameTx port _ _ _ _ _ => decide (port < 2)
  | .ptpSamplePost _ => true
  | .ptpPortStateChange _ _ _ => true
  | .ethLinkChange port _ => decide (port < 2)
  | .ptpFailover => true
  | .ethFrameRx port _ => decide (port < 2)
  | .beaconSample _ => true
  | .diagRead _ _ => true
  | .diagWrite _ _ => true
  | .functionLevelReset => true
  | .d3hotEntry => true
  | .pcieLinkDown => true
  | .pcieLinkUp _ _ => true
  | .ringEnable r => decide (r < 64)
  | .ringDisable r => decide (r < 64)
  | .doorbell page off _ => decide (page < 17) && decide (off < 4096)
  | .descriptorFetched r _ => decide (r < 64)
  | .hostDmaError _ _ => true
  | .completionQueued target => decide (target < 64)
  | .fieldbookDrain => true
  | .tlmSnapshot => true
  | .vectorHoldoffExpiry v => decide (v < 32)
  | .stopPageWrite => true
  | .stopNFall => true
  | .stopNRise => true
  | .hstStop => true
  | .stopRelease => true
  | .jobOpen _ _ => true
  | .jobImage _ _ _ => true
  | .streamSpaceResume => true
  | .jobClose _ _ => true
  | .jobArm _ _ => true
  | .jobDelete _ _ => true
  | .blockData _ _ _ => true
  | .jobEffectCrossed _ => true
  | .nop _ => true
  | .abort _ _ => true
  | .stop _ => true
  | .revoke _ _ => true
  | .mode _ _ => true
  | .stnCommit _ _ => true
  | .stnCancel _ slot => decide (slot < 256)
  | .item _ _ _ => true
  | .itemWaitResume layer => decide (layer < 8)
  | .fence _ layer _ => decide (layer < 8)
  | .tableCommit _ _ _ => true
  | .effectKnown _ => true
  | .buffer _ _ => true
  | .slotBind layer => decide (layer < 8)
  | .engineSelect e _ _ => decide (e < 80)
  | .swathRenderDone e => decide (e < 80)
  | .swathDeadline job plane _ => decide (job < 8) && decide (plane < 10)
  | .blockHorizonReached job layer plane _ => decide (job < 8) && decide (layer < 8) && decide (plane < 10)
  | .tileWaitResume e => decide (e < 80)
  | .parkOrderWrite _ => true
  | .parkStepChange => true
  | .clusterParked c => decide (c < 10)
  | .clusterWoken c => decide (c < 10)
  | .fireFetchStart job _ hub => decide (job < 8) && decide (hub < 40)
  | .fireFetchDone job _ hub => decide (job < 8) && decide (hub < 40)
  | .linePacketSent job _ hub => decide (job < 8) && decide (hub < 40)
  | .fireCommit job _ hub _ => decide (job < 8) && decide (hub < 40)
  | .downshiftBoundary => true
  | .tlmStale head => decide (head < 400)
  | .usageRecordWrite => true
  | .usageWriteRetry head => decide (head < 400)
  | .tableWindowWrite addr _ => decide (addr < 4194304)
  | .watchdogRefresh _ _ => true
  | .watchdogExpiry => true
  | .ceilingSave => true
  | .headPwrChange => true
  | .echoRx hub _ => decide (hub < 40)
  | .echoTimeout job _ hub => decide (job < 8) && decide (hub < 40)
  | .hubTlmRx hub _ => decide (hub < 40)
  | .grantRx hub _ => decide (hub < 40)
  | .ctrlReplyRx hub _ => decide (hub < 40)
  | .rxlostRx x => decide (x.lane < 42)
  | .alignMarkerDue => true
  | .skipDue lane => decide (lane < 42)
  | .heartbeatDue => true
  | .laneLockLost lane _ => decide (lane < 42)
  | .laneRetrain lane => decide (lane < 42)
  | .trainStepTimeout lane => decide (lane < 42)
  | .laneUp lane => decide (lane < 42)
  | .retrainRetry lane => decide (lane < 42)
  | .loopMeasure => true
  | .fomWindow lane _ => decide (lane < 42)
  | .hubDarkTimeout hub => decide (hub < 40)
  | .chkSelftest _ => true
  | .camDeviceEnable d => decide (d < 4)
  | .camBringupRetry d => decide (d < 4)
  | .cxpLockLost conn => decide (conn < 8)
  | .cxpConnectionReturn conn => decide (conn < 8)
  | .mailboxRead => true
  | .mailboxWrite => true
  | .mailboxDone result _ => decide (result < 4)
  | .cameraLineRx d _ => decide (d < 4)
  | .cxpEventPacket conn => decide (conn < 8)
  | .lineTrigger d => decide (d < 4)
  | .frameTimeout ctx => decide (ctx < 8)
  | .camTblDataAccess _ _ => true
  | .genCommit ctx => decide (ctx < 8)
  | .genCopyDone ctx => decide (ctx < 8)
  | .stripFrameStart job => decide (job < 8)
  | .statsUnit => true
  | .keep => true
  | .release => true
  | .benchStart => true
  | .benchAbort => true
  | .dramRequestAccept port _ _ _ _ _ => decide (port < 12)
  | .refreshDue ch => decide (ch < 16)
  | .codePageCheck _ _ => true
  | .pairingAttempt => true
  | .pairingTimeout => true
  | .helloRx _ => true
  | .partnerHeartbeatRx _ => true
  | .mirrorRx _ _ => true
  | .ackRx _ => true
  | .nakRx _ => true
  | .monumentRx _ _ _ _ => true
  | .monumentDue => true
  | .partnerLost _ => true
  | .commitHoldExpiry => true
  | .claimRound => true
  | .claimHoldoffExpiry => true
  | .claimWindowExpiry => true
  | .stateRestored => true
  | .majorityLossTimeout => true
  | .handoverRx => true
  | .releasedRx => true
  | .echoWindow => true
  | .echoAlarmRx => true
  | .alarmReplyRx _ => true
  | .haltResetTimer => true
  | .revertHoldExpiry => true
  | .revertNow => true
  | .revertReqRx _ => true
  | .revertAckRx _ => true
  | .revertSwitch => true
  | .revertAbortRx => true
  | .revertMajorityTimeout => true
  | .resync => true
  | .proofPhaseAdvance => true
  | .move a => decide (a < 12)
  | .preset a => decide (a < 12)
  | .stopAxis a => decide (a < 12)
  | .limits a => decide (a < 12)
  | .home a => decide (a < 12)
  | .setPos a => decide (a < 12)
  | .gearOn a => decide (a < 12)
  | .gearOff a => decide (a < 12)
  | .clear a => decide (a < 12)
  | .off a => decide (a < 12)
  | .axisEnable a => decide (a < 12)
  | .plannerTick senses => senses.all Machine.AxisSense.ok
  | .stall a => decide (a < 12)
  | .overcurrent a _ _ => decide (a < 12)
  | .gearLag a => decide (a < 12)
  | .cmpArm a m => decide (a < 12) && decide (m < 2)
  | .cmpCancel a m => decide (a < 12) && decide (m < 2)
  | .supplyGoodChange input _ _ => decide (input < 2)
  | .supplyReturn _ => true
  | .powerFail _ _ => true
  | .finalMonumentDone => true
  | .housekeepingRound _ => true
  | .thermalShutdown _ _ => true
  | .shutdownRecordDone => true
  | .calRequest => true
  | .calibrationDone _ _ => true
  | .trimWordWrite addr _ => decide (addr < 4194304)
  | .clockFailure => true
  | .clockStable => true
  | .lanePllUnlock _ => true
  | .lanePllRelock _ => true
  | .powerOn _ => true
  | .resetPin _ => true
  | .softwareReset _ _ => true
  | .bootStageDone _ => true
  | .modeRequest _ => true
  | .lock => true
  | .lockChecksDone => true
  | .nonce _ => true
  | .nonceExpiry => true
  | .submit => true
  | .close => true
  | .backoffEnd => true
  | .keyStore => true
  | .keyErase => true
  | .confirm => true
  | .exportCal => true
  | .exportMon => true
  | .importCal _ => true
  | .importMon _ _ _ => true
  | .fwLoad _ _ => true
  | .xferDone => true
  | .prefetchStallEnd e => decide (e < 80)
  | .zqLatch => true
  | .laneLockAcquired x => decide (x.lane < 42)
  | .t2Rx lane _ => decide (lane < 42)
  | .loopRetRx x _ _ => decide (x.lane < 42)
  | .deviceBringupDone d cause => decide (d < 4) && decide (cause < 5)
  | .powerDown => true

end Sys2Proof
end

