-- ==== Sys2Proof/Tests/Slice0.lean ====
section
/-! SUPPORT. Tests of the model: what well-formedness refuses, a few commands on small states, and, for each statement with
premises, a state and operands that meet them, clause by clause. The expected results of the small tests come from the
rules they name. -/

namespace Sys2Proof.Tests

section

set_option Elab.async false
set_option maxRecDepth 4000
set_option linter.unusedVariables false

open Sys2Proof Sys2Proof.Machine

/-! ### Small states -/

def st (m : Mach) : State := { m := m }
def inM (md : Mode) : Mach := { glb := { mode := md, stage := 0 } }
def dmaM (m : Mach) : Mach := ((m.setFld (Reg.HST_WIN_LIMIT_LO.limit 0) 0xFFFFF).setFld (Reg.HST_WIN_PERM.read 0) 1).setFld (Reg.HST_WIN_PERM.write 0) 1
def cal0 : CalExport := { crcOk := true, deviceId := 0, level := 1, geometry := 0, length := 3, tables := [], cams := [], limits := [], ceilings := [], gain := [], nozzles := [], keep := [], logPtr := 0 }
def w6 : Mach :=
  let b : Mach := { (inM .run).setFld Reg.SEC_CTRL.scope 2 with sec := { nonceValid := true }, otp := { deviceId := 9, vendorKey := [1, 2], oemKey := none, rollback := 0 } }
  b.putBytes (Reg.SEC_RESP 0) 8 (b.reply [1, 2] 2)
def w6oem (sc : Nat) : Mach :=
  let b : Mach := { (inM .run).setFld Reg.SEC_CTRL.scope sc with sec := { nonceValid := true }, otp := { deviceId := 9, vendorKey := [1, 2], oemKey := some [7], rollback := 0 } }
  b.putBytes (Reg.SEC_RESP 0) 8 (b.reply [7] sc)
def pairM (md : Mode) (p : Ptn) : Mach := { glb := { mode := md, stage := 0, locked := true }, ptn := p, skx := { lane := [(40, { state := .up }), (41, { state := .up })] } }
def hello0 (st : Nat) (mj : Bool) : Hello := { deviceId := 1, straps := st, state := 1, level := 1, geometry := (pairM .ready {}).geometryHash, storeSize := 0, claim := 3, majority := mj }
def job0 : Job := { state := .opened, tag := 9, streamed := true, layers := 1, depth := 2, planes := 1, along := 1, across := 1, width := 16, pitch := 1387102 }
def storeM (md : Mode) (x : Job) : Mach := { dmaM ((inM md).setFld Reg.DRM_MAP.image 1) with vgp := { job := [(7, x)] }, chn := { vote := .two, printed := 1000 } }
def band0 : JobImageF := { jobTag := 9, layer := 0, plane := 0, format := 0, firstLine := 0, lineCount := 2, firstPixel := 0, pixelCount := 16, byteLen := 32, addr := 64, last := true, flush := true }
def okStream (r : Except Status Stream) : Stream := match r with | .ok t => t | .error _ => {}
def blk0 : Block := { row := 0, col := 0, first := 0, lines := 1, width := 1, size := 24, pixels := [0] }
def blkData : List Byte := [0xB5, 1, 4, 1, 1, 0, 0, 0, 1, 0, 0, 0, 1, 0, 0, 0, 7] ++ leBytes 4 (crc32c [7]).toNat ++ [0, 0, 0]
def item0 : ItemF := { item := 3, fence := 0, format := 0, channels := 1, width := 2, height := 1, byteLen := 2, addr := 64, xOff := 0, yOff := 0, last := true }
def bindM : Mach := storeM .run { job0 with state := .printing, layers := 2, latch := [(Reg.CMP_L_ITEM_PITCH 1, 10)] }
def part0 : Part := (itemPart item0 [5, 6]).getD { channels := 1, width := 1, height := 1, xOff := 0, yOff := 0, fence := 0, size := 0, data := [] }
def jobP : Job := { job0 with state := .printing, started := true, repeatLen := 128, streamed := false, repeats := 0, lead := 2842 }
def regP (m : Mach) : Mach := ((((m.setFld (Reg.FGD_HD_CFG.en 0) 1).setFld (Reg.FGD_HD_CFG.hub 0) 4).setFld (Reg.FGD_HD_GEOM.noz_m1 0) 15).setFld (Reg.SKX_HUB_CFG.en 4) 1).setFld (Reg.FGD_HB_DEPTH.depth 4) 64
def printM : Mach :=
  { regP (storeM .run jobP) with
    skx := { hub := [(4, { state := .up })], lane := [(4, { state := .up, rate := 2 })] }, ptn := { restored := true } }
def kP : Nat := swathKey 7 0 0 0
def tile0 : Tile := { epoch := 0, depth3 := false, drops := [], blankSlot := false, repair := false, slot := 0, crc := 0, units := 1 }
def withEng (m : Mach) (g : Engine) : Mach := { m with trv := { m.trv with eng := [(0, g)] } }
def fkP : Nat := fireKey 7 0 4
def withLine (e : FireLine) : Mach := { printM with fgd := { line := [(fkP, e)], ext := [1000 * 65536, 999 * 65536] } }
def tileM : Mach := (((printM.setFld Reg.DRM_MAP.tile_base 1).setFld Reg.DRM_MAP.cam_base 64).setFld Reg.TRV_RUNAHEAD_EFF.links 3000)
def hd4 : HeadRec := printM.headRec 0
def a0 : StripAt := { job := 7, tag := 9, num := 0, rows := [], pitch := 0, guard := 0, guardCols := 0, gFirst := 0, gLast := 0, tint := 0, cfg := 0, loop := 0, ours := true }
def u0 : StatUnit := { ctx := 0, out := 0, frame := 1, strip := none, first := 0, base := 0, k := 0, stats := true, rows := [], unit := { ctx := 0, out := 0, frame := 1 } }
def clsM : Mach := (storeM .run { jobP with latch := [(Reg.CAM_CLS_STRIP.lines.off, 64)] }).setFld Reg.CAM_CLS_CFG.trig 1 |>.setFld Reg.CAM_CLS_CFG.ctx_mask 1
def job1 : Job := { job0 with width := 1 }
def band1 : JobImageF := { band0 with format := 1, lineCount := 1, pixelCount := 1, byteLen := 24 }
def item1 : ItemF := { item0 with format := 1, width := 1, byteLen := 24 }
def part1 : Part := (itemPart item1 blkData).getD part0
def dsc (r op : Nat) : DescRef := { ring := r, tag := 4, opcode := op }
def holdM (r op : Nat) (m : Mach) : Mach := { m with hst := { m.hst with rings := [(r, { got := some (dsc r op) })] } }
def powered : Mach := { inM .run with glb := { mode := .run, stage := 0, locked := true }, fgd := { headPwr := true, wdgRefreshed := true } }

/-! ### Ill-formed commands are refused -/

theorem test_ill_formed_1 :
    (∀ size val, wellFormed (.registerWrite 4194304 size val) = false) ∧
    (∀ sin cos mark, wellFormed (.sincosSample 5 sin cos mark) = false) ∧
    wellFormed (.amplitudeFault 5) = false ∧
    (∀ a b z, wellFormed (.quadEdge 5 a b z) = false) ∧
    wellFormed (.transitionsFault 5) = false ∧
    (∀ stable, wellFormed (.toothEdge 5 stable) = false) ∧
    (∀ dataHigh, wellFormed (.ssiRequest 5 dataHigh) = false) ∧
    (∀ word parity, wellFormed (.ssiWord 5 word parity) = false) ∧
    wellFormed (.wordsFault 5) = false ∧
    wellFormed (.disagreeFault 3) = false ∧
    wellFormed (.probationPassed 3) = false ∧
    wellFormed (.indexPulse 5) = false ∧
    wellFormed (.indexMissing 5) = false ∧
    wellFormed (.readmit 3) = false ∧
    wellFormed (.auxClear 5) = false ∧
    (∀ rising, wellFormed (.probeEdge 8 rising) = false) ∧
    wellFormed (.stakePop 8) = false ∧
    wellFormed (.stnCmdCommit 256) = false ∧
    wellFormed (.stnCmdCancel 256) = false ∧
    wellFormed (.stnCmdRead 256) = false ∧
    wellFormed (.pulseEnd 16) = false ∧
    wellFormed (.minGapEnd 16) = false ∧
    wellFormed (.liftInhibitEnd 4) = false := by
  refine ⟨?_, ?_, ?_, ?_, ?_, ?_, ?_, ?_, ?_, ?_, ?_, ?_, ?_, ?_, ?_, ?_, ?_, ?_, ?_, ?_, ?_, ?_, ?_⟩ <;> intros <;> rfl

theorem test_ill_formed_2 :
    (∀ kind seq, wellFormed (.ptpFrameRx 2 kind seq) = false) ∧
    (∀ kind seq twoStep frame taken, wellFormed (.ptpFrameTx 2 kind seq twoStep frame taken) = false) ∧
    (∀ up, wellFormed (.ethLinkChange 2 up) = false) ∧
    (∀ f, wellFormed (.ethFrameRx 2 f) = false) ∧
    wellFormed (.ringEnable 64) = false ∧
    wellFormed (.ringDisable 64) = false ∧
    (∀ val, wellFormed (.doorbell 17 0 val) = false) ∧
    (∀ val, wellFormed (.doorbell 0 4096 val) = false) ∧
    (∀ d, wellFormed (.descriptorFetched 64 d) = false) ∧
    wellFormed (.completionQueued 64) = false ∧
    wellFormed (.vectorHoldoffExpiry 32) = false ∧
    (∀ h, wellFormed (.stnCancel h 256) = false) ∧
    wellFormed (.itemWaitResume 8) = false ∧
    (∀ h v, wellFormed (.fence h 8 v) = false) ∧
    wellFormed (.slotBind 8) = false ∧
    (∀ reads loads, wellFormed (.engineSelect 80 reads loads) = false) ∧
    wellFormed (.swathRenderDone 80) = false ∧
    (∀ row, wellFormed (.swathDeadline 8 0 row) = false) ∧
    (∀ row, wellFormed (.swathDeadline 0 10 row) = false) ∧
    (∀ block, wellFormed (.blockHorizonReached 8 0 0 block) = false) ∧
    (∀ block, wellFormed (.blockHorizonReached 0 8 0 block) = false) ∧
    (∀ block, wellFormed (.blockHorizonReached 0 0 10 block) = false) ∧
    wellFormed (.tileWaitResume 80) = false := by
  refine ⟨?_, ?_, ?_, ?_, ?_, ?_, ?_, ?_, ?_, ?_, ?_, ?_, ?_, ?_, ?_, ?_, ?_, ?_, ?_, ?_, ?_, ?_, ?_⟩ <;> intros <;> rfl

theorem test_ill_formed_3 :
    wellFormed (.clusterParked 10) = false ∧
    wellFormed (.clusterWoken 10) = false ∧
    (∀ line, wellFormed (.fireFetchStart 8 line 0) = false) ∧
    (∀ line, wellFormed (.fireFetchStart 0 line 40) = false) ∧
    (∀ line, wellFormed (.fireFetchDone 8 line 0) = false) ∧
    (∀ line, wellFormed (.fireFetchDone 0 line 40) = false) ∧
    (∀ line, wellFormed (.linePacketSent 8 line 0) = false) ∧
    (∀ line, wellFormed (.linePacketSent 0 line 40) = false) ∧
    (∀ line rows, wellFormed (.fireCommit 8 line 0 rows) = false) ∧
    (∀ line rows, wellFormed (.fireCommit 0 line 40 rows) = false) ∧
    wellFormed (.tlmStale 400) = false ∧
    wellFormed (.usageWriteRetry 400) = false ∧
    (∀ val, wellFormed (.tableWindowWrite 4194304 val) = false) ∧
    (∀ e, wellFormed (.echoRx 40 e) = false) ∧
    (∀ line, wellFormed (.echoTimeout 8 line 0) = false) ∧
    (∀ line, wellFormed (.echoTimeout 0 line 40) = false) ∧
    (∀ t, wellFormed (.hubTlmRx 40 t) = false) ∧
    (∀ g, wellFormed (.grantRx 40 g) = false) ∧
    (∀ r, wellFormed (.ctrlReplyRx 40 r) = false) ∧
    wellFormed (.skipDue 42) = false ∧
    (∀ cause, wellFormed (.laneLockLost 42 cause) = false) ∧
    wellFormed (.laneRetrain 42) = false ∧
    wellFormed (.trainStepTimeout 42) = false := by
  refine ⟨?_, ?_, ?_, ?_, ?_, ?_, ?_, ?_, ?_, ?_, ?_, ?_, ?_, ?_, ?_, ?_, ?_, ?_, ?_, ?_, ?_, ?_, ?_⟩ <;> intros <;> rfl

theorem test_ill_formed_4 :
    wellFormed (.laneUp 42) = false ∧
    wellFormed (.retrainRetry 42) = false ∧
    (∀ w, wellFormed (.fomWindow 42 w) = false) ∧
    wellFormed (.hubDarkTimeout 40) = false ∧
    wellFormed (.camDeviceEnable 4) = false ∧
    wellFormed (.camBringupRetry 4) = false ∧
    wellFormed (.cxpLockLost 8) = false ∧
    wellFormed (.cxpConnectionReturn 8) = false ∧
    (∀ data, wellFormed (.mailboxDone 4 data) = false) ∧
    (∀ l, wellFormed (.cameraLineRx 4 l) = false) ∧
    wellFormed (.cxpEventPacket 8) = false ∧
    wellFormed (.lineTrigger 4) = false ∧
    wellFormed (.frameTimeout 8) = false ∧
    wellFormed (.genCommit 8) = false ∧
    wellFormed (.genCopyDone 8) = false ∧
    wellFormed (.stripFrameStart 8) = false ∧
    (∀ write addr len data t, wellFormed (.dramRequestAccept 12 write addr len data t) = false) ∧
    wellFormed (.refreshDue 16) = false ∧
    wellFormed (.move 12) = false ∧
    wellFormed (.preset 12) = false ∧
    wellFormed (.stopAxis 12) = false ∧
    wellFormed (.limits 12) = false ∧
    wellFormed (.home 12) = false := by
  refine ⟨?_, ?_, ?_, ?_, ?_, ?_, ?_, ?_, ?_, ?_, ?_, ?_, ?_, ?_, ?_, ?_, ?_, ?_, ?_, ?_, ?_, ?_, ?_⟩ <;> intros <;> rfl

theorem test_ill_formed_5 :
    wellFormed (.setPos 12) = false ∧
    wellFormed (.gearOn 12) = false ∧
    wellFormed (.gearOff 12) = false ∧
    wellFormed (.clear 12) = false ∧
    wellFormed (.off 12) = false ∧
    wellFormed (.axisEnable 12) = false ∧
    wellFormed (.stall 12) = false ∧
    (∀ coilA coilB, wellFormed (.overcurrent 12 coilA coilB) = false) ∧
    wellFormed (.gearLag 12) = false ∧
    wellFormed (.cmpArm 12 0) = false ∧
    wellFormed (.cmpArm 0 2) = false ∧
    wellFormed (.cmpCancel 12 0) = false ∧
    wellFormed (.cmpCancel 0 2) = false ∧
    (∀ level otherMv, wellFormed (.supplyGoodChange 2 level otherMv) = false) ∧
    (∀ val, wellFormed (.trimWordWrite 4194304 val) = false) ∧
    wellFormed (.prefetchStallEnd 80) = false ∧
    (∀ t, wellFormed (.t2Rx 42 t) = false) ∧
    wellFormed (.deviceBringupDone 4 0) = false ∧
    wellFormed (.deviceBringupDone 0 5) = false ∧
    wellFormed (.auxClear 2) = false ∧
    wellFormed (.rxlostRx { lane := 42 }) = false ∧
    wellFormed (.laneLockAcquired { lane := 42 }) = false ∧
    wellFormed (.loopRetRx { lane := 42 } 0 0) = false := by
  refine ⟨?_, ?_, ?_, ?_, ?_, ?_, ?_, ?_, ?_, ?_, ?_, ?_, ?_, ?_, ?_, ?_, ?_, ?_, ?_, ?_, ?_, ?_, ?_⟩ <;> intros <;> rfl

theorem test_ill_formed_6 :
    wellFormed (.plannerTick [⟨[(512, 0)]⟩]) = false ∧
    (∀ n, wellFormed (.loReadLatch ⟨4194304, n⟩) = false) := by
  refine ⟨?_, ?_⟩ <;> intros <;> rfl

/-! ### A few commands -/

/-- The machine a command leaves, where it answers a next state. -/
def after (c : Instr) (m : Mach) : Option Mach :=
  match exec c (st m) with
  | .next t => some t.m
  | _ => none

/-- The published check value of CRC-32C, by which the scope file names it: of the nine digits it is 0xE3069283. -/
theorem test_crc32c : crc32c [0x31, 0x32, 0x33, 0x34, 0x35, 0x36, 0x37, 0x38, 0x39] = 0xE3069283 := by decide +kernel

/-- The table gives no bits, so no word spells a command. -/
theorem test_no_word_decodes : decodeTableWord 32 5 = none := rfl

/-- On an empty queue the block idles. -/
theorem test_idle : step (st (inM .run)) = .next (st (inM .run)) := rfl

/-- A command at the front is taken from the queue. -/
theorem test_step_takes_front :
    step { m := inM .run, pending := [.slewCancel, .arm] } = exec .slewCancel { m := inM .run, pending := [.arm] } := rfl

/-- R529: an arm outside SETUP is refused with arm cause 5. -/
theorem test_arm_in_run : (after .arm (inM .run)).map (fun m => m.chn.armCause) = some 5 := by decide +kernel

/-- R14: a read that is not aligned gives all ones. -/
theorem test_misaligned_read : (after (.loReadLatch ⟨2, 4⟩) (inM .run)).map (fun m => m.out.length) = some 1 := by decide +kernel

/-- R9 and R11: STN_ARG is RW and reads back what was written. -/
theorem test_write_reads_back :
    (after (.registerWrite Reg.STN_ARG 4 0x12345678) (inM .run)).map (fun m => m.regRead Reg.STN_ARG) =
      some 0x12345678 := by decide +kernel

/-- R37: a phase that goes from 4090 to 0, where sin is 0 and cos positive, has moved by 6 of 4096. -/
theorem test_sincos_wraps :
    (after (.sincosSample 0 0 2000 false)
      { (((inM .run).setFld (Reg.CHN_CFG.type 0) 1).setFld (Reg.CHN_SINCOS.amp_lo 0) 0).setFld (Reg.CHN_SINCOS.amp_hi 0) 255
        with chn := { ch := [(0, { phase := some 4090 })] } }).map (fun m => (m.chan 0).net) = some 6 := by decide +kernel

/-- R41: the gap of a wheel with one missing tooth counts 2. -/
theorem test_missing_tooth :
    (after (.toothEdge 3 0) { (((inM .run).setFld (Reg.CHN_CFG.type 3) 2).setFld (Reg.CHN_CFG.pulse_mode 3) 1).setFld
        (Reg.CHN_TOOTH.gap_ratio 3) 24 with
        chn := { ch := [(3, { intervals := [100, 101, 99], sampled := true, ticksSince := 200 })] } }).map
      (fun m => (m.chan 3).net) = some 2 := by decide +kernel

/-- R135: the STOP page stops the module. -/
theorem test_stop_page : (after .stopPageWrite (inM .run)).map (fun m => m.hst.stopped) = some true := by decide +kernel

/-- R488: power-on leaves the module in BOOT. -/
theorem test_power_on : (after (.powerOn 0) (inM .run)).map (fun m => m.glb.mode) = some .boot := by decide +kernel

/-- R87: one tick adds 1 to the tick count. -/
theorem test_tick : (after (.dtmTick []) (inM .run)).map (fun m => m.dtm.ticks) = some 1 := by decide +kernel

/-- A module whose one job waits to be stored binds no slot. -/
theorem bindNone : ∀ j, (st (storeM .run job0)).m.bindDue j 1 = false := by
  intro j
  simp only [Mach.bindDue, Mach.job, storeM, dmaM, st, job0, Tab.get, Tab.getD]
  split <;> rfl

/-! ### The premises of the statements can be met -/

theorem witness_ReadingTheClockLatchesIt :
    ∃ (s : State), Runs s ∧ s.m.glb.mode ≠ .boot :=
  ⟨st (inM .run), by decide +kernel⟩

theorem witness_RegistersAreReadAndWritten :
    (∃ (s : State) (a : Nat) (n : Nat), Runs s ∧ a < bar0Size ∧ (n ≠ 4 ∨ a % 4 ≠ 0)) ∧
    (∃ (s : State) (a : Nat), Runs s ∧ a < scrWindow ∧ a % 4 = 0 ∧ s.m.glb.mode ≠ .boot ∧ isPairLo a = true ∧
      a ≠ Reg.DTM_TIME_LO) ∧
    (∃ (s : State) (a : Nat), Runs s ∧ a < scrWindow ∧ a % 4 = 0 ∧ s.m.glb.mode ≠ .boot ∧ isPairLo a = false ∧
      findRow (blockRows a) a = none ∧ Tab.get none s.m.hiLatch a = none) ∧
    (∃ (s : State) (a : Nat), Runs s ∧ a < scrWindow ∧ a % 4 = 0 ∧ s.m.glb.mode ≠ .boot ∧ isPairLo a = false ∧
      a ≠ Reg.CAM_TBL_DATA ∧ Tab.get none s.m.hiLatch a = none) ∧
    (∃ (s : State) (a : Nat), Runs s ∧ a < bar0Size ∧ a % 4 = 0 ∧ s.m.glb.mode = .boot ∧ a / 65536 ≠ 0 ∧
      a / 65536 ≠ 21) ∧
    (∃ (s : State) (a : Nat) (size : Nat), Runs s ∧ (size ≠ 4 ∨ a % 4 ≠ 0 ∨ bar0Size ≤ a ∨ s.m.glb.mode = .boot ∧
      a / 65536 ≠ 0 ∧ a / 65536 ≠ 21)) ∧
    (∃ (s : State), Runs s ∧ s.m.glb.mode ≠ .boot) ∧
    (∃ (s : State), Runs s ∧ s.m.glb.mode ≠ .boot) ∧
    (∃ (s : State), Runs s ∧ s.m.glb.mode ≠ .boot) ∧
    (∃ (s : State) (lo : Word), Runs s ∧ s.m.glb.mode ≠ .boot ∧ Tab.get none s.m.loStage Reg.STN_TGT_LO = some lo) ∧
    (∃ (s : State), Runs s ∧ s.m.glb.mode ≠ .boot ∧ s.m.glb.locked = true) ∧
    (∃ (s : State) (a : Nat), Runs s ∧ s.m.glb.mode ≠ .boot ∧ a % 4 = 0 ∧ remapWindow ≤ a ∧ a < waveEnd ∧
      s.m.glb.locked = true) ∧
    (∃ (s : State) (a : Nat), Runs s ∧ s.m.glb.mode ≠ .boot ∧ a % 4 = 0 ∧ remapWindow ≤ a ∧ a < waveEnd ∧
      s.m.glb.locked = true) ∧
    (∃ (s : State) (a : Nat), Runs s ∧ s.m.glb.mode ≠ .boot ∧ a % 4 = 0 ∧ remapWindow ≤ a ∧ a < waveEnd ∧
      s.m.glb.locked = false ∧ s.m.glb.mode ≠ .setup) ∧
    (∃ (s : State) (a : Nat), Runs s ∧ s.m.glb.mode ≠ .boot ∧ a % 4 = 0 ∧ remapWindow ≤ a ∧ a < waveEnd ∧
      s.m.glb.locked = false ∧ s.m.glb.mode ≠ .setup) ∧
    (∃ (s : State) (a : Nat), Runs s ∧ s.m.glb.locked = false ∧ s.m.glb.mode = .setup ∧ a % 4 = 0 ∧ remapWindow ≤ a ∧
      a < waveWindow ∧ s.m.fld Reg.FGD_TBL_SEL.head < 400 ∧
      (a - remapWindow) / 4 < (s.m.headRec (s.m.fld Reg.FGD_TBL_SEL.head)).noz) ∧
    (∃ (s : State) (a : Nat), Runs s ∧ s.m.glb.locked = false ∧ s.m.glb.mode = .setup ∧ a % 4 = 0 ∧ waveWindow ≤ a ∧
      a < waveEnd ∧ waveHas (a - waveWindow) = true) ∧
    (∃ (s : State) (a : Nat), Runs s ∧ (a < remapWindow ∨ waveEnd ≤ a) ∧ a % 4 = 0 ∧ scrWindow ≤ a) :=
  ⟨⟨st (inM .run), 5, 4, by decide +kernel⟩,
    ⟨st (inM .run), Reg.STN_TGT_LO, by decide +kernel⟩,
    ⟨st (inM .run), 0xFFFC, by decide +kernel⟩,
    ⟨st (inM .run), Reg.STN_ARG, by decide +kernel⟩,
    ⟨st (inM .boot), Reg.STN_TGT_LO, by decide +kernel⟩,
    ⟨st (inM .run), 0x10, 2, by decide +kernel⟩,
    ⟨st (inM .run), by decide +kernel⟩,
    ⟨st (inM .run), by decide +kernel⟩,
    ⟨st (inM .run), by decide +kernel⟩,
    ⟨st ({ inM .run with loStage := [(Reg.STN_TGT_LO, some 5)] }), 5, by decide +kernel⟩,
    ⟨st ({ glb := { mode := .ready, locked := true } }), by decide +kernel⟩,
    ⟨st ({ glb := { mode := .ready, locked := true } }), remapWindow, by decide +kernel⟩,
    ⟨st ({ glb := { mode := .ready, locked := true } }), remapWindow, by decide +kernel⟩,
    ⟨st (inM .run), waveEnd - 4, by decide +kernel⟩,
    ⟨st (inM .run), waveEnd - 4, by decide +kernel⟩,
    ⟨st (((inM .setup).setFld (Reg.FGD_HD_CFG.en 0) 1)), remapWindow, by decide +kernel⟩,
    ⟨st (inM .setup), waveWindow, by decide +kernel⟩,
    ⟨st (inM .setup), scrWindow, by decide +kernel⟩⟩

theorem witness_ACancelGetsItsAnswer :
    (∃ (s : State) (n : Nat) (rest : List StnCmd) (d : Mach), Runs s ∧ s.m.stn.cmds = .cancel n none :: rest ∧
      d = (let m : Mach := { s.m with stn := { s.m.stn with cmds := rest } }
         if m.slotCrossed n then m.crossAll else m) ∧ (d.glb.mode = .halt ∨ d.glb.mode = .backsight)) ∧
    (∃ (s : State) (n : Nat) (rest : List StnCmd) (d : Mach), Runs s ∧ s.m.stn.cmds = .cancel n none :: rest ∧
      d = (let m : Mach := { s.m with stn := { s.m.stn with cmds := rest } }
         if m.slotCrossed n then m.crossAll else m) ∧ d.glb.mode ≠ .halt ∧ d.glb.mode ≠ .backsight ∧
           (d.slot n).lastTick ≠ some d.now ∧ (d.slot n).state ∈ [.waitStake, .waitChain, .armed]) ∧
    (∃ (s : State) (n : Nat) (rest : List StnCmd) (d : Mach), Runs s ∧ s.m.stn.cmds = .cancel n none :: rest ∧
      d = (let m : Mach := { s.m with stn := { s.m.stn with cmds := rest } }
         if m.slotCrossed n then m.crossAll else m) ∧ d.glb.mode ≠ .halt ∧ d.glb.mode ≠ .backsight ∧
           (d.slot n).lastTick ≠ some d.now ∧ (d.slot n).state ∉ [.waitStake, .waitChain, .armed]) ∧
    (∃ (s : State) (n : Nat) (rest : List StnCmd) (d : Mach), Runs s ∧ s.m.stn.cmds = .cancel n none :: rest ∧
      d = (let m : Mach := { s.m with stn := { s.m.stn with cmds := rest } }
         if m.slotCrossed n then m.crossAll else m) ∧ d.glb.mode ≠ .halt ∧ d.glb.mode ≠ .backsight ∧
           (d.slot n).lastTick = some d.now) :=
  ⟨⟨st ({ inM .halt with stn := { cmds := [.cancel 3 none] } }), 3, [],
    (let m : Mach := { (st ({ inM .halt with stn := { cmds := [.cancel 3 none] } })).m with stn := { (st ({ inM .halt with stn := { cmds := [.cancel 3 none] } })).m.stn with cmds := ([] : List StnCmd) } }
         if m.slotCrossed 3 then m.crossAll else m), by refine ⟨?_, ?_, ?_, ?_⟩ <;> first | decide +kernel | rfl⟩,
    ⟨st ({ inM .run with stn := { cmds := [.cancel 3 none], slot := [(3, { state := .waitStake })] } }), 3, [],
      (let m : Mach := { (st ({ inM .run with stn := { cmds := [.cancel 3 none], slot := [(3, { state := .waitStake })] } })).m with stn := { (st ({ inM .run with stn := { cmds := [.cancel 3 none], slot := [(3, { state := .waitStake })] } })).m.stn with cmds := ([] : List StnCmd) } }
         if m.slotCrossed 3 then m.crossAll else m), by refine ⟨?_, ?_, ?_, ?_, ?_, ?_,
           ?_⟩ <;> first | decide +kernel | rfl⟩,
    ⟨st ({ inM .run with stn := { cmds := [.cancel 3 none], slot := [(3, { state := .done })] } }), 3, [],
      (let m : Mach := { (st ({ inM .run with stn := { cmds := [.cancel 3 none], slot := [(3, { state := .done })] } })).m with stn := { (st ({ inM .run with stn := { cmds := [.cancel 3 none], slot := [(3, { state := .done })] } })).m.stn with cmds := ([] : List StnCmd) } }
         if m.slotCrossed 3 then m.crossAll else m), by refine ⟨?_, ?_, ?_, ?_, ?_, ?_,
           ?_⟩ <;> first | decide +kernel | rfl⟩,
    ⟨st ({ inM .run with stn := { cmds := [.cancel 3 none], slot := [(3, { state := .armed, lastTick := some 0, f := { ivl := 640, tgt := 0, act := 0, arg := 0, count := 0 } })] } }),
      3, [],
      (let m : Mach := { (st ({ inM .run with stn := { cmds := [.cancel 3 none], slot := [(3, { state := .armed, lastTick := some 0, f := { ivl := 640, tgt := 0, act := 0, arg := 0, count := 0 } })] } })).m with stn := { (st ({ inM .run with stn := { cmds := [.cancel 3 none], slot := [(3, { state := .armed, lastTick := some 0, f := { ivl := 640, tgt := 0, act := 0, arg := 0, count := 0 } })] } })).m.stn with cmds := ([] : List StnCmd) } }
         if m.slotCrossed 3 then m.crossAll else m), by refine ⟨?_, ?_, ?_, ?_, ?_,
           ?_⟩ <;> first | decide +kernel | rfl⟩⟩

theorem witness_AStepRunsTheFrontCommand :
    (∃ (s : State) (c : Instr) (rest : List Instr), s.pending = c :: rest) ∧
    (∃ (s : State), s.pending = []) :=
  ⟨⟨{ m := inM .run, pending := [.arm] }, .arm, [], by decide +kernel⟩,
    ⟨st (inM .run), by decide +kernel⟩⟩

theorem witness_EveryCommandCompletes :
    ∃ (c : Instr) (s : State), s.m.alive = false ∧ (∀ straps, c ≠ .powerOn straps ∧ c ≠ .resetPin straps) ∧
      c ≠ .clockFailure ∧ c ≠ .clockStable ∧ c ≠ .backoffEnd ∧ c ≠ .stopNFall ∧ c ≠ .stopNRise ∧ (∀ i g v,
      c ≠ .supplyGoodChange i g v) ∧ c ≠ .shutdownRecordDone ∧ c ≠ .powerDown ∧ (∀ n r, c ≠ .thermalShutdown n r) :=
  ⟨.arm, st { glb := { mode := .boot, clockHeld := true } }, by decide +kernel, by simp, by simp, by simp, by simp,
    by simp, by simp, by simp, by simp, by simp, by simp⟩

theorem witness_FewCommandsWriteMemoryOrFuses :
    (∃ (c : Instr) (s t : State), exec c s = .next t ∧ (∀ d l, c ≠ .cameraLineRx d l) ∧ (∀ a d, c ≠ .diagWrite a d) ∧
      (∀ p w a n d q, c ≠ .dramRequestAccept p w a n d q) ∧ (∀ ls, c ≠ .dtmTick ls) ∧ (∀ e, c ≠ .swathRenderDone e) ∧
      (∀ j n h, c ≠ .fireFetchStart j n h) ∧ (∀ j n h r, c ≠ .fireCommit j n h r) ∧ c ≠ .finalMonumentDone ∧
      c ≠ .haltResetTimer ∧ (∀ k r, c ≠ .softwareReset k r) ∧ (∀ r, c ≠ .powerOn r) ∧ (∀ r, c ≠ .resetPin r) ∧
      c ≠ .clockFailure) ∧
    (∃ (c : Instr) (s t : State), exec c s = .next t ∧ c ≠ .confirm) :=
  ⟨⟨.slewCancel, st (inM .run), _, rfl, by simp, by simp, by simp, by simp, by simp, by simp, by simp, by simp,
    by simp, by simp, by simp, by simp, by simp⟩,
    ⟨.slewCancel, st (inM .run), _, rfl, by simp⟩⟩

theorem witness_HeadPowerNeedsItsConditions :
    (∃ s t : State, Safe s ∧ step s = .next t ∧ s.pending ≠ []) ∧
    (∃ s t : State, Safe s ∧ step s = .next t ∧ t.m.fgd.headPwr = true ∧ s.pending ≠ []) :=
  ⟨⟨{ m := powered, pending := [.slewCancel] }, _, by decide +kernel, rfl, by simp⟩,
    ⟨{ m := powered, pending := [.slewCancel] }, _, by decide +kernel, rfl, by decide +kernel, by simp⟩⟩

theorem witness_MemoryStaysCanonical :
    ∃ s t : State, Mach.memorySafe s.m ∧ step s = .next t ∧ s.m.dram ≠ [] :=
  ⟨{ m := { inM .run with dram := [(5, 5)] }, pending := [.slewCancel] }, _, by decide +kernel, rfl,
    by decide +kernel⟩

theorem witness_ArmingIsRefused :
    (∃ (s : State) (c : _), Runs s ∧ s.m.glb.mode = .setup ∧ s.m.chn.vote = .disarmed ∧ 2 ≤ s.m.votedEn.length ∧
      (∀ c ∈ s.m.votedEn, s.m.unhealthy c = false) ∧ c ∈ s.m.votedEn ∧
      s.m.chanThresh c < 2 * ceilDiv (s.m.chanScale c) 65536) ∧
    (∃ (s : State) (c : _), Runs s ∧ s.m.glb.mode = .setup ∧ s.m.chn.vote = .disarmed ∧ 2 ≤ s.m.votedEn.length ∧
      (∀ c ∈ s.m.votedEn, s.m.unhealthy c = false) ∧ (∀ c ∈ s.m.votedEn,
      2 * ceilDiv (s.m.chanScale c) 65536 ≤ s.m.chanThresh c) ∧ c ∈ s.m.votedEn ∧ s.m.chanType c = 3 ∧
      13 ≤ s.m.fld (Reg.CHN_CFG.abs_bits c) ∧ s.m.fld (Reg.CHN_CFG.abs_bits c) ≤ 32 ∧
      1 ≤ s.m.fld (Reg.CHN_SSI.req_period c) ∧ s.m.fld (Reg.CHN_SSI.req_period c) ≤ 64 ∧
      1 ≤ s.m.fld (Reg.CHN_SSI.recovery c) ∧ s.m.fld (Reg.CHN_SSI.recovery c) ≤ 160 ∧
      24 ≤ s.m.fld (Reg.CHN_SSI.clk_div c) ∧ s.m.fld (Reg.CHN_SSI.clk_div c) ≤ 2499 ∧
      s.m.fld (Reg.CHN_SSI.req_period c) * 1000 < (s.m.fld (Reg.CHN_CFG.abs_bits c) + s.m.fld (Reg.CHN_CFG.abs_parity c) + 1) * (4 * (s.m.fld (Reg.CHN_SSI.clk_div c) + 1)) + 250 * s.m.fld (Reg.CHN_SSI.recovery c)) :=
  ⟨⟨st (((((inM .setup).setFld (Reg.CHN_CFG.type 0) 2).setFld (Reg.CHN_CFG.type 1) 2).setFld (Reg.CHN_SCALE_HI.scale 0) 5)),
    0, by decide +kernel⟩,
    ⟨st (((((((inM .setup).setFld (Reg.CHN_CFG.type 0) 3).setFld (Reg.CHN_CFG.type 1) 3).setFld (Reg.CHN_SSI.req_period 1) 1).setFld (Reg.CHN_SSI.clk_div 1) 2000).setFld (Reg.CHN_CFG.abs_bits 1) 25).setFld (Reg.CHN_SSI.recovery 1) 1),
      1, by decide +kernel⟩⟩

theorem witness_AStopLeavesTheStations :
    ∃ (s : State) (off : Nat) (val : Nat) (c : Instr), Runs s ∧ c ∈ [Instr.stopPageWrite, .doorbell 0 off val,
      .stopNFall] :=
  ⟨st ({ printM with stn := { slot := [(3, { state := .armed })] } }), 5, 6, .stopPageWrite, by decide +kernel⟩

theorem witness_FiringNeedsRunOrBenchmark :
    ∃ (s t : State) (j n hub rows h : Nat), ((s.m.glb.mode ≠ .run ∧
      s.m.glb.mode ≠ .benchmark) ∨ s.m.isBacksight = true) ∧ ∃ c ∈ [Instr.fireFetchStart j n hub,
      .fireFetchDone j n hub, .linePacketSent j n hub, .fireCommit j n hub rows, .downshiftBoundary, .tlmStale h,
      .usageRecordWrite, .usageWriteRetry h], exec c s = .next t :=
  ⟨st (inM .ready), _, 0, 0, 0, 0, 0, by decide +kernel, .downshiftBoundary, by simp, rfl⟩

theorem witness_TheStateRegionIsReadUnderTheLock :
    (∃ (s : State) (off : Nat) (len : Nat), Runs s ∧ len ≤ 64 ∧ off + len ≤ 2 ^ 28) ∧
    (∃ (s : State) (off : Nat) (d : List Byte), Runs s ∧ off + d.length ≤ 2 ^ 28 ∧ s.m.sec.opened.getLsbD 4 = true) ∧
    (∃ (s : State) (off : Nat) (d : List Byte), Runs s ∧ off + d.length ≤ 2 ^ 28 ∧
      s.m.sec.opened.getLsbD 4 = false) :=
  ⟨⟨st ((inM .run).setFld Reg.HST_DIAG.base 120), 5, 4, by decide +kernel⟩,
    ⟨st ({ inM .run with sec := { opened := 16 } }), 5, [1, 2], by decide +kernel⟩,
    ⟨st (inM .run), 5, [1, 2], by decide +kernel⟩⟩

theorem witness_VoteArmsAndDisarms :
    (∃ (s : State), Runs s ∧ s.m.glb.mode = .setup ∧ s.m.chn.vote ≠ .disarmed) ∧
    (∃ (s : State), Runs s ∧ s.m.glb.mode = .setup ∧ s.m.chn.vote = .disarmed ∧ 2 ≤ s.m.votedEn.length ∧
      (∀ c ∈ s.m.votedEn, s.m.unhealthy c = false ∧ s.m.threshLow c = false ∧ s.m.ssiLong c = false)) ∧
    (∃ (s : State), Runs s ∧ s.m.glb.mode ≠ .setup ∧ s.m.glb.mode ≠ .boot) :=
  ⟨⟨st ({ inM .setup with chn := { vote := .two, lead := 131072, ch := [(0, { state := .voting }), (1, { state := .probation })] } }),
    by decide +kernel⟩,
    ⟨st (((inM .setup).setFld (Reg.CHN_CFG.type 0) 1).setFld (Reg.CHN_CFG.type 1) 2), by decide +kernel⟩,
    ⟨st (inM .run), by decide +kernel⟩⟩

theorem witness_ChannelSamplesCount :
    (∃ (s : State) (ch : Nat) (sin : Int) (cos : Int) (p : Nat) (q : Nat), Runs s ∧ ch < 5 ∧ s.m.chanType ch = 1 ∧
      (s.m.chan ch).state ≠ .cal ∧ (s.m.chan ch).phase = some p ∧ p < 4096 ∧ q = interpolate sin cos ∧ -2048 ≤ sin ∧
      sin ≤ 2047 ∧ -2048 ≤ cos ∧ cos ≤ 2047 ∧
      s.m.fld (Reg.CHN_SINCOS.amp_lo ch) * ampUnit ≤ (sin * sin + cos * cos).toNat ∧
      (sin * sin + cos * cos).toNat ≤ s.m.fld (Reg.CHN_SINCOS.amp_hi ch) * ampUnit) ∧
    (∃ (s : State) (ch : Nat) (a : PairIn) (b : PairIn) (z : PairIn), Runs s ∧ ch < 5 ∧ s.m.chanType ch = 2 ∧
      s.m.fld (Reg.CHN_CFG.pulse_mode ch) = 0 ∧ s.m.fld (Reg.CHN_CFG.glitch ch) ≤ a.stable ∧
      s.m.fld (Reg.CHN_CFG.glitch ch) ≤ b.stable ∧ s.m.fld (Reg.CHN_CFG.glitch ch) ≤ z.stable ∧
      (s.m.chan ch).levelA ≠ a.level ∧ (s.m.chan ch).levelB = b.level) ∧
    (∃ (s : State) (ch : Nat) (a : PairIn) (b : PairIn) (z : PairIn), Runs s ∧ ch < 5 ∧ s.m.chanType ch = 2 ∧
      s.m.fld (Reg.CHN_CFG.pulse_mode ch) = 0 ∧ s.m.fld (Reg.CHN_CFG.glitch ch) ≤ a.stable ∧
      s.m.fld (Reg.CHN_CFG.glitch ch) ≤ b.stable ∧ s.m.fld (Reg.CHN_CFG.glitch ch) ≤ z.stable ∧
      (s.m.chan ch).levelA = a.level ∧ (s.m.chan ch).levelB ≠ b.level) ∧
    (∃ (s : State) (ch : Nat) (a : PairIn) (b : PairIn) (z : PairIn), Runs s ∧ ch < 5 ∧ s.m.chanType ch = 2 ∧
      s.m.fld (Reg.CHN_CFG.pulse_mode ch) = 0 ∧ a.stable < s.m.fld (Reg.CHN_CFG.glitch ch) ∧
      b.stable < s.m.fld (Reg.CHN_CFG.glitch ch) ∧ z.stable < s.m.fld (Reg.CHN_CFG.glitch ch)) ∧
    (∃ (s : State) (ch : Nat), Runs s ∧ ch < 5 ∧ s.m.chanType ch = 3) ∧
    (∃ (s : State) (ch : Nat) (w : Nat) (p : Nat) (par : Bool), Runs s ∧ ch < 5 ∧ s.m.chanType ch = 3 ∧
      s.m.flag (Reg.CHN_CFG.abs_gray ch) = false ∧ s.m.parityBad ch w par = false ∧ (s.m.chan ch).reqLow = false ∧
      (s.m.chan ch).lastWord = some p ∧ (s.m.chan ch).span = 0 ∧ w < 2 ^ s.m.absBits ch ∧ p ≤ w ∧
      w - p ≤ 2 ^ (s.m.absBits ch - 2)) ∧
    (∃ (s : State) (ch : Nat) (w : Nat) (par : Bool), Runs s ∧ ch < 5 ∧ s.m.chanType ch = 3 ∧
      (s.m.parityBad ch w par = true ∨ (s.m.chan ch).reqLow = true)) ∧
    (∃ (s : State) (ch : Nat) (sb : Nat), Runs s ∧ ch < 5 ∧ s.m.chanType ch = 2 ∧
      s.m.fld (Reg.CHN_CFG.pulse_mode ch) = 1 ∧ s.m.fld (Reg.CHN_CFG.glitch ch) ≤ sb ∧
      (s.m.chan ch).sampled = false) ∧
    (∃ (s : State) (ch : Nat) (sb : Nat) (i : Nat), Runs s ∧ ch < 5 ∧ s.m.chanType ch = 2 ∧
      s.m.fld (Reg.CHN_CFG.pulse_mode ch) = 1 ∧ s.m.fld (Reg.CHN_CFG.glitch ch) ≤ sb ∧ (s.m.chan ch).sampled = true ∧
      i = (s.m.chan ch).ticksSince ∧ (s.m.chan ch).intervals ≠ [] ∧
      s.m.fld (Reg.CHN_TOOTH.gap_ratio ch) * medianOf (s.m.chan ch).intervals ≤ 16 * i) ∧
    (∃ (s : State) (ch : Nat) (sb : Nat) (i : Nat), Runs s ∧ ch < 5 ∧ s.m.chanType ch = 2 ∧
      s.m.fld (Reg.CHN_CFG.pulse_mode ch) = 2 ∧ s.m.fld (Reg.CHN_CFG.glitch ch) ≤ sb ∧ (s.m.chan ch).sampled = true ∧
      i = (s.m.chan ch).ticksSince ∧ (s.m.chan ch).intervals ≠ [] ∧
      16 * i ≤ s.m.fld (Reg.CHN_TOOTH.extra_ratio ch) * medianOf (s.m.chan ch).intervals) ∧
    (∃ (s : State) (ch : Nat) (sb : Nat) (i : Nat), Runs s ∧ ch < 5 ∧ s.m.chanType ch = 2 ∧
      s.m.fld (Reg.CHN_CFG.pulse_mode ch) = 1 ∧ s.m.fld (Reg.CHN_CFG.glitch ch) ≤ sb ∧ (s.m.chan ch).sampled = true ∧
      i = (s.m.chan ch).ticksSince ∧
      16 * i < s.m.fld (Reg.CHN_TOOTH.gap_ratio ch) * medianOf (s.m.chan ch).intervals ∧
      medianOf (s.m.chan ch).intervals ≤ 4 * i ∧ i ≤ 4 * medianOf (s.m.chan ch).intervals) ∧
    (∃ (s : State) (ch : Nat) (sb : Nat) (i : Nat), Runs s ∧ ch < 5 ∧ s.m.chanType ch = 2 ∧
      s.m.fld (Reg.CHN_CFG.pulse_mode ch) = 1 ∧ s.m.fld (Reg.CHN_CFG.glitch ch) ≤ sb ∧ (s.m.chan ch).sampled = true ∧
      i = (s.m.chan ch).ticksSince ∧ (s.m.chan ch).intervals ≠ [] ∧
      16 * i < s.m.fld (Reg.CHN_TOOTH.gap_ratio ch) * medianOf (s.m.chan ch).intervals ∧
      4 * i < medianOf (s.m.chan ch).intervals) :=
  ⟨⟨st ({ ((inM .run).setFld (Reg.CHN_CFG.type 4) 1).setFld (Reg.CHN_SINCOS.amp_hi 4) 255 with chn := { ch := [(4, { phase := some 4095, net := -3, sampled := true, ticksSince := 9 })] } }),
    4, 1000, -500, 4095, interpolate 1000 (-500), by decide +kernel⟩,
    ⟨st ({ ((inM .run).setFld (Reg.CHN_CFG.type 3) 2).setFld (Reg.CHN_CFG.glitch 3) 5 with chn := { ch := [(3, { levelB := true })] } }),
      3, { level := true, stable := 7 }, { level := true, stable := 5 }, { level := false, stable := 5 },
      by decide +kernel⟩,
    ⟨st ({ ((inM .run).setFld (Reg.CHN_CFG.type 3) 2).setFld (Reg.CHN_CFG.glitch 3) 5 with chn := { ch := [(3, { levelB := true })] } }),
      3, { level := false, stable := 7 }, { level := false, stable := 5 }, { level := false, stable := 5 },
      by decide +kernel⟩,
    ⟨st ({ ((inM .run).setFld (Reg.CHN_CFG.type 3) 2).setFld (Reg.CHN_CFG.glitch 3) 5 with chn := { ch := [(3, { levelB := true })] } }),
      3, { level := true, stable := 4 }, { level := false, stable := 0 }, { level := true, stable := 3 },
      by decide +kernel⟩,
    ⟨st ((inM .run).setFld (Reg.CHN_CFG.type 2) 3), 2, by decide +kernel⟩,
    ⟨st ({ ((inM .run).setFld (Reg.CHN_CFG.type 2) 3).setFld (Reg.CHN_CFG.abs_bits 2) 14 with chn := { ch := [(2, { lastWord := some 100 })] } }),
      2, 356, 100, true, by decide +kernel⟩,
    ⟨st ((((inM .run).setFld (Reg.CHN_CFG.type 2) 3).setFld (Reg.CHN_CFG.abs_bits 2) 14).setFld (Reg.CHN_CFG.abs_parity 2) 1),
      2, 3, true, by decide +kernel⟩,
    ⟨st ((((inM .run).setFld (Reg.CHN_CFG.type 3) 2).setFld (Reg.CHN_CFG.pulse_mode 3) 1).setFld (Reg.CHN_TOOTH.gap_ratio 3) 24),
      3, 9, by decide +kernel⟩,
    ⟨st ({ (((inM .run).setFld (Reg.CHN_CFG.type 3) 2).setFld (Reg.CHN_CFG.pulse_mode 3) 1).setFld (Reg.CHN_TOOTH.gap_ratio 3) 24 with chn := { ch := [(3, { intervals := [100, 100], badTeeth := 1, sampled := true, ticksSince := 150 })] } }),
      3, 9,
      ((st ({ (((inM .run).setFld (Reg.CHN_CFG.type 3) 2).setFld (Reg.CHN_CFG.pulse_mode 3) 1).setFld (Reg.CHN_TOOTH.gap_ratio 3) 24 with chn := { ch := [(3, { intervals := [100, 100], badTeeth := 1, sampled := true, ticksSince := 150 })] } })).m.chan 3).ticksSince,
      by decide +kernel⟩,
    ⟨st ({ (((inM .run).setFld (Reg.CHN_CFG.type 3) 2).setFld (Reg.CHN_CFG.pulse_mode 3) 2).setFld (Reg.CHN_TOOTH.extra_ratio 3) 8 with chn := { ch := [(3, { intervals := [100, 100], badTeeth := 1, sampled := true, ticksSince := 50 })] } }),
      3, 9,
      ((st ({ (((inM .run).setFld (Reg.CHN_CFG.type 3) 2).setFld (Reg.CHN_CFG.pulse_mode 3) 2).setFld (Reg.CHN_TOOTH.extra_ratio 3) 8 with chn := { ch := [(3, { intervals := [100, 100], badTeeth := 1, sampled := true, ticksSince := 50 })] } })).m.chan 3).ticksSince,
      by decide +kernel⟩,
    ⟨st ({ (((inM .run).setFld (Reg.CHN_CFG.type 3) 2).setFld (Reg.CHN_CFG.pulse_mode 3) 1).setFld (Reg.CHN_TOOTH.gap_ratio 3) 24 with chn := { ch := [(3, { intervals := [100, 100], badTeeth := 1, sampled := true, ticksSince := 149 })] } }),
      3, 9,
      ((st ({ (((inM .run).setFld (Reg.CHN_CFG.type 3) 2).setFld (Reg.CHN_CFG.pulse_mode 3) 1).setFld (Reg.CHN_TOOTH.gap_ratio 3) 24 with chn := { ch := [(3, { intervals := [100, 100], badTeeth := 1, sampled := true, ticksSince := 149 })] } })).m.chan 3).ticksSince,
      by decide +kernel⟩,
    ⟨st ({ (((inM .run).setFld (Reg.CHN_CFG.type 3) 2).setFld (Reg.CHN_CFG.pulse_mode 3) 1).setFld (Reg.CHN_TOOTH.gap_ratio 3) 24 with chn := { ch := [(3, { intervals := [100, 100], badTeeth := 1, sampled := true, ticksSince := 24 })] } }),
      3, 9,
      ((st ({ (((inM .run).setFld (Reg.CHN_CFG.type 3) 2).setFld (Reg.CHN_CFG.pulse_mode 3) 1).setFld (Reg.CHN_TOOTH.gap_ratio 3) 24 with chn := { ch := [(3, { intervals := [100, 100], badTeeth := 1, sampled := true, ticksSince := 24 })] } })).m.chan 3).ticksSince,
      by decide +kernel⟩⟩

theorem witness_ChannelsAndVoteFault :
    (∃ (s : State) (ch : Nat), Runs s ∧ 3 ≤ ch ∧ ch < 5 ∧ s.m.chanType ch = 1 ∧ (s.m.chan ch).state ≠ .faulty ∧
      16 < (s.m.chan ch).ampRun) ∧
    (∃ (s : State) (ch : Nat), Runs s ∧ 3 ≤ ch ∧ ch < 5 ∧ s.m.chanType ch = 2 ∧ (s.m.chan ch).state ≠ .faulty ∧
      (s.m.chan ch).noted = true ∧ 4 ≤ (s.m.chan ch).badTeeth) ∧
    (∃ (s : State) (ch : Nat) (a : Nat) (b : Nat), Runs s ∧ 3 ≤ ch ∧ ch < 5 ∧ s.m.chanType ch = 2 ∧
      (s.m.chan ch).state ≠ .faulty ∧ (s.m.chan ch).noted = true ∧ (s.m.chan ch).illegal[0]? = some a ∧
      (s.m.chan ch).illegal[15]? = some b ∧ a - b < 65536) ∧
    (∃ (s : State) (ch : Nat) (t : Nat), Runs s ∧ 3 ≤ ch ∧ ch < 5 ∧ s.m.chanType ch = 3 ∧
      (s.m.chan ch).state ≠ .faulty ∧ (s.m.chan ch).reqFrom = some t ∧ t + 1500 * s.m.ssiPeriod ch ≤ s.m.now) ∧
    (∃ (s : State) (ch : Nat), Runs s ∧ ch < 3 ∧ s.m.chanType ch ≠ 0 ∧ (s.m.chan ch).state ≠ .faulty ∧
      64 < (s.m.chan ch).devOver ∧ (∀ c < 3, c ≠ ch → (s.m.chan c).devOver ≠ (s.m.chan ch).devOver) ∧
      s.m.causeNow ch = .disagree ∧ s.m.chn.vote.valid = false) ∧
    (∃ (s : State), Runs s ∧ s.m.glb.mode = .setup ∧ s.m.chn.vote = .two ∧ 64 < s.m.chn.pairOver) ∧
    (∃ (s : State) (ch : Nat), Runs s ∧ ch < 3 ∧ s.m.chanType ch ≠ 0 ∧ (s.m.chan ch).state = .probation ∧
      (s.m.chan ch).devOver ≤ 64 ∧ 8 * s.m.devTicks ≤ (s.m.chan ch).cleanTicks ∧ s.m.chn.vote = .two ∧
      s.m.voters.length = 2 ∧ ch ∉ s.m.voters) :=
  ⟨⟨st ({ (inM .run).setFld (Reg.CHN_CFG.type 3) 1 with chn := { ch := [(3, { ampRun := 17 })] } }), 3,
    by decide +kernel⟩,
    ⟨st ({ (inM .run).setFld (Reg.CHN_CFG.type 4) 2 with chn := { ch := [(4, { badTeeth := 4, noted := true })] } }),
      4, by decide +kernel⟩,
    ⟨st ({ (inM .run).setFld (Reg.CHN_CFG.type 4) 2 with chn := { ch := [(4, { illegal := [65540, 6, 6, 6, 6, 6, 6, 6, 6, 6, 6, 6, 6, 6, 6, 5], noted := true })] } }),
      4, 65540, 5, by decide +kernel⟩,
    ⟨st ({ (inM .run).setFld (Reg.CHN_CFG.type 4) 3 with dtm := { ticks := 100000 }, chn := { ch := [(4, { reqFrom := some 10 })] } }),
      4, 10, by decide +kernel⟩,
    ⟨st ({ (inM .run).setFld (Reg.CHN_CFG.type 2) 3 with chn := { ch := [(2, { devOver := 65 })] } }), 2,
      by decide +kernel⟩,
    ⟨st ({ inM .setup with chn := { vote := .two, pairOver := 65, ch := [(0, { state := .voting }), (1, { state := .voting })] } }),
      by decide +kernel⟩,
    ⟨st ({ ((inM .run).setFld (Reg.CHN_CFG.type 0) 1).setFld (Reg.CHN_CFG.type 1) 1 |>.setFld (Reg.CHN_CFG.type 2) 1 with chn := { vote := .two, ch := [(0, { state := .voting }), (1, { state := .voting }), (2, { state := .probation, cleanTicks := 4000000 })] } }),
      2, by decide +kernel⟩⟩

theorem witness_ChannelsAreReadmitted :
    (∃ (s : State) (ch : Nat), Runs s ∧ ch < 3 ∧ (s.m.chan ch).state = .faulty ∧ s.m.glb.mode ≠ .halt ∧
      s.m.glb.mode ≠ .boot ∧ s.m.chn.vote.valid = true) ∧
    (∃ (s : State) (ch : Nat), Runs s ∧ ch < 3 ∧ (s.m.chan ch).state = .faulty ∧ s.m.glb.mode ≠ .halt ∧
      s.m.glb.mode ≠ .boot ∧ s.m.chn.vote.valid = false) ∧
    (∃ (s : State) (ch : Nat), Runs s ∧ 3 ≤ ch ∧ ch < 5 ∧ (s.m.chan ch).state = .faulty ∧ s.m.glb.mode ≠ .halt ∧
      s.m.glb.mode ≠ .boot) :=
  ⟨⟨st ({ (inM .run).setFld (Reg.CHN_CFG.type 2) 1 with chn := { vote := .two, lead := 55, ch := [(2, { state := .faulty, cause := .disagree })] } }),
    2, by decide +kernel⟩,
    ⟨st ({ (inM .run).setFld (Reg.CHN_CFG.type 2) 1 with chn := { vote := .lost, ch := [(2, { state := .faulty, cause := .disagree })] } }),
      2, by decide +kernel⟩,
    ⟨st ({ (inM .run).setFld (Reg.CHN_CFG.type 4) 1 with chn := { vote := .two, ch := [(4, { state := .faulty, cause := .amplitude })] } }),
      4, by decide +kernel⟩⟩

theorem witness_IndexesSlewBackstepAndSpeed :
    (∃ (m : Mach) (c : Nat), m.indexed c = false) ∧
    (∃ (m : Mach) (c : Nat), m.indexed c = true) ∧
    (∃ (s : State) (ch : Nat), Runs s ∧ (s.m.indexed ch = false ∨ (s.m.chan ch).mark = none)) ∧
    (∃ (s : State) (ch : Nat) (k : Int), Runs s ∧ s.m.indexed ch = true ∧ (s.m.chan ch).mark = some k ∧
      (3 ≤ ch ∨ (s.m.chan ch).armed = true) ∧ (∀ e,
      (s.m.chan ch).indexNext = some e → (k - e).natAbs ≤ s.m.fld (Reg.CHN_INDEX_TOL.tol ch))) ∧
    (∃ (s : State) (ch : Nat) (k : Int), Runs s ∧ s.m.indexed ch = true ∧ (s.m.chan ch).mark = some k ∧ ch < 3 ∧
      (s.m.chan ch).armed = false ∧ (s.m.chan ch).indexNext = none) ∧
    (∃ (s : State) (ch : Nat) (e : Int), Runs s ∧ s.m.indexed ch = true ∧ (s.m.chan ch).indexNext = some e ∧
      e + s.m.fld (Reg.CHN_INDEX_PITCH.pitch ch) / 2 + 1 ≤ (s.m.chan ch).net) ∧
    (∃ (s : State), Runs s ∧ s.m.glb.mode ≠ .boot) ∧
    (∃ (s : State), Runs s ∧ s.m.glb.mode ≠ .boot ∧ s.m.chn.hold = true ∧ s.m.debt17 = 0) ∧
    (∃ (s : State), Runs s ∧ s.m.debt17 ≠ 0) ∧
    (∃ (s : State), Runs s ∧ s.m.now < s.m.chn.speedStart + 500 * s.m.chn.speedNext) ∧
    (∃ (s : State), Runs s ∧ s.m.chn.speedStart + 500 * s.m.chn.speedNext ≤ s.m.now) :=
  ⟨⟨inM .run, 4, by decide +kernel⟩,
    ⟨{ (((inM .run).setFld (Reg.CHN_CFG.type 4) 1).setFld (Reg.CHN_CFG.index_en 4) 1).setFld (Reg.CHN_INDEX_PITCH.pitch 4) 1000 with chn := { ch := [(4, { net := 300 })] } },
      4, by decide +kernel⟩,
    ⟨st ({ (((inM .run).setFld (Reg.CHN_CFG.type 4) 1).setFld (Reg.CHN_CFG.index_en 4) 1).setFld (Reg.CHN_INDEX_PITCH.pitch 4) 1000 with chn := { ch := [(4, { net := 300 })] } }),
      4, by decide +kernel⟩,
    ⟨st ({ (((inM .run).setFld (Reg.CHN_CFG.type 4) 1).setFld (Reg.CHN_CFG.index_en 4) 1).setFld (Reg.CHN_INDEX_PITCH.pitch 4) 1000 |>.setFld (Reg.CHN_INDEX_TOL.tol 4) 10 with chn := { ch := [(4, { net := 302, mark := some 300, indexNext := some 290 })] } }),
      4, 300, by decide +kernel⟩,
    ⟨st ({ (((inM .run).setFld (Reg.CHN_CFG.type 1) 1).setFld (Reg.CHN_CFG.index_en 1) 1).setFld (Reg.CHN_INDEX_PITCH.pitch 1) 1000 with chn := { ch := [(1, { net := 9, mark := some 7 })] } }),
      1, 7, by decide +kernel⟩,
    ⟨st ({ (((inM .run).setFld (Reg.CHN_CFG.type 4) 1).setFld (Reg.CHN_CFG.index_en 4) 1).setFld (Reg.CHN_INDEX_PITCH.pitch 4) 1000 with chn := { ch := [(4, { net := 1506, indexNext := some 1005 })] } }),
      4, 1005, by decide +kernel⟩,
    ⟨st ({ inM .run with chn := { slew := 9 } }), by decide +kernel⟩,
    ⟨st ({ inM .run with chn := { hold := true, peakDebt := 300000, holdFrom := 7, printed := 9 } }),
      by decide +kernel⟩,
    ⟨st ({ inM .run with chn := { hold := true, lead := -131072 } }), by decide +kernel⟩,
    ⟨st ({ inM .run with chn := { speedStart := 5 } }), by decide +kernel⟩,
    ⟨st ({ inM .run with dtm := { ticks := 50005 }, chn := { vote := .two, printed := 100, speedPrinted := 50, lead := 131072, speedStart := 5 } }),
      by decide +kernel⟩⟩

theorem witness_StakesAreTakenAndPopped :
    (∃ (s : State) (n : Nat) (rising : Bool) (x : Probe) (t : TickStamp), Runs s ∧ n < 8 ∧ s.m.glb.mode = .run ∧
      s.m.ptn.state = .solo ∧ Tab.get ({} : Probe) s.m.chn.probe n = x ∧ s.m.flag (Reg.CHN_PRB_CFG.en n) = true ∧
      s.m.flag (Reg.CHN_PRB_CFG.log n) = false ∧
      bitAt (s.m.fld (Reg.CHN_PRB_CFG.edge n)) (if rising then 0 else 1) = true ∧ x.lockLeft = 0 ∧
      x.queue.length < 16 ∧ s.m.chn.recent[s.m.fld (Reg.CHN_PRB_CFG.filter n)]? = some t ∧ s.m.stn.slot = []) ∧
    (∃ (s : State) (n : Nat) (x : Probe), Runs s ∧ Tab.get {} s.m.chn.probe n = x) :=
  ⟨⟨st ({ ((inM .run).setFld (Reg.CHN_PRB_CFG.en 7) 1).setFld (Reg.CHN_PRB_CFG.edge 7) 2 |>.wr (Reg.CHN_PRB_LOCKOUT 7) 100 with chn := { printed := 9, recent := [{ chn := 5, time := 6, held := true }] } }),
    7, false,
    Tab.get ({} : Probe) (st ({ ((inM .run).setFld (Reg.CHN_PRB_CFG.en 7) 1).setFld (Reg.CHN_PRB_CFG.edge 7) 2 |>.wr (Reg.CHN_PRB_LOCKOUT 7) 100 with chn := { printed := 9, recent := [{ chn := 5, time := 6, held := true }] } })).m.chn.probe 7,
    { chn := 5, time := 6, held := true }, by decide +kernel⟩,
    ⟨st ({ inM .run with chn := { probe := [(7, { issued := 2, queue := [{ num := 1, rising := true, held := false, invalid := false, chn := 1, time := 1 }, { num := 2, rising := true, held := false, invalid := false, chn := 1, time := 1 }] })] } }),
      7,
      Tab.get {} (st ({ inM .run with chn := { probe := [(7, { issued := 2, queue := [{ num := 1, rising := true, held := false, invalid := false, chn := 1, time := 1 }, { num := 2, rising := true, held := false, invalid := false, chn := 1, time := 1 }] })] } })).m.chn.probe 7,
      by decide +kernel⟩⟩

theorem witness_StationCommandsQueueAndTakeEffect :
    (∃ (s : State), Runs s ∧ s.m.glb.mode ≠ .boot ∧ s.m.stn.busy = false) ∧
    (∃ (s : State), Runs s ∧ s.m.glb.mode ≠ .boot ∧ s.m.stn.busy = false) ∧
    (∃ (s : State), Runs s ∧ s.m.glb.mode ≠ .boot ∧ s.m.stn.busy = true) ∧
    (∃ (s : State), Runs s ∧ s.m.glb.mode ≠ .boot ∧ s.m.stn.busy = true) ∧
    (∃ (s : State), Runs s ∧ s.m.glb.mode ≠ .boot ∧ s.m.stn.busy = true) ∧
    (∃ (s : State) (slot : Nat) (x : Slot) (tgt : Nat), Runs s ∧ s.m.glb.mode ≠ .boot ∧ s.m.stn.busy = false ∧
      s.m.slot slot = x ∧ tgt = (if x.formed && x.state ≠ .waitStake then x.first.toNat else x.f.tgt)) ∧
    (∃ (s : State) (h : DescRef) (d : Mach), Runs s ∧ Held s h 0x25 ∧ d = s.m.takeDesc h ∧ s.m.hst.stopped = false ∧
      s.m.glb.mode ≠ .halt ∧ s.m.glb.mode ≠ .backsight ∧ s.m.mirroring = false) ∧
    (∃ (s : State) (h : DescRef) (d : Mach), Runs s ∧ Held s h 0x26 ∧ d = s.m.takeDesc h ∧ s.m.hst.stopped = false ∧
      s.m.glb.mode ≠ .halt ∧ s.m.mirroring = false) ∧
    (∃ (s : State) (n : Nat) (f : SlotFields) (rest : List StnCmd), Runs s ∧ s.m.stn.cmds = .commit n f none :: rest ∧
      s.m.slotCrossed n = false ∧ s.m.glb.mode ≠ .halt ∧ s.m.glb.mode ≠ .backsight ∧ s.m.chn.vote.valid = true ∧
      s.m.mirroring = false ∧ f.bad n = false ∧ f.armSrc = 0 ∧ 0 < chnDiff (BitVec.ofNat 48 f.tgt) s.m.chn.printed) ∧
    (∃ (s : State) (n : Nat) (rest : List StnCmd), Runs s ∧ s.m.stn.cmds = .cancel n none :: rest ∧
      s.m.slotCrossed n = false ∧ s.m.glb.mode ≠ .halt ∧ s.m.glb.mode ≠ .backsight ∧ s.m.mirroring = false ∧
      (s.m.slot n).state.waiting = true ∧ (s.m.slot n).lastTick ≠ some s.m.now ∧ (s.m.slot n).f.chainEn = false) ∧
    (∃ (s : State) (n : Nat) (f : SlotFields) (rest : List StnCmd), Runs s ∧ s.m.stn.cmds = .commit n f none :: rest ∧
      s.m.glb.mode ≠ .halt ∧ s.m.glb.mode ≠ .backsight ∧ s.m.chn.vote.valid = false) :=
  ⟨⟨st ((inM .run).setFld Reg.STN_TGT_LO.tgt 5), by decide +kernel⟩,
    ⟨st ((inM .run).setFld Reg.STN_TGT_LO.tgt 5), by decide +kernel⟩,
    ⟨st ({ inM .run with stn := { busy := true } }), by decide +kernel⟩,
    ⟨st ({ inM .run with stn := { busy := true } }), by decide +kernel⟩,
    ⟨st ({ inM .run with stn := { busy := true } }), by decide +kernel⟩,
    ⟨st ({ inM .run with stn := { slot := [(4, { state := .armed, formed := true, first := 0x123456789, f := { tgt := 1, act := 6 }, skips := 3 })] } }),
      4,
      (st ({ inM .run with stn := { slot := [(4, { state := .armed, formed := true, first := 0x123456789, f := { tgt := 1, act := 6 }, skips := 3 })] } })).m.slot 4,
      (if ((st ({ inM .run with stn := { slot := [(4, { state := .armed, formed := true, first := 0x123456789, f := { tgt := 1, act := 6 }, skips := 3 })] } })).m.slot 4 : Slot).formed && ((st ({ inM .run with stn := { slot := [(4, { state := .armed, formed := true, first := 0x123456789, f := { tgt := 1, act := 6 }, skips := 3 })] } })).m.slot 4 : Slot).state ≠ .waitStake then ((st ({ inM .run with stn := { slot := [(4, { state := .armed, formed := true, first := 0x123456789, f := { tgt := 1, act := 6 }, skips := 3 })] } })).m.slot 4 : Slot).first.toNat else ((st ({ inM .run with stn := { slot := [(4, { state := .armed, formed := true, first := 0x123456789, f := { tgt := 1, act := 6 }, skips := 3 })] } })).m.slot 4 : Slot).f.tgt),
      by decide +kernel⟩,
    ⟨st ({ inM .run with stn := { busy := true, cmds := [.cancel 9 none] }, hst := { rings := [(0, { got := some { tag := 3, opcode := 0x25 } })] } }),
      { tag := 3, opcode := 0x25 },
      (st ({ inM .run with stn := { busy := true, cmds := [.cancel 9 none] }, hst := { rings := [(0, { got := some { tag := 3, opcode := 0x25 } })] } })).m.takeDesc ({ tag := 3, opcode := 0x25 } : DescRef),
      by refine ⟨?_, ?_, ?_, ?_, ?_, ?_, ?_⟩ <;> first | decide +kernel | rfl⟩,
    ⟨st ({ inM .backsight with stn := { busy := true, cmds := [.cancel 9 none] }, hst := { rings := [(0, { got := some { tag := 3, opcode := 0x26 } })] } }),
      { tag := 3, opcode := 0x26 },
      (st ({ inM .backsight with stn := { busy := true, cmds := [.cancel 9 none] }, hst := { rings := [(0, { got := some { tag := 3, opcode := 0x26 } })] } })).m.takeDesc ({ tag := 3, opcode := 0x26 } : DescRef),
      by refine ⟨?_, ?_, ?_, ?_, ?_, ?_⟩ <;> first | decide +kernel | rfl⟩,
    ⟨st ({ inM .run with stn := { busy := true, cmds := [.commit 3 { tgt := 1, act := 6 } none, .cancel 2 none], slot := [(5, { state := .done })] }, chn := { vote := .two } }),
      3, { tgt := 1, act := 6 }, [.cancel 2 none], by decide +kernel⟩,
    ⟨st ({ inM .run with stn := { busy := true, cmds := [.cancel 3 none], slot := [(3, { state := .waitStake })] }, chn := { vote := .two } }),
      3, [], by decide +kernel⟩,
    ⟨st ({ inM .run with stn := { busy := true, cmds := [.commit 3 { tgt := 1, act := 6 } none], slot := [(3, { state := .waitStake })] } }),
      3, { tgt := 1, act := 6 }, [], by decide +kernel⟩⟩

theorem witness_StationsActAndReturn :
    (∃ (s : State) (n : Nat), Runs s ∧ s.m.crossedSlots = [n] ∧ s.m.mirroring = false ∧ (s.m.slot n).f.action = 6 ∧
      (s.m.slot n).f.ivl = 0 ∧ (s.m.slot n).f.rearm = false ∧ (s.m.slot n).f.chainEn = false ∧
      (s.m.slot n).f.notify = false) ∧
    (∃ (s : State), Runs s ∧ s.m.crossedSlots = []) ∧
    (∃ (s : State) (n : Nat) (t : Nat), Runs s ∧ (s.m.stnOut n).pulse = some t ∧ t ≤ s.m.now ∧
      s.m.fld (Reg.STN_OUT_LIM.min_gap n) ≠ 0) ∧
    (∃ (s : State) (n : Nat) (t : Nat), Runs s ∧ (s.m.stnOut n).pulse = some t ∧ t ≤ s.m.now ∧
      s.m.fld (Reg.STN_OUT_LIM.min_gap n) = 0) ∧
    (∃ (s : State) (n : Nat) (t : Nat), Runs s ∧ (s.m.stnOut n).pulse = some t ∧ s.m.now < t) ∧
    (∃ (s : State) (n : Nat) (t : Nat), Runs s ∧ (s.m.stnOut n).gap = some t ∧ t ≤ s.m.now) ∧
    (∃ (s : State) (n : Nat) (t : Nat), Runs s ∧ (s.m.stnOut n).gap = some t ∧ s.m.now < t) ∧
    (∃ (s : State) (g : Nat) (e : Chainage), Runs s ∧ (Tab.get ({} : Lift) s.m.stn.lift g).ends = some e) :=
  ⟨⟨st ({ inM .run with stn := { slot := [(3, { state := .armed, target := 10, f := { tgt := 1, act := 6 } }), (4, { state := .armed, target := 11, f := { tgt := 1, act := 6 } })] }, chn := { vote := .two, printed := 10 } }),
    3, by decide +kernel⟩,
    ⟨st ({ inM .run with stn := { slot := [(3, { state := .armed, target := 10, f := { tgt := 1, act := 6 } })] }, chn := { vote := .two, printed := 9 } }),
      by decide +kernel⟩,
    ⟨st ({ (inM .run).setFld (Reg.STN_OUT_LIM.min_gap 15) 5 with dtm := { ticks := 9 }, stn := { out := [(15, { active := true, pulse := some 8, driven := true })] } }),
      15, 8, by decide +kernel⟩,
    ⟨st ({ (inM .run).setFld (Reg.STN_OUT_LIM.min_gap 15) 0 with dtm := { ticks := 9 }, stn := { out := [(15, { active := true, pulse := some 9, driven := true })] } }),
      15, 9, by decide +kernel⟩,
    ⟨st ({ inM .run with dtm := { ticks := 9 }, stn := { out := [(15, { active := true, pulse := some 10, driven := true })] } }),
      15, 10, by decide +kernel⟩,
    ⟨st ({ inM .run with dtm := { ticks := 9 }, stn := { out := [(15, { driven := true, gap := some 9 })] } }), 15, 9,
      by decide +kernel⟩,
    ⟨st ({ inM .run with dtm := { ticks := 9 }, stn := { out := [(15, { driven := true, gap := some 10 })] } }), 15,
      10, by decide +kernel⟩,
    ⟨st ({ inM .run with stn := { lift := [(3, { up := some 1, ends := some 9 })] }, chn := { printed := 9 } }), 3, 9,
      by decide +kernel⟩⟩

theorem witness_AxisCommandsWait :
    (∃ (s : State) (a : Nat), Runs s ∧ s.m.glb.mode ≠ .boot ∧ (s.m.axis a).cmd = none) ∧
    (∃ (s : State) (a : Nat), Runs s ∧ s.m.glb.mode ≠ .boot ∧ (s.m.axis a).cmd = none) ∧
    (∃ (s : State) (a : Nat), Runs s ∧ s.m.glb.mode ≠ .boot ∧ (s.m.axis a).cmd = none) ∧
    (∃ (s : State) (a : Nat), Runs s ∧ s.m.glb.mode ≠ .boot ∧ (s.m.axis a).cmd = none) ∧
    (∃ (s : State) (a : Nat), Runs s ∧ s.m.glb.mode ≠ .boot ∧ (s.m.axis a).cmd = none) ∧
    (∃ (s : State) (a : Nat), Runs s ∧ s.m.glb.mode ≠ .boot ∧ (s.m.axis a).cmd = none) ∧
    (∃ (s : State) (a : Nat), Runs s ∧ s.m.glb.mode ≠ .boot ∧ (s.m.axis a).cmd = none) ∧
    (∃ (s : State) (a : Nat), Runs s ∧ s.m.glb.mode ≠ .boot ∧ (s.m.axis a).cmd = none) ∧
    (∃ (s : State) (a : Nat), Runs s ∧ s.m.glb.mode ≠ .boot ∧ (s.m.axis a).cmd = none) ∧
    (∃ (s : State) (a : Nat), Runs s ∧ s.m.glb.mode ≠ .boot ∧ (s.m.axis a).cmd = none) ∧
    (∃ (s : State) (a : Nat) (c : Instr), Runs s ∧ (s.m.axis a).cmd ≠ none ∧ c ∈ [Instr.move a, .preset a,
      .stopAxis a, .limits a, .home a, .setPos a, .gearOn a, .gearOff a, .clear a, .off a]) :=
  ⟨⟨st (inM .run), 11, by decide +kernel⟩,
    ⟨st (inM .run), 11, by decide +kernel⟩,
    ⟨st (inM .run), 11, by decide +kernel⟩,
    ⟨st (inM .run), 11, by decide +kernel⟩,
    ⟨st (inM .run), 11, by decide +kernel⟩,
    ⟨st (inM .run), 11, by decide +kernel⟩,
    ⟨st (inM .run), 11, by decide +kernel⟩,
    ⟨st (inM .run), 11, by decide +kernel⟩,
    ⟨st (inM .run), 11, by decide +kernel⟩,
    ⟨st (inM .run), 11, by decide +kernel⟩,
    ⟨st ({ inM .run with mot := { axis := [(11, { cmd := some .move })] } }), 11, Instr.move 11, by decide +kernel⟩⟩

theorem witness_PlannerTakesACommand :
    (∃ (s : State) (senses : List AxisSense) (a : Nat) (x : Axis) (p : Int) (n : Mach), Runs s ∧ a < 12 ∧
      s.m.pwr.powerFail = false ∧ s.m.thm.latch = none ∧ s.m.glb.mode = .ready ∧ s.m.mot.axis = [(a, x)] ∧
      x.state = .hold ∧ x.cmd = some .setPos ∧ x.req = [] ∧ x.cmp0 = {} ∧ x.cmp1 = {} ∧ x.inhibit = false ∧
      s.m.flag (Reg.MOT_A_CFG.en a) = true ∧ (∀ b < 12, s.m.fld (Reg.MOT_A_WIN_PLANES.planes b) = 0) ∧ (∀ b < 12,
      b ≠ a → 0 < s.m.sfld (Reg.MOT_A_WIN_LO.lo b)) ∧ p = s.m.sfld (Reg.MOT_A_STG_TARGET.target a) ∧
      s.m.lastBeat .plan + 500 ≤ s.m.now ∧
      n = (({ ((((s.m.beaten .plan).setFld (Reg.MOT_A_CMD.busy a) 0).setFld (Reg.MOT_A_CMD.result a) 0)) with mot := { s.m.mot with axis := [(a, { x with cmd := none, pos := p * ustep, posLow := 0, posValid := true, target := p, within := decide (s.m.sfld (Reg.MOT_A_WIN_LO.lo a) ≤ p ∧ p ≤ s.m.sfld (Reg.MOT_A_WIN_HI.hi a)) })] } } : Mach).driveCoils a (senses.getD a {}).codes)) ∧
    (∃ (s : State), Runs s ∧
      (s.m.pwr.powerFail = true ∨ s.m.thm.latch.isSome = true ∨ s.m.now < s.m.lastBeat .plan + 500)) :=
  ⟨⟨st ({ (((List.range 12).foldl (fun (n : Mach) b => if b = 11 then n else n.setFld (Reg.MOT_A_WIN_LO.lo b) 5) { inM .ready with dtm := { ticks := 500 } }).setFld (Reg.MOT_A_CFG.en 11) 1 |>.setFld (Reg.MOT_A_STG_TARGET.target 11) 77 |>.setFld (Reg.MOT_A_WIN_HI.hi 11) 100) with mot := { axis := [(11, { state := .hold, cmd := some .setPos, posValid := true, pos := 9, posLow := 4 })] } }),
    [], 11, { state := .hold, cmd := some .setPos, posValid := true, pos := 9, posLow := 4 }, 77,
    (({ (((((st ({ (((List.range 12).foldl (fun (n : Mach) b => if b = 11 then n else n.setFld (Reg.MOT_A_WIN_LO.lo b) 5) { inM .ready with dtm := { ticks := 500 } }).setFld (Reg.MOT_A_CFG.en 11) 1 |>.setFld (Reg.MOT_A_STG_TARGET.target 11) 77 |>.setFld (Reg.MOT_A_WIN_HI.hi 11) 100) with mot := { axis := [(11, { state := .hold, cmd := some .setPos, posValid := true, pos := 9, posLow := 4 })] } })).m.beaten .plan).setFld (Reg.MOT_A_CMD.busy 11) 0).setFld (Reg.MOT_A_CMD.result 11) 0)) with mot := { (st ({ (((List.range 12).foldl (fun (n : Mach) b => if b = 11 then n else n.setFld (Reg.MOT_A_WIN_LO.lo b) 5) { inM .ready with dtm := { ticks := 500 } }).setFld (Reg.MOT_A_CFG.en 11) 1 |>.setFld (Reg.MOT_A_STG_TARGET.target 11) 77 |>.setFld (Reg.MOT_A_WIN_HI.hi 11) 100) with mot := { axis := [(11, { state := .hold, cmd := some .setPos, posValid := true, pos := 9, posLow := 4 })] } })).m.mot with axis := [(11, { ({ state := .hold, cmd := some .setPos, posValid := true, pos := 9, posLow := 4 } : Axis) with cmd := none, pos := 77 * ustep, posLow := 0, posValid := true, target := 77, within := decide ((st ({ (((List.range 12).foldl (fun (n : Mach) b => if b = 11 then n else n.setFld (Reg.MOT_A_WIN_LO.lo b) 5) { inM .ready with dtm := { ticks := 500 } }).setFld (Reg.MOT_A_CFG.en 11) 1 |>.setFld (Reg.MOT_A_STG_TARGET.target 11) 77 |>.setFld (Reg.MOT_A_WIN_HI.hi 11) 100) with mot := { axis := [(11, { state := .hold, cmd := some .setPos, posValid := true, pos := 9, posLow := 4 })] } })).m.sfld (Reg.MOT_A_WIN_LO.lo 11) ≤ 77 ∧ 77 ≤ (st ({ (((List.range 12).foldl (fun (n : Mach) b => if b = 11 then n else n.setFld (Reg.MOT_A_WIN_LO.lo b) 5) { inM .ready with dtm := { ticks := 500 } }).setFld (Reg.MOT_A_CFG.en 11) 1 |>.setFld (Reg.MOT_A_STG_TARGET.target 11) 77 |>.setFld (Reg.MOT_A_WIN_HI.hi 11) 100) with mot := { axis := [(11, { state := .hold, cmd := some .setPos, posValid := true, pos := 9, posLow := 4 })] } })).m.sfld (Reg.MOT_A_WIN_HI.hi 11)) })] } } : Mach).driveCoils 11 (([] : List AxisSense).getD 11 {}).codes),
    by refine ⟨?_, ?_, ?_, ?_, ?_, ?_, ?_, ?_, ?_, ?_, ?_, ?_, ?_, ?_, ?_, ?_, ?_,
    ?_⟩ <;> first | decide +kernel | rfl⟩,
    ⟨st ({ inM .ready with pwr := { powerFail := true } }), by decide +kernel⟩⟩

theorem witness_AxesAreEnabledAndFault :
    (∃ (s : State) (a : Nat), Runs s ∧ s.m.glb.mode ≠ .boot ∧ s.m.isBacksight = false ∧
      s.m.flag (Reg.MOT_A_CFG.en a) = false ∧ s.m.mirroring = false ∧ (s.m.axis a).state = .off) ∧
    (∃ (s : State), Runs s ∧ s.m.glb.mode ≠ .boot) ∧
    (∃ (s : State) (a : Nat) (u : Nat), Runs s ∧ ((s.m.axis a).cmp u).state = .armed) ∧
    (∃ (s : State) (a : Nat) (u : Nat), Runs s ∧ ((s.m.axis a).cmp u).state ≠ .armed) ∧
    (∃ (s : State) (a : Nat) (x : Axis), Runs s ∧ s.m.axis a = x ∧ x.state = .moving ∧ 8 ≤ x.atCeil ∧
      s.m.flag (Reg.MOT_A_CFG.stall_action a) = false ∧ s.m.mirroring = false) ∧
    (∃ (s : State) (a : Nat) (x : Axis), Runs s ∧ s.m.axis a = x ∧ x.state = .moving ∧ 8 ≤ x.atCeil ∧
      s.m.flag (Reg.MOT_A_CFG.stall_action a) = true) ∧
    (∃ (s : State) (a : Nat), Runs s ∧ (s.m.axis a).atCeil < 8) ∧
    (∃ (s : State) (a : Nat) (x : Axis) (i : Int) (j : Int) (d : Mach), Runs s ∧ s.m.axis a = x ∧ x.state = .hold ∧
      2 ≤ x.above ∧ i = x.coilA.meas ∧ j = x.coilB.meas ∧ s.m.mirroring = false ∧
      d = s.m.raise Ev.motOvercurrent .error a (unsigned 16 i + 65536 * unsigned 16 j)) ∧
    (∃ (s : State) (a : Nat), Runs s ∧ (s.m.axis a).above < 2) ∧
    (∃ (s : State) (a : Nat), Runs s ∧ (s.m.axis a).lagRaised = true) ∧
    (∃ (s : State) (a : Nat), Runs s ∧ (s.m.axis a).state = .geared ∧ 1000 ≤ (s.m.axis a).lagOver ∧
      (s.m.axis a).lagRaised = false) :=
  ⟨⟨st (inM .setup), 11, by decide +kernel⟩,
    ⟨st (inM .setup), by decide +kernel⟩,
    ⟨st ({ inM .setup with mot := { axis := [(11, { cmp1 := { state := .armed } })] } }), 11, 1, by decide +kernel⟩,
    ⟨st ({ inM .setup with mot := { axis := [(11, { cmp0 := { state := .armed } })] } }), 11, 1, by decide +kernel⟩,
    ⟨st ({ (inM .run).setFld (Reg.MOT_A_CFG.stall_action 2) 0 with mot := { axis := [(2, { state := .moving, atCeil := 8, pos := 5 })] } }),
      2,
      (st ({ (inM .run).setFld (Reg.MOT_A_CFG.stall_action 2) 0 with mot := { axis := [(2, { state := .moving, atCeil := 8, pos := 5 })] } })).m.axis 2,
      by decide +kernel⟩,
    ⟨st ({ (inM .run).setFld (Reg.MOT_A_CFG.stall_action 2) 1 with mot := { axis := [(2, { state := .moving, atCeil := 8, pos := 5 })] } }),
      2,
      (st ({ (inM .run).setFld (Reg.MOT_A_CFG.stall_action 2) 1 with mot := { axis := [(2, { state := .moving, atCeil := 8, pos := 5 })] } })).m.axis 2,
      by decide +kernel⟩,
    ⟨st ({ (inM .run).setFld (Reg.MOT_A_CFG.stall_action 2) 0 with mot := { axis := [(2, { state := .moving, atCeil := 7, pos := 5 })] } }),
      2, by decide +kernel⟩,
    ⟨st ({ inM .run with mot := { axis := [(2, { state := .hold, pos := 5, above := 2, coilA := { meas := 9000, high := 1 }, coilB := { meas := -3 } })] } }),
      2,
      (st ({ inM .run with mot := { axis := [(2, { state := .hold, pos := 5, above := 2, coilA := { meas := 9000, high := 1 }, coilB := { meas := -3 } })] } })).m.axis 2,
      9000, -3,
      (st ({ inM .run with mot := { axis := [(2, { state := .hold, pos := 5, above := 2, coilA := { meas := 9000, high := 1 }, coilB := { meas := -3 } })] } })).m.raise Ev.motOvercurrent .error 2 (unsigned 16 9000 + 65536 * unsigned 16 (-3)),
      by refine ⟨?_, ?_, ?_, ?_, ?_, ?_, ?_, ?_⟩ <;> first | decide +kernel | rfl⟩,
    ⟨st ({ inM .run with mot := { axis := [(2, { state := .hold, pos := 5, above := 1, coilA := { meas := 9000, high := 1 }, coilB := { meas := -3 } })] } }),
      2, by decide +kernel⟩,
    ⟨st ({ inM .run with mot := { axis := [(2, { state := .geared, lagOver := 1000, lagRaised := true })] } }), 2,
      by decide +kernel⟩,
    ⟨st ({ inM .run with mot := { axis := [(2, { state := .geared, lagOver := 1000 })] } }), 2, by decide +kernel⟩⟩

theorem witness_TickAdvancesTheClock :
    ∃ (s : State), Runs s :=
  ⟨st ({ inM .run with chn := { vote := .two, lead := 5, ch := [(0, { state := .voting }), (1, { state := .voting })] } }),
    by decide +kernel⟩

theorem witness_TheClockIsSetAndSnapshot :
    (∃ (s : State) (o : DWord), Runs s ∧ s.m.dtm.pendingOff = some o) ∧
    (∃ (s : State), Runs s ∧ s.m.dtm.pendingOff = none) ∧
    (∃ (s : State), Runs s ∧ s.m.glb.mode ≠ .boot) ∧
    (∃ (s : State) (hi : Nat) (fw : Bool) (v : Nat), Runs s ∧ s.m.writerHere fw = true ∧ s.m.ownsServo fw = true ∧
      v = clampNat incrMin incrMax (hi % 256 * 2 ^ 32 + s.m.rd Reg.DTM_INCR_LO)) ∧
    (∃ (s : State) (fw : Bool), Runs s ∧ s.m.writerHere fw = true ∧ s.m.ownsServo fw = true ∧
      s.m.dtm.pendingOff = none) ∧
    (∃ (s : State) (hi : Nat) (fw : Bool) (e : Nat), Runs s ∧ s.m.writerHere fw = true ∧ s.m.ownsServo fw = true ∧
      e = (s.m.wr Reg.DTM_EPOCH_HI (hi % 2 ^ 32)).pair Reg.DTM_EPOCH_LO) ∧
    (∃ (s : State) (fw : Bool), Runs s ∧ s.m.writerHere fw = true ∧ s.m.ownsServo fw = false) ∧
    (∃ (s : State) (fw : Bool), Runs s ∧ s.m.writerHere fw = true ∧ s.m.ownsServo fw = false) ∧
    (∃ (s : State) (fw : Bool), Runs s ∧ s.m.writerHere fw = true ∧ s.m.ownsServo fw = false) ∧
    (∃ (s : State) (fw : Bool), Runs s ∧ s.m.writerHere fw = true ∧ s.m.ownsServo fw = true ∧
      s.m.dtm.pendingOff ≠ none) :=
  ⟨⟨st ({ inM .run with dtm := { pendingOff := some 0xFFFFFFFFFFFFFFFF, stepCount := 255 } }), 0xFFFFFFFFFFFFFFFF,
    by decide +kernel⟩,
    ⟨st (inM .run), by decide +kernel⟩,
    ⟨st ({ inM .run with dtm := { clock := 0x123456789ABCDEF, ticks := 9 }, chn := { vote := .two, printed := 77 } }),
      by decide +kernel⟩,
    ⟨st (inM .run), 1, true, clampNat incrMin incrMax (1 % 256 * 2 ^ 32 + (st (inM .run)).m.rd Reg.DTM_INCR_LO),
      by decide +kernel⟩,
    ⟨st (inM .run), true, by decide +kernel⟩,
    ⟨st (inM .run), 2, true, ((st (inM .run)).m.wr Reg.DTM_EPOCH_HI (2 % 2 ^ 32)).pair Reg.DTM_EPOCH_LO,
      by decide +kernel⟩,
    ⟨st (inM .run), false, by decide +kernel⟩,
    ⟨st (inM .run), false, by decide +kernel⟩,
    ⟨st (inM .run), false, by decide +kernel⟩,
    ⟨st ({ inM .run with dtm := { pendingOff := some 0 } }), true, by decide +kernel⟩⟩

theorem witness_PtpFramesAreStamped :
    (∃ (s : State) (p : Nat) (k : Nat) (t : DWord), Runs s ∧ k < 4 ∧ p < 2 ∧ s.m.flag (Reg.ETH_P_CFG.en p) = true ∧
      s.m.fld Reg.ETH_PTP_CFG.role ≠ 3 ∧ t = s.m.stampAt (-(s.m.fld (Reg.ETH_P_TS_LAT.rx_lat p) : Int))) ∧
    (∃ (s : State) (p : Nat) (k : Nat), Runs s ∧ k < 4 ∧ p < 2 ∧ s.m.flag (Reg.ETH_P_CFG.en p) = true ∧
      s.m.fld Reg.ETH_PTP_CFG.role ≠ 3 ∧ s.m.skx.silent = false ∧ (s.m.ethPort p).txStamps.length < 16) ∧
    (∃ (s : State) (p : Nat) (f : List Byte) (h : Nat × Option Nat) (t : DWord) (v : Int), Runs s ∧ p < 2 ∧
      s.m.flag (Reg.ETH_P_CFG.en p) = true ∧ s.m.fld Reg.ETH_PTP_CFG.role ≠ 3 ∧ s.m.skx.silent = false ∧
      p = s.m.ptpPort ∧ s.m.ptpHeader f = some h ∧ (s.m.ethPort p).txStamps.length < 16 ∧
      t = s.m.stampAt (s.m.fld (Reg.ETH_P_TS_LAT.tx_lat p)) ∧ v = (t.toNat : Int) + s.m.dtm.epoch.toInt ∧ 0 ≤ v) ∧
    (∃ (s : State) (d : List Byte) (n : Nat), Runs s ∧ s.m.flag Reg.DTM_CTRL.servo_owner = true ∧
      s.m.firmwareRuns = true ∧ s.m.fld Reg.ETH_PTP_CFG.role ≠ 3 ∧ d.length = 52 ∧ n = s.m.stepAt (leField d 8 8)) :=
  ⟨⟨st ((inM .run).setFld (Reg.ETH_P_CFG.en 1) 1), 1, 0,
    (st ((inM .run).setFld (Reg.ETH_P_CFG.en 1) 1)).m.stampAt (-((st ((inM .run).setFld (Reg.ETH_P_CFG.en 1) 1)).m.fld (Reg.ETH_P_TS_LAT.rx_lat 1) : Int)),
    by refine ⟨?_, ?_, ?_, ?_, ?_, ?_⟩ <;> first | decide +kernel | rfl⟩,
    ⟨st ({ (inM .run).setFld (Reg.ETH_P_CFG.en 1) 1 with eth := { port := [(1, { txStamps := [1,2,3] })] } }), 1, 0,
      by decide +kernel⟩,
    ⟨st ({ (((inM .run).setFld (Reg.ETH_P_CFG.en 1) 1).setFld Reg.ETH_PTP_CFG.port 1) with dtm := { clock := 0x500000000 } }),
      1, List.replicate 12 1 ++ [0x88, 0xF7] ++ List.replicate 44 2, (14, none),
      (st ({ (((inM .run).setFld (Reg.ETH_P_CFG.en 1) 1).setFld Reg.ETH_PTP_CFG.port 1) with dtm := { clock := 0x500000000 } })).m.stampAt ((st ({ (((inM .run).setFld (Reg.ETH_P_CFG.en 1) 1).setFld Reg.ETH_PTP_CFG.port 1) with dtm := { clock := 0x500000000 } })).m.fld (Reg.ETH_P_TS_LAT.tx_lat 1)),
      (((st ({ (((inM .run).setFld (Reg.ETH_P_CFG.en 1) 1).setFld Reg.ETH_PTP_CFG.port 1) with dtm := { clock := 0x500000000 } })).m.stampAt ((st ({ (((inM .run).setFld (Reg.ETH_P_CFG.en 1) 1).setFld Reg.ETH_PTP_CFG.port 1) with dtm := { clock := 0x500000000 } })).m.fld (Reg.ETH_P_TS_LAT.tx_lat 1)) : DWord).toNat : Int) + (st ({ (((inM .run).setFld (Reg.ETH_P_CFG.en 1) 1).setFld Reg.ETH_PTP_CFG.port 1) with dtm := { clock := 0x500000000 } })).m.dtm.epoch.toInt,
      by decide +kernel, by decide, by decide +kernel, by decide +kernel, by decide +kernel, by decide +kernel,
      by decide +kernel, by decide +kernel, rfl, rfl, by decide +kernel⟩,
    ⟨st ((inM .run).setFld Reg.DTM_CTRL.servo_owner 1), List.replicate 52 7,
      (st ((inM .run).setFld Reg.DTM_CTRL.servo_owner 1)).m.stepAt (leField (List.replicate 52 7 : List Byte) 8 8),
      by decide +kernel⟩⟩

theorem witness_PortsLinksAndBeacons :
    (∃ (s : State) (st : Nat), Runs s ∧ s.m.firmwareRuns = true ∧ s.m.fld Reg.ETH_PTP_CFG.role ≠ 3 ∧
      s.m.eth.portState = 9 ∧ 1 ≤ st ∧ st < 9) ∧
    (∃ (s : State) (p : Nat) (up : Bool), Runs s ∧ p < 2 ∧ s.m.flag (Reg.ETH_P_CFG.en p) = true ∧
      (s.m.ethPort p).link ≠ up) ∧
    (∃ (s : State) (p : Nat), Runs s ∧ s.m.flag (Reg.ETH_P_CFG.en p) = false) ∧
    (∃ (s : State), Runs s ∧ s.m.flag Reg.ETH_PTP_CFG.fo_en = true ∧ (s.m.ethPort s.m.ptpPort).link = false ∧
      s.m.firmwareRuns = true ∧ s.m.fld Reg.ETH_PTP_CFG.role ≠ 3 ∧ s.m.eth.portState ≠ 4 ∧ s.m.eth.portState ≠ 9) ∧
    (∃ (s : State) (p : Nat) (f : EthFrame), Runs s ∧ p < 2 ∧ s.m.flag (Reg.ETH_P_CFG.en p) = true ∧
      (f.crcOk = false ∨ 1522 < f.len ∨ 1 < f.tags)) ∧
    (∃ (s : State) (p : Nat) (f : EthFrame), Runs s ∧ p < 2 ∧ f.crcOk = true ∧ f.len ≤ 1522 ∧ f.tags ≤ 1 ∧
      f.kind = 1 ∧ s.m.fld Reg.ETH_PTP_CFG.role ≠ 3) ∧
    (∃ (s : State) (p : Nat) (f : EthFrame), Runs s ∧ p < 2 ∧ s.m.flag (Reg.ETH_P_CFG.en p) = true ∧ f.crcOk = true ∧
      f.len ≤ 1522 ∧ f.tags ≤ 1 ∧ (f.kind = 2 ∨ f.kind = 3) ∧ s.m.firmwareRuns = true ∧ s.m.rd (Reg.ETH_P_IP p) ≠ 0) ∧
    (∃ (s : State) (p : Nat), Runs s ∧ s.m.flag (Reg.ETH_P_CFG.en p) = false) ∧
    (∃ (s : State), Runs s ∧ s.m.flag Reg.ETH_BCN_CFG.en = true ∧ s.m.eth.bcnDue ≤ s.m.now ∧ s.m.glb.mode ≠ .boot ∧
      s.m.glb.mode ≠ .backsight ∧ 0 ≤ (s.m.time.toNat : Int) + s.m.dtm.epoch.toInt) ∧
    (∃ (s : State), Runs s ∧ s.m.now < s.m.eth.bcnDue) :=
  ⟨⟨st ({ inM .run with eth := { portState := 9 } }), 8, by decide +kernel⟩,
    ⟨st ((inM .run).setFld (Reg.ETH_P_CFG.en 1) 1), 1, true, by decide +kernel⟩,
    ⟨st ((inM .run).setFld (Reg.ETH_P_CFG.en 1) 0), 1, by decide +kernel⟩,
    ⟨st ({ (inM .run).setFld Reg.ETH_PTP_CFG.fo_en 1 with eth := { portState := 5 } }), by decide +kernel⟩,
    ⟨st ((inM .run).setFld (Reg.ETH_P_CFG.en 1) 1), 1,
      { crcOk := true, kind := 1, data := [], len := 1523, tags := 0 }, by decide +kernel⟩,
    ⟨st ((inM .run).setFld (Reg.ETH_P_CFG.en 1) 1), 1,
      { crcOk := true, kind := 1, data := [], len := 1522, tags := 1 }, by decide +kernel⟩,
    ⟨st (((inM .run).setFld (Reg.ETH_P_CFG.en 1) 1).wr (Reg.ETH_P_IP 1) 7), 1,
      { crcOk := true, kind := 2, data := [9], len := 64, tags := 0 }, by decide +kernel⟩,
    ⟨st ((inM .run).setFld (Reg.ETH_P_CFG.en 1) 0), 1, by decide +kernel⟩,
    ⟨st ({ (inM .run).setFld Reg.ETH_BCN_CFG.en 1 with chn := { printed := 8, vote := .two }, dtm := { clock := 0x500000000, ticks := 50 }, eth := { bcnDue := 50 } }),
      by decide +kernel⟩,
    ⟨st ({ (inM .run).setFld Reg.ETH_BCN_CFG.en 1 with eth := { bcnDue := 51 } }), by decide +kernel⟩⟩

theorem witness_RingsStartAndDescriptorsAreFetched :
    (∃ (s : State) (r : Nat), Runs s ∧ r < 12 ∧ s.m.glb.mode ≠ .boot ∧ s.m.flag (Reg.HST_RING_CFG.en r) = false ∧
      s.m.ringRefusal r = 0) ∧
    (∃ (s : State) (r : Nat), Runs s ∧ s.m.flag (Reg.HST_RING_CFG.en r) = true) ∧
    (∃ (s : State) (r : Nat), Runs s ∧ r < 64 ∧ s.m.glb.mode ≠ .boot ∧ s.m.flag (Reg.HST_RING_CFG.en r) = false ∧
      s.m.ringRefusal r ≠ 0) ∧
    (∃ (s : State) (r : Nat), Runs s ∧ r < 12 ∧ s.m.glb.mode ≠ .boot) ∧
    (∃ (s : State) (r : Nat), Runs s ∧ r < 22 ∧ s.m.glb.mode ≠ .boot) ∧
    (∃ (s : State) (r : Nat) (d : DescHead) (x : Ring), Runs s ∧ s.m.ring r = x ∧ s.m.ringFetches r = true ∧
      s.m.targetRoom (s.m.fld (Reg.HST_RING_CFG.cpl r)) = true ∧
      s.m.dmaOk false (s.m.ringNext r) (ringEntry r) = true ∧ d.phase = x.phase ∧ ringOpcode r d.opcode = true) ∧
    (∃ (s : State) (r : Nat) (d : DescHead) (x : Ring), Runs s ∧ s.m.ring r = x ∧ s.m.ringFetches r = true ∧
      s.m.targetRoom (s.m.fld (Reg.HST_RING_CFG.cpl r)) = true ∧
      s.m.dmaOk false (s.m.ringNext r) (ringEntry r) = true ∧ d.phase = x.phase ∧ ringOpcode r d.opcode = false ∧
      (r < 12 ∨ s.m.camBufs (r - 12) = [])) ∧
    (∃ (s : State) (r : Nat) (d : DescHead), Runs s ∧ s.m.ringFetches r = true ∧
      s.m.targetRoom (s.m.fld (Reg.HST_RING_CFG.cpl r)) = true ∧
      s.m.dmaOk false (s.m.ringNext r) (ringEntry r) = true ∧ d.phase ≠ (s.m.ring r).phase) ∧
    (∃ (s : State) (r : Nat), Runs s ∧ s.m.ringFetches r = true ∧
      s.m.targetRoom (s.m.fld (Reg.HST_RING_CFG.cpl r)) = true ∧
      s.m.dmaOk false (s.m.ringNext r) (ringEntry r) = false) ∧
    (∃ (s : State) (r : Nat), Runs s ∧ s.m.ringFetches r = true ∧
      s.m.targetRoom (s.m.fld (Reg.HST_RING_CFG.cpl r)) = false) ∧
    (∃ (s : State) (h : DescRef) (d : Mach), Runs s ∧ s.m.holdsDesc h = true ∧ d = s.m.takeDesc h ∧
      s.m.hst.stopped = false ∧ (h.ring < 12 ∨ s.m.camBufs (h.ring - 12) = [])) :=
  ⟨⟨st (dmaM (inM .run)), 11, by decide +kernel⟩,
    ⟨st ((inM .run).setFld (Reg.HST_RING_CFG.en 11) 1), 11, by decide +kernel⟩,
    ⟨st (inM .run), 63, by decide +kernel⟩,
    ⟨st ({ inM .run with hst := { rings := [(5, { active := true, head := 3 })] } }), 5, by decide +kernel⟩,
    ⟨st ({ inM .run with hst := { rings := [(1, { active := true, head := 3 })], linkSpeed := 4 } }), 1,
      by decide +kernel⟩,
    ⟨st ({ dmaM (inM .run) with hst := { linkSpeed := 4, rings := [(1, { active := true, head := 0, tail := 1, count := 4 })] } }),
      1, { opcode := 1, phase := true, irq := true, quiet := false, tag := 55 },
      (st ({ dmaM (inM .run) with hst := { linkSpeed := 4, rings := [(1, { active := true, head := 0, tail := 1, count := 4 })] } })).m.ring 1,
      by decide +kernel⟩,
    ⟨st ({ dmaM (inM .run) with hst := { linkSpeed := 4, rings := [(1, { active := true, head := 63, tail := 0, count := 4 })] } }),
      1, { opcode := 0x77, phase := true, irq := true, quiet := false, tag := 55 },
      (st ({ dmaM (inM .run) with hst := { linkSpeed := 4, rings := [(1, { active := true, head := 63, tail := 0, count := 4 })] } })).m.ring 1,
      by decide +kernel⟩,
    ⟨st ({ dmaM (inM .run) with hst := { linkSpeed := 4, rings := [(1, { active := true, head := 63, tail := 0, count := 4 })] } }),
      1, { opcode := 0, phase := false, irq := true, quiet := false, tag := 55 }, by decide +kernel⟩,
    ⟨st ({ inM .run with hst := { linkSpeed := 4, rings := [(1, { active := true, head := 63, tail := 0, count := 4 })] } }),
      1, by decide +kernel⟩,
    ⟨st ({ (inM .run).setFld (Reg.HST_RING_CFG.cpl 1) 24 with hst := { linkSpeed := 4, rings := [(1, { active := true, head := 63, tail := 0, count := 4 })] } }),
      1, by decide +kernel⟩,
    ⟨st ({ inM .run with hst := { rings := [(1, { got := some { ring := 1, tag := 4 } })] } }),
      { ring := 1, tag := 4 },
      (st ({ inM .run with hst := { rings := [(1, { got := some { ring := 1, tag := 4 } })] } })).m.takeDesc ({ ring := 1, tag := 4 } : DescRef),
      by refine ⟨?_, ?_, ?_, ?_, ?_⟩ <;> first | decide +kernel | rfl⟩⟩

theorem witness_WaitingWritesAndTheLink :
    (∃ (s : State) (t : Nat) (c : Cpl), Runs s ∧ s.m.hst.stopped = false ∧ 20 ≤ t ∧ s.m.hst.cplWait = [(t, [c])] ∧
      s.m.ringRoom t = true ∧ s.m.evt.queue = [] ∧ s.m.evt.lost = 0) ∧
    (∃ (s : State), Runs s ∧ s.m.hst.stopped = true) ∧
    (∃ (s : State) (r : Rec) (d : Mach), Runs s ∧ s.m.evt.queue = [r] ∧ s.m.evt.lost = 0 ∧ s.m.ringRoom 20 = true ∧
      d = ({ s.m with evt := { s.m.evt with queue := [] } } : Mach).recWrite r) ∧
    (∃ (s : State), Runs s ∧ s.m.glb.mode ≠ .boot ∧ s.m.fld Reg.HST_CFG.tlm_period_ms ≠ 0 ∧
      s.m.lastBeat .snapshot + s.m.fld Reg.HST_CFG.tlm_period_ms * 500000 ≤ s.m.now) ∧
    (∃ (s : State) (v : Nat), Runs s ∧
      s.m.now < Tab.get 0 s.m.evt.vecSince v + 50 * s.m.fld (Reg.EVT_VEC_CFG.holdoff v)) ∧
    (∃ (s : State) (v : Nat), Runs s ∧ Tab.get 0 s.m.evt.vecPending v ≠ 0 ∧ s.m.fld (Reg.EVT_VEC_CFG.holdoff v) ≠ 0 ∧
      Tab.get 0 s.m.evt.vecSince v + 50 * s.m.fld (Reg.EVT_VEC_CFG.holdoff v) ≤ s.m.now) ∧
    (∃ (s : State) (e : Ev) (n : Nat), Runs s ∧ e ∈ ratedEvents ∧
      (Tab.get {} s.m.evt.rate (rateKey e.code n)).count ≠ 0 ∧
      (Tab.get {} s.m.evt.rate (rateKey e.code n)).free s.m.now = true) ∧
    (∃ (s : State) (speed : Nat) (width : Nat), Runs s ∧ 1 ≤ speed ∧ speed ≤ 4 ∧ width ∈ [1, 2, 4, 8] ∧
      s.m.hst.linkSpeed = 0 ∧ s.m.glb.mode ≠ .boot ∧ s.m.hst.stopped = true ∧ s.m.hst.cplWait = [] ∧
      (s.m.ring 20).active = false ∧ s.m.cam.spill = []) ∧
    (∃ (s : State), Runs s ∧ 0 < s.m.hst.linkSpeed ∧ s.m.flag Reg.HST_CFG.stop_on_link = false) :=
  ⟨⟨st ({ dmaM (inM .run) with hst := { linkSpeed := 4, cplWait := [(20, [cplOf { tag := 3 } .ok])], rings := [(20, { active := true })] } }),
    20, cplOf { tag := 3 } .ok, by decide +kernel⟩,
    ⟨st ({ inM .run with hst := { stopped := true } }), by decide +kernel⟩,
    ⟨st ({ dmaM (inM .run) with hst := { linkSpeed := 4, rings := [(20, { active := true })] }, evt := { queue := [{ code := 1, sev := .info, block := 2, flags := 0, seq := 1, chn := 2, time := 3, arg0 := 4, arg1 := 5 }] } }),
      { code := 1, sev := .info, block := 2, flags := 0, seq := 1, chn := 2, time := 3, arg0 := 4, arg1 := 5 },
      ({ (st ({ dmaM (inM .run) with hst := { linkSpeed := 4, rings := [(20, { active := true })] }, evt := { queue := [{ code := 1, sev := .info, block := 2, flags := 0, seq := 1, chn := 2, time := 3, arg0 := 4, arg1 := 5 }] } })).m with evt := { (st ({ dmaM (inM .run) with hst := { linkSpeed := 4, rings := [(20, { active := true })] }, evt := { queue := [{ code := 1, sev := .info, block := 2, flags := 0, seq := 1, chn := 2, time := 3, arg0 := 4, arg1 := 5 }] } })).m.evt with queue := [] } } : Mach).recWrite ({ code := 1, sev := .info, block := 2, flags := 0, seq := 1, chn := 2, time := 3, arg0 := 4, arg1 := 5 } : Rec),
      by refine ⟨?_, ?_, ?_, ?_, ?_⟩ <;> first | decide +kernel | rfl⟩,
    ⟨st ({ (inM .run).setFld Reg.HST_CFG.tlm_period_ms 10 with dtm := { ticks := 5000000 } }), by decide +kernel⟩,
    ⟨st ({ (inM .run).setFld (Reg.EVT_VEC_CFG.holdoff 31) 10 with evt := { vecPending := [(31, 2)], vecSince := [(31, 7)] }, dtm := { ticks := 506 } }),
      31, by decide +kernel⟩,
    ⟨st ({ (inM .run).setFld (Reg.EVT_VEC_CFG.holdoff 31) 10 with evt := { vecPending := [(31, 2)], vecSince := [(31, 7)] }, dtm := { ticks := 507 } }),
      31, by decide +kernel⟩,
    ⟨st ({ inM .run with evt := { rate := [(rateKey Ev.trvMiss.code 3, { last := some 0, count := 4, a0 := 7 })] }, dtm := { ticks := 5000000 } }),
      Ev.trvMiss, 3, by decide +kernel⟩,
    ⟨st ({ inM .run with hst := { stopped := true } }), 4, 8, by decide +kernel⟩,
    ⟨st ({ (inM .run).setFld Reg.HST_CFG.stop_on_link 0 with hst := { linkSpeed := 3, linkWidth := 8 } }),
      by decide +kernel⟩⟩

theorem witness_StopsTakeHoldAndAreReleased :
    (∃ (s : State), Runs s ∧ s.m.glb.mode ≠ .boot ∧ s.m.hst.stopped = false) ∧
    (∃ (s : State), Runs s ∧ s.m.glb.mode ≠ .boot ∧ s.m.hst.stopped = false) ∧
    (∃ (s : State), Runs s ∧ s.m.glb.mode ≠ .boot ∧ s.m.hst.stopped = false) ∧
    (∃ (s : State), Runs s ∧ s.m.glb.mode ≠ .boot ∧ s.m.hst.stopped = false) ∧
    (∃ (s : State), Runs s ∧ s.m.glb.mode ≠ .boot ∧ s.m.hst.stopped = false) ∧
    (∃ (s : State) (h : DescRef), Runs s ∧ Held s h 0x22 ∧ s.m.glb.mode ≠ .boot ∧ s.m.hst.stopped = false) ∧
    (∃ (s : State), Runs s ∧ s.m.glb.mode ≠ .boot ∧ s.m.hst.stopped = false ∧ 0 < s.m.hst.linkSpeed ∧
      s.m.flag Reg.HST_CFG.stop_on_link = true) ∧
    (∃ (s : State), Runs s ∧ s.m.glb.mode ≠ .boot ∧ s.m.hst.stopped = true ∧ s.m.mirroring = false) ∧
    (∃ (s : State), Runs s ∧ s.m.glb.mode ≠ .boot ∧ s.m.hst.stopped = true ∧ s.m.mirroring = false) ∧
    (∃ (s : State), Runs s ∧ s.m.glb.mode ≠ .boot ∧ s.m.hst.stopped = true ∧ s.m.mirroring = false) ∧
    (∃ (s : State), Runs s ∧ s.m.hst.stopN = true ∧ s.m.glb.mode ≠ .boot) ∧
    (∃ (s : State), Runs s ∧ s.m.hst.stopN = true ∧ s.m.glb.mode = .boot) ∧
    (∃ (s : State), Safe s ∧ s.m.hst.stopN = false) ∧
    (∃ (s : State), Runs s ∧ s.m.glb.mode ≠ .boot ∧ s.m.hst.stopped = true ∧ s.m.hst.stopN = true) ∧
    (∃ (s : State), Runs s ∧ s.m.glb.mode ≠ .boot ∧ s.m.hst.stopped = true ∧ s.m.hst.stopN = true ∧
      s.m.hst.held = [] ∧ s.m.linkUp = false ∧ s.m.mirroring = false) ∧
    (∃ (s : State), Runs s ∧ s.m.hst.stopN = false) :=
  ⟨⟨st (inM .run), by decide +kernel⟩,
    ⟨st (inM .benchmark), by decide +kernel⟩,
    ⟨st (inM .run), by decide +kernel⟩,
    ⟨st (inM .run), by decide +kernel⟩,
    ⟨st (inM .run), by decide +kernel⟩,
    ⟨st ({ inM .setup with hst := { rings := [(0, { got := some { tag := 3, opcode := 0x22 } })] } }),
      { tag := 3, opcode := 0x22 }, by decide +kernel⟩,
    ⟨st ({ (inM .run).setFld Reg.HST_CFG.stop_on_link 1 with hst := { linkSpeed := 4 } }), by decide +kernel⟩,
    ⟨st ({ inM .run with hst := { stopped := true } }), by decide +kernel⟩,
    ⟨st ({ inM .run with hst := { stopped := true } }), by decide +kernel⟩,
    ⟨st ({ inM .run with hst := { stopped := true } }), by decide +kernel⟩,
    ⟨st (inM .run), by decide +kernel⟩,
    ⟨st (inM .boot), by decide +kernel⟩,
    ⟨st ({ inM .run with hst := { stopN := false, stopped := true } }), by decide +kernel⟩,
    ⟨st ({ dmaM (inM .run) with hst := { stopped := true, stopSrc := 3, linkSpeed := 4, held := [.cpl 24 (cplOf { tag := 3 } .ok)], rings := [(1, { active := true })] } }),
      by decide +kernel⟩,
    ⟨st ({ inM .run with hst := { stopped := true, stopSrc := 3, rings := [(1, { active := true })] } }),
      by decide +kernel⟩,
    ⟨st ({ inM .run with hst := { stopN := false, stopped := true } }), by decide +kernel⟩⟩

theorem witness_ModesAreAskedFor :
    (∃ (s : State), Runs s ∧ s.m.glb.mode = .setup ∧ s.m.modeCause 2 = 0) ∧
    (∃ (s : State) (t : Nat), Runs s ∧ 1 ≤ t ∧ t ≤ 6 ∧ t ≠ s.m.glb.mode.code ∧ s.m.modeCause t ≠ 0) ∧
    (∃ (s : State), Runs s ∧ s.m.glb.mode ≠ .boot) ∧
    (∃ (s : State), Runs s ∧ s.m.glb.mode = .ready) ∧
    (∃ (s : State) (h : DescRef), Runs s ∧ Held s h 0x24 ∧ s.m.hst.stopped = false ∧ s.m.glb.mode = .setup ∧
      s.m.modeCause 2 = 0) ∧
    (∃ (s : State) (h : DescRef) (t : Nat) (d : Mach), Runs s ∧ Held s h 0x24 ∧ d = s.m.takeDesc h ∧
      s.m.hst.stopped = false ∧ s.m.glb.mode = .ready ∧ s.m.mirroring = false ∧ 1 ≤ t ∧ t ≤ 6 ∧ t ≠ 2 ∧
      s.m.modeCause t ≠ 0) :=
  ⟨⟨st ({ glb := { mode := .setup, stage := 0, locked := true }, chn := { vote := .two }, vgp := { job := [(0, { state := .stored })] } }),
    by decide +kernel⟩,
    ⟨st (inM .setup), 2, by decide +kernel⟩,
    ⟨st (inM .run), by decide +kernel⟩,
    ⟨st ({ glb := { mode := .ready, stage := 0, locked := true }, chn := { vote := .two } }), by decide +kernel⟩,
    ⟨st ({ glb := { mode := .setup, stage := 0, locked := true }, chn := { vote := .two }, vgp := { job := [(7, { state := .stored })] }, hst := { rings := [(0, { got := some { ring := 0, tag := 7, opcode := 0x24 } })] } }),
      { ring := 0, tag := 7, opcode := 0x24 }, by decide +kernel⟩,
    ⟨st ({ glb := { mode := .ready, stage := 0, locked := true }, hst := { rings := [(0, { got := some { ring := 0, tag := 7, opcode := 0x24 } })] } }),
      { ring := 0, tag := 7, opcode := 0x24 }, 4,
      (st ({ glb := { mode := .ready, stage := 0, locked := true }, hst := { rings := [(0, { got := some { ring := 0, tag := 7, opcode := 0x24 } })] } })).m.takeDesc ({ ring := 0, tag := 7, opcode := 0x24 } : DescRef),
      by refine ⟨?_, ?_, ?_, ?_, ?_, ?_, ?_, ?_, ?_, ?_⟩ <;> first | decide +kernel | rfl⟩⟩

theorem witness_LevelsArePinned :
    (∃ (s : State) (v : Nat), Runs s ∧ s.m.glb.locked = false ∧ s.m.glb.mode = .setup ∧
      v ≤ s.m.fld Reg.GLB_COMPAT.max_level) ∧
    (∃ (s : State) (v : Nat), Runs s ∧ s.m.glb.locked = false ∧ s.m.fld Reg.GLB_COMPAT.max_level < v) ∧
    (∃ (s : State), Runs s ∧ s.m.glb.locked = true) :=
  ⟨⟨st (inM .setup), 1, by decide +kernel⟩,
    ⟨st (inM .setup), 2, by decide +kernel⟩,
    ⟨st ({ glb := { mode := .ready, stage := 0, locked := true } }), by decide +kernel⟩⟩

theorem witness_TheModuleLocks :
    (∃ (s : State), Runs s ∧ s.m.glb.locked = false ∧ s.m.glb.lockBusy = false ∧ s.m.glb.mode = .setup) ∧
    (∃ (s : State), Runs s ∧ s.m.glb.locked = false ∧ s.m.glb.lockBusy = false ∧ s.m.glb.mode ≠ .setup) ∧
    (∃ (s : State) (q : Mach), Runs s ∧ s.m.glb.lockBusy = true ∧
      q = { s.m with glb := { s.m.glb with lockBusy := false }, drm := { s.m.drm with lockCause := s.m.regionCause } } ∧
      s.m.regionCause ≠ 0) ∧
    (∃ (s : State) (q : Mach), Runs s ∧ s.m.glb.lockBusy = true ∧
      q = { s.m with glb := { s.m.glb with lockBusy := false }, drm := { s.m.drm with lockCause := 0 }, fgd := { s.m.fgd with lockCause := 0 } } ∧
      s.m.regionCause = 0 ∧ s.m.fld Reg.FGD_G_GAIN.gain_min ≤ s.m.fld Reg.FGD_G_GAIN.gain_max ∧ q.geoFailure = none ∧
      q.laneFailure = none) :=
  ⟨⟨st (inM .setup), by decide +kernel⟩,
    ⟨st (inM .run), by decide +kernel⟩,
    ⟨st ({ (inM .setup).setFld Reg.DRM_REGION.tile_256m 3 with glb := { mode := .setup, stage := 0, lockBusy := true } }),
      { (st ({ (inM .setup).setFld Reg.DRM_REGION.tile_256m 3 with glb := { mode := .setup, stage := 0, lockBusy := true } })).m with glb := { (st ({ (inM .setup).setFld Reg.DRM_REGION.tile_256m 3 with glb := { mode := .setup, stage := 0, lockBusy := true } })).m.glb with lockBusy := false }, drm := { (st ({ (inM .setup).setFld Reg.DRM_REGION.tile_256m 3 with glb := { mode := .setup, stage := 0, lockBusy := true } })).m.drm with lockCause := (st ({ (inM .setup).setFld Reg.DRM_REGION.tile_256m 3 with glb := { mode := .setup, stage := 0, lockBusy := true } })).m.regionCause } },
      by refine ⟨?_, ?_, ?_, ?_⟩ <;> first | decide +kernel | rfl⟩,
    ⟨st ({ glb := { mode := .setup, stage := 0, lockBusy := true } }),
      { (st ({ glb := { mode := .setup, stage := 0, lockBusy := true } })).m with glb := { (st ({ glb := { mode := .setup, stage := 0, lockBusy := true } })).m.glb with lockBusy := false }, drm := { (st ({ glb := { mode := .setup, stage := 0, lockBusy := true } })).m.drm with lockCause := 0 }, fgd := { (st ({ glb := { mode := .setup, stage := 0, lockBusy := true } })).m.fgd with lockCause := 0 } },
      by refine ⟨?_, ?_, ?_, ?_, ?_, ?_, ?_⟩ <;> first | decide +kernel | rfl⟩⟩

theorem witness_TheGuardWatches :
    (∃ (s : State), Runs s ∧ s.m.glb.mode ≠ .boot ∧ s.m.glb.locked = true ∧ s.m.fgd.wdgExpired = false ∧
      s.m.flag Reg.FGD_G_CFG.wdg_src = true) ∧
    (∃ (s : State), Runs s ∧ s.m.now < s.m.fgd.wdgTick + clampNat 1 1000 (s.m.fld Reg.FGD_G_CFG.wdg_ms) * 500000) ∧
    (∃ (s : State) (v : Nat), Runs s ∧ s.m.glb.mode ≠ .boot ∧ v % 65536 ≠ 0xC3A5) ∧
    (∃ (s : State), Runs s ∧ s.m.glb.mode ≠ .boot ∧ s.m.glb.locked = true ∧ s.m.fgd.wdgExpired = false ∧
      s.m.fgd.wdgTick + clampNat 1 1000 (s.m.fld Reg.FGD_G_CFG.wdg_ms) * 500000 ≤ s.m.now) ∧
    (∃ (s : State), Runs s ∧ s.m.glb.mode ≠ .boot ∧ s.m.ceilingsOpen = true) ∧
    (∃ (s : State), Runs s ∧ s.m.fgd.headPwr = false ∧ s.m.pwrOff = 0 ∧ s.m.thm.latch = none) ∧
    (∃ (s : State), Runs s ∧ s.m.pwrOff ≠ 0) :=
  ⟨⟨st ({ (inM .setup).setFld Reg.FGD_G_CFG.wdg_src 1 with glb := { mode := .ready, stage := 0, locked := true } }),
    by decide +kernel⟩,
    ⟨st ({ glb := { mode := .run, stage := 0, locked := true }, dtm := { ticks := 500006 }, fgd := { wdgTick := 7 } }),
      by decide +kernel⟩,
    ⟨st (inM .setup), 0xC3A4, by decide +kernel⟩,
    ⟨st ({ ({ glb := { mode := .run, stage := 0, locked := true } } : Mach).setFld Reg.FGD_G_CFG.wdg_ms 2 with dtm := { ticks := 1000007 }, fgd := { wdgTick := 7 } }),
      by decide +kernel⟩,
    ⟨st ({ inM .setup with sec := { opened := 4 } }), by decide +kernel⟩,
    ⟨st ({ glb := { mode := .ready, stage := 0, locked := true }, fgd := { wdgRefreshed := true } }),
      by decide +kernel⟩,
    ⟨st ({ glb := { mode := .setup, stage := 0, locked := true }, fgd := { wdgRefreshed := true } }),
      by decide +kernel⟩⟩

theorem witness_ResetsStartBoot :
    (∃ (s : State), Runs s) ∧
    (∃ (s : State), Runs s) ∧
    (∃ (s : State), Runs s ∧ s.m.thm.latch = none) ∧
    (∃ (s : State), Runs s ∧ s.m.thm.latch = none) ∧
    (∃ (s : State) (key : Nat), Runs s ∧ key % 65536 ≠ 0x5A17) ∧
    (∃ (s : State), Safe s ∧ s.m.thm.latch.isSome = true) ∧
    (∃ (s : State), Safe s ∧ s.m.thm.latch = none) ∧
    (∃ (s : State) (t : Nat), Runs s ∧ s.m.glb.mode = .halt ∧ s.m.ptn.paired = true ∧
      s.m.flag Reg.PTN_CFG.halt_reset = true ∧ s.m.glb.haltTick = some t ∧ t + 500000 ≤ s.m.now) :=
  ⟨⟨st ({ inM .run with dram := [(5, 5)], chn := { vote := .two }, sec := { opened := 3, nonceValid := true }, out := [.hostRead [1]] }),
    by decide +kernel⟩,
    ⟨st ({ inM .run with dram := [(5, 5)], chn := { vote := .two }, sec := { opened := 3, nonceValid := true }, out := [.hostRead [1]] }),
      by decide +kernel⟩,
    ⟨st ({ inM .run with dram := [(5, 5)], chn := { vote := .two }, sec := { opened := 3, nonceValid := true }, out := [.hostRead [1]] }),
      by decide +kernel⟩,
    ⟨st ({ inM .run with dram := [(5, 5)], chn := { vote := .two }, sec := { opened := 3, nonceValid := true }, out := [.hostRead [1]] }),
      by decide +kernel⟩,
    ⟨st (inM .run), 0x5A16, by decide +kernel⟩,
    ⟨st ({ glb := { mode := .boot, clockHeld := true }, thm := { latch := some (3, 2000) } }), by decide +kernel⟩,
    ⟨st ({ glb := { mode := .boot, clockHeld := true } }), by decide +kernel⟩,
    ⟨st ({ (inM .run).setFld Reg.PTN_CFG.halt_reset 1 with glb := { mode := .halt, stage := 0, haltTick := some 0 }, ptn := { paired := true }, dtm := { ticks := 500000 }, dram := [(5, 5)] }),
      0, by decide +kernel⟩⟩

theorem witness_BootGoesStageByStage :
    (∃ (s : State), Runs s ∧ s.m.glb.mode = .boot ∧ s.m.glb.bootFail = 0 ∧ s.m.glb.stage ∈ [1, 2, 6]) ∧
    (∃ (s : State) (b : BootResult), Runs s ∧ s.m.glb.mode = .boot ∧ s.m.glb.bootFail = 0 ∧ s.m.glb.stage = 3 ∧
      b.ok = false) ∧
    (∃ (s : State), Runs s ∧ s.m.glb.bootFail ≠ 0) ∧
    (∃ (s : State) (b : BootResult), Runs s ∧ s.m.glb.mode = .boot ∧ s.m.glb.bootFail = 0 ∧ s.m.glb.stage = 7 ∧
      (s.m.bootCeilings b.ok).2 = true ∧ s.m.hst.stopN = true) :=
  ⟨⟨st ({ glb := { mode := .boot, stage := 6 } }), by decide +kernel⟩,
    ⟨st ({ glb := { mode := .boot, stage := 3 } }), { ok := false, ms := 3 }, by decide +kernel⟩,
    ⟨st ({ glb := { mode := .boot, stage := 3, bootFail := 1 } }), by decide +kernel⟩,
    ⟨st ({ glb := { mode := .boot, stage := 7 }, nand := { ceilB := closeRecord [] } }), { ok := true, ms := 70000 },
      by decide +kernel⟩⟩

theorem witness_TheSurveyLockAndTransfers :
    (∃ (s : State), Runs s ∧ s.m.sec.backoff = false) ∧
    (∃ (s : State), Runs s ∧ s.m.sec.backoff = true) ∧
    (∃ (s : State), Runs s ∧ s.m.sec.backoff = true) ∧
    (∃ (s : State), Runs s) ∧
    (∃ (s : State), Runs s ∧ s.m.sec.backoff = false ∧
      (s.m.sec.nonceValid = false ∨ s.m.sec.nonceTick + 30000000000 ≤ s.m.now)) ∧
    (∃ (s : State) (scope : Nat), Runs s ∧ s.m.sec.backoff = false ∧ s.m.sec.nonceValid = true ∧
      s.m.now < s.m.sec.nonceTick + 30000000000 ∧ s.m.fld Reg.SEC_CTRL.scope = scope ∧ s.m.sec.fails + 1 < 8 ∧
      (scope = 0 ∨ s.m.regBytes (Reg.SEC_RESP 0) 8 ≠ s.m.reply s.m.otp.vendorKey scope ∧
      s.m.otp.oemKey.map (fun k => s.m.reply k scope) ≠ some (s.m.regBytes (Reg.SEC_RESP 0) 8))) ∧
    (∃ (s : State) (scope : Nat), Runs s ∧ s.m.sec.backoff = false ∧ s.m.sec.nonceValid = true ∧
      s.m.now < s.m.sec.nonceTick + 30000000000 ∧ s.m.fld Reg.SEC_CTRL.scope = scope ∧ 8 ≤ s.m.sec.fails + 1 ∧
      (scope = 0 ∨ s.m.regBytes (Reg.SEC_RESP 0) 8 ≠ s.m.reply s.m.otp.vendorKey scope ∧
      s.m.otp.oemKey.map (fun k => s.m.reply k scope) ≠ some (s.m.regBytes (Reg.SEC_RESP 0) 8))) ∧
    (∃ (s : State) (scope : Nat), Runs s ∧ s.m.sec.backoff = false ∧ s.m.sec.nonceValid = true ∧
      s.m.now < s.m.sec.nonceTick + 30000000000 ∧ s.m.fld Reg.SEC_CTRL.scope = scope ∧ scope ≠ 0 ∧
      s.m.regBytes (Reg.SEC_RESP 0) 8 = s.m.reply s.m.otp.vendorKey scope) ∧
    (∃ (s : State) (scope : Nat) (k : List Byte), Runs s ∧ s.m.sec.backoff = false ∧ s.m.sec.nonceValid = true ∧
      s.m.now < s.m.sec.nonceTick + 30000000000 ∧ s.m.fld Reg.SEC_CTRL.scope = scope ∧ scope ≠ 0 ∧
      scope &&& 0b11100 = scope ∧ s.m.otp.oemKey = some k ∧
      s.m.regBytes (Reg.SEC_RESP 0) 8 ≠ s.m.reply s.m.otp.vendorKey scope ∧
      s.m.regBytes (Reg.SEC_RESP 0) 8 = s.m.reply k scope) ∧
    (∃ (s : State) (scope : Nat) (k : List Byte), Runs s ∧ s.m.sec.backoff = false ∧ s.m.sec.nonceValid = true ∧
      s.m.now < s.m.sec.nonceTick + 30000000000 ∧ s.m.fld Reg.SEC_CTRL.scope = scope ∧ scope ≠ 0 ∧
      scope &&& 0b11100 ≠ scope ∧ s.m.otp.oemKey = some k ∧
      s.m.regBytes (Reg.SEC_RESP 0) 8 ≠ s.m.reply s.m.otp.vendorKey scope ∧
      s.m.regBytes (Reg.SEC_RESP 0) 8 = s.m.reply k scope) ∧
    (∃ (s : State), Runs s ∧ s.m.sec.opened ≠ 0) ∧
    (∃ (s : State), Runs s ∧ s.m.sec.opened = 0) ∧
    (∃ (s : State), Safe s) ∧
    (∃ (s : State), Runs s ∧ s.m.sec.confirmTaken = false ∧
      (s.m.glb.mode = .ready ∨ s.m.glb.mode = .run ∨ s.m.glb.mode = .benchmark) ∧ s.m.sec.running ≠ 1) ∧
    (∃ (s : State), Runs s ∧ s.m.sec.confirmTaken = false ∧
      (s.m.glb.mode = .ready ∨ s.m.glb.mode = .run ∨ s.m.glb.mode = .benchmark) ∧ s.m.sec.running = 1) ∧
    (∃ (s : State), Runs s ∧ s.m.sec.confirmTaken = true) ∧
    (∃ (s : State) (k : Nat), Runs s ∧ s.m.sec.opened.getLsbD 3 = true ∧ s.m.fld Reg.SEC_KEY_CTRL.slot = k ∧ k ≠ 0) ∧
    (∃ (s : State) (k : Nat), Runs s ∧ s.m.sec.opened.getLsbD 3 = true ∧ s.m.fld Reg.SEC_KEY_CTRL.slot = k ∧ k ≠ 0) ∧
    (∃ (s : State), Runs s ∧ s.m.sec.opened.getLsbD 3 = false) ∧
    (∃ (s : State), Runs s ∧ s.m.sec.opened.getLsbD 3 = false) ∧
    (∃ (s : State), Runs s ∧ s.m.xfer = none ∧ s.m.glb.mode ≠ .boot ∧
      s.m.dmaOk true s.m.xferAddr s.m.xferLen = true) ∧
    (∃ (s : State), Runs s ∧ s.m.xfer = none ∧ s.m.glb.mode ≠ .boot ∧
      s.m.dmaOk true s.m.xferAddr s.m.xferLen = true) ∧
    (∃ (s : State) (e : CalExport), Runs s ∧ s.m.xfer = none ∧ s.m.glb.mode = .setup ∧ s.m.glb.locked = true ∧
      s.m.xferLen = e.length ∧ s.m.dmaOk false s.m.xferAddr s.m.xferLen = true) ∧
    (∃ (s : State) (n : Nat), Runs s ∧ s.m.xfer = none ∧ s.m.glb.mode = .setup ∧ s.m.glb.locked = true ∧
      s.m.chn.vote = .disarmed ∧ s.m.xferLen = n ∧ s.m.dmaOk false s.m.xferAddr s.m.xferLen = true) ∧
    (∃ (s : State) (h : List Byte) (i : List Byte), Runs s ∧ s.m.xfer = none ∧ s.m.glb.mode = .setup ∧
      s.m.xferLen = 256 + leField h 12 4 ∧ s.m.xferLen = h.length + i.length ∧
      s.m.dmaOk false s.m.xferAddr s.m.xferLen = true) ∧
    (∃ (s : State), Runs s ∧ s.m.xfer = none ∧ s.m.glb.mode ≠ .setup) ∧
    (∃ (s : State), Runs s ∧ s.m.xfer = none ∧ s.m.glb.mode ≠ .setup) ∧
    (∃ (s : State), Runs s ∧ s.m.xfer = none ∧ s.m.glb.mode ≠ .boot ∧
      s.m.dmaOk true s.m.xferAddr s.m.xferLen = false) ∧
    (∃ (s : State), Runs s ∧ s.m.xfer = none ∧ s.m.glb.mode ≠ .boot ∧
      s.m.dmaOk true s.m.xferAddr s.m.xferLen = false) ∧
    (∃ (s : State), Runs s ∧ s.m.xfer ≠ none) ∧
    (∃ (s : State), Runs s ∧ s.m.xfer ≠ none) ∧
    (∃ (s : State), Runs s ∧ s.m.xfer ≠ none) ∧
    (∃ (s : State), Runs s ∧ s.m.xfer ≠ none) ∧
    (∃ (s : State), Runs s ∧ s.m.xfer ≠ none) ∧
    (∃ (s : State) (n : Nat) (a : Nat) (e : CalExport), Runs s ∧
      s.m.xfer = some { op := 1, bytes := n, work := .calOut a e } ∧ s.m.hst.stopped = false ∧
      s.m.pwr.powerFail = false ∧ s.m.dmaOk true a n = true) ∧
    (∃ (s : State) (n : Nat) (a : Nat) (p : Monument), Runs s ∧
      s.m.xfer = some { op := 2, bytes := n, work := .monOut a p } ∧ s.m.hst.stopped = false ∧
      s.m.pwr.powerFail = false ∧ s.m.dmaOk true a n = true) ∧
    (∃ (s : State) (n : Nat) (a : Nat) (p : Monument), Runs s ∧
      s.m.xfer = some { op := 2, bytes := n, work := .monOut a p } ∧ s.m.hst.stopped = false ∧
      s.m.pwr.powerFail = false ∧ s.m.dmaOk true a n = false) ∧
    (∃ (s : State) (x : Xfer), Runs s ∧ s.m.xfer = some x ∧ x.work = .refused ∧ s.m.hst.stopped = false ∧
      s.m.pwr.powerFail = false ∧ x.result ≠ 0 ∧ x.result ≠ 1) ∧
    (∃ (s : State), Runs s ∧ s.m.hst.stopped = true) ∧
    (∃ (s : State), Runs s ∧ s.m.xfer = none) :=
  ⟨⟨st (inM .run), by decide +kernel⟩,
    ⟨st ({ inM .run with sec := { backoff := true } }), by decide +kernel⟩,
    ⟨st ({ inM .run with sec := { backoff := true } }), by decide +kernel⟩,
    ⟨st ({ inM .run with sec := { nonceValid := true } }), by decide +kernel⟩,
    ⟨st (inM .run), by decide +kernel⟩,
    ⟨st ({ inM .run with sec := { nonceValid := true, fails := 6 } }), 0, by decide +kernel⟩,
    ⟨st ({ inM .run with sec := { nonceValid := true, fails := 7 } }), 0, by decide +kernel⟩,
    ⟨st (w6), 2, by decide +kernel⟩,
    ⟨st (w6oem 12), 12, [7], by decide +kernel⟩,
    ⟨st (w6oem 3), 3, [7], by decide +kernel⟩,
    ⟨st ({ inM .run with sec := { opened := 3 } }), by decide +kernel⟩,
    ⟨st (inM .run), by decide +kernel⟩,
    ⟨st ({ glb := { clockHeld := true }, sec := { backoff := true } }), by decide +kernel⟩,
    ⟨st (inM .ready), by decide +kernel⟩,
    ⟨st ({ inM .benchmark with sec := { running := 1 } }), by decide +kernel⟩,
    ⟨st ({ inM .ready with sec := { confirmTaken := true } }), by decide +kernel⟩,
    ⟨st ({ (inM .ready).setFld Reg.SEC_KEY_CTRL.slot 3 with sec := { opened := 8 } }), 3, by decide +kernel⟩,
    ⟨st ({ (inM .ready).setFld Reg.SEC_KEY_CTRL.slot 3 with sec := { opened := 8 }, nand := { keys := [(3, [1])] } }),
      3, by decide +kernel⟩,
    ⟨st (inM .ready), by decide +kernel⟩,
    ⟨st (inM .ready), by decide +kernel⟩,
    ⟨st (dmaM (inM .ready)), by decide +kernel⟩,
    ⟨st (dmaM (inM .ready)), by decide +kernel⟩,
    ⟨st ({ (dmaM (inM .setup)).wr Reg.SEC_XFER_LEN 3 with glb := { mode := .setup, stage := 0, locked := true } }),
      cal0, by decide +kernel⟩,
    ⟨st ({ (dmaM (inM .setup)).wr Reg.SEC_XFER_LEN 3 with glb := { mode := .setup, stage := 0, locked := true } }), 3,
      by decide +kernel⟩,
    ⟨st ((dmaM (inM .setup)).wr Reg.SEC_XFER_LEN 256), List.replicate 256 0, [], by decide +kernel⟩,
    ⟨st (inM .ready), by decide +kernel⟩,
    ⟨st (inM .ready), by decide +kernel⟩,
    ⟨st (inM .ready), by decide +kernel⟩,
    ⟨st (inM .ready), by decide +kernel⟩,
    ⟨st ({ inM .ready with xfer := some { op := 1 } }), by decide +kernel⟩,
    ⟨st ({ inM .ready with xfer := some { op := 1 } }), by decide +kernel⟩,
    ⟨st ({ inM .ready with xfer := some { op := 1 } }), by decide +kernel⟩,
    ⟨st ({ inM .ready with xfer := some { op := 1 } }), by decide +kernel⟩,
    ⟨st ({ inM .ready with xfer := some { op := 1 } }), by decide +kernel⟩,
    ⟨st ({ dmaM (inM .ready) with xfer := some { op := 1, bytes := 3, work := .calOut 9 cal0 } }), 3, 9, cal0,
      by decide +kernel⟩,
    ⟨st ({ dmaM (inM .ready) with xfer := some { op := 2, bytes := 3, work := .monOut 9 {} } }), 3, 9, {},
      by decide +kernel⟩,
    ⟨st ({ inM .ready with xfer := some { op := 2, bytes := 3, work := .monOut 9 {} } }), 3, 9, {},
      by decide +kernel⟩,
    ⟨st ({ inM .ready with xfer := some { op := 1, result := 3, bytes := 6 } }), { op := 1, result := 3, bytes := 6 },
      by decide +kernel⟩,
    ⟨st ({ inM .ready with xfer := some { op := 1 }, hst := { stopped := true } }), by decide +kernel⟩,
    ⟨st (inM .ready), by decide +kernel⟩⟩

theorem witness_PairingAndTheMirror :
    (∃ (s : State), Runs s ∧ s.m.flag Reg.PTN_CFG.en = true ∧ (s.m.ptn.straps = 1 ∨ s.m.ptn.straps = 2) ∧
      s.m.glb.locked = true ∧ s.m.ptn.state = .solo ∧ (s.m.lane 40).state ≠ .cal ∧ (s.m.lane 41).state ≠ .cal ∧ (∀ t,
      s.m.ptn.pairTick = some t → t + 500000000 ≤ s.m.now)) ∧
    (∃ (s : State) (t : Nat), Runs s ∧ s.m.ptn.pairTick = some t ∧ s.m.now < t + 500000000) ∧
    (∃ (s : State) (t : Nat), Runs s ∧ s.m.ptn.pairTick = some t ∧ s.m.now < t + 5000000) ∧
    (∃ (s : State), Runs s ∧ s.m.ptn.state = .pairing ∧ s.m.glb.mode ≠ .backsight ∧ s.m.ptn.failRaised = true ∧ (∀ t,
      s.m.ptn.pairTick = some t → t + 5000000 ≤ s.m.now)) ∧
    (∃ (s : State), Runs s ∧ s.m.ptn.state = .pairing ∧ s.m.glb.mode ≠ .backsight ∧ s.m.ptn.failRaised = false ∧ (∀ t,
      s.m.ptn.pairTick = some t → t + 5000000 ≤ s.m.now)) ∧
    (∃ (s : State) (p : Hello), Runs s ∧ s.m.ptn.state = .pairing ∧ s.m.laneUp 40 = true ∧ s.m.laneUp 41 = true ∧
      (p.straps = s.m.ptn.straps ∨ p.geometry ≠ s.m.geometryHash ∨ p.level ≠ s.m.level ∨ p.storeSize.toNat ≠ s.m.storeSize) ∧
      s.m.glb.mode ≠ .backsight) ∧
    (∃ (s : State) (p : Hello), Runs s ∧ s.m.ptn.state = .pairing ∧ s.m.laneUp 40 = true ∧ s.m.laneUp 41 = true ∧
      p.straps ≠ s.m.ptn.straps ∧ p.geometry = s.m.geometryHash ∧ p.level = s.m.level ∧
      p.storeSize.toNat = s.m.storeSize ∧ s.m.glb.mode ≠ .backsight ∧ (s.m.ptn.majority = true ∨ p.majority = false ∧
      s.m.ptn.straps = 1) ∧ s.m.ptn.held = []) ∧
    (∃ (s : State) (p : Hello), Runs s ∧ s.m.ptn.state = .pairing ∧ s.m.laneUp 40 = true ∧ s.m.laneUp 41 = true ∧
      p.straps ≠ s.m.ptn.straps ∧ p.geometry = s.m.geometryHash ∧ p.level = s.m.level ∧
      p.storeSize.toNat = s.m.storeSize ∧ s.m.ptn.majority = false ∧ (p.majority = true ∨ s.m.ptn.straps ≠ 1)) ∧
    (∃ (s : State), Runs s ∧ s.m.ptn.waitTick + 25000000 ≤ s.m.now) ∧
    (∃ (s : State), Runs s ∧ s.m.now < s.m.ptn.waitTick + 25000000) ∧
    (∃ (s : State), Runs s ∧ s.m.follows = true) ∧
    (∃ (s : State) (i : MirrorItem), Runs s ∧ s.m.follows = true ∧ s.m.ptn.resync = false ∧
      i.seq = s.m.ptn.applied + 1) ∧
    (∃ (s : State) (i : MirrorItem) (hub : Nat) (tag : Nat) (lc : Word) (hc : Word) (d : Mach), Runs s ∧
      s.m.follows = true ∧ s.m.ptn.resync = false ∧ i.seq = s.m.ptn.applied + 1 ∧ i.body = .echoRef hub tag lc hc ∧
      d = { (s.m.checked 22 1 0) with ptn := { s.m.ptn with echoRefs := s.m.ptn.echoRefs ++ [(hub, tag, lc, hc)], applied := i.seq, after := s.m.ptn.after ++ [i] } }) ∧
    (∃ (s : State) (i : MirrorItem) (c : Chainage) (a : Word) (b : Word) (d : Mach), Runs s ∧ s.m.follows = true ∧
      s.m.ptn.resync = false ∧ i.seq = s.m.ptn.applied + 1 ∧ i.body = .decision 5 c a b ∧
      d = { (s.m.checked 22 1 0) with ptn := { s.m.ptn with partnerStopped := decide (b.toNat = 1), partnerSrc := if b.toNat = 1 then a.toNat % 32 else 0, applied := i.seq, after := s.m.ptn.after ++ [i] } }) ∧
    (∃ (s : State) (i : MirrorItem), Runs s ∧ s.m.follows = true ∧ s.m.ptn.resync = false ∧
      0 < epochDiff i.seq (s.m.ptn.applied + 1)) ∧
    (∃ (s : State) (q : Word) (n : Nat), Runs s ∧ s.m.mirroring = true ∧ s.m.ptn.commitHold = false ∧
      s.m.ptn.held = [] ∧ 0 < epochDiff q s.m.ptn.acked ∧ epochNewer q s.m.ptn.sent = false ∧
      n = (s.m.ptn.staging.filter (fun i => !epochNewer i.seq q)).length) ∧
    (∃ (s : State) (q : Word), Runs s ∧ epochDiff q s.m.ptn.acked ≤ 0) ∧
    (∃ (s : State) (q : Word) (i : MirrorItem) (l : List MirrorItem), Runs s ∧ s.m.mirroring = true ∧
      s.m.ptn.commitHold = false ∧ s.m.ptn.staging.filter (fun i => !epochNewer q i.seq) = i :: l ∧ i.seq = q) ∧
    (∃ (s : State), Runs s ∧ s.m.follows = true ∧ s.m.ptn.resync = false ∧ s.m.ptn.monParts = none) ∧
    (∃ (s : State), Runs s ∧ s.m.follows = true) ∧
    (∃ (s : State), Runs s ∧ s.m.ptn.paired = true ∧ s.m.mirroring = true ∧ s.m.ptn.commitHold = false ∧
      s.m.lastBeat .monument + 5000000 ≤ s.m.now) ∧
    (∃ (s : State), Runs s ∧ s.m.now < s.m.lastBeat .monument + 5000000) :=
  ⟨⟨st ({ (pairM .ready { straps := 1, pairTick := some 0 }).setFld Reg.PTN_CFG.en 1 with glb := { mode := .setup, stage := 0, locked := true }, dtm := { ticks := 500000000 } }),
    by decide +kernel⟩,
    ⟨st ({ (pairM .ready { straps := 1, pairTick := some 5 }).setFld Reg.PTN_CFG.en 1 with glb := { mode := .setup, stage := 0, locked := true }, dtm := { ticks := 500000004 } }),
      5, by decide +kernel⟩,
    ⟨st ({ pairM .setup { state := .pairing, straps := 2, pairTick := some 5 } with dtm := { ticks := 5000004 } }), 5,
      by decide +kernel⟩,
    ⟨st ({ pairM .setup { state := .pairing, failRaised := true, straps := 2, pairTick := some 5 } with dtm := { ticks := 5000005 } }),
      by decide +kernel⟩,
    ⟨st ({ pairM .setup { state := .pairing, straps := 2, pairTick := some 5 } with dtm := { ticks := 5000005 } }),
      by decide +kernel⟩,
    ⟨st (pairM .ready { state := .pairing, straps := 1 }), hello0 1 true, by decide +kernel⟩,
    ⟨st (pairM .ready { state := .pairing, straps := 1, majority := true }), hello0 2 true, by decide +kernel⟩,
    ⟨st (pairM .ready { state := .pairing, straps := 1 }), hello0 2 true, by decide +kernel⟩,
    ⟨st ({ pairM .ready { waitB := true, waitTick := 3 } with dtm := { ticks := 25000003 } }), by decide +kernel⟩,
    ⟨st ({ pairM .ready { waitB := true, waitTick := 3 } with dtm := { ticks := 25000002 } }), by decide +kernel⟩,
    ⟨st (pairM .backsight { state := .backsight, paired := true }), by decide +kernel⟩,
    ⟨st (pairM .backsight { state := .backsight, paired := true, applied := 7 }),
      { seq := 8, isCommit := false, body := .proofRef 1 2 3 4 5 6 }, by decide +kernel⟩,
    ⟨st (pairM .backsight { state := .backsight, paired := true, applied := 7 }),
      { seq := 8, isCommit := true, body := .echoRef 1 2 3 4 }, 1, 2, 3, 4,
      { ((st (pairM .backsight { state := .backsight, paired := true, applied := 7 })).m.checked 22 1 0) with ptn := { (st (pairM .backsight { state := .backsight, paired := true, applied := 7 })).m.ptn with echoRefs := (st (pairM .backsight { state := .backsight, paired := true, applied := 7 })).m.ptn.echoRefs ++ [(1, 2, (3 : Word), (4 : Word))], applied := ({ seq := 8, isCommit := true, body := .echoRef 1 2 3 4 } : MirrorItem).seq, after := (st (pairM .backsight { state := .backsight, paired := true, applied := 7 })).m.ptn.after ++ [({ seq := 8, isCommit := true, body := .echoRef 1 2 3 4 } : MirrorItem)] } },
      by refine ⟨?_, ?_, ?_, ?_, ?_, ?_⟩ <;> first | decide +kernel | rfl⟩,
    ⟨st (pairM .backsight { state := .backsight, paired := true, applied := 7 }),
      { seq := 8, isCommit := false, body := .decision 5 9 0 1 }, 9, 0, 1,
      { ((st (pairM .backsight { state := .backsight, paired := true, applied := 7 })).m.checked 22 1 0) with ptn := { (st (pairM .backsight { state := .backsight, paired := true, applied := 7 })).m.ptn with partnerStopped := decide ((1 : Word).toNat = 1), partnerSrc := if (1 : Word).toNat = 1 then (0 : Word).toNat % 32 else 0, applied := ({ seq := 8, isCommit := false, body := .decision 5 9 0 1 } : MirrorItem).seq, after := (st (pairM .backsight { state := .backsight, paired := true, applied := 7 })).m.ptn.after ++ [({ seq := 8, isCommit := false, body := .decision 5 9 0 1 } : MirrorItem)] } },
      by refine ⟨?_, ?_, ?_, ?_, ?_, ?_⟩ <;> first | decide +kernel | rfl⟩,
    ⟨st (pairM .backsight { state := .backsight, paired := true, applied := 7 }),
      { seq := 9, isCommit := false, body := .proofRef 1 2 3 4 5 6 }, by decide +kernel⟩,
    ⟨st (pairM .ready { state := .foresight, paired := true, sent := 7, acked := 3, staging := [{ seq := 5, isCommit := false, body := .proofRef 1 2 3 4 5 6 }, { seq := 6, isCommit := false, body := .proofRef 1 2 3 4 5 6 }], stagedAt := [1, 2] }),
      5,
      ((st (pairM .ready { state := .foresight, paired := true, sent := 7, acked := 3, staging := [{ seq := 5, isCommit := false, body := .proofRef 1 2 3 4 5 6 }, { seq := 6, isCommit := false, body := .proofRef 1 2 3 4 5 6 }], stagedAt := [1, 2] })).m.ptn.staging.filter (fun i => !epochNewer i.seq (5 : Word))).length,
      by decide +kernel⟩,
    ⟨st (pairM .ready { state := .foresight, paired := true, sent := 7, acked := 3 }), 3, by decide +kernel⟩,
    ⟨st (pairM .ready { state := .foresight, paired := true, sent := 7, acked := 3, staging := [{ seq := 5, isCommit := false, body := .proofRef 1 2 3 4 5 6 }, { seq := 6, isCommit := false, body := .proofRef 1 2 3 4 5 6 }], stagedAt := [1, 2] }),
      6, { seq := 6, isCommit := false, body := .proofRef 1 2 3 4 5 6 }, [], by decide +kernel⟩,
    ⟨st (pairM .backsight { state := .backsight, paired := true }), by decide +kernel⟩,
    ⟨st (pairM .backsight { state := .backsight, paired := true }), by decide +kernel⟩,
    ⟨st ({ pairM .ready { state := .foresight, paired := true, monNum := 255 } with dtm := { ticks := 5000000 } }),
      by decide +kernel⟩,
    ⟨st ({ pairM .ready { state := .foresight, paired := true } with dtm := { ticks := 4999999 } }),
      by decide +kernel⟩⟩

theorem witness_TheStandbyKeepsStep :
    (∃ (s : State), Runs s ∧ s.m.follows = true ∧ s.m.ptn.commitHold = false ∧ s.m.ptn.state = .backsight ∧
      s.m.chn.vote ≠ .disarmed ∧ s.m.ptn.first = false) ∧
    (∃ (s : State), Runs s ∧ s.m.follows = true ∧ s.m.ptn.commitHold = false ∧ s.m.ptn.state = .syncing ∧
      s.m.chn.vote ≠ .disarmed ∧ s.m.ptn.first = true) ∧
    (∃ (s : State), Runs s ∧ s.m.ptn.state = .backsight) ∧
    (∃ (s : State), Runs s ∧ s.m.ptn.state = .backsight ∧ s.m.ptn.echoWait = true) ∧
    (∃ (s : State), Runs s ∧ s.m.now < s.m.lastBeat .echoes + 500000) ∧
    (∃ (s : State), Runs s ∧ s.m.echoesLacking = false ∧ s.m.lastBeat .echoes + 500000 ≤ s.m.now) ∧
    (∃ (s : State), Runs s ∧ s.m.echoesLacking = true ∧ s.m.ptn.state = .backsight ∧
      s.m.lastBeat .echoes + 500000 ≤ s.m.now) ∧
    (∃ (s : State), Runs s ∧ s.m.ptn.state = .foresight ∧ s.m.ptn.lackEcho = false) ∧
    (∃ (s : State), Runs s ∧ s.m.ptn.state = .foresight ∧ s.m.ptn.lackEcho = true) ∧
    (∃ (s : State), Runs s ∧ s.m.lastBeat .phase + 500000000 ≤ s.m.now) :=
  ⟨⟨st ({ pairM .backsight { state := .backsight, paired := true, first := false } with chn := { vote := .two, printed := 100 } }),
    by decide +kernel⟩,
    ⟨st ({ pairM .backsight { state := .syncing, paired := true } with chn := { vote := .two, printed := 100 } }),
      by decide +kernel⟩,
    ⟨st (pairM .backsight { state := .backsight, paired := true, inStep := true }), by decide +kernel⟩,
    ⟨st (pairM .backsight { state := .backsight, paired := true, inStep := true, echoWait := true }),
      by decide +kernel⟩,
    ⟨st ({ pairM .backsight { state := .backsight, paired := true, inStep := true, echoSeen := [(1, 2)] } with dtm := { ticks := 499999 } }),
      by decide +kernel⟩,
    ⟨st ({ pairM .backsight { state := .backsight, paired := true, inStep := true, echoSeen := [(1, 2)] } with dtm := { ticks := 500000 } }),
      by decide +kernel⟩,
    ⟨st ({ (pairM .backsight { state := .backsight, paired := true, inStep := true, echoSeen := [(1, 2)] }).setFld (Reg.SKX_HUB_CFG.en 4) 1 with vgp := { job := [(2, { state := .printing })] }, dtm := { ticks := 500000 } }),
      by decide +kernel⟩,
    ⟨st (pairM .run { state := .foresight, paired := true }), by decide +kernel⟩,
    ⟨st (pairM .run { state := .foresight, paired := true, lackEcho := true }), by decide +kernel⟩,
    ⟨st ({ pairM .run { proofPhase := 63 } with dtm := { ticks := 500000000 } }), by decide +kernel⟩⟩

theorem witness_ALostPartnerIsReplaced :
    (∃ (s : State), Runs s ∧ s.m.ptn.paired = true ∧ s.m.ptn.commitHold = false ∧ s.m.ptn.state = .foresight ∧
      s.m.ptn.partner = PtnState.backsight.code ∧ s.m.glb.mode ≠ .backsight ∧ s.m.ptn.beatTick + 250000 ≤ s.m.now) ∧
    (∃ (s : State), Runs s ∧ s.m.now < s.m.ptn.beatTick + 250000) ∧
    (∃ (s : State) (n : Nat), Runs s ∧ (n = 40 ∨ n = 41) ∧ s.m.laneUp n = true ∧ s.m.ptn.paired = true ∧
      s.m.ptn.commitHold = false ∧ s.m.ptn.state = .foresight ∧ s.m.ptn.partner = PtnState.backsight.code) ∧
    (∃ (s : State), Runs s ∧ s.m.now < s.m.ptn.holdTick + 3000000) ∧
    (∃ (s : State), Runs s ∧ s.m.ptn.commitHold = true ∧ s.m.ptn.held = [] ∧ s.m.ptn.holdTick + 3000000 ≤ s.m.now) ∧
    (∃ (s : State), Runs s ∧ s.m.ptn.paired = true ∧ s.m.ptn.commitHold = false ∧ s.m.ptn.state = .backsight ∧
      s.m.ptn.beatTick + 250000 ≤ s.m.now) ∧
    (∃ (s : State), Runs s ∧ s.m.ptn.paired = true ∧ s.m.ptn.commitHold = false ∧ s.m.ptn.state = .syncing ∧
      s.m.ptn.beatTick + 250000 ≤ s.m.now) ∧
    (∃ (s : State) (t : Nat), Runs s ∧ s.m.ptn.lossTick = some t ∧ s.m.now < t + 2500000) ∧
    (∃ (s : State), Runs s ∧ s.m.ptn.state = .claiming ∧ (∀ t, s.m.ptn.lossTick = some t → t + 2500000 ≤ s.m.now)) ∧
    (∃ (s : State) (g : GrantF), Runs s ∧ g.bad = true) ∧
    (∃ (s : State) (g : GrantF), Runs s ∧ g.bad = false ∧ s.m.ptn.state = .solo) ∧
    (∃ (s : State), Runs s ∧ s.m.glb.mode = .setup ∧ s.m.ptn.state = .solo ∧ s.m.mayClaim = true ∧
      s.m.lastBeat .claim + 500000 ≤ s.m.now) ∧
    (∃ (s : State), Runs s ∧ s.m.ptn.restored = false ∧ s.m.ptn.state = .claiming) :=
  ⟨⟨st ({ pairM .run { state := .foresight, paired := true, partner := 4, beatTick := 7 } with dtm := { ticks := 250007 } }),
    by decide +kernel⟩,
    ⟨st ({ pairM .run { state := .foresight, paired := true, partner := 4, beatTick := 7 } with dtm := { ticks := 250006 } }),
      by decide +kernel⟩,
    ⟨st (pairM .run { state := .foresight, paired := true, partner := 4 }), 40, by decide +kernel⟩,
    ⟨st ({ pairM .run { state := .foresight, paired := true, partner := 4, commitHold := true, holdTick := 9 } with dtm := { ticks := 3000008 } }),
      by decide +kernel⟩,
    ⟨st ({ pairM .run { state := .foresight, paired := true, partner := 4, commitHold := true, holdTick := 9 } with dtm := { ticks := 3000009 } }),
      by decide +kernel⟩,
    ⟨st ({ pairM .backsight { state := .backsight, paired := true, partner := 2 } with dtm := { ticks := 250000 } }),
      by decide +kernel⟩,
    ⟨st ({ pairM .backsight { state := .syncing, paired := true, partner := 2 } with dtm := { ticks := 250000 } }),
      by decide +kernel⟩,
    ⟨st ({ pairM .backsight { state := .claiming, paired := true, partner := 2, lossTick := some 3 } with dtm := { ticks := 2500002 } }),
      3, by decide +kernel⟩,
    ⟨st ({ pairM .backsight { state := .claiming, paired := true, partner := 2, lossTick := some 3 } with dtm := { ticks := 2500003 } }),
      by decide +kernel⟩,
    ⟨st (pairM .ready { straps := 1 }),
      { claim := 3, result := 0, masterPort := 0, port := 0, silence := 2, bad := true }, by decide +kernel⟩,
    ⟨st ({ pairM .ready { straps := 1 } with skx := { hub := [(39, { claimNo := 3 })] } }),
      { claim := 3, result := 0, masterPort := 0, port := 0, silence := 2 }, by decide +kernel⟩,
    ⟨st ({ (inM .setup).setFld (Reg.SKX_HUB_CFG.en 4) 1 with ptn := { claim := 3 }, dtm := { ticks := 500000 } }),
      by decide +kernel⟩,
    ⟨st (pairM .backsight { state := .claiming, paired := true, restored := false }), by decide +kernel⟩⟩

theorem witness_HandoverAndRevert :
    (∃ (s : State) (t : Nat), Runs s ∧ s.m.ptn.state = .foresight ∧ s.m.ptn.partner = PtnState.backsight.code ∧
      s.m.ptn.commitHold = false ∧ s.m.ptn.noMajSince = some t ∧ t + 1000000 ≤ s.m.now) ∧
    (∃ (s : State), Runs s ∧ s.m.ptn.state = .backsight) ∧
    (∃ (s : State), Runs s ∧ s.m.ptn.state = .backsight) ∧
    (∃ (s : State), Runs s ∧ s.m.ptn.state = .reverting ∧ s.m.ptn.oldActive = false) ∧
    (∃ (s : State) (c : Chainage) (q : Mach), Runs s ∧ s.m.mayRevert = true ∧
      q = { s.m with ptn := { s.m.ptn with stepTick := some s.m.now } } ∧ q.switchPoint = some c) ∧
    (∃ (s : State), Runs s ∧ s.m.mayRevert = false) ∧
    (∃ (s : State) (c : Chainage) (q : Mach) (t : Nat), Runs s ∧ s.m.mayRevert = true ∧ s.m.ptn.stepTick = some t ∧
      t + max 1 (s.m.fld Reg.PTN_CFG.revert_hold_s) * 500000000 ≤ s.m.now ∧
      q = { s.m with ptn := { s.m.ptn with stepTick := some s.m.now } } ∧ q.switchPoint = some c) ∧
    (∃ (s : State), Runs s ∧ s.m.ptn.state = .foresight ∧ s.m.ptn.partner = PtnState.backsight.code ∧
      s.m.ptn.commitHold = false ∧ s.m.glb.mode = .run ∧ (s.m.job 0).state = .printing ∧ s.m.hst.stopped = false ∧
      s.m.mot.axis = []) ∧
    (∃ (s : State) (c : Chainage), Runs s ∧ s.m.ptn.state = .backsight ∧ s.m.ptn.cSw = some c) ∧
    (∃ (s : State) (w : Chainage), Runs s ∧ s.m.ptn.state = .reverting ∧ s.m.ptn.oldActive = true ∧
      s.m.ptn.revertTick = none ∧ s.m.ptn.cSw = some w ∧ s.m.fld Reg.CHN_SPEED_LINKS.links = 0 ∧
      chnAtOrAhead s.m.chainage w = true ∧ (List.range 12).any (fun a => (s.m.axis a).state.busy) = false) ∧
    (∃ (s : State), Runs s ∧ s.m.ptn.state = .reverting ∧ s.m.ptn.oldActive = true) ∧
    (∃ (s : State) (t : Nat), Runs s ∧ s.m.ptn.state = .reverting ∧ s.m.ptn.oldActive = false ∧
      s.m.ptn.revertTick = some t ∧ t + 2500000 ≤ s.m.now ∧ s.m.hubsHeld = [] ∧ s.m.ptn.majority = false) :=
  ⟨⟨st ({ pairM .run { state := .foresight, paired := true, partner := 4, noMajSince := some 5 } with dtm := { ticks := 1000005 } }),
    5, by decide +kernel⟩,
    ⟨st (pairM .backsight { state := .backsight, paired := true, partner := 2 }), by decide +kernel⟩,
    ⟨st (pairM .backsight { state := .backsight, paired := true, partner := 2 }), by decide +kernel⟩,
    ⟨st (pairM .backsight { state := .reverting, paired := true, partner := 2 }), by refine ⟨?_, ?_,
      ?_⟩ <;> first | decide +kernel | rfl⟩,
    ⟨st ({ (pairM .backsight { state := .backsight, paired := true, inStep := true, straps := 1 }).setFld Reg.PTN_CFG.revert_en 1 with vgp := { job := [(0, { state := .printing, started := true, streamed := true, width := 100, planes := 1, pitch := 1000000 })] }, chn := { vote := .two } }),
      ({ (pairM .backsight { state := .backsight, paired := true, inStep := true, straps := 1 }).setFld Reg.PTN_CFG.revert_en 1 with vgp := { job := [(0, { state := .printing, started := true, streamed := true, width := 100, planes := 1, pitch := 1000000 })] }, chn := { vote := .two } } : Mach).switchPoint.getD 0,
      { (st ({ (pairM .backsight { state := .backsight, paired := true, inStep := true, straps := 1 }).setFld Reg.PTN_CFG.revert_en 1 with vgp := { job := [(0, { state := .printing, started := true, streamed := true, width := 100, planes := 1, pitch := 1000000 })] }, chn := { vote := .two } })).m with ptn := { (st ({ (pairM .backsight { state := .backsight, paired := true, inStep := true, straps := 1 }).setFld Reg.PTN_CFG.revert_en 1 with vgp := { job := [(0, { state := .printing, started := true, streamed := true, width := 100, planes := 1, pitch := 1000000 })] }, chn := { vote := .two } })).m.ptn with stepTick := some (st ({ (pairM .backsight { state := .backsight, paired := true, inStep := true, straps := 1 }).setFld Reg.PTN_CFG.revert_en 1 with vgp := { job := [(0, { state := .printing, started := true, streamed := true, width := 100, planes := 1, pitch := 1000000 })] }, chn := { vote := .two } })).m.now } },
      by refine ⟨?_, ?_, ?_, ?_⟩ <;> first | decide +kernel | rfl⟩,
    ⟨st (pairM .backsight { state := .syncing, paired := true, inStep := true, straps := 1 }), by refine ⟨?_,
      ?_⟩ <;> first | decide +kernel | rfl⟩,
    ⟨st ({ (pairM .backsight { state := .backsight, paired := true, inStep := true, straps := 1, stepTick := some 0 }).setFld Reg.PTN_CFG.revert_en 1 with dtm := { ticks := 500000000000 }, vgp := { job := [(0, { state := .printing, started := true, streamed := true, width := 100, planes := 1, pitch := 1000000 })] }, chn := { vote := .two } }),
      ({ (pairM .backsight { state := .backsight, paired := true, inStep := true, straps := 1 }).setFld Reg.PTN_CFG.revert_en 1 with vgp := { job := [(0, { state := .printing, started := true, streamed := true, width := 100, planes := 1, pitch := 1000000 })] }, chn := { vote := .two } } : Mach).switchPoint.getD 0,
      { (st ({ (pairM .backsight { state := .backsight, paired := true, inStep := true, straps := 1, stepTick := some 0 }).setFld Reg.PTN_CFG.revert_en 1 with dtm := { ticks := 500000000000 }, vgp := { job := [(0, { state := .printing, started := true, streamed := true, width := 100, planes := 1, pitch := 1000000 })] }, chn := { vote := .two } })).m with ptn := { (st ({ (pairM .backsight { state := .backsight, paired := true, inStep := true, straps := 1, stepTick := some 0 }).setFld Reg.PTN_CFG.revert_en 1 with dtm := { ticks := 500000000000 }, vgp := { job := [(0, { state := .printing, started := true, streamed := true, width := 100, planes := 1, pitch := 1000000 })] }, chn := { vote := .two } })).m.ptn with stepTick := some (st ({ (pairM .backsight { state := .backsight, paired := true, inStep := true, straps := 1, stepTick := some 0 }).setFld Reg.PTN_CFG.revert_en 1 with dtm := { ticks := 500000000000 }, vgp := { job := [(0, { state := .printing, started := true, streamed := true, width := 100, planes := 1, pitch := 1000000 })] }, chn := { vote := .two } })).m.now } },
      0, by refine ⟨?_, ?_, ?_, ?_, ?_, ?_⟩ <;> first | decide +kernel | rfl⟩,
    ⟨st ({ pairM .run { state := .foresight, paired := true, partner := 4 } with vgp := { job := [(0, { state := .printing })] } }),
      by decide +kernel⟩,
    ⟨st (pairM .backsight { state := .backsight, paired := true, cSw := some 9 }), 9, by decide +kernel⟩,
    ⟨st ({ pairM .run { state := .reverting, oldActive := true, paired := true, cSw := some 9 } with chn := { vote := .two, printed := 10 } }),
      9, by decide +kernel⟩,
    ⟨st (pairM .run { state := .reverting, oldActive := true, paired := true, cSw := some 9 }), by decide +kernel⟩,
    ⟨st ({ pairM .backsight { state := .reverting, paired := true, cSw := some 9, revertTick := some 0 } with dtm := { ticks := 2500000 } }),
      0, by decide +kernel⟩⟩

theorem witness_SuppliesCarryTheLoad :
    (∃ (s : State) (v : InputLevel), Runs s ∧ s.m.pwr.vmainGood = true ∧ s.m.pwr.vbackGood = true ∧
      s.m.pwr.onBack = false ∧ s.m.pwr.powerFail = false ∧ (v.mv < 9400 ∨ 14800 < v.mv)) ∧
    (∃ (s : State) (v : InputLevel), Runs s ∧ s.m.pwr.vmainGood = true ∧ s.m.pwr.vmainHigh = false ∧ 9400 ≤ v.mv ∧
      v.mv ≤ 14800 ∧ s.m.pwr.powerFail = false ∧ (s.m.pwr.onBack = true → s.m.pwr.vbackGood = true)) ∧
    (∃ (s : State) (v : InputLevel), Runs s ∧ s.m.pwr.vbackGood = false ∧ s.m.pwr.vmainGood = true ∧
      s.m.pwr.onBack = false ∧ s.m.pwr.powerFail = false ∧ (s.m.pwr.vbackHigh = false ∧ 9600 < v.mv ∧
      v.mv ≤ 14800 ∨ s.m.pwr.vbackHigh = true ∧ 9400 ≤ v.mv ∧ v.mv < 14400)) ∧
    (∃ (s : State), Runs s ∧ s.m.now < s.m.pwr.mainTick + max 1 (s.m.fld Reg.PWR_CFG.return_ms) * 500000) ∧
    (∃ (s : State), Runs s ∧ s.m.pwr.vmainGood = true ∧ s.m.pwr.onBack = true ∧ s.m.pwr.powerFail = false ∧
      s.m.pwr.mainTick + max 1 (s.m.fld Reg.PWR_CFG.return_ms) * 500000 ≤ s.m.now) ∧
    (∃ (s : State), Runs s ∧ s.m.pwr.vmainGood = false ∧ s.m.pwr.vbackGood = false ∧ s.m.pwr.powerFail = false ∧
      s.m.thm.latch = none ∧ s.m.glb.mode ≠ .boot ∧ s.m.pwr.badTick + 50000 ≤ s.m.now) ∧
    (∃ (s : State) (p : Monument), Runs s ∧ s.m.finals.writing = some p ∧ s.m.pwr.vmainGood = false ∧
      s.m.pwr.vbackGood = false) ∧
    (∃ (s : State), Runs s ∧ s.m.pwr.vmainGood = false ∧ s.m.pwr.vbackGood = false ∧ s.m.finals.writing = none) :=
  ⟨⟨st ({ inM .run with pwr := { vmainGood := true, vbackGood := true } }), { mv := 9399 }, by decide +kernel⟩,
    ⟨st ({ inM .run with pwr := { vmainGood := true } }), { mv := 9400 }, by decide +kernel⟩,
    ⟨st ({ inM .run with pwr := { vmainGood := true, vbackGood := false } }), { mv := 9601 }, by decide +kernel⟩,
    ⟨st ({ inM .run with pwr := { vmainGood := true, onBack := true, mainTick := 1 } }), by decide +kernel⟩,
    ⟨st ({ (inM .run).setFld Reg.PWR_CFG.return_ms 2 with pwr := { vmainGood := true, onBack := true, mainTick := 1 }, dtm := { ticks := 1000001 } }),
      by decide +kernel⟩,
    ⟨st ({ inM .run with pwr := { onBack := true, vmainGood := false, vbackGood := false, badTick := 4 }, dtm := { ticks := 50004 } }),
      by decide +kernel⟩,
    ⟨st ({ inM .run with pwr := { vmainGood := false, vbackGood := false }, finals := { writing := some { num := 4 }, slots := [{ num := 3 }, { num := 2 }] } }),
      { num := 4 }, by decide +kernel⟩,
    ⟨st ({ inM .run with pwr := { vmainGood := false, vbackGood := false } }), by decide +kernel⟩⟩

theorem witness_HeatAndClocks :
    (∃ (s : State) (ch : Nat), Runs s ∧ (ch < 16 ∨ ch = 20) ∧ s.m.thm.latch = none ∧ s.m.pwr.powerFail = false) ∧
    (∃ (s : State) (r : Nat × Nat), Runs s ∧ s.m.thm.latch = some r) ∧
    (∃ (s : State), Runs s ∧ s.m.now < s.m.lastBeat .round + 512000) ∧
    (∃ (s : State) (r : Readings), Runs s ∧ s.m.copyDiffers r.upset = false ∧
      s.m.lastBeat .round + 512000 ≤ s.m.now) ∧
    (∃ (s : State), Runs s ∧ s.m.skx.lane = []) ∧
    (∃ (s : State) (net : Bool), Runs s ∧ s.m.skx.pllDown = pllBit net ∧ s.m.pwr.powerFail = false ∧
      s.m.thm.latch = none) :=
  ⟨⟨st (inM .run), 20, by decide +kernel⟩,
    ⟨st ({ inM .run with thm := { latch := some (3, 126) } }), (3, 126), by decide +kernel⟩,
    ⟨st ({ inM .run with dtm := { ticks := 511999 } }), by decide +kernel⟩,
    ⟨st ({ inM .run with dtm := { ticks := 512000 } }),
      { ch := List.replicate 32 20, opens := [], stuck := [], holdupOk := true, upset := [] }, by decide +kernel⟩,
    ⟨st (inM .run), by decide +kernel⟩,
    ⟨st ({ inM .run with skx := { pllDown := 2, lane := [(3, { state := .lock })] } }), true, by decide +kernel⟩⟩

theorem witness_TrimsAreFoundAndWritten :
    (∃ (s : State) (i : Nat), Runs s ∧ s.m.glb.mode = .setup ∧ s.m.cal.running = none ∧ s.m.fld Reg.CAL_REQ.kind = 4 ∧
      s.m.fld Reg.CAL_REQ.index = i ∧ i < 16) ∧
    (∃ (s : State), Runs s ∧ s.m.glb.mode ≠ .boot ∧ s.m.cal.running ≠ none) ∧
    (∃ (s : State) (i : Nat), Runs s ∧ s.m.cal.running = some (4, i) ∧ i < 16) ∧
    (∃ (s : State) (i : Nat), Runs s ∧ s.m.cal.running = some (4, i)) ∧
    (∃ (s : State) (a : Nat) (v : Nat), Runs s ∧ isTrim a = true ∧ s.m.glb.mode = .setup ∧ s.m.glb.locked = false ∧
      trimOk a v = true) ∧
    (∃ (s : State) (a : Nat), Runs s ∧ isTrim a = true ∧ s.m.glb.mode ≠ .boot ∧ s.m.glb.locked = true) :=
  ⟨⟨st (((inM .setup).setFld Reg.CAL_REQ.kind 4).setFld Reg.CAL_REQ.index 15), 15, by decide +kernel⟩,
    ⟨st ({ inM .run with cal := { running := some (1, 2) } }), by decide +kernel⟩,
    ⟨st ({ inM .run with cal := { running := some (4, 15) } }), 15, by decide +kernel⟩,
    ⟨st ({ inM .run with cal := { running := some (4, 15) } }), 15, by decide +kernel⟩,
    ⟨st (inM .setup), Reg.CAL_THM 15, 0xFFFFFFFF, by decide +kernel⟩,
    ⟨st ({ glb := { mode := .setup, stage := 0, locked := true } }), Reg.CAL_THM 15, by decide +kernel⟩⟩

theorem witness_DramServesItsPorts :
    (∃ (s : State) (a : Nat) (n : Nat) (t : DramTiming), Runs s ∧ a + n ≤ dramSize ∧ s.m.dramUp = true ∧
      s.m.thm.latch = none ∧ s.m.drm.cycle ≠ some t.cycle) ∧
    (∃ (s : State) (a : Nat) (q : Nat) (b : Byte) (t : DramTiming), Runs s ∧ a < dramSize ∧ s.m.dramUp = true ∧
      s.m.thm.latch = none ∧ s.m.drm.cycle = some t.cycle ∧ Tab.get none s.m.drm.replaced a = some (b, q)) ∧
    (∃ (s : State) (p : Nat) (a : Nat) (q : Nat) (b : Byte) (t : DramTiming), Runs s ∧ a < dramSize ∧
      s.m.dramUp = true ∧ s.m.thm.latch = none ∧ s.m.drm.cycle = some t.cycle ∧
      Tab.get none s.m.drm.replaced a = some (b, q) ∧ p < q) ∧
    (∃ (s : State) (c : Nat), Runs s ∧ s.m.now < (s.m.dramCh c).due) ∧
    (∃ (s : State) (c : Nat) (x : DramCh), Runs s ∧ s.m.dramUp = true ∧ (s.m.dramCh c).due ≤ s.m.now ∧
      x = { s.m.dramCh c with due := s.m.now + s.m.refreshInterval c } ∧ s.m.postpones c = false) ∧
    (∃ (s : State) (c : Nat) (x : DramCh), Runs s ∧ s.m.dramUp = true ∧ (s.m.dramCh c).due ≤ s.m.now ∧
      x = { s.m.dramCh c with due := s.m.now + s.m.refreshInterval c } ∧ s.m.postpones c = true ∧
      (s.m.dramCh c).owed < 8) ∧
    (∃ (s : State) (c : Nat) (x : DramCh), Runs s ∧ s.m.dramUp = true ∧ (s.m.dramCh c).due ≤ s.m.now ∧
      x = { s.m.dramCh c with due := s.m.now + s.m.refreshInterval c } ∧ s.m.postpones c = true ∧
      8 ≤ (s.m.dramCh c).owed) ∧
    (∃ (s : State), Runs s) ∧
    (∃ (s : State), Runs s ∧ s.m.dramUp = true ∧ s.m.lastBeat .pages + 500000000 ≤ s.m.now) ∧
    (∃ (s : State), Runs s ∧ s.m.dramUp = true ∧ s.m.lastBeat .pages + 500000000 ≤ s.m.now) :=
  ⟨⟨st (inM .run), dramSize - 2, 2, { chans := [(3, true)], issues := [], ns := 100 }, by decide +kernel⟩,
    ⟨st ({ inM .run with drm := { cycle := some 7, replaced := [(40, some (9, 3))] } }), 40, 3, 9,
      { chans := [(3, true)], issues := [], ns := 100, cycle := 7 }, by decide +kernel⟩,
    ⟨st ({ inM .run with drm := { cycle := some 7, replaced := [(40, some (9, 3))] } }), 2, 40, 3, 9,
      { chans := [(3, true)], issues := [], ns := 100, cycle := 7 }, by decide +kernel⟩,
    ⟨st ({ inM .run with drm := { ch := [(15, { due := 4 })] }, dtm := { ticks := 3 } }), 15, by decide +kernel⟩,
    ⟨st ({ inM .run with drm := { panic := 0, ch := [(15, { due := 4 })] }, dtm := { ticks := 4 } }), 15,
      { (st ({ inM .run with drm := { panic := 0, ch := [(15, { due := 4 })] }, dtm := { ticks := 4 } })).m.dramCh 15 with due := (st ({ inM .run with drm := { panic := 0, ch := [(15, { due := 4 })] }, dtm := { ticks := 4 } })).m.now + (st ({ inM .run with drm := { panic := 0, ch := [(15, { due := 4 })] }, dtm := { ticks := 4 } })).m.refreshInterval 15 },
      by decide +kernel⟩,
    ⟨st ({ inM .run with drm := { panic := 1 } }), 15,
      { (st ({ inM .run with drm := { panic := 1 } })).m.dramCh 15 with due := (st ({ inM .run with drm := { panic := 1 } })).m.now + (st ({ inM .run with drm := { panic := 1 } })).m.refreshInterval 15 },
      by decide +kernel⟩,
    ⟨st ({ inM .run with drm := { panic := 1, ch := [(15, { owed := 8 })] } }), 15,
      { (st ({ inM .run with drm := { panic := 1, ch := [(15, { owed := 8 })] } })).m.dramCh 15 with due := (st ({ inM .run with drm := { panic := 1, ch := [(15, { owed := 8 })] } })).m.now + (st ({ inM .run with drm := { panic := 1, ch := [(15, { owed := 8 })] } })).m.refreshInterval 15 },
      by decide +kernel⟩,
    ⟨st ({ inM .run with dtm := { ticks := 32000000 } }), by decide +kernel⟩,
    ⟨st ({ inM .run with dtm := { ticks := 500000000 } }), by decide +kernel⟩,
    ⟨st ({ inM .run with dtm := { ticks := 500000000 } }), by decide +kernel⟩⟩

theorem witness_DescriptorsCompleteWhileStopped :
    (∃ (s : State) (h : DescRef) (im : JobImageF) (bd : BlockDataF) (it : ItemF) (tb : TableF) (layer : Nat) (data : List Byte) (entries : List Nat) (d : Mach) (c : (Instr × Nat)),
      Runs s ∧ d = s.m.takeDesc h ∧ layer = h.ring - 2 ∧ c ∈ [(Instr.jobImage h im data, 0x02), (.blockData h bd data,
      0x06), (.item h it data, 0x40), (.tableCommit h tb entries, 0x60)] ∧ s.m.pwr.powerFail = true) ∧
    (∃ (s : State) (h : DescRef) (layer : Nat) (d : Mach), Runs s ∧ d = s.m.takeDesc h ∧ layer = h.ring - 2 ∧
      Held s h 0x80 ∧ s.m.hst.stopped = true ∧ 12 ≤ h.ring ∧ h.ring < 20 ∧ s.m.camBufs (h.ring - 12) ≠ []) ∧
    (∃ (s : State) (h : DescRef) (oj : JobOpenF) (im : JobImageF) (ja : JobArmF) (bd : BlockDataF) (rv : RevokeF) (it : ItemF) (tb : TableF) (bu : BufferF) (tag : Nat) (layer : Nat) (v : Word) (data : List Byte) (entries : List Nat) (d : Mach) (c : (Instr × Nat)),
      Runs s ∧ d = s.m.takeDesc h ∧ layer = h.ring - 2 ∧ s.m.pwr.powerFail = false ∧
      (h.ring < 12 ∨ 20 ≤ h.ring ∨ s.m.camBufs (h.ring - 12) = []) ∧ c ∈ [(Instr.jobOpen h oj, 0x01),
      (.jobImage h im data, 0x02), (.jobClose h tag, 0x03), (.jobArm h ja, 0x04), (.jobDelete h tag, 0x05),
      (.blockData h bd data, 0x06), (.abort h tag, 0x21), (.revoke h rv, 0x23), (.item h it data, 0x40),
      (.fence h layer v, 0x41), (.tableCommit h tb entries, 0x60), (.buffer h bu, 0x80)] ∧ Held s h c.2 ∧
      s.m.hst.stopped = true) ∧
    (∃ (s : State) (h : DescRef) (oj : JobOpenF) (im : JobImageF) (ja : JobArmF) (bd : BlockDataF) (rv : RevokeF) (it : ItemF) (tb : TableF) (bu : BufferF) (tag : Nat) (layer : Nat) (v : Word) (data : List Byte) (entries : List Nat) (d : Mach) (c : (Instr × Nat)),
      Runs s ∧ d = s.m.takeDesc h ∧ layer = h.ring - 2 ∧ s.m.pwr.powerFail = false ∧
      (h.ring < 12 ∨ 20 ≤ h.ring ∨ s.m.camBufs (h.ring - 12) = []) ∧ c ∈ [(Instr.jobOpen h oj, 0x01),
      (.jobImage h im data, 0x02), (.jobClose h tag, 0x03), (.jobArm h ja, 0x04), (.jobDelete h tag, 0x05),
      (.blockData h bd data, 0x06), (.abort h tag, 0x21), (.revoke h rv, 0x23), (.item h it data, 0x40),
      (.fence h layer v, 0x41), (.tableCommit h tb entries, 0x60), (.buffer h bu, 0x80)] ∧ Held s h c.2 ∧
      s.m.hst.stopped = false ∧ s.m.glb.mode = .halt) ∧
    (∃ (s : State) (h : DescRef) (layer : Nat) (d : Mach), Runs s ∧ d = s.m.takeDesc h ∧ layer = h.ring - 2 ∧
      s.m.pwr.powerFail = false ∧ (h.ring < 12 ∨ 20 ≤ h.ring ∨ s.m.camBufs (h.ring - 12) = []) ∧ Held s h 0x20 ∧
      s.m.hst.stopped = true) ∧
    (∃ (s : State) (h : DescRef) (layer : Nat) (d : Mach), Runs s ∧ d = s.m.takeDesc h ∧ layer = h.ring - 2 ∧
      s.m.pwr.powerFail = false ∧ (h.ring < 12 ∨ 20 ≤ h.ring ∨ s.m.camBufs (h.ring - 12) = []) ∧ Held s h 0x22 ∧
      s.m.hst.stopped = true) ∧
    (∃ (s : State) (h : DescRef) (layer : Nat) (d : Mach), Runs s ∧ d = s.m.takeDesc h ∧ layer = h.ring - 2 ∧
      s.m.pwr.powerFail = false ∧ (h.ring < 12 ∨ 20 ≤ h.ring ∨ s.m.camBufs (h.ring - 12) = []) ∧ Held s h 0x20 ∧
      s.m.hst.stopped = false ∧ s.m.glb.mode = .halt ∧ s.m.mirroring = false) :=
  ⟨⟨st ({ storeM .run job0 with pwr := { powerFail := true } }), dsc 1 0x1, band0,
    { jobTag := 9, layer := 0, plane := 0, block := 0, byteLen := 24, request := 0, addr := 64 }, item0,
    { table := 1, plane := 0, isPartial := false, now := false, first := 0, count := 1, byteLen := 4, addr := 0, effect := 0 },
    (dsc 1 0x1 : DescRef).ring - 2, [], [],
    (st ({ storeM .run job0 with pwr := { powerFail := true } })).m.takeDesc (dsc 1 0x1 : DescRef),
    (.jobImage (dsc 1 0x1 : DescRef) (band0 : JobImageF) ([] : List Byte), 0x02), by refine ⟨?_, ?_, ?_, ?_,
    ?_⟩ <;> first | decide +kernel | rfl⟩,
    ⟨st (holdM 19 0x80 { storeM .run job0 with hst := { stopped := true, camBufs := [(7, [{}])] } }), dsc 19 0x80,
      (dsc 19 0x80 : DescRef).ring - 2,
      (st (holdM 19 0x80 { storeM .run job0 with hst := { stopped := true, camBufs := [(7, [{}])] } })).m.takeDesc (dsc 19 0x80 : DescRef),
      by refine ⟨?_, ?_, ?_, ?_, ?_, ?_, ?_, ?_⟩ <;> first | decide +kernel | rfl⟩,
    ⟨st (holdM 1 0x1 { storeM .run job0 with hst := { stopped := true } }), dsc 1 0x1,
      { jobTag := 9, streamed := 1, layers := 1, depth := 2, planes := 1, along := 0, across := 0, width := 16, repeatLen := 0, reserve := 4096 },
      band0, { jobTag := 9, start := 0, repeats := 0, origin := 0 },
      { jobTag := 9, layer := 0, plane := 0, block := 0, byteLen := 24, request := 0, addr := 64 },
      { layer := 1, now := false, first := 1, last := 1, effect := 0 }, item0,
      { table := 1, plane := 0, isPartial := false, now := false, first := 0, count := 1, byteLen := 4, addr := 0, effect := 0 },
      { len := 4096, addr := 0 }, 0, (dsc 1 0x1 : DescRef).ring - 2, 7, [], [],
      (st (holdM 1 0x1 { storeM .run job0 with hst := { stopped := true } })).m.takeDesc (dsc 1 0x1 : DescRef),
      (.jobOpen (dsc 1 0x1 : DescRef) ({ jobTag := 9, streamed := 1, layers := 1, depth := 2, planes := 1, along := 0, across := 0, width := 16, repeatLen := 0, reserve := 4096 } : JobOpenF),
      1), by refine ⟨?_, ?_, ?_, ?_, ?_, ?_, ?_, ?_⟩ <;> first | decide +kernel | rfl⟩,
    ⟨st (holdM 1 0x1 (storeM .halt job0)), dsc 1 0x1,
      { jobTag := 9, streamed := 1, layers := 1, depth := 2, planes := 1, along := 0, across := 0, width := 16, repeatLen := 0, reserve := 4096 },
      band0, { jobTag := 9, start := 0, repeats := 0, origin := 0 },
      { jobTag := 9, layer := 0, plane := 0, block := 0, byteLen := 24, request := 0, addr := 64 },
      { layer := 1, now := false, first := 1, last := 1, effect := 0 }, item0,
      { table := 1, plane := 0, isPartial := false, now := false, first := 0, count := 1, byteLen := 4, addr := 0, effect := 0 },
      { len := 4096, addr := 0 }, 0, (dsc 1 0x1 : DescRef).ring - 2, 7, [], [],
      (st (holdM 1 0x1 (storeM .halt job0))).m.takeDesc (dsc 1 0x1 : DescRef),
      (.jobOpen (dsc 1 0x1 : DescRef) ({ jobTag := 9, streamed := 1, layers := 1, depth := 2, planes := 1, along := 0, across := 0, width := 16, repeatLen := 0, reserve := 4096 } : JobOpenF),
      1), by refine ⟨?_, ?_, ?_, ?_, ?_, ?_, ?_, ?_, ?_⟩ <;> first | decide +kernel | rfl⟩,
    ⟨st (holdM 1 0x20 { storeM .run job0 with hst := { stopped := true } }), dsc 1 0x20,
      (dsc 1 0x20 : DescRef).ring - 2,
      (st (holdM 1 0x20 { storeM .run job0 with hst := { stopped := true } })).m.takeDesc (dsc 1 0x20 : DescRef),
      by refine ⟨?_, ?_, ?_, ?_, ?_, ?_, ?_⟩ <;> first | decide +kernel | rfl⟩,
    ⟨st (holdM 1 0x22 { storeM .run job0 with hst := { stopped := true } }), dsc 1 0x22,
      (dsc 1 0x22 : DescRef).ring - 2,
      (st (holdM 1 0x22 { storeM .run job0 with hst := { stopped := true } })).m.takeDesc (dsc 1 0x22 : DescRef),
      by refine ⟨?_, ?_, ?_, ?_, ?_, ?_, ?_⟩ <;> first | decide +kernel | rfl⟩,
    ⟨st (holdM 1 0x20 (storeM .halt job0)), dsc 1 0x20, (dsc 1 0x20 : DescRef).ring - 2,
      (st (holdM 1 0x20 (storeM .halt job0))).m.takeDesc (dsc 1 0x20 : DescRef), by refine ⟨?_, ?_, ?_, ?_, ?_, ?_,
      ?_, ?_, ?_⟩ <;> first | decide +kernel | rfl⟩⟩

theorem witness_JobsAreFilledRepairedAndFreed :
    (∃ (s : State) (h : DescRef) (f : JobOpenF) (j : Nat) (d : Mach), Runs s ∧ Held s h 0x01 ∧ d = s.m.takeDesc h ∧
      d.hst.stopped = false ∧ d.glb.mode ≠ .halt ∧ d.glb.mode ≠ .backsight ∧ d.mirroring = false ∧
      (List.range 8).find? (fun k => (d.job k).state = .free) = some j ∧ d.jobSlot f.jobTag = none ∧
      jobOpenOk f = true ∧ ceilDiv f.reserve 4096 ≤ d.storeFree) ∧
    (∃ (s : State) (h : DescRef) (f : JobImageF) (data : List Byte) (j : Nat) (t : Stream) (d : Mach), Runs s ∧
      Held s h 0x02 ∧ d = s.m.takeDesc h ∧ d.hst.stopped = false ∧ d.glb.mode ≠ .halt ∧ d.glb.mode ≠ .backsight ∧
      d.mirroring = false ∧ d.jobSlot f.jobTag = some j ∧ (d.job j).takesImage = true ∧
      d.dmaOk false f.addr f.byteLen = true ∧ d.pwr.powerFail = false ∧ d.bandFired (d.job j) f = false ∧
      (bandResult (d.job j) f data).toOption = some t ∧
      d.jobUsed ((d.job j).setStream f.layer f.plane t) - d.jobUsed (d.job j) ≤ d.jobRoom (d.job j)) ∧
    (∃ (s : State) (h : DescRef) (tag : Nat) (j : Nat) (d : Mach) (y : Job), Runs s ∧ Held s h 0x03 ∧
      d = s.m.takeDesc h ∧ d.hst.stopped = false ∧ d.glb.mode ≠ .halt ∧ d.glb.mode ≠ .backsight ∧
      d.mirroring = false ∧ d.jobSlot tag = some j ∧ (d.job j).state = .opened ∧ (d.job j).takesClose = true ∧
      y = { (d.job j).closeStreams with closed := true } ∧ d.jobUsed y - d.jobUsed (d.job j) ≤ d.jobRoom (d.job j)) ∧
    (∃ (s : State) (h : DescRef) (tag : Nat) (j : Nat) (d : Mach), Runs s ∧ Held s h 0x05 ∧ d = s.m.takeDesc h ∧
      d.hst.stopped = false ∧ d.glb.mode ≠ .halt ∧ d.glb.mode ≠ .backsight ∧ d.mirroring = false ∧
      d.jobSlot tag = some j ∧ ((d.job j).state = .opened ∨ (d.job j).state = .stored)) ∧
    (∃ (s : State) (h : DescRef) (f : JobImageF) (data : List Byte) (j : Nat) (t : Stream) (x : Job), Runs s ∧
      s.m.vgp.imageWait = some (h, f, data) ∧ s.m.jobSlot f.jobTag = some j ∧ s.m.job j = x ∧ x.state = .printing ∧
      s.m.bandFired x f = false ∧ (bandResult x f data).toOption = some t ∧
      s.m.jobRoom x < s.m.jobUsed (x.setStream f.layer f.plane t) - s.m.jobUsed x) ∧
    (∃ (s : State) (h : DescRef) (f : JobImageF) (data : List Byte) (j : Nat) (t : Stream) (x : Job), Runs s ∧
      s.m.vgp.imageWait = some (h, f, data) ∧ s.m.jobSlot f.jobTag = some j ∧ s.m.job j = x ∧ x.state = .printing ∧
      s.m.bandFired x f = false ∧ (bandResult x f data).toOption = some t ∧
      s.m.jobUsed (x.setStream f.layer f.plane t) - s.m.jobUsed x ≤ s.m.jobRoom x) ∧
    (∃ (s : State), Runs s ∧ s.m.vgp.imageWait = none) ∧
    (∃ (s : State) (h : DescRef) (f : BlockDataF) (data : List Byte) (px : List Byte) (j : Nat) (b : Block) (d : Mach) (x : Job) (t : Stream),
      Runs s ∧ Held s h 0x06 ∧ d = s.m.takeDesc h ∧ d.hst.stopped = false ∧ d.glb.mode ≠ .halt ∧
      d.glb.mode ≠ .backsight ∧ d.mirroring = false ∧ d.jobSlot f.jobTag = some j ∧ d.job j = x ∧
      x.stream f.layer f.plane = t ∧ x.takesStream f.layer f.plane = true ∧
      t.blocks.find? (fun c => c.row * x.blockCols f.layer + c.col = f.block) = some b ∧ d.pwr.powerFail = false ∧
      d.dmaOk false f.addr f.byteLen = true ∧ vangopBlock data = some ((b.lines, b.width, px), []) ∧
      d.poolUsed + ceilDiv data.length 4096 ≤ 2048) :=
  ⟨⟨st (holdM 1 0x1 ({ storeM .run job0 with vgp := { job := [(0, { job0 with tag := 8 })] } })), dsc 1 0x1,
    { jobTag := 9, streamed := 1, layers := 1, depth := 2, planes := 1, along := 0, across := 0, width := 16, repeatLen := 0, reserve := 4096 },
    1,
    (st (holdM 1 0x1 ({ storeM .run job0 with vgp := { job := [(0, { job0 with tag := 8 })] } }))).m.takeDesc (dsc 1 0x1 : DescRef),
    by refine ⟨?_, ?_, ?_, ?_, ?_, ?_, ?_, ?_, ?_, ?_, ?_⟩ <;> first | decide +kernel | rfl⟩,
    ⟨st (holdM 1 0x2 (storeM .run job1)), dsc 1 0x2, band1, blkData, 7, okStream (bandResult job1 band1 blkData),
      (st (holdM 1 0x2 (storeM .run job1))).m.takeDesc (dsc 1 0x2 : DescRef), by refine ⟨?_, ?_, ?_, ?_, ?_, ?_, ?_,
      ?_, ?_, ?_, ?_, ?_, ?_, ?_⟩ <;> first | decide +kernel | rfl⟩,
    ⟨st (holdM 1 0x3 (storeM .run job0)), dsc 1 0x3, 9, 7,
      (st (holdM 1 0x3 (storeM .run job0))).m.takeDesc (dsc 1 0x3 : DescRef),
      { (((st (holdM 1 0x3 (storeM .run job0))).m.takeDesc (dsc 1 0x3 : DescRef) : Mach).job 7).closeStreams with closed := true },
      by refine ⟨?_, ?_, ?_, ?_, ?_, ?_, ?_, ?_, ?_, ?_, ?_, ?_⟩ <;> first | decide +kernel | rfl⟩,
    ⟨st (holdM 1 0x5 (storeM .run job0)), dsc 1 0x5, 9, 7,
      (st (holdM 1 0x5 (storeM .run job0))).m.takeDesc (dsc 1 0x5 : DescRef), by refine ⟨?_, ?_, ?_, ?_, ?_, ?_, ?_,
      ?_, ?_⟩ <;> first | decide +kernel | rfl⟩,
    ⟨st ({ storeM .run { job1 with state := .printing, origin := 2000 } with regs := [], vgp := { job := [(7, { job1 with state := .printing, origin := 2000 })], imageWait := some ({}, band1, blkData) } }),
      {}, band1, blkData, 7, okStream (bandResult { job1 with state := .printing, origin := 2000 } band1 blkData),
      (st ({ storeM .run { job1 with state := .printing, origin := 2000 } with regs := [], vgp := { job := [(7, { job1 with state := .printing, origin := 2000 })], imageWait := some ({}, band1, blkData) } })).m.job 7,
      by refine ⟨?_, ?_, ?_, ?_, ?_, ?_, ?_, ?_⟩ <;> first | decide +kernel | rfl⟩,
    ⟨st ({ storeM .run { job1 with state := .printing, origin := 2000 } with vgp := { job := [(7, { job1 with state := .printing, origin := 2000 })], imageWait := some ({}, band1, blkData) } }),
      {}, band1, blkData, 7, okStream (bandResult { job1 with state := .printing, origin := 2000 } band1 blkData),
      (st ({ storeM .run { job1 with state := .printing, origin := 2000 } with vgp := { job := [(7, { job1 with state := .printing, origin := 2000 })], imageWait := some ({}, band1, blkData) } })).m.job 7,
      by refine ⟨?_, ?_, ?_, ?_, ?_, ?_, ?_, ?_⟩ <;> first | decide +kernel | rfl⟩,
    ⟨st (storeM .run job0), by decide +kernel⟩,
    ⟨st (holdM 1 0x6 (storeM .run (job0.setStream 0 0 { blocks := [blk0] }))), dsc 1 0x6,
      { jobTag := 9, layer := 0, plane := 0, block := 0, byteLen := 24, request := 0, addr := 64 }, blkData, [7], 7,
      blk0,
      (st (holdM 1 0x6 (storeM .run (job0.setStream 0 0 { blocks := [blk0] })))).m.takeDesc (dsc 1 0x6 : DescRef),
      ((st (holdM 1 0x6 (storeM .run (job0.setStream 0 0 { blocks := [blk0] })))).m.takeDesc (dsc 1 0x6 : DescRef) : Mach).job 7,
      (((st (holdM 1 0x6 (storeM .run (job0.setStream 0 0 { blocks := [blk0] })))).m.takeDesc (dsc 1 0x6 : DescRef) : Mach).job 7 : Job).stream ({ jobTag := 9, layer := 0, plane := 0, block := 0, byteLen := 24, request := 0, addr := 64 } : BlockDataF).layer ({ jobTag := 9, layer := 0, plane := 0, block := 0, byteLen := 24, request := 0, addr := 64 } : BlockDataF).plane,
      by refine ⟨?_, ?_, ?_, ?_, ?_, ?_, ?_, ?_, ?_, ?_, ?_, ?_, ?_, ?_, ?_, ?_⟩ <;> first | decide +kernel | rfl⟩⟩

theorem witness_CommitsTakeAnEpoch :
    (∃ (s : State) (h : DescRef) (f : TableF) (entries : List Nat) (d : Mach), Runs s ∧ Held s h 0x60 ∧
      d = s.m.takeDesc h ∧ d.hst.stopped = false ∧ d.glb.mode ≠ .halt ∧ d.glb.mode ≠ .backsight ∧ d.glb.mode ≠ .boot ∧
      d.glb.mode ≠ .setup ∧ d.mirroring = false ∧ d.pwr.powerFail = false ∧ d.tableOk f entries = true ∧
      d.dmaOk false f.addr f.byteLen = true ∧ d.hasRoom (d.scopeOf (.table h f entries)) = true) ∧
    (∃ (s : State) (h : DescRef) (f : RevokeF) (d : Mach), Runs s ∧ Held s h 0x23 ∧ d = s.m.takeDesc h ∧
      d.hst.stopped = false ∧ d.glb.mode ≠ .halt ∧ d.glb.mode ≠ .backsight ∧ d.mirroring = false ∧
      d.itemSourced f.layer = true ∧ 0 ≤ epochDiff f.last f.first ∧ (d.liveRanges f.layer).length < rangeMax ∧
      d.hasRoom (d.scopeOf (.revoke h f)) = true) ∧
    (∃ (s : State) (h : DescRef) (f : JobArmF) (j : Nat) (d : Mach), Runs s ∧ Held s h 0x04 ∧ d = s.m.takeDesc h ∧
      d.hst.stopped = false ∧ (d.glb.mode = .ready ∨ d.glb.mode = .run ∨ d.glb.mode = .benchmark) ∧
      d.mirroring = false ∧ d.jobSlot f.jobTag = some j ∧ (d.job j).takesArm = true ∧
      d.armOk (d.latchJob (d.job j)) = true ∧ f.start = 0 ∧ d.hasRoom (d.scopeOf (.arm h f)) = true) ∧
    (∃ (s : State) (h : DescRef) (f : JobArmF) (j : Nat) (d : Mach), Runs s ∧ Held s h 0x04 ∧ d = s.m.takeDesc h ∧
      d.hst.stopped = false ∧ (d.glb.mode = .ready ∨ d.glb.mode = .run ∨ d.glb.mode = .benchmark) ∧
      d.mirroring = false ∧ d.jobSlot f.jobTag = some j ∧ (d.job j).takesArm = true ∧
      d.armOk (d.latchJob (d.job j)) = true ∧ f.start = 1 ∧ f.origin < 2 ^ 47) ∧
    (∃ (s : State) (e : Word) (c : Commit), Runs s ∧ s.m.epo.commits.find? (fun d => d.epoch = e) = some c ∧
      s.m.effectKnown e = true) ∧
    (∃ (s : State) (e : Word), Runs s ∧ s.m.epo.commits.find? (fun d => d.epoch = e) = none) :=
  ⟨⟨st (holdM 1 0x60 ((storeM .run job0).setFld (Reg.FGD_HD_CFG.en 0) 1)), dsc 1 0x60,
    { table := 4, plane := 9, isPartial := true, now := true, first := 0, count := 1, byteLen := 4, addr := 0, effect := 0 },
    [7], (st (holdM 1 0x60 ((storeM .run job0).setFld (Reg.FGD_HD_CFG.en 0) 1))).m.takeDesc (dsc 1 0x60 : DescRef),
    by refine ⟨?_, ?_, ?_, ?_, ?_, ?_, ?_, ?_, ?_, ?_, ?_, ?_, ?_⟩ <;> first | decide +kernel | rfl⟩,
    ⟨st (holdM 1 0x23 (storeM .run job0)), dsc 1 0x23,
      { layer := 1, now := true, first := 0xFFFFFFFF, last := 1, effect := 0 },
      (st (holdM 1 0x23 (storeM .run job0))).m.takeDesc (dsc 1 0x23 : DescRef), by refine ⟨?_, ?_, ?_, ?_, ?_, ?_, ?_,
      ?_, ?_, ?_, ?_⟩ <;> first | decide +kernel | rfl⟩,
    ⟨st (holdM 1 0x4 (storeM .ready { job0 with state := .stored, closed := true, planes := 1023 })), dsc 1 0x4,
      { jobTag := 9, start := 0, repeats := 0, origin := 5000 }, 7,
      (st (holdM 1 0x4 (storeM .ready { job0 with state := .stored, closed := true, planes := 1023 }))).m.takeDesc (dsc 1 0x4 : DescRef),
      by refine ⟨?_, ?_, ?_, ?_, ?_, ?_, ?_, ?_, ?_, ?_, ?_⟩ <;> first | decide +kernel | rfl⟩,
    ⟨st (holdM 1 0x4 (storeM .benchmark { job0 with state := .stored, closed := true, planes := 1023 })), dsc 1 0x4,
      { jobTag := 9, start := 1, repeats := 0, origin := 5000 }, 7,
      (st (holdM 1 0x4 (storeM .benchmark { job0 with state := .stored, closed := true, planes := 1023 }))).m.takeDesc (dsc 1 0x4 : DescRef),
      by refine ⟨?_, ?_, ?_, ?_, ?_, ?_, ?_, ?_, ?_, ?_, ?_⟩ <;> first | decide +kernel | rfl⟩,
    ⟨st ({ storeM .run job0 with epo := { counter := 5, commits := [{ epoch := 5, effect := 9, content := false, kind := 1, planes := 1, layer := 0, desc := some {}, moved := false, actual := 9, flip := none }] } }),
      5,
      { epoch := 5, effect := 9, content := false, kind := 1, planes := 1, layer := 0, desc := some {}, moved := false, actual := 9, flip := none },
      by decide +kernel⟩,
    ⟨st (storeM .run job0), 5, by decide +kernel⟩⟩

theorem witness_JobsStartAndAbort :
    (∃ (s : State) (tag : Nat) (j : Nat), Runs s ∧ s.m.isBacksight = false ∧ s.m.jobSlot tag = some j ∧
      (s.m.job j).state = .armed ∧ (s.m.job j).hasLines = true ∧ s.m.chn.vote.valid = true ∧ s.m.mirroring = false ∧
      chnAtOrAhead s.m.chainage (s.m.job j).effect = true) ∧
    (∃ (s : State) (tag : Nat) (j : Nat), Runs s ∧ s.m.isBacksight = false ∧ s.m.jobSlot tag = some j ∧
      (s.m.job j).state = .armed ∧ (s.m.job j).hasLines = true ∧ s.m.chn.vote.valid = true ∧ s.m.mirroring = false ∧
      chnAtOrAhead s.m.chainage (s.m.job j).effect = false) ∧
    (∃ (s : State) (h : DescRef) (tag : Nat) (j : Nat) (d : Mach), Runs s ∧ Held s h 0x21 ∧ d = s.m.takeDesc h ∧
      d.hst.stopped = false ∧ d.glb.mode ≠ .halt ∧ d.glb.mode ≠ .backsight ∧ d.mirroring = false ∧
      d.vgp.endTick ≠ some d.now ∧ d.vgp.abortWait = none ∧ d.jobSlot tag = some j ∧ (d.job j).active = true) ∧
    (∃ (s : State) (h : DescRef) (tag : Nat) (c : Chainage) (d : Mach), Runs s ∧ Held s h 0x21 ∧ d = s.m.takeDesc h ∧
      d.hst.stopped = false ∧ d.glb.mode ≠ .halt ∧ d.glb.mode ≠ .backsight ∧ d.vgp.endTick ≠ some d.now ∧
      d.vgp.abortWait = none ∧ d.jobSlot tag = none ∧ Tab.get none d.vgp.ended tag = some c) ∧
    (∃ (s : State) (h : DescRef) (d : Mach), Runs s ∧ Held s h 0x21 ∧ d = s.m.takeDesc h ∧ d.hst.stopped = false ∧
      d.glb.mode ≠ .halt ∧ d.glb.mode ≠ .backsight ∧ d.vgp.endTick = some d.now) :=
  ⟨⟨st (storeM .run { job0 with state := .armed, started := true, effect := 1000 }), 9, 7, by decide +kernel⟩,
    ⟨st (storeM .run { job0 with state := .armed, started := true, effect := 1001 }), 9, 7, by decide +kernel⟩,
    ⟨st (holdM 1 0x21 (storeM .run { job0 with state := .armed, started := true, effect := 1001, streamed := false, repeatLen := 128 })),
      dsc 1 0x21, 9, 7,
      (st (holdM 1 0x21 (storeM .run { job0 with state := .armed, started := true, effect := 1001, streamed := false, repeatLen := 128 }))).m.takeDesc (dsc 1 0x21 : DescRef),
      by refine ⟨?_, ?_, ?_, ?_, ?_, ?_, ?_, ?_, ?_, ?_, ?_⟩ <;> first | decide +kernel | rfl⟩,
    ⟨st (holdM 1 0x21 ({ storeM .run job0 with vgp := { ended := [(9, some 4)] } })), dsc 1 0x21, 9, 4,
      (st (holdM 1 0x21 ({ storeM .run job0 with vgp := { ended := [(9, some 4)] } }))).m.takeDesc (dsc 1 0x21 : DescRef),
      by refine ⟨?_, ?_, ?_, ?_, ?_, ?_, ?_, ?_, ?_, ?_⟩ <;> first | decide +kernel | rfl⟩,
    ⟨st (holdM 1 0x21 { storeM .run job0 with vgp := { endTick := some 0 } }), dsc 1 0x21,
      (st (holdM 1 0x21 { storeM .run job0 with vgp := { endTick := some 0 } })).m.takeDesc (dsc 1 0x21 : DescRef),
      by refine ⟨?_, ?_, ?_, ?_, ?_, ?_, ?_⟩ <;> first | decide +kernel | rfl⟩⟩

theorem witness_ItemsAreStoredAndBound :
    (∃ (s : State) (h : DescRef) (f : ItemF) (data : List Byte) (n : Nat) (p : Part) (d : Mach), Runs s ∧
      Held s h 0x40 ∧ d = s.m.takeDesc h ∧ d.hst.stopped = false ∧ d.glb.mode ≠ .halt ∧ d.glb.mode ≠ .backsight ∧
      d.mirroring = false ∧ h.ring = n + 2 ∧ itemOk n f = true ∧ d.pwr.powerFail = false ∧
      d.dmaOk false f.addr f.byteLen = true ∧ d.itemRefused n f.item = false ∧ itemPart f data = some p ∧
      d.itemWaits n f p = none) ∧
    (∃ (s : State) (h : DescRef) (f : ItemF) (data : List Byte) (n : Nat) (p : Part) (d : Mach) (c : Nat), Runs s ∧
      Held s h 0x40 ∧ d = s.m.takeDesc h ∧ d.hst.stopped = false ∧ d.glb.mode ≠ .halt ∧ d.glb.mode ≠ .backsight ∧
      d.mirroring = false ∧ h.ring = n + 2 ∧ itemOk n f = true ∧ d.pwr.powerFail = false ∧
      d.dmaOk false f.addr f.byteLen = true ∧ d.itemRefused n f.item = false ∧ itemPart f data = some p ∧
      d.itemWaits n f p = some c) ∧
    (∃ (s : State) (n : Nat) (h : DescRef) (f : ItemF) (data : List Byte) (p : Part) (c : Nat), Runs s ∧
      (s.m.layer n).wait = some (h, f, data) ∧ s.m.itemRefused n f.item = false ∧ itemPart f data = some p ∧
      s.m.itemWaits n f p = some c) ∧
    (∃ (s : State) (n : Nat) (h : DescRef) (f : ItemF) (data : List Byte) (p : Part), Runs s ∧
      (s.m.layer n).wait = some (h, f, data) ∧ s.m.itemRefused n f.item = false ∧ itemPart f data = some p ∧
      s.m.itemWaits n f p = none ∧ s.m.mirroring = false) ∧
    (∃ (s : State) (n : Nat), Runs s ∧ (s.m.layer n).wait = none) ∧
    (∃ (s : State) (h : DescRef) (n : Nat) (v : Word) (d : Mach), Runs s ∧ h.ring = n + 2 ∧ Held s h 0x41 ∧
      d = s.m.takeDesc h ∧ d.hst.stopped = false ∧ d.glb.mode ≠ .halt ∧ d.glb.mode ≠ .backsight ∧
      d.mirroring = false ∧ epochNewer v (d.layer n).fence = true) ∧
    (∃ (s : State) (h : DescRef) (n : Nat) (v : Word) (d : Mach), Runs s ∧ h.ring = n + 2 ∧ Held s h 0x41 ∧
      d = s.m.takeDesc h ∧ d.hst.stopped = false ∧ d.glb.mode ≠ .halt ∧ d.glb.mode ≠ .backsight ∧
      d.mirroring = false ∧ epochNewer v (d.layer n).fence = false) ∧
    (∃ (s : State) (n : Nat) (j : Nat) (k : Nat), Runs s ∧ s.m.isBacksight = false ∧ j < 8 ∧ s.m.bindDue j n = true ∧
      (∀ i, i ≠ j → s.m.bindDue i n = false) ∧ k = s.m.slotNext j n ∧ s.m.mirroring = false) ∧
    (∃ (s : State) (n : Nat), Runs s ∧ (∀ j, s.m.bindDue j n = false)) ∧
    (∃ (s : State) (h : DescRef) (f : BufferF) (n : Nat) (d : Mach), Runs s ∧ Held s h 0x80 ∧ d = s.m.takeDesc h ∧
      d.hst.stopped = false ∧ d.glb.mode ≠ .halt ∧ d.glb.mode ≠ .backsight ∧ d.mirroring = false ∧ h.ring = n + 12 ∧
      f.len % 64 = 0 ∧ 4096 ≤ f.len ∧ f.len ≤ 2 ^ 24 ∧ f.addr % 64 = 0 ∧ d.dmaOk true f.addr f.len = true) :=
  ⟨⟨st (holdM 3 0x40 (storeM .run job0)), dsc 3 0x40, item1, blkData, 1, part1,
    (st (holdM 3 0x40 (storeM .run job0))).m.takeDesc (dsc 3 0x40 : DescRef), by refine ⟨?_, ?_, ?_, ?_, ?_, ?_, ?_,
    ?_, ?_, ?_, ?_, ?_, ?_, ?_⟩ <;> first | decide +kernel | rfl⟩,
    ⟨st (holdM 3 0x40 ({ storeM .run job0 with regs := (dmaM {}).regs })), dsc 3 0x40, item1, blkData, 1, part1,
      (st (holdM 3 0x40 ({ storeM .run job0 with regs := (dmaM {}).regs }))).m.takeDesc (dsc 3 0x40 : DescRef), 0,
      by refine ⟨?_, ?_, ?_, ?_, ?_, ?_, ?_, ?_, ?_, ?_, ?_, ?_, ?_, ?_⟩ <;> first | decide +kernel | rfl⟩,
    ⟨st ({ storeM .run job0 with regs := (dmaM {}).regs, cmp := { layer := [(1, { wait := some ({ ring := 3 }, item1, blkData) })] } }),
      1, { ring := 3 }, item1, blkData, part1, 0, by refine ⟨?_, ?_, ?_, ?_, ?_⟩ <;> first | decide +kernel | rfl⟩,
    ⟨st ({ storeM .run job0 with cmp := { layer := [(1, { wait := some ({ ring := 3 }, item1, blkData) })] } }), 1,
      { ring := 3 }, item1, blkData, part1, by refine ⟨?_, ?_, ?_, ?_, ?_, ?_⟩ <;> first | decide +kernel | rfl⟩,
    ⟨st (storeM .run job0), 6, by decide +kernel⟩,
    ⟨st (holdM 8 0x41 (storeM .run job0)), dsc 8 0x41, 6, 0x7FFFFFFF,
      (st (holdM 8 0x41 (storeM .run job0))).m.takeDesc (dsc 8 0x41 : DescRef), by refine ⟨?_, ?_, ?_, ?_, ?_, ?_, ?_,
      ?_, ?_⟩ <;> first | decide +kernel | rfl⟩,
    ⟨st (holdM 8 0x41 (storeM .run job0)), dsc 8 0x41, 6, 0xFFFFFFFF,
      (st (holdM 8 0x41 (storeM .run job0))).m.takeDesc (dsc 8 0x41 : DescRef), by refine ⟨?_, ?_, ?_, ?_, ?_, ?_, ?_,
      ?_, ?_⟩ <;> first | decide +kernel | rfl⟩,
    ⟨st (bindM), 1, 7, bindM.slotNext 7 1, by decide +kernel, by decide +kernel, by decide, by decide +kernel,
      fun i h => by simp [Mach.bindDue, Mach.job, bindM, storeM, dmaM, st, Tab.get, Tab.getD, Job.hasLines,
      Ne.symm h], rfl, by decide +kernel⟩,
    ⟨st (storeM .run job0), 1, by decide +kernel, bindNone⟩,
    ⟨st (holdM 19 0x80 (storeM .run job0)), dsc 19 0x80, { len := 4096, addr := 64 }, 7,
      (st (holdM 19 0x80 (storeM .run job0))).m.takeDesc (dsc 19 0x80 : DescRef), by refine ⟨?_, ?_, ?_, ?_, ?_, ?_,
      ?_, ?_, ?_, ?_, ?_, ?_, ?_⟩ <;> first | decide +kernel | rfl⟩⟩

theorem witness_EnginesSelectAndRender :
    (∃ (s : State) (e : Nat) (k : Nat) (slot : Nat) (t : Mach), Runs s ∧ (s.m.engine e).cur = none ∧
      (s.m.engine e).next = some k ∧ (s.m.engine e).stalled = false ∧
      s.m.tileSlot (tileUnits (s.m.job (keyJob k)).depth) = some slot ∧
      (s.m.isUrgent k = true ∨ s.m.tileCap / 16 ≤ s.m.tileFree) ∧
      t = (s.m.setSwath k { s.m.swath k with urgent := s.m.isUrgent k, claimed := none, rendering := true, requeue := false, waiting := false, slot := slot, again := false }).setEngine e { s.m.engine e with cur := some k, next := none, epoch := s.m.epo.counter, stalled := false, state := .busy }) ∧
    (∃ (s : State) (e : Nat) (k : Nat) (slot : Nat) (t : Mach), Runs s ∧ (s.m.engine e).cur = none ∧
      (s.m.engine e).next = some k ∧ (s.m.engine e).stalled = false ∧
      s.m.tileSlot (tileUnits (s.m.job (keyJob k)).depth) = some slot ∧
      (s.m.isUrgent k = true ∨ s.m.tileCap / 16 ≤ s.m.tileFree) ∧
      t = (s.m.setSwath k { s.m.swath k with urgent := s.m.isUrgent k, claimed := none, rendering := true, requeue := false, waiting := false, slot := slot, again := false }).setEngine e { s.m.engine e with cur := some k, next := none, epoch := s.m.epo.counter, stalled := false, state := .busy } ∧
      s.m.mayWork e = true) ∧
    (∃ (s : State) (e : Nat) (k : Nat) (slot : Nat) (t : Mach) (i : Nat), Runs s ∧ (s.m.engine e).cur = none ∧
      (s.m.engine e).next = some k ∧ (s.m.engine e).stalled = false ∧
      s.m.tileSlot (tileUnits (s.m.job (keyJob k)).depth) = some slot ∧
      (s.m.isUrgent k = true ∨ s.m.tileCap / 16 ≤ s.m.tileFree) ∧
      t = (s.m.setSwath k { s.m.swath k with urgent := s.m.isUrgent k, claimed := none, rendering := true, requeue := false, waiting := false, slot := slot, again := false }).setEngine e { s.m.engine e with cur := some k, next := none, epoch := s.m.epo.counter, stalled := false, state := .busy } ∧
      i ≠ e) ∧
    (∃ (s : State) (e : Nat) (k : Nat) (slot : Nat) (t : Mach) (i : Nat), Runs s ∧ (s.m.engine e).cur = none ∧
      (s.m.engine e).next = some k ∧ (s.m.engine e).stalled = false ∧
      s.m.tileSlot (tileUnits (s.m.job (keyJob k)).depth) = some slot ∧
      (s.m.isUrgent k = true ∨ s.m.tileCap / 16 ≤ s.m.tileFree) ∧
      t = (s.m.setSwath k { s.m.swath k with urgent := s.m.isUrgent k, claimed := none, rendering := true, requeue := false, waiting := false, slot := slot, again := false }).setEngine e { s.m.engine e with cur := some k, next := none, epoch := s.m.epo.counter, stalled := false, state := .busy } ∧
      i ≠ k) ∧
    (∃ (s : State) (e : Nat) (k : Nat) (c : Nat) (reads : List BlockRead) (loads : List TableLoad) (r : Mach),
      Runs s ∧ s.m.mayWork e = true ∧ (s.m.engine e).next = none ∧ (s.m.engine e).cur = some c ∧ s.m.pick e = some k ∧
      r = loads.foldl (fun m l => m.tableLoad k l) (s.m.select e k reads) ∧ r.needsBroken k = false) ∧
    (∃ (s : State) (e : Nat), Runs s ∧ s.m.mayWork e = false) ∧
    (∃ (s : State) (e : Nat) (k : Nat), Runs s ∧ (s.m.engine e).cur = some k ∧ (s.m.swath k).rendering = true ∧
      s.m.mirroring = false ∧ s.m.reached k = false ∧ (s.m.swath k).again = false ∧ (∀ p ∈ (s.m.swath k).pend,
      epochNewer p.epoch (s.m.engine e).epoch = false)) ∧
    (∃ (s : State) (e : Nat) (k : Nat), Runs s ∧ (s.m.engine e).cur = some k ∧ (s.m.swath k).rendering = true ∧
      s.m.mirroring = false ∧ s.m.reached k = true) ∧
    (∃ (s : State) (e : Nat), Runs s ∧ (s.m.engine e).cur = none) ∧
    (∃ (s : State) (e : Nat), Runs s ∧ (s.m.engine e).stalled = true ∧ (s.m.engine e).cur = none) ∧
    (∃ (s : State) (e : Nat), Runs s ∧ (s.m.engine e).stalled = false) ∧
    (∃ (s : State) (e : Nat), Runs s ∧ (s.m.engine e).next = none) :=
  ⟨⟨st (withEng tileM { state := .idle, next := some kP }), 0, kP, 0,
    ((st (withEng tileM { state := .idle, next := some kP })).m.setSwath kP { (st (withEng tileM { state := .idle, next := some kP })).m.swath kP with urgent := (st (withEng tileM { state := .idle, next := some kP })).m.isUrgent kP, claimed := none, rendering := true, requeue := false, waiting := false, slot := 0, again := false }).setEngine 0 { (st (withEng tileM { state := .idle, next := some kP })).m.engine 0 with cur := some kP, next := none, epoch := (st (withEng tileM { state := .idle, next := some kP })).m.epo.counter, stalled := false, state := .busy },
    by refine ⟨?_, ?_, ?_, ?_, ?_, ?_, ?_⟩ <;> first | decide +kernel | rfl⟩,
    ⟨st (withEng tileM { state := .idle, next := some kP }), 0, kP, 0,
      ((st (withEng tileM { state := .idle, next := some kP })).m.setSwath kP { (st (withEng tileM { state := .idle, next := some kP })).m.swath kP with urgent := (st (withEng tileM { state := .idle, next := some kP })).m.isUrgent kP, claimed := none, rendering := true, requeue := false, waiting := false, slot := 0, again := false }).setEngine 0 { (st (withEng tileM { state := .idle, next := some kP })).m.engine 0 with cur := some kP, next := none, epoch := (st (withEng tileM { state := .idle, next := some kP })).m.epo.counter, stalled := false, state := .busy },
      by refine ⟨?_, ?_, ?_, ?_, ?_, ?_, ?_, ?_⟩ <;> first | decide +kernel | rfl⟩,
    ⟨st (withEng tileM { state := .idle, next := some kP }), 0, kP, 0,
      ((st (withEng tileM { state := .idle, next := some kP })).m.setSwath kP { (st (withEng tileM { state := .idle, next := some kP })).m.swath kP with urgent := (st (withEng tileM { state := .idle, next := some kP })).m.isUrgent kP, claimed := none, rendering := true, requeue := false, waiting := false, slot := 0, again := false }).setEngine 0 { (st (withEng tileM { state := .idle, next := some kP })).m.engine 0 with cur := some kP, next := none, epoch := (st (withEng tileM { state := .idle, next := some kP })).m.epo.counter, stalled := false, state := .busy },
      1, by refine ⟨?_, ?_, ?_, ?_, ?_, ?_, ?_, ?_⟩ <;> first | decide +kernel | rfl⟩,
    ⟨st (withEng tileM { state := .idle, next := some kP }), 0, kP, 0,
      ((st (withEng tileM { state := .idle, next := some kP })).m.setSwath kP { (st (withEng tileM { state := .idle, next := some kP })).m.swath kP with urgent := (st (withEng tileM { state := .idle, next := some kP })).m.isUrgent kP, claimed := none, rendering := true, requeue := false, waiting := false, slot := 0, again := false }).setEngine 0 { (st (withEng tileM { state := .idle, next := some kP })).m.engine 0 with cur := some kP, next := none, epoch := (st (withEng tileM { state := .idle, next := some kP })).m.epo.counter, stalled := false, state := .busy },
      1, by refine ⟨?_, ?_, ?_, ?_, ?_, ?_, ?_, ?_⟩ <;> first | decide +kernel | rfl⟩,
    ⟨st (withEng tileM { state := .busy, cur := some 12345 }), 0, swathKey 7 0 0 3, 12345, [], [],
      ([] : List TableLoad).foldl (fun m l => m.tableLoad (swathKey 7 0 0 3) l) ((st (withEng tileM { state := .busy, cur := some 12345 })).m.select 0 (swathKey 7 0 0 3) ([] : List BlockRead)),
      by refine ⟨?_, ?_, ?_, ?_, ?_, ?_, ?_⟩ <;> first | decide +kernel | rfl⟩,
    ⟨st (withEng printM { state := .parked }), 0, by decide +kernel⟩,
    ⟨st ({ withEng printM { state := .busy, cur := some (swathKey 7 0 0 5) } with trv := { eng := [(0, { state := .busy, cur := some (swathKey 7 0 0 5) })], swath := [(swathKey 7 0 0 5, { rendering := true })] } }),
      0, swathKey 7 0 0 5, by decide +kernel⟩,
    ⟨st ({ printM with chn := { vote := .two, printed := 2000000 }, trv := { eng := [(0, { state := .busy, cur := some kP })], swath := [(kP, { rendering := true })] } }),
      0, kP, by decide +kernel⟩,
    ⟨st (withEng printM { state := .idle }), 0, by decide +kernel⟩,
    ⟨st ({ withEng printM { state := .idle, stalled := true, ended := 5, next := some kP } with dtm := { ticks := 30 } }),
      0, by decide +kernel⟩,
    ⟨st (withEng printM { state := .idle }), 0, by decide +kernel⟩,
    ⟨st (withEng printM { state := .idle }), 0, by decide +kernel⟩⟩

theorem witness_DeadlinesDecideAndClustersPark :
    (∃ (s : State) (j : Nat) (p : Nat) (row : Nat), Runs s ∧ s.m.isBacksight = false ∧ (s.m.job j).hasLines = true ∧
      (s.m.job j).hasPlane p = true ∧ (s.m.job j).rowLines row ≠ [] ∧ (∀ i < s.m.swathCount p,
      s.m.reached (swathKey j p i row) = true ∧ (s.m.swath (swathKey j p i row)).decided = .undecided ∧
      (s.m.swath (swathKey j p i row)).tile.isSome = true)) ∧
    (∃ (s : State) (j : Nat) (l : Nat) (p : Nat) (b : Nat) (q : BadBlock) (x : Job) (k : Option Block), Runs s ∧
      s.m.isBacksight = false ∧
      s.m.vgp.bad.find? (fun q => q.job = j && q.layer = l && q.plane = p && q.block = b && !q.blank && !q.repaired && chnAtOrAhead s.m.chainage q.horizon) = some q ∧
      x = s.m.job j ∧ k = (x.stream l p).blocks.find? (fun c => c.row * x.blockCols l + c.col = b)) ∧
    (∃ (s : State) (j : Nat) (l : Nat) (p : Nat) (b : Nat), Runs s ∧ s.m.isBacksight = false ∧ (∀ q ∈ s.m.vgp.bad,
      q.job = j → q.layer = l → q.plane = p → q.block = b → q.blank = false → q.repaired = false → chnAtOrAhead s.m.chainage q.horizon = false)) ∧
    (∃ (s : State), Runs s ∧ s.m.isBacksight = true) ∧
    (∃ (s : State), Runs s ∧ s.m.isBacksight = true) ∧
    (∃ (s : State), Runs s ∧ s.m.glb.locked = true) ∧
    (∃ (s : State) (v : Nat), Runs s ∧ s.m.glb.locked = false ∧ s.m.glb.mode = .setup ∧ parkOrderOk v = true) ∧
    (∃ (s : State) (v : Nat), Runs s ∧ s.m.glb.locked = false ∧ (s.m.glb.mode ≠ .setup ∨ parkOrderOk v = false)) ∧
    (∃ (s : State), Runs s) ∧
    (∃ (s : State) (c : Nat), Runs s ∧
      (clusterEngines c).all (fun e => (s.m.engine e).parking && (s.m.engine e).cur.isNone) = true) ∧
    (∃ (s : State) (c : Nat), Runs s ∧
      (clusterEngines c).all (fun e => (s.m.engine e).parking && (s.m.engine e).cur.isNone) = false) ∧
    (∃ (s : State), Runs s) :=
  ⟨⟨st ({ printM with chn := { vote := .two, printed := 2000000 }, trv := { swath := [(kP, { tile := some tile0 })] } }),
    7, 0, 0, by decide +kernel⟩,
    ⟨st ({ printM with vgp := { job := printM.vgp.job, bad := [{ job := 7, layer := 0, plane := 0, block := 3, request := none, horizon := 1000, blank := false }] } }),
      7, 0, 0, 3, { job := 7, layer := 0, plane := 0, block := 3, request := none, horizon := 1000, blank := false },
      (st ({ printM with vgp := { job := printM.vgp.job, bad := [{ job := 7, layer := 0, plane := 0, block := 3, request := none, horizon := 1000, blank := false }] } })).m.job 7,
      (((st ({ printM with vgp := { job := printM.vgp.job, bad := [{ job := 7, layer := 0, plane := 0, block := 3, request := none, horizon := 1000, blank := false }] } })).m.job 7 : Job).stream 0 0).blocks.find? (fun c => c.row * ((st ({ printM with vgp := { job := printM.vgp.job, bad := [{ job := 7, layer := 0, plane := 0, block := 3, request := none, horizon := 1000, blank := false }] } })).m.job 7 : Job).blockCols 0 + c.col = 3),
      by decide +kernel⟩,
    ⟨st ({ printM with vgp := { job := printM.vgp.job, bad := [{ job := 7, layer := 0, plane := 0, block := 3, request := none, horizon := 1000, blank := false, repaired := true }] } }),
      7, 0, 0, 3, by decide +kernel⟩,
    ⟨st (pairM .backsight { state := .backsight }), by decide +kernel⟩,
    ⟨st (pairM .backsight { state := .backsight }), by decide +kernel⟩,
    ⟨st ({ glb := { mode := .setup, stage := 0, locked := true } }), by decide +kernel⟩,
    ⟨st (inM .setup), 0x73625184, by decide +kernel⟩,
    ⟨st (inM .setup), 0x11111111, by decide +kernel⟩,
    ⟨st ({ (inM .run).setFld Reg.TRV_PARK_REQ.host_steps 9 with trv := { thermalSteps := 2 } }), by decide +kernel⟩,
    ⟨st ({ inM .run with trv := { eng := (clusterEngines 9).map (fun e => (e, { parking := true, state := .busy })) } }),
      9, by decide +kernel⟩,
    ⟨st ({ inM .run with trv := { eng := (clusterEngines 9).map (fun e => (e, { parking := true, state := .busy, cur := some 3 })) } }),
      9, by decide +kernel⟩,
    ⟨st ({ inM .run with trv := { eng := [(72, { state := .waking }), (73, { state := .busy })] } }),
      by decide +kernel⟩⟩

theorem witness_LinesAreFetchedSentAndCommitted :
    (∃ (s : State) (j : Nat) (n : Nat) (hub : Nat), Runs s ∧ s.m.isBacksight = false ∧ (s.m.job j).hasLines = true ∧
      (s.m.jobHubs (s.m.job j)).contains hub = true ∧ (s.m.job j).prints n = true ∧ n = s.m.nextFetch j hub ∧
      s.m.fetchDue j n hub = true ∧ s.m.lineSkipped j n = false ∧ s.m.mirroring = false) ∧
    (∃ (s : State) (j : Nat) (n : Nat) (hub : Nat), Runs s ∧ s.m.fetchDue j n hub = false) ∧
    (∃ (s : State) (j : Nat) (n : Nat) (hub : Nat), Runs s ∧ s.m.hasFireLine (fireKey j n hub) = true ∧
      (s.m.fireLine (fireKey j n hub)).stage = .fetching ∧
      s.m.lineBefore j n hub (fun e => e.stage = .fetching) = false) ∧
    (∃ (s : State) (j : Nat) (n : Nat) (hub : Nat) (e : FireLine), Runs s ∧ s.m.hasFireLine (fireKey j n hub) = true ∧
      s.m.fireLine (fireKey j n hub) = e ∧ e.stage = .queued ∧ e.cause ≠ some 7 ∧
      s.m.lineBefore j n hub FireLine.unsent = false ∧ s.m.mirroring = false) ∧
    (∃ (s : State) (j : Nat) (n : Nat) (hub : Nat), Runs s ∧ s.m.hasFireLine (fireKey j n hub) = false) ∧
    (∃ (s : State) (j : Nat) (n : Nat) (hub : Nat), Runs s ∧ s.m.hasFireLine (fireKey j n hub) = false) ∧
    (∃ (s : State), Runs s ∧ s.m.isBacksight = true) ∧
    (∃ (s : State) (j : Nat) (n : Nat) (hub : Nat) (rows : Nat) (e : FireLine) (all : List RowSight) (lead : Nat) (slots : List Int) (due : List RowSight),
      Runs s ∧ lead = e.lead.getD (s.m.hubLead hub) ∧ s.m.isBacksight = false ∧ (s.m.job j).hasLines = true ∧
      (s.m.job j).prints n = true ∧ (s.m.jobHubs (s.m.job j)).contains hub = true ∧
      s.m.hasFireLine (fireKey j n hub) = true ∧ s.m.fireLine (fireKey j n hub) = e ∧ e.counted = false ∧
      e.stage = .sent ∧ all = s.m.openRows j n hub ∧
      slots = s.m.rowSlots hub lead (all.filter (fun d => bitAt rows (4 * d.1.1.slot + d.1.2) && s.m.commitDue lead d)) ∧
      due = all.filter (fun d => bitAt rows (4 * d.1.1.slot + d.1.2) && d.2.2 || s.m.commitDue lead d && slots.contains (s.m.rowSlot hub lead d)) ∧
      due ≠ [] ∧
      e.rows ||| rowsMask (due.map (fun d => d.1)) ≠ rowsMask (headRows (s.m.lineHeads (s.m.job j) hub))) :=
  ⟨⟨st ({ printM with trv := { swath := [(kP, { tile := some tile0, decided := .tile })] } }), 7, 0, 4,
    by decide +kernel⟩,
    ⟨st ({ printM with chn := { vote := .two, printed := 0x900000000000 } }), 7, 0, 4, by decide +kernel⟩,
    ⟨st (withLine { codes := [(0, List.replicate 16 1)] }), 7, 0, 4, by decide +kernel⟩,
    ⟨st (withLine { codes := [(0, List.replicate 16 1)], stage := .queued }), 7, 0, 4,
      (st (withLine { codes := [(0, List.replicate 16 1)], stage := .queued })).m.fireLine (fireKey 7 0 4),
      by decide +kernel⟩,
    ⟨st (printM), 7, 0, 4, by decide +kernel⟩,
    ⟨st (printM), 7, 0, 4, by decide +kernel⟩,
    ⟨st (pairM .backsight { state := .backsight }), by decide +kernel⟩,
    ⟨st ({ (printM.setFld (Reg.FGD_HD_CFG.rows_m1 0) 1).wr (Reg.FGD_HD_ROW 0 1) 50000 with fgd := { line := [(fkP, { stage := .sent, codes := [(0, List.replicate 16 1)] })], ext := [1000 * 65536, 999 * 65536] } }),
      7, 0, 4, 1,
      (st ({ (printM.setFld (Reg.FGD_HD_CFG.rows_m1 0) 1).wr (Reg.FGD_HD_ROW 0 1) 50000 with fgd := { line := [(fkP, { stage := .sent, codes := [(0, List.replicate 16 1)] })], ext := [1000 * 65536, 999 * 65536] } })).m.fireLine (fireKey 7 0 4),
      (st ({ (printM.setFld (Reg.FGD_HD_CFG.rows_m1 0) 1).wr (Reg.FGD_HD_ROW 0 1) 50000 with fgd := { line := [(fkP, { stage := .sent, codes := [(0, List.replicate 16 1)] })], ext := [1000 * 65536, 999 * 65536] } })).m.openRows 7 0 4,
      ((st ({ (printM.setFld (Reg.FGD_HD_CFG.rows_m1 0) 1).wr (Reg.FGD_HD_ROW 0 1) 50000 with fgd := { line := [(fkP, { stage := .sent, codes := [(0, List.replicate 16 1)] })], ext := [1000 * 65536, 999 * 65536] } })).m.fireLine (fireKey 7 0 4) : FireLine).lead.getD ((st ({ (printM.setFld (Reg.FGD_HD_CFG.rows_m1 0) 1).wr (Reg.FGD_HD_ROW 0 1) 50000 with fgd := { line := [(fkP, { stage := .sent, codes := [(0, List.replicate 16 1)] })], ext := [1000 * 65536, 999 * 65536] } })).m.hubLead 4),
      (st ({ (printM.setFld (Reg.FGD_HD_CFG.rows_m1 0) 1).wr (Reg.FGD_HD_ROW 0 1) 50000 with fgd := { line := [(fkP, { stage := .sent, codes := [(0, List.replicate 16 1)] })], ext := [1000 * 65536, 999 * 65536] } })).m.rowSlots 4 (((st ({ (printM.setFld (Reg.FGD_HD_CFG.rows_m1 0) 1).wr (Reg.FGD_HD_ROW 0 1) 50000 with fgd := { line := [(fkP, { stage := .sent, codes := [(0, List.replicate 16 1)] })], ext := [1000 * 65536, 999 * 65536] } })).m.fireLine (fireKey 7 0 4) : FireLine).lead.getD ((st ({ (printM.setFld (Reg.FGD_HD_CFG.rows_m1 0) 1).wr (Reg.FGD_HD_ROW 0 1) 50000 with fgd := { line := [(fkP, { stage := .sent, codes := [(0, List.replicate 16 1)] })], ext := [1000 * 65536, 999 * 65536] } })).m.hubLead 4)) (((st ({ (printM.setFld (Reg.FGD_HD_CFG.rows_m1 0) 1).wr (Reg.FGD_HD_ROW 0 1) 50000 with fgd := { line := [(fkP, { stage := .sent, codes := [(0, List.replicate 16 1)] })], ext := [1000 * 65536, 999 * 65536] } })).m.openRows 7 0 4 : List RowSight).filter (fun d => bitAt 1 (4 * d.1.1.slot + d.1.2) && (st ({ (printM.setFld (Reg.FGD_HD_CFG.rows_m1 0) 1).wr (Reg.FGD_HD_ROW 0 1) 50000 with fgd := { line := [(fkP, { stage := .sent, codes := [(0, List.replicate 16 1)] })], ext := [1000 * 65536, 999 * 65536] } })).m.commitDue (((st ({ (printM.setFld (Reg.FGD_HD_CFG.rows_m1 0) 1).wr (Reg.FGD_HD_ROW 0 1) 50000 with fgd := { line := [(fkP, { stage := .sent, codes := [(0, List.replicate 16 1)] })], ext := [1000 * 65536, 999 * 65536] } })).m.fireLine (fireKey 7 0 4) : FireLine).lead.getD ((st ({ (printM.setFld (Reg.FGD_HD_CFG.rows_m1 0) 1).wr (Reg.FGD_HD_ROW 0 1) 50000 with fgd := { line := [(fkP, { stage := .sent, codes := [(0, List.replicate 16 1)] })], ext := [1000 * 65536, 999 * 65536] } })).m.hubLead 4)) d)),
      ((st ({ (printM.setFld (Reg.FGD_HD_CFG.rows_m1 0) 1).wr (Reg.FGD_HD_ROW 0 1) 50000 with fgd := { line := [(fkP, { stage := .sent, codes := [(0, List.replicate 16 1)] })], ext := [1000 * 65536, 999 * 65536] } })).m.openRows 7 0 4 : List RowSight).filter (fun d => bitAt 1 (4 * d.1.1.slot + d.1.2) && d.2.2 || (st ({ (printM.setFld (Reg.FGD_HD_CFG.rows_m1 0) 1).wr (Reg.FGD_HD_ROW 0 1) 50000 with fgd := { line := [(fkP, { stage := .sent, codes := [(0, List.replicate 16 1)] })], ext := [1000 * 65536, 999 * 65536] } })).m.commitDue (((st ({ (printM.setFld (Reg.FGD_HD_CFG.rows_m1 0) 1).wr (Reg.FGD_HD_ROW 0 1) 50000 with fgd := { line := [(fkP, { stage := .sent, codes := [(0, List.replicate 16 1)] })], ext := [1000 * 65536, 999 * 65536] } })).m.fireLine (fireKey 7 0 4) : FireLine).lead.getD ((st ({ (printM.setFld (Reg.FGD_HD_CFG.rows_m1 0) 1).wr (Reg.FGD_HD_ROW 0 1) 50000 with fgd := { line := [(fkP, { stage := .sent, codes := [(0, List.replicate 16 1)] })], ext := [1000 * 65536, 999 * 65536] } })).m.hubLead 4)) d && ((st ({ (printM.setFld (Reg.FGD_HD_CFG.rows_m1 0) 1).wr (Reg.FGD_HD_ROW 0 1) 50000 with fgd := { line := [(fkP, { stage := .sent, codes := [(0, List.replicate 16 1)] })], ext := [1000 * 65536, 999 * 65536] } })).m.rowSlots 4 (((st ({ (printM.setFld (Reg.FGD_HD_CFG.rows_m1 0) 1).wr (Reg.FGD_HD_ROW 0 1) 50000 with fgd := { line := [(fkP, { stage := .sent, codes := [(0, List.replicate 16 1)] })], ext := [1000 * 65536, 999 * 65536] } })).m.fireLine (fireKey 7 0 4) : FireLine).lead.getD ((st ({ (printM.setFld (Reg.FGD_HD_CFG.rows_m1 0) 1).wr (Reg.FGD_HD_ROW 0 1) 50000 with fgd := { line := [(fkP, { stage := .sent, codes := [(0, List.replicate 16 1)] })], ext := [1000 * 65536, 999 * 65536] } })).m.hubLead 4)) (((st ({ (printM.setFld (Reg.FGD_HD_CFG.rows_m1 0) 1).wr (Reg.FGD_HD_ROW 0 1) 50000 with fgd := { line := [(fkP, { stage := .sent, codes := [(0, List.replicate 16 1)] })], ext := [1000 * 65536, 999 * 65536] } })).m.openRows 7 0 4 : List RowSight).filter (fun d => bitAt 1 (4 * d.1.1.slot + d.1.2) && (st ({ (printM.setFld (Reg.FGD_HD_CFG.rows_m1 0) 1).wr (Reg.FGD_HD_ROW 0 1) 50000 with fgd := { line := [(fkP, { stage := .sent, codes := [(0, List.replicate 16 1)] })], ext := [1000 * 65536, 999 * 65536] } })).m.commitDue (((st ({ (printM.setFld (Reg.FGD_HD_CFG.rows_m1 0) 1).wr (Reg.FGD_HD_ROW 0 1) 50000 with fgd := { line := [(fkP, { stage := .sent, codes := [(0, List.replicate 16 1)] })], ext := [1000 * 65536, 999 * 65536] } })).m.fireLine (fireKey 7 0 4) : FireLine).lead.getD ((st ({ (printM.setFld (Reg.FGD_HD_CFG.rows_m1 0) 1).wr (Reg.FGD_HD_ROW 0 1) 50000 with fgd := { line := [(fkP, { stage := .sent, codes := [(0, List.replicate 16 1)] })], ext := [1000 * 65536, 999 * 65536] } })).m.hubLead 4)) d)) : List Int).contains ((st ({ (printM.setFld (Reg.FGD_HD_CFG.rows_m1 0) 1).wr (Reg.FGD_HD_ROW 0 1) 50000 with fgd := { line := [(fkP, { stage := .sent, codes := [(0, List.replicate 16 1)] })], ext := [1000 * 65536, 999 * 65536] } })).m.rowSlot 4 (((st ({ (printM.setFld (Reg.FGD_HD_CFG.rows_m1 0) 1).wr (Reg.FGD_HD_ROW 0 1) 50000 with fgd := { line := [(fkP, { stage := .sent, codes := [(0, List.replicate 16 1)] })], ext := [1000 * 65536, 999 * 65536] } })).m.fireLine (fireKey 7 0 4) : FireLine).lead.getD ((st ({ (printM.setFld (Reg.FGD_HD_CFG.rows_m1 0) 1).wr (Reg.FGD_HD_ROW 0 1) 50000 with fgd := { line := [(fkP, { stage := .sent, codes := [(0, List.replicate 16 1)] })], ext := [1000 * 65536, 999 * 65536] } })).m.hubLead 4)) d)),
      by decide +kernel⟩⟩

theorem witness_HeadsAreWatched :
    (∃ (s : State) (b : Shift) (r : List Shift), Runs s ∧ s.m.fgd.shifts = b :: r ∧ b.down ≠ s.m.fgd.downActive ∧
      s.m.fgd.downPending = true ∧ (s.m.job b.job).hasLines = true ∧ chnAtOrAhead s.m.chainage b.chn = false) ∧
    (∃ (s : State) (b : Shift) (r : List Shift), Runs s ∧ s.m.fgd.shifts = b :: r ∧ b.down ≠ s.m.fgd.downActive ∧
      s.m.fgd.downPending = true ∧ (s.m.job b.job).hasLines = true ∧ chnAtOrAhead s.m.chainage b.chn = true) ∧
    (∃ (s : State) (b : Shift) (r : List Shift), Runs s ∧ s.m.fgd.shifts = b :: r ∧ b.down ≠ s.m.fgd.downActive ∧
      s.m.fgd.downPending = true ∧ (s.m.job b.job).hasLines = false) ∧
    (∃ (s : State), Runs s ∧ s.m.fgd.downPending = false) ∧
    (∃ (s : State) (h : Nat), Runs s ∧ s.m.headEn h = true ∧ s.m.headStale h = true ∧
      (s.m.headState h).staleRaised = false) ∧
    (∃ (s : State) (h : Nat), Runs s ∧ s.m.headEn h = true ∧ s.m.headStale h = true ∧
      (s.m.headState h).staleRaised = true) ∧
    (∃ (s : State) (u : Mach), Runs s ∧ s.m.flag Reg.FGD_USAGE_CFG.en = true ∧ s.m.isBacksight = false ∧
      (s.m.fgd.usageOwed ≠ 0 ∨ s.m.usagePeriod = true) ∧
      u = { s.m with fgd := { s.m.fgd with usageOwed := s.m.fgd.usageOwed - 1, usageTick := if s.m.fgd.usageOwed = 0 then s.m.now else s.m.fgd.usageTick } } ∧
      s.m.usageKey.isEmpty = true ∧ s.m.fgd.noKeyRaised = true) ∧
    (∃ (s : State) (u : Mach), Runs s ∧ s.m.flag Reg.FGD_USAGE_CFG.en = true ∧ s.m.isBacksight = false ∧
      (s.m.fgd.usageOwed ≠ 0 ∨ s.m.usagePeriod = true) ∧
      u = { s.m with fgd := { s.m.fgd with usageOwed := s.m.fgd.usageOwed - 1, usageTick := if s.m.fgd.usageOwed = 0 then s.m.now else s.m.fgd.usageTick } } ∧
      s.m.usageKey.isEmpty = true ∧ s.m.fgd.noKeyRaised = false) ∧
    (∃ (s : State) (u : Mach), Runs s ∧ s.m.flag Reg.FGD_USAGE_CFG.en = true ∧ s.m.isBacksight = false ∧
      (s.m.fgd.usageOwed ≠ 0 ∨ s.m.usagePeriod = true) ∧
      u = { s.m with fgd := { s.m.fgd with usageOwed := s.m.fgd.usageOwed - 1, usageTick := if s.m.fgd.usageOwed = 0 then s.m.now else s.m.fgd.usageTick } } ∧
      s.m.usageKey.isEmpty = false) ∧
    (∃ (s : State), Runs s ∧ (s.m.flag Reg.FGD_USAGE_CFG.en = false ∨ s.m.isBacksight = true ∨ s.m.fgd.usageOwed = 0 ∧
      s.m.usagePeriod = false)) ∧
    (∃ (s : State) (h : Nat) (x : Head), Runs s ∧ s.m.headState h = x ∧ (∀ w ∈ x.usagePend,
      s.m.now < w.tick + ticks10ms)) ∧
    (∃ (s : State) (h : Nat) (w : UsageWrite) (x : Head) (r : Mach × List Nat), Runs s ∧ s.m.headState h = x ∧
      x.usagePend.find? (fun w => decide (w.tick + ticks10ms ≤ s.m.now)) = some w ∧
      r = s.m.usageSend (s.m.headRec h) w.data ∧ w.tries < 2) ∧
    (∃ (s : State) (h : Nat) (w : UsageWrite) (x : Head) (r : Mach × List Nat), Runs s ∧ s.m.headState h = x ∧
      x.usagePend.find? (fun w => decide (w.tick + ticks10ms ≤ s.m.now)) = some w ∧
      r = s.m.usageSend (s.m.headRec h) w.data ∧ 2 ≤ w.tries) :=
  ⟨⟨st ({ printM with fgd := { downPending := true, shifts := [{ job := 7, line := 500000, chn := 50000000, down := true }] } }),
    { job := 7, line := 500000, chn := 50000000, down := true }, [], by decide +kernel⟩,
    ⟨st ({ printM with fgd := { downPending := true, shifts := [{ job := 7, line := 0, chn := 1, down := true }] } }),
      { job := 7, line := 0, chn := 1, down := true }, [], by decide +kernel⟩,
    ⟨st ({ printM with fgd := { downPending := true, shifts := [{ job := 6, line := 0, chn := 1, down := true }] } }),
      { job := 6, line := 0, chn := 1, down := true }, [], by decide +kernel⟩,
    ⟨st ({ printM with fgd := { shifts := [{ job := 6, line := 0, chn := 1, down := true }] } }), by decide +kernel⟩,
    ⟨st (printM), 0, by decide +kernel⟩,
    ⟨st ({ printM with fgd := { head := [(0, { staleRaised := true })] } }), 0, by decide +kernel⟩,
    ⟨st ({ printM.setFld Reg.FGD_USAGE_CFG.en 1 with fgd := { noKeyRaised := true, usageOwed := 1 } }),
      { (st ({ printM.setFld Reg.FGD_USAGE_CFG.en 1 with fgd := { noKeyRaised := true, usageOwed := 1 } })).m with fgd := { (st ({ printM.setFld Reg.FGD_USAGE_CFG.en 1 with fgd := { noKeyRaised := true, usageOwed := 1 } })).m.fgd with usageOwed := (st ({ printM.setFld Reg.FGD_USAGE_CFG.en 1 with fgd := { noKeyRaised := true, usageOwed := 1 } })).m.fgd.usageOwed - 1, usageTick := if (st ({ printM.setFld Reg.FGD_USAGE_CFG.en 1 with fgd := { noKeyRaised := true, usageOwed := 1 } })).m.fgd.usageOwed = 0 then (st ({ printM.setFld Reg.FGD_USAGE_CFG.en 1 with fgd := { noKeyRaised := true, usageOwed := 1 } })).m.now else (st ({ printM.setFld Reg.FGD_USAGE_CFG.en 1 with fgd := { noKeyRaised := true, usageOwed := 1 } })).m.fgd.usageTick } },
      by refine ⟨?_, ?_, ?_, ?_, ?_, ?_, ?_⟩ <;> first | decide +kernel | rfl⟩,
    ⟨st ({ printM.setFld Reg.FGD_USAGE_CFG.en 1 with fgd := { usageOwed := 2 } }),
      { (st ({ printM.setFld Reg.FGD_USAGE_CFG.en 1 with fgd := { usageOwed := 2 } })).m with fgd := { (st ({ printM.setFld Reg.FGD_USAGE_CFG.en 1 with fgd := { usageOwed := 2 } })).m.fgd with usageOwed := (st ({ printM.setFld Reg.FGD_USAGE_CFG.en 1 with fgd := { usageOwed := 2 } })).m.fgd.usageOwed - 1, usageTick := if (st ({ printM.setFld Reg.FGD_USAGE_CFG.en 1 with fgd := { usageOwed := 2 } })).m.fgd.usageOwed = 0 then (st ({ printM.setFld Reg.FGD_USAGE_CFG.en 1 with fgd := { usageOwed := 2 } })).m.now else (st ({ printM.setFld Reg.FGD_USAGE_CFG.en 1 with fgd := { usageOwed := 2 } })).m.fgd.usageTick } },
      by refine ⟨?_, ?_, ?_, ?_, ?_, ?_, ?_⟩ <;> first | decide +kernel | rfl⟩,
    ⟨st ({ (printM.setFld Reg.FGD_USAGE_CFG.en 1).setFld (Reg.FGD_HD_USTAT.serial_valid 0) 1 with nand := { keys := [(0, [1, 2, 3])] }, fgd := { usageOwed := 1 } }),
      { (st ({ (printM.setFld Reg.FGD_USAGE_CFG.en 1).setFld (Reg.FGD_HD_USTAT.serial_valid 0) 1 with nand := { keys := [(0, [1, 2, 3])] }, fgd := { usageOwed := 1 } })).m with fgd := { (st ({ (printM.setFld Reg.FGD_USAGE_CFG.en 1).setFld (Reg.FGD_HD_USTAT.serial_valid 0) 1 with nand := { keys := [(0, [1, 2, 3])] }, fgd := { usageOwed := 1 } })).m.fgd with usageOwed := (st ({ (printM.setFld Reg.FGD_USAGE_CFG.en 1).setFld (Reg.FGD_HD_USTAT.serial_valid 0) 1 with nand := { keys := [(0, [1, 2, 3])] }, fgd := { usageOwed := 1 } })).m.fgd.usageOwed - 1, usageTick := if (st ({ (printM.setFld Reg.FGD_USAGE_CFG.en 1).setFld (Reg.FGD_HD_USTAT.serial_valid 0) 1 with nand := { keys := [(0, [1, 2, 3])] }, fgd := { usageOwed := 1 } })).m.fgd.usageOwed = 0 then (st ({ (printM.setFld Reg.FGD_USAGE_CFG.en 1).setFld (Reg.FGD_HD_USTAT.serial_valid 0) 1 with nand := { keys := [(0, [1, 2, 3])] }, fgd := { usageOwed := 1 } })).m.now else (st ({ (printM.setFld Reg.FGD_USAGE_CFG.en 1).setFld (Reg.FGD_HD_USTAT.serial_valid 0) 1 with nand := { keys := [(0, [1, 2, 3])] }, fgd := { usageOwed := 1 } })).m.fgd.usageTick } },
      by refine ⟨?_, ?_, ?_, ?_, ?_, ?_⟩ <;> first | decide +kernel | rfl⟩,
    ⟨st ({ printM.setFld Reg.FGD_USAGE_CFG.en 1 with dtm := { ticks := 499999999 } }), by decide +kernel⟩,
    ⟨st ({ printM with fgd := { head := [(0, { usagePend := [{ data := [1], tries := 1, tick := 0, ids := [] }] })] }, dtm := { ticks := 4999999 } }),
      0,
      (st ({ printM with fgd := { head := [(0, { usagePend := [{ data := [1], tries := 1, tick := 0, ids := [] }] })] }, dtm := { ticks := 4999999 } })).m.headState 0,
      by decide +kernel⟩,
    ⟨st ({ printM with fgd := { head := [(0, { usagePend := [{ data := [1], tries := 1, tick := 0, ids := [] }] })] }, dtm := { ticks := 5000000 } }),
      0, { data := [1], tries := 1, tick := 0, ids := [] },
      (st ({ printM with fgd := { head := [(0, { usagePend := [{ data := [1], tries := 1, tick := 0, ids := [] }] })] }, dtm := { ticks := 5000000 } })).m.headState 0,
      (st ({ printM with fgd := { head := [(0, { usagePend := [{ data := [1], tries := 1, tick := 0, ids := [] }] })] }, dtm := { ticks := 5000000 } })).m.usageSend ((st ({ printM with fgd := { head := [(0, { usagePend := [{ data := [1], tries := 1, tick := 0, ids := [] }] })] }, dtm := { ticks := 5000000 } })).m.headRec 0) ({ data := [1], tries := 1, tick := 0, ids := [] } : UsageWrite).data,
      by refine ⟨?_, ?_, ?_, ?_, ?_⟩ <;> first | decide +kernel | rfl⟩,
    ⟨st ({ printM with fgd := { head := [(0, { usagePend := [{ data := [1], tries := 2, tick := 0, ids := [] }, { data := [2], tries := 0, tick := 5000000, ids := [] }] })] }, dtm := { ticks := 5000000 } }),
      0, { data := [1], tries := 2, tick := 0, ids := [] },
      (st ({ printM with fgd := { head := [(0, { usagePend := [{ data := [1], tries := 2, tick := 0, ids := [] }, { data := [2], tries := 0, tick := 5000000, ids := [] }] })] }, dtm := { ticks := 5000000 } })).m.headState 0,
      (st ({ printM with fgd := { head := [(0, { usagePend := [{ data := [1], tries := 2, tick := 0, ids := [] }, { data := [2], tries := 0, tick := 5000000, ids := [] }] })] }, dtm := { ticks := 5000000 } })).m.usageSend ((st ({ printM with fgd := { head := [(0, { usagePend := [{ data := [1], tries := 2, tick := 0, ids := [] }, { data := [2], tries := 0, tick := 5000000, ids := [] }] })] }, dtm := { ticks := 5000000 } })).m.headRec 0) ({ data := [1], tries := 2, tick := 0, ids := [] } : UsageWrite).data,
      by refine ⟨?_, ?_, ?_, ?_, ?_⟩ <;> first | decide +kernel | rfl⟩⟩

theorem witness_LanesTrain :
    (∃ (s : State) (n : Nat) (x : Lane), Runs s ∧ s.m.lane n = x ∧ (x.state = .lock ∨ x.state = .align) ∧
      s.m.skx.silent = false) ∧
    (∃ (s : State) (n : Nat) (x : Lane), Runs s ∧ s.m.lane n = x ∧ (x.state = .lock ∨ x.state = .align) ∧
      s.m.skx.silent = false) ∧
    (∃ (s : State) (n : Nat) (t : T2F), Runs s ∧ (s.m.lane n).state ≠ .off ∧ t.bad = true) ∧
    (∃ (s : State) (n : Nat), Runs s ∧ (s.m.lane n).state ≠ .off) ∧
    (∃ (s : State) (n : Nat), Runs s ∧ (s.m.lane n).state ≠ .off) ∧
    (∃ (s : State) (n : Nat) (t : T2F) (x : Lane), Runs s ∧ s.m.lane n = x ∧ x.state = .handshake ∧ t.bad = false ∧
      t.what = 2 ∧ t.seq = x.tSeq) ∧
    (∃ (s : State) (n : Nat) (x : Lane), Runs s ∧ s.m.lane n = x ∧ x.state = .measure ∧ s.m.ptn.state ≠ .pairing) ∧
    (∃ (s : State) (n : Nat) (h : Nat) (x : Lane), Runs s ∧ s.m.lane n = x ∧ x.state = .caps ∧
      s.m.hubOfLane n = some h ∧ (s.m.hub (s.m.capsHub n)).reqs.any (CtrlReq.capsOf n) = false) ∧
    (∃ (s : State) (n : Nat) (x : Lane), Runs s ∧ s.m.lane n = x ∧ x.state = .caps ∧ s.m.hubOfLane n = none ∧
      (s.m.hub (s.m.capsHub n)).reqs.any (CtrlReq.capsOf n) = false) ∧
    (∃ (s : State) (n : Nat) (limit : Nat) (x : Lane), Runs s ∧ s.m.lane n = x ∧ s.m.skx.silent = false ∧
      ((x.state = .lock ∨ x.state = .align) ∧ limit = 250000 ∨ x.state = .handshake ∧ limit = 100000) ∧
      s.m.now < x.since + limit) ∧
    (∃ (s : State) (n : Nat) (limit : Nat) (x : Lane), Runs s ∧ s.m.lane n = x ∧ s.m.skx.silent = false ∧
      ((x.state = .lock ∨ x.state = .align) ∧ limit = 250000 ∨ x.state = .handshake ∧ limit = 100000) ∧
      x.since + limit ≤ s.m.now) ∧
    (∃ (s : State) (n : Nat) (x : Lane), Runs s ∧ s.m.lane n = x ∧ x.state = .up) ∧
    (∃ (s : State) (n : Nat) (x : Lane), Runs s ∧ s.m.lane n = x ∧ x.state = .up) ∧
    (∃ (s : State) (n : Nat) (x : Lane), Runs s ∧ n < 40 ∧ s.m.lane n = x ∧ s.m.fld (Reg.SKX_L_CFG.en n) ≠ 0 ∧
      x.state ≠ .cal) ∧
    (∃ (s : State) (n : Nat) (x : Lane), Runs s ∧ n < 40 ∧ s.m.lane n = x ∧ x.state = .failed ∧ x.full = false ∧
      s.m.now < x.since + 5000000) ∧
    (∃ (s : State) (n : Nat) (x : Lane), Runs s ∧ n < 40 ∧ s.m.lane n = x ∧ x.state = .failed ∧ x.full = false ∧
      x.since + 5000000 ≤ s.m.now) :=
  ⟨⟨st ({ inM .run with skx := { lane := [(3, { state := .lock })] } }), 3, ({ state := .lock } : Lane),
    by decide +kernel⟩,
    ⟨st ({ inM .run with skx := { lane := [(3, { state := .lock })] } }), 3, ({ state := .lock } : Lane),
      by decide +kernel⟩,
    ⟨st ({ inM .run with skx := { lane := [(3, { state := .handshake, rate := 2 })] } }), 3,
      { rate := 255, port := 1, seq := 0, hash := 7, bad := true }, by decide +kernel⟩,
    ⟨st ({ inM .run with skx := { lane := [(3, { state := .handshake, rate := 2 })] } }), 3, by decide +kernel⟩,
    ⟨st ({ inM .run with skx := { lane := [(3, { state := .handshake, rate := 2 })] } }), 3, by decide +kernel⟩,
    ⟨st ({ inM .run with skx := { lane := [(3, { state := .handshake, rate := 2 })] } }), 3,
      { rate := 255, port := 1, seq := 0, hash := 7 }, ({ state := .handshake, rate := 2 } : Lane),
      by decide +kernel⟩,
    ⟨st ({ inM .run with skx := { lane := [(3, { state := .measure, loops := List.replicate 63 9 })] } }), 3,
      ({ state := .measure, loops := List.replicate 63 9 } : Lane), by decide +kernel⟩,
    ⟨st ({ regP (inM .run) with skx := { lane := [(4, { state := .caps, t2Hash := 9 })] } }), 4, 4,
      ({ state := .caps, t2Hash := 9 } : Lane), by decide +kernel⟩,
    ⟨st ({ inM .run with skx := { lane := [(5, { state := .caps, t2Hash := 9 })] } }), 5,
      ({ state := .caps, t2Hash := 9 } : Lane), by decide +kernel⟩,
    ⟨st ({ inM .run with dtm := { ticks := 300000 }, skx := { lane := [(3, { state := .align, rate := 0, since := 60000 })] } }),
      3, 250000, ({ state := .align, rate := 0, since := 60000 } : Lane), by decide +kernel⟩,
    ⟨st ({ inM .run with dtm := { ticks := 300000 }, skx := { lane := [(3, { state := .handshake, rate := 2, full := true, since := 200000 })] } }),
      3, 100000, ({ state := .handshake, rate := 2, full := true, since := 200000 } : Lane), by decide +kernel⟩,
    ⟨st ({ inM .run with skx := { lane := [(3, { state := .up })] } }), 3, ({ state := .up } : Lane),
      by decide +kernel⟩,
    ⟨st ({ inM .run with skx := { lane := [(3, { state := .up })] } }), 3, ({ state := .up } : Lane),
      by decide +kernel⟩,
    ⟨st (regP (((inM .run).setFld (Reg.SKX_L_CFG.en 3) 1))), 3, ({ state := .off } : Lane), by decide +kernel⟩,
    ⟨st ({ inM .run with dtm := { ticks := 5000006 }, skx := { lane := [(3, { state := .failed, full := false, since := 7 })] } }),
      3, ({ state := .failed, full := false, since := 7 } : Lane), by decide +kernel⟩,
    ⟨st ({ inM .run with dtm := { ticks := 5000007 }, skx := { lane := [(3, { state := .failed, full := false, since := 7 })] } }),
      3, ({ state := .failed, full := false, since := 7 } : Lane), by decide +kernel⟩⟩

theorem witness_HubsAnswerAndLanesAreServed :
    (∃ (s : State) (e : EchoF), Runs s ∧ e.bad = true) ∧
    (∃ (s : State) (t : HubTlmF), Runs s ∧ t.bad = true) ∧
    (∃ (s : State) (r : CtrlReplyF), Runs s ∧ r.bad = true ∧ r.lane = none) ∧
    (∃ (s : State) (hub : Nat) (k : Nat) (e : EchoF) (l : FireLine), Runs s ∧ s.m.isBacksight = false ∧
      e.bad = false ∧ e.status = 0 ∧ s.m.echoLine hub e.tag = some k ∧ s.m.fireLine k = l ∧ l.line = e.lineCrc ∧
      l.hdr = e.hdrCrc) ∧
    (∃ (s : State) (hub : Nat) (k : Nat) (e : EchoF) (l : FireLine), Runs s ∧ s.m.isBacksight = false ∧
      e.bad = false ∧ e.status = 0 ∧ s.m.echoLine hub e.tag = some k ∧ s.m.fireLine k = l ∧ l.line ≠ e.lineCrc ∧
      l.resent = true) ∧
    (∃ (s : State) (hub : Nat) (e : EchoF) (lc : Word) (hc : Word), Runs s ∧ s.m.isBacksight = true ∧ e.bad = false ∧
      s.m.ptn.echoRefs.find? (fun r => r.1 = hub && r.2.1 = e.tag) = some (hub, e.tag, lc, hc)) ∧
    (∃ (s : State) (j : Nat) (n : Nat) (hub : Nat) (l : FireLine), Runs s ∧ s.m.fireLine (fireKey j n hub) = l ∧
      l.stage = .sent ∧ l.echoed = false ∧ s.m.now < l.sentAt + 25000) ∧
    (∃ (s : State) (j : Nat) (n : Nat) (hub : Nat) (l : FireLine), Runs s ∧ s.m.fireLine (fireKey j n hub) = l ∧
      l.stage = .sent ∧ l.echoed = false ∧ l.sentAt + 25000 ≤ s.m.now) ∧
    (∃ (s : State) (hub : Nat) (r : CtrlReplyF) (x : Hub), Runs s ∧ s.m.hub hub = x ∧ r.lane = none ∧ r.bad = false ∧
      x.reqs.find? (fun q => q.id = r.id && q.slot = r.slot) = none) ∧
    (∃ (s : State) (hub : Nat) (r : CtrlReplyF) (x : Hub) (q : CtrlReq), Runs s ∧ s.m.hub hub = x ∧ r.lane = none ∧
      r.bad = false ∧ x.reqs.find? (fun q => q.id = r.id && q.slot = r.slot) = some q ∧ r.status = 0 ∧
      q.use = .caps) ∧
    (∃ (s : State) (hub : Nat) (r : CtrlReplyF) (x : Hub) (q : CtrlReq) (h : HeadRec), Runs s ∧ s.m.hub hub = x ∧
      r.lane = none ∧ r.bad = false ∧ x.reqs.find? (fun q => q.id = r.id && q.slot = r.slot) = some q ∧ r.status = 0 ∧
      q.use = .usageWrite ∧ (s.m.hubHeads hub).find? (fun h => h.slot = q.slot) = some h) ∧
    (∃ (s : State) (hub : Nat) (t : HubTlmF), Runs s ∧ hub < 40 ∧ t.bad = false) ∧
    (∃ (s : State) (n : Nat) (fom : Nat) (w : LaneMs) (x : Lane), Runs s ∧ fom = w.fom ∧ s.m.lane n = x ∧
      x.state ≠ .off ∧ (∀ t, x.fomTick = some t → t + 500000 ≤ s.m.now)) ∧
    (∃ (s : State), Runs s) ∧
    (∃ (s : State), Runs s ∧ s.m.glb.mode ≠ .boot) ∧
    (∃ (s : State), Runs s ∧ s.m.glb.mode = .boot) ∧
    (∃ (s : State), Runs s ∧ (∀ n < 40, s.m.laneBeatDue n = false) ∧
      (s.m.ptn.state = .solo ∨ s.m.ptn.state = .pairing ∨ s.m.skx.silent = true ∨ s.m.now < s.m.lastBeat .heart + 50000)) ∧
    (∃ (s : State), Runs s ∧ s.m.lastBeat .loop + 5000000 ≤ s.m.now) ∧
    (∃ (s : State) (n : Nat) (h : Nat), Runs s ∧ n < 40 ∧ s.m.hubOfLane n = some h ∧
      5 * (s.m.now + 1) ≤ (s.m.lane n).sDue) ∧
    (∃ (s : State) (n : Nat) (h : Nat), Runs s ∧ n < 40 ∧ s.m.hubOfLane n = some h ∧
      (s.m.lane n).sDue < 5 * (s.m.now + 1)) ∧
    (∃ (s : State) (hub : Nat) (t : Nat), Runs s ∧ (s.m.hub hub).darkSince = some t ∧ s.m.isBacksight = false ∧
      s.m.lineJobs.any (fun j => (s.m.job j).state = .printing && (s.m.hubHeads hub).any (fun h => (s.m.job j).hasPlane h.plane)) = true ∧
      (s.m.hub hub).darkDone = true) ∧
    (∃ (s : State) (hub : Nat) (t : Nat), Runs s ∧ (s.m.hub hub).darkSince = some t ∧ s.m.isBacksight = false ∧
      s.m.lineJobs.any (fun j => (s.m.job j).state = .printing && (s.m.hubHeads hub).any (fun h => (s.m.job j).hasPlane h.plane)) = true ∧
      (s.m.hub hub).darkDone = false ∧ t + s.m.fld Reg.SKX_CFG.dark_ms * 500000 < s.m.now ∧
      s.m.fld Reg.SKX_CFG.dark_policy = 0) ∧
    (∃ (s : State), Runs s ∧ s.m.glb.mode ≠ .setup ∧ s.m.glb.mode ≠ .ready) ∧
    (∃ (s : State), Runs s ∧ (s.m.glb.mode = .setup ∨ s.m.glb.mode = .ready)) :=
  ⟨⟨st (withLine { stage := .sent, line := 5, hdr := 6 }),
    { tag := 0, status := 0, port := 0, lineCrc := 5, hdrCrc := 6, bad := true }, by decide +kernel⟩,
    ⟨st (withLine { stage := .sent, line := 5, hdr := 6 }),
      { seq := 1, fom := 1, master := true, inLock := true, noline := 2, fireBad := 0, refused := 0, slots := [], bad := true },
      by decide +kernel⟩,
    ⟨st (withLine { stage := .sent, line := 5, hdr := 6 }),
      { id := 3, status := 0, space := 0, slot := 0, data := [], bad := true }, by decide +kernel⟩,
    ⟨st (withLine { stage := .sent, line := 5, hdr := 6 }), 4, fkP,
      { tag := 0, status := 0, port := 0, lineCrc := 5, hdrCrc := 6 },
      ({ stage := .sent, line := 5, hdr := 6 } : FireLine), by decide +kernel⟩,
    ⟨st (withLine { stage := .sent, line := 5, hdr := 6, resent := true }), 4, fkP,
      { tag := 0, status := 0, port := 0, lineCrc := 4, hdrCrc := 6 },
      ({ stage := .sent, line := 5, hdr := 6, resent := true } : FireLine), by decide +kernel⟩,
    ⟨st (pairM .backsight { state := .backsight, echoRefs := [(4, 9, 5, 6)] }), 4,
      { tag := 9, status := 0, port := 0, lineCrc := 5, hdrCrc := 6 }, 5, 6, by decide +kernel⟩,
    ⟨st (withLine { stage := .sent, sentAt := 1 }), 7, 0, 4, ({ stage := .sent, sentAt := 1 } : FireLine),
      by decide +kernel⟩,
    ⟨st ({ withLine { stage := .sent } with dtm := { ticks := 25000 } }), 7, 0, 4, ({ stage := .sent } : FireLine),
      by decide +kernel⟩,
    ⟨st ({ inM .run with skx := { hub := [(4, {})] } }), 4,
      { id := 3, status := 0, space := 0, slot := 0, data := [] }, ({} : Hub), by decide +kernel⟩,
    ⟨st ({ inM .run with skx := { hub := [(4, { reqs := [{ id := 3, use := .caps, lane := 4, slot := 0 }] })] } }), 4,
      { id := 3, status := 0, space := 0, slot := 0, data := [1, 2] },
      ({ reqs := [{ id := 3, use := .caps, lane := 4, slot := 0 }] } : Hub),
      { id := 3, use := .caps, lane := 4, slot := 0 }, by decide +kernel⟩,
    ⟨st ({ printM with skx := { hub := [(4, { reqs := [{ id := 3, use := .usageWrite, lane := 4, slot := 0 }] })] }, fgd := { head := [(0, { usagePend := [{ data := [5], tries := 1, tick := 0, ids := [2, 3] }, { data := [6], tries := 0, tick := 0, ids := [4] }] })] } }),
      4, { id := 3, status := 0, space := 2, slot := 0, data := [] },
      ({ reqs := [{ id := 3, use := .usageWrite, lane := 4, slot := 0 }] } : Hub),
      { id := 3, use := .usageWrite, lane := 4, slot := 0 }, hd4, by decide +kernel⟩,
    ⟨st (printM), 4,
      { seq := 1, fom := 1, master := true, inLock := true, noline := 2, fireBad := 0, refused := 0, slots := [{ temp := 40, vhead := 7, valid := true, present := true, weak := 1 }] },
      by decide +kernel⟩,
    ⟨st ({ inM .run with dtm := { ticks := 600000 }, skx := { lane := [(3, { state := .up, fom := 110, fomTick := some 100000, foms := [(100000, 110)] })] } }),
      3, 70, { fom := 70, invalid := 2, skips := 3 },
      ({ state := .up, fom := 110, fomTick := some 100000, foms := [(100000, 110)] } : Lane), by decide +kernel⟩,
    ⟨st ({ inM .run with skx := { lane := [(3, { state := .up, aSeq := 255, aDue := 4 })] } }), by decide +kernel⟩,
    ⟨st ({ inM .run with dtm := { ticks := 50000 }, skx := { lane := [(3, { state := .up, hbSeq := 255, hbAt := some 0 }), (4, { state := .up, hbSeq := 2, hbAt := some 1 })] } }),
      by decide +kernel⟩,
    ⟨st ({ inM .boot with skx := { lane := [(3, { state := .up, hbSeq := 255 })] } }), by decide +kernel⟩,
    ⟨st ({ inM .run with dtm := { ticks := 99999 }, skx := { lane := [(3, { state := .up, hbSeq := 255, hbAt := some 50000 })] } }),
      by decide +kernel⟩,
    ⟨st ({ inM .run with dtm := { ticks := 5000000 }, skx := { lane := [(3, { state := .up, loopNum := 255 })] } }),
      by decide +kernel⟩,
    ⟨st ({ printM with skx := { printM.skx with lane := [(4, { state := .up, rate := 2, sDue := 5 })] } }), 4, 4,
      by decide +kernel⟩,
    ⟨st (printM), 4, 4, by decide +kernel⟩,
    ⟨st ({ printM with skx := { hub := [(4, { darkSince := some 3, darkDone := true })] } }), 4, 3,
      by decide +kernel⟩,
    ⟨st ({ printM.setFld Reg.SKX_CFG.dark_policy 0 with dtm := { ticks := 900000000 }, skx := { hub := [(4, { darkSince := some 3 })] } }),
      4, 3, by decide +kernel⟩,
    ⟨st (inM .run), by decide +kernel⟩,
    ⟨st (inM .setup), by decide +kernel⟩⟩

theorem witness_CameraDevicesComeUp :
    (∃ (s : State), Runs s ∧ s.m.glb.locked = true) ∧
    (∃ (s : State), Runs s ∧ s.m.glb.locked = false ∧ s.m.glb.mode ≠ .setup) ∧
    (∃ (s : State), Runs s ∧ s.m.glb.locked = false ∧ s.m.glb.mode = .setup) ∧
    (∃ (s : State) (d : Nat), Runs s ∧ s.m.devEn d = true ∧ (s.m.dev d).state = .failed ∧ (s.m.dev d).cause ≠ 5 ∧
      (s.m.dev d).since + 500000000 ≤ s.m.now) ∧
    (∃ (s : State) (d : Nat), Runs s ∧ ((s.m.dev d).cause = 5 ∨ s.m.now < (s.m.dev d).since + 500000000)) ∧
    (∃ (s : State) (d : Nat) (cause : Nat), Runs s ∧ (s.m.dev d).state = .discovery ∧ cause ≤ 4) ∧
    (∃ (s : State) (k : Nat) (d : Nat), Runs s ∧ s.m.connDev k = some d ∧ (s.m.dev d).state = .up) ∧
    (∃ (s : State) (k : Nat) (d : Nat), Runs s ∧ s.m.connDev k = some d ∧ (s.m.dev d).lost.contains k = false) ∧
    (∃ (s : State) (k : Nat) (d : Nat), Runs s ∧ s.m.connDev k = some d ∧ (s.m.dev d).lost.contains k = true ∧
      (s.m.dev d).state = .down) ∧
    (∃ (s : State) (k : Nat) (d : Nat), Runs s ∧ s.m.connDev k = some d) ∧
    (∃ (s : State) (k : Nat), Runs s ∧ s.m.connDev k = none) ∧
    (∃ (s : State) (k : Nat), Runs s ∧ s.m.connDev k = none) ∧
    (∃ (s : State) (k : Nat), Runs s ∧ s.m.connDev k = none) ∧
    (∃ (s : State) (d : Nat), Runs s ∧ s.m.cam.mbx = none ∧ d = s.m.fld Reg.CAM_MBX_CMD.device ∧
      (s.m.dev d).state ≠ .up) ∧
    (∃ (s : State) (d : Nat), Runs s ∧ s.m.cam.mbx = none ∧ d = s.m.fld Reg.CAM_MBX_CMD.device ∧
      (s.m.dev d).state ≠ .up) ∧
    (∃ (s : State) (d : Nat), Runs s ∧ s.m.cam.mbx = none ∧ d = s.m.fld Reg.CAM_MBX_CMD.device ∧
      (s.m.dev d).state = .up) ∧
    (∃ (s : State) (d : Nat), Runs s ∧ s.m.cam.mbx = none ∧ d = s.m.fld Reg.CAM_MBX_CMD.device ∧
      (s.m.dev d).state = .up) ∧
    (∃ (s : State) (x : Mailbox), Runs s ∧ s.m.cam.mbx = some x) :=
  ⟨⟨st ({ inM .setup with glb := { mode := .setup, stage := 0, locked := true } }), by decide +kernel⟩,
    ⟨st (inM .run), by decide +kernel⟩,
    ⟨st (inM .setup), by decide +kernel⟩,
    ⟨st ({ (inM .run).setFld (Reg.CAM_D_CFG.en 1) 1 with dtm := { ticks := 500000007 }, cam := { dev := [(1, { state := .failed, cause := 2, since := 7 })] } }),
      1, by decide +kernel⟩,
    ⟨st ({ (inM .run).setFld (Reg.CAM_D_CFG.en 1) 1 with cam := { dev := [(1, { state := .failed, cause := 5 })] } }),
      1, by decide +kernel⟩,
    ⟨st ({ (inM .run).setFld (Reg.CAM_D_CFG.en 1) 1 with cam := { dev := [(1, { state := .discovery })] } }), 1, 4,
      by decide +kernel⟩,
    ⟨st ({ (inM .run).setFld (Reg.CAM_D_CFG.en 1) 1 with cam := { dev := [(1, { state := .up })] } }), 0, 1,
      by decide +kernel⟩,
    ⟨st ({ (inM .run).setFld (Reg.CAM_D_CFG.en 1) 1 with cam := { dev := [(1, { state := .up })] } }), 0, 1,
      by decide +kernel⟩,
    ⟨st ({ (inM .run).setFld (Reg.CAM_D_CFG.en 1) 1 with cam := { dev := [(1, { state := .down, lost := [0] })] } }),
      0, 1, by decide +kernel⟩,
    ⟨st ({ (inM .run).setFld (Reg.CAM_D_CFG.en 1) 1 with cam := { dev := [(1, { state := .down, lost := [0] })] } }),
      0, 1, by decide +kernel⟩,
    ⟨st (inM .run), 5, by decide +kernel⟩,
    ⟨st (inM .run), 5, by decide +kernel⟩,
    ⟨st (inM .run), 5, by decide +kernel⟩,
    ⟨st (inM .run), 0, by decide +kernel⟩,
    ⟨st (inM .run), 0, by decide +kernel⟩,
    ⟨st ({ inM .run with cam := { dev := [(0, { state := .up })] } }), 0, by decide +kernel⟩,
    ⟨st ({ inM .run with cam := { dev := [(0, { state := .up })] } }), 0, by decide +kernel⟩,
    ⟨st ({ inM .run with cam := { mbx := some { device := 0, write := false } } }), { device := 0, write := false },
      by decide +kernel⟩⟩

theorem witness_CamerasSendAndRead :
    (∃ (s : State) (d : Nat) (x : Device) (sch : Sched), Runs s ∧ s.m.dev d = x ∧ x.sched = some sch ∧
      sch.crossed s.m.chainage = 0) ∧
    (∃ (s : State) (d : Nat) (x : Device) (sch : Sched), Runs s ∧ s.m.dev d = x ∧ x.sched = some sch ∧
      sch.crossed s.m.chainage = 1 ∧ chnAtOrAhead s.m.chainage (sch.chn sch.next) = true ∧ s.m.trigSoon d = false ∧
      s.m.openOn d = []) ∧
    (∃ (s : State) (d : Nat) (x : Device) (sch : Sched), Runs s ∧ s.m.dev d = x ∧ x.sched = some sch ∧
      0 < sch.crossed s.m.chainage ∧ chnAtOrAhead s.m.chainage (sch.chn sch.next) = true ∧ s.m.trigSoon d = true ∧
      s.m.openOn d = []) ∧
    (∃ (s : State) (d : Nat), Runs s ∧ (s.m.dev d).sched = none) ∧
    (∃ (s : State) (d : Nat), Runs s ∧ (s.m.dev d).state ≠ .up) ∧
    (∃ (s : State) (d : Nat) (t : Trig) (r : List Trig), Runs s ∧ d < 4 ∧ (s.m.dev d).state = .up ∧
      s.m.openOn d = [] ∧ (s.m.dev d).trigs = t :: r) ∧
    (∃ (s : State) (c : Nat) (f : Frame), Runs s ∧ s.m.frame c = some f ∧
      s.m.now < f.lastTick + 500 * f.gen.fld (Reg.CAM_C_TIMEOUT.us c)) ∧
    (∃ (s : State) (c : Nat) (f : Frame), Runs s ∧ s.m.frame c = some f ∧
      f.lastTick + 500 * f.gen.fld (Reg.CAM_C_TIMEOUT.us c) ≤ s.m.now ∧ (f.line = true → f.gen.len c ≤ f.crossed)) ∧
    (∃ (s : State) (c : Nat), Runs s ∧ (s.m.ctx c).copying = none ∧ s.m.genBad c (s.m.staged c) = true) ∧
    (∃ (s : State) (c : Nat), Runs s ∧ (s.m.ctx c).copying = none ∧ s.m.genBad c (s.m.staged c) = false) ∧
    (∃ (s : State) (c : Nat), Runs s ∧ (s.m.ctx c).copying = none) ∧
    (∃ (s : State) (c : Nat) (g : Gen), Runs s ∧ (s.m.ctx c).copying = some g) ∧
    (∃ (s : State) (c : Nat) (g : Gen), Runs s ∧ (s.m.ctx c).copying = some g) ∧
    (∃ (s : State) (c : Nat) (i : Nat), Runs s ∧ c = s.m.fld Reg.CAM_TBL_SEL.context ∧
      i = s.m.fld Reg.CAM_TBL_IDX.idx) ∧
    (∃ (s : State) (c : Nat) (i : Nat), Runs s ∧ c = s.m.fld Reg.CAM_TBL_SEL.context ∧
      i = s.m.fld Reg.CAM_TBL_IDX.idx ∧ (s.m.ctx c).copying.isSome = true) ∧
    (∃ (s : State) (c : Nat) (i : Nat), Runs s ∧ c = s.m.fld Reg.CAM_TBL_SEL.context ∧
      i = s.m.fld Reg.CAM_TBL_IDX.idx ∧ (s.m.ctx c).copying = none ∧
      i < camTableSize (s.m.fld Reg.CAM_TBL_SEL.table)) :=
  ⟨⟨st ({ inM .run with cam := { dev := [(1, { state := .up, sched := some { origin := 1000, pitch := 65536, next := 0 } })] } }),
    1, ({ state := .up, sched := some { origin := 1000, pitch := 65536, next := 0 } } : Device),
    { origin := 1000, pitch := 65536, next := 0 }, by decide +kernel⟩,
    ⟨st ({ inM .run with chn := { vote := .two, printed := 1000 }, cam := { dev := [(1, { state := .up, sched := some { origin := 1000, pitch := 65536, next := 0 } })] } }),
      1, ({ state := .up, sched := some { origin := 1000, pitch := 65536, next := 0 } } : Device),
      { origin := 1000, pitch := 65536, next := 0 }, by decide +kernel⟩,
    ⟨st ({ inM .run with chn := { vote := .two, printed := 1005 }, dtm := { ticks := 30 }, cam := { dev := [(1, { state := .up, lastTrig := some 20, sched := some { origin := 1000, pitch := 65536, next := 0 } })] } }),
      1,
      ({ state := .up, lastTrig := some 20, sched := some { origin := 1000, pitch := 65536, next := 0 } } : Device),
      { origin := 1000, pitch := 65536, next := 0 }, by decide +kernel⟩,
    ⟨st (inM .run), 1, by decide +kernel⟩,
    ⟨st (inM .run), 1, by decide +kernel⟩,
    ⟨st ({ inM .run with cam := { dev := [(1, { state := .up, trigs := [{ k := 0, chn := 5, tick := 6, time := 7 }] })] } }),
      1, { k := 0, chn := 5, tick := 6, time := 7 }, [], by decide +kernel⟩,
    ⟨st ({ inM .run with cam := { ctx := [(2, { frame := some { num := 1, gen := { words := [((Reg.CAM_C_TIMEOUT.us 2).off, 100)] }, start := 0, line := true } })] } }),
      2, { num := 1, gen := { words := [((Reg.CAM_C_TIMEOUT.us 2).off, 100)] }, start := 0, line := true },
      by decide +kernel⟩,
    ⟨st ({ inM .run with dtm := { ticks := 60000 }, cam := { ctx := [(2, { frame := some { num := 1, gen := { words := [((Reg.CAM_C_TIMEOUT.us 2).off, 100)] }, start := 0, line := false } })] } }),
      2, { num := 1, gen := { words := [((Reg.CAM_C_TIMEOUT.us 2).off, 100)] }, start := 0, line := false },
      by decide +kernel⟩,
    ⟨st ((inM .run).setFld (Reg.CAM_C_LEN.len 2) 3), 2, by decide +kernel⟩,
    ⟨st (((inM .run).setFld (Reg.CAM_C_LEN.len 2) 64)), 2, by decide +kernel⟩,
    ⟨st (inM .run), 2, by decide +kernel⟩,
    ⟨st ({ inM .run with cam := { ctx := [(2, { copying := some { num := 4 } })] } }), 2, { num := 4 },
      by decide +kernel⟩,
    ⟨st ({ inM .run with cam := { ctx := [(2, { copying := some { num := 4 } })] } }), 2, { num := 4 },
      by decide +kernel⟩,
    ⟨st (inM .run), (inM .run).fld Reg.CAM_TBL_SEL.context, (inM .run).fld Reg.CAM_TBL_IDX.idx, by decide +kernel⟩,
    ⟨st ({ inM .run with cam := { ctx := [(0, { copying := some { num := 4 } })] } }), 0, 0, by decide +kernel⟩,
    ⟨st ((inM .run).setFld Reg.CAM_TBL_SEL.table 1), 0, 0, by decide +kernel⟩⟩

theorem witness_ClosureMeasures :
    (∃ (s : State), Runs s ∧ (s.m.fld Reg.CAM_CLS_CFG.trig = 0 ∨ s.m.chn.vote.valid = false ∨ s.m.glb.mode = .halt)) ∧
    (∃ (s : State) (j : Nat) (c : Nat) (x : Job), Runs s ∧ s.m.job j = x ∧ s.m.flag Reg.CAM_CLS_CFG.trig = true ∧
      x.hasLines = true ∧ x.lfld Reg.CAM_CLS_STRIP.lines ≠ 0 ∧ s.m.glb.mode.working = true ∧
      s.m.chn.vote.valid = true ∧ s.m.vgp.past.filter (fun p => p.slot = j) = [] ∧
      s.m.measuring.filter (fun c => chnAtOrAhead s.m.chainage (s.m.stripTarget x (s.m.nextStrip x c) c) && x.prints (x.stripLine (s.m.nextStrip x c) 0)) = [c] ∧
      s.m.cls.strips.any (fun e => e.1.run = x.run && e.1.num = s.m.nextStrip x c) = true) ∧
    (∃ (s : State) (u : StatUnit) (r : List StatUnit), Runs s ∧ s.m.cls.units = u :: r ∧ s.m.drm.coresHeld = true) ∧
    (∃ (s : State) (u : StatUnit) (r : List StatUnit), Runs s ∧ s.m.cls.units = u :: r ∧ s.m.drm.coresHeld = false ∧
      u.ring = none ∧ u.strip = none) ∧
    (∃ (s : State) (u : StatUnit) (r : List StatUnit) (a : _) (e : _), Runs s ∧ s.m.cls.units = u :: r ∧
      s.m.drm.coresHeld = false ∧ u.ring = none ∧ u.stats = true ∧ u.strip = some a ∧
      s.m.cls.strips.find? (fun e => e.1.run = a.run && e.1.num = a.num) = some e ∧ e.2.filter (· ≠ u.ctx) ≠ []) ∧
    (∃ (s : State) (u : StatUnit) (r : List StatUnit) (a : _) (e : _), Runs s ∧ s.m.cls.units = u :: r ∧
      s.m.drm.coresHeld = false ∧ u.ring = none ∧ u.stats = true ∧ u.strip = some a ∧
      s.m.cls.strips.find? (fun e => e.1.run = a.run && e.1.num = a.num) = some e ∧ e.2.filter (· ≠ u.ctx) = []) ∧
    (∃ (s : State), Runs s ∧ s.m.cls.units = []) ∧
    (∃ (s : State) (n : Nat × Nat), Runs s ∧ s.m.mirroring = false ∧ n = (s.m.fld Reg.CAM_CLS_OVR.plane,
      s.m.fld Reg.CAM_CLS_OVR.u) ∧ s.m.cls.keep.contains n = false ∧ keepMax ≤ s.m.cls.keep.length) ∧
    (∃ (s : State) (n : Nat × Nat), Runs s ∧ s.m.mirroring = false ∧ n = (s.m.fld Reg.CAM_CLS_OVR.plane,
      s.m.fld Reg.CAM_CLS_OVR.u) ∧ s.m.cls.keep.contains n = false ∧ s.m.cls.keep.length < keepMax ∧
      ((s.m.closedOf n.1).contains n.2 = false ∨ s.m.flag Reg.CAM_CLS_CFG.owner = true)) ∧
    (∃ (s : State) (n : Nat × Nat), Runs s ∧ s.m.mirroring = false ∧ n = (s.m.fld Reg.CAM_CLS_OVR.plane,
      s.m.fld Reg.CAM_CLS_OVR.u) ∧ s.m.cls.keep.contains n = true) ∧
    (∃ (s : State) (n : Nat × Nat), Runs s ∧ s.m.mirroring = false ∧ n = (s.m.fld Reg.CAM_CLS_OVR.plane,
      s.m.fld Reg.CAM_CLS_OVR.u) ∧ s.m.cls.keep.contains n = false) ∧
    (∃ (s : State) (j : Nat), Runs s ∧
      (List.range 8).find? (fun j => (s.m.job j).state = .printing && (s.m.job j).lfld Reg.CAM_CLS_STRIP.lines ≠ 0) = some j ∧
      (s.m.glb.mode ≠ .benchmark ∨ s.m.cls.bench.isSome = true ∨ s.m.flag Reg.CAM_CLS_CFG.owner = true)) ∧
    (∃ (s : State) (j : Nat), Runs s ∧
      (List.range 8).find? (fun j => (s.m.job j).state = .printing && (s.m.job j).lfld Reg.CAM_CLS_STRIP.lines ≠ 0) = some j ∧
      s.m.glb.mode = .benchmark ∧ s.m.cls.bench = none ∧ s.m.flag Reg.CAM_CLS_CFG.owner = false ∧
      bitAt (s.m.fld Reg.CAM_CLS_BENCH.what) 0 = false ∧ bitAt (s.m.fld Reg.CAM_CLS_BENCH.what) 1 = true) ∧
    (∃ (s : State), Runs s ∧ s.m.cls.bench = none) ∧
    (∃ (s : State), Runs s ∧ s.m.cls.bench.isSome = true) :=
  ⟨⟨st (inM .halt), by decide +kernel⟩,
    ⟨st ({ clsM with cls := { strips := [({ job := 7, tag := 9, num := 0, rows := [], pitch := 0, guard := 0, guardCols := 0, gFirst := 0, gLast := 0, tint := 0, cfg := 0, loop := 0, ours := true }, [0])] } }),
      7, 0,
      (st ({ clsM with cls := { strips := [({ job := 7, tag := 9, num := 0, rows := [], pitch := 0, guard := 0, guardCols := 0, gFirst := 0, gLast := 0, tint := 0, cfg := 0, loop := 0, ours := true }, [0])] } })).m.job 7,
      by decide +kernel⟩,
    ⟨st ({ inM .run with cls := { units := [u0] }, drm := { coresHeld := true } }), u0, [], by decide +kernel⟩,
    ⟨st ({ inM .run with cls := { units := [u0] } }), u0, [], by decide +kernel⟩,
    ⟨st ({ inM .run with cls := { units := [{ u0 with strip := some a0 }], strips := [(a0, [0, 1])] } }),
      { u0 with strip := some a0 }, [], a0, (a0, [0, 1]), by decide +kernel⟩,
    ⟨st ({ inM .run with cls := { units := [{ u0 with strip := some a0 }], strips := [(a0, [0])] } }),
      { u0 with strip := some a0 }, [], a0, (a0, [0]), by decide +kernel⟩,
    ⟨st (inM .run), by decide +kernel⟩,
    ⟨st ({ inM .run with cls := { keep := (List.range 600).map (fun i => (9, i)) } }), (0, 0), by decide +kernel⟩,
    ⟨st (inM .run), (0, 0), by decide +kernel⟩,
    ⟨st ({ inM .run with cls := { keep := [(0, 0)] } }), (0, 0), by decide +kernel⟩,
    ⟨st (inM .run), (0, 0), by decide +kernel⟩,
    ⟨st (clsM), 7, by decide +kernel⟩,
    ⟨st ((({ clsM with glb := { mode := .benchmark, stage := 0 } }).setFld Reg.CAM_CLS_BENCH.what 2)), 7,
      by decide +kernel⟩,
    ⟨st (inM .run), by decide +kernel⟩,
    ⟨st ({ inM .run with cls := { bench := some { job := 7, step := .gain, iter := 1, what := 1, ramp := 1 } } }),
      by decide +kernel⟩⟩

end

end Sys2Proof.Tests
end

section
/-! SUPPORT. The statements of the scope chapter: BAR0 as the host reads and writes it, the charter level, and the two
statements about deadlines and cameras that fail. -/

namespace Sys2Proof.Scope

open Sys2Proof Sys2Proof.Machine Sys2Proof.Laws

/-! ### Commands that leave head power alone -/

/-- A change leaves DRAM and the fuses as they were, and head power safe where it was: what `becomes_of_run` asks. -/
structure Keeps (a m : Mach) : Prop where
  dram : m.dram = a.dram
  otp : m.otp = a.otp
  safe : Mach.powerSafe a → Mach.powerSafe m

namespace Keeps

variable {a m : Mach}

theorem refl (m : Mach) : Keeps m m := ⟨rfl, rfl, id⟩

theorem wr (k : Keeps a m) (off v : Nat) : Keeps a (m.wr off v) := ⟨k.dram, k.otp, k.safe⟩

theorem setFld (k : Keeps a m) (f : Fld) (v : Nat) : Keeps a (m.setFld f v) := k.wr _ _

theorem countDiscard (k : Keeps a m) : Keeps a m.countDiscard := ⟨k.dram, k.otp, k.safe⟩

theorem loStage (k : Keeps a m) (t : Tab (Option Word)) : Keeps a { m with loStage := t } := ⟨k.dram, k.otp, k.safe⟩

theorem hiLatch (k : Keeps a m) (t : Tab (Option Word)) : Keeps a { m with hiLatch := t } := ⟨k.dram, k.otp, k.safe⟩

theorem emit (k : Keeps a m) (o : Output) : Keeps a (m.emit o) := by
  unfold Mach.emit
  split
  · exact k
  · exact ⟨k.dram, k.otp, k.safe⟩

theorem remap (k : Keeps a m) (t : Tab Nat) : Keeps a { m with fgd := { m.fgd with remap := t } } :=
  ⟨k.dram, k.otp, k.safe⟩

theorem wave (k : Keeps a m) (t : Tab Nat) : Keeps a { m with fgd := { m.fgd with wave := t } } :=
  ⟨k.dram, k.otp, k.safe⟩

end Keeps

theorem becomes_of_exec {c : Instr} {s : State} {f : Mach → Mach} {m : Mach} (hx : exec c s = s.run f) (h : Runs s)
    (e : f s.m = m) (k : Keeps s.m m) : Becomes c s m :=
  hx.trans (becomes_of_run h e k.dram k.otp (k.safe h.2))

theorem becomes_same {c : Instr} {s : State} {f : Mach → Mach} (hx : exec c s = s.run f) (h : Runs s)
    (e : f s.m = s.m) : Becomes c s s.m := becomes_of_exec hx h e (.refl _)

theorem rwsOpen_iff (m : Mach) : m.rwsOpen = true ↔ m.glb.locked = false ∧ m.glb.mode = .setup := by
  simp [Mach.rwsOpen]

theorem rwsOpen_of_locked {m : Mach} (h : m.glb.locked = true) : m.rwsOpen = false := by simp [Mach.rwsOpen, h]

theorem rwsOpen_of_not_setup {m : Mach} (h : m.glb.mode ≠ .setup) : m.rwsOpen = false := by simp [Mach.rwsOpen, h]

/-! ### The charter level (R4) -/

theorem pinWrite_of_locked {m : Mach} (v : Nat) (h : m.glb.locked = true) : m.pinWrite v = m.countDiscard := by
  simp [Mach.pinWrite, h]

theorem pinWrite_of_above {m : Mach} {v : Nat} (hl : m.glb.locked = false)
    (hv : m.fld Reg.GLB_COMPAT.max_level < v) : m.pinWrite v = m := by
  simp [Mach.pinWrite, hl, hv]

theorem pinWrite_of_open {m : Mach} {v : Nat} (ho : m.rwsOpen = true) (hv : v ≤ m.fld Reg.GLB_COMPAT.max_level) :
    m.pinWrite v = m.setFld Reg.GLB_COMPAT.pin_level v := by
  simp [Mach.pinWrite, ho, ((rwsOpen_iff m).mp ho).1, Nat.not_lt.mpr hv]

theorem exec_pinLevelWrite (v : Nat) (s : State) : exec (.pinLevelWrite v) s = s.run fun m => m.pinWrite v := rfl

/-- Settles O33: the three cases of `pinWrite`, by the lock and the highest level. -/
theorem levelsArePinned : Obligations.LevelsArePinned := by
  refine ⟨fun s v h hl hm hv => ?_, fun s v h hl hv => ?_, fun s v h hl => ?_⟩
  · exact becomes_of_exec (exec_pinLevelWrite v s) h (pinWrite_of_open ((rwsOpen_iff _).mpr ⟨hl, hm⟩) hv)
      (.setFld (.refl _) _ _)
  · exact becomes_same (exec_pinLevelWrite v s) h (pinWrite_of_above hl hv)
  · exact becomes_of_exec (exec_pinLevelWrite v s) h (pinWrite_of_locked v hl) (.countDiscard (.refl _))

/-! ### Reads of BAR0 (R7, R11, R14) -/

/-- What a register reads does not hang on what has left the module. -/
theorem regRead_out (m : Mach) (o : List Output) (off : Nat) :
    ({ m with out := o } : Mach).regRead off = m.regRead off := rfl

theorem emit_hostRead (m : Mach) (l : List Byte) : m.emit (.hostRead l) = { m with out := .hostRead l :: m.out } := by
  simp [Mach.emit, Output.onLinks]

theorem answers_of_running {m : Mach} (off : Nat) (h : m.glb.mode ≠ .boot) : m.answers off = true := by
  simp [Mach.answers, Mach.inMode, h]

theorem answers_in_boot {m : Mach} {off : Nat} (h : m.glb.mode = .boot) (h0 : off / 65536 ≠ 0)
    (h21 : off / 65536 ≠ 21) : m.answers off = false := by
  simp only [Mach.answers, Mach.inMode, h, h0, h21, decide_true, decide_false, Bool.not_true, Bool.or_self]

theorem bar0Read_of_unlatched {m : Mach} {off : Nat} (hm : m.glb.mode ≠ .boot) (ha : off < scrWindow)
    (hl : Tab.get none m.hiLatch off = none) : m.bar0Read off = m.regRead off := by
  simp [Mach.bar0Read, answers_of_running off hm, Nat.not_le.mpr ha, hl]

theorem regRead_of_no_register {m : Mach} {off : Nat} (h : findRow (blockRows off) off = none) : m.regRead off = 0 := by
  simp [Mach.regRead, h]

theorem bar0Access_in_boot {m : Mach} {off : Nat} (h : m.answers off = false) :
    m.bar0Access off = m.emit (.hostRead [0, 0, 0, 0]) := by
  simp only [Mach.bar0Access, Mach.bar0Read, h, Bool.not_false, if_true]
  rfl

theorem bar0Access_of_lo {m : Mach} {off : Nat} (ha : m.answers off = true) (hp : isPairLo off = true)
    (ht : off ≠ Reg.DTM_TIME_LO) :
    m.bar0Access off = (m.emit (.hostRead (leBytes 4 (m.bar0Read off)))).latch (off + 4) := by
  simp [Mach.bar0Access, ha, hp, ht]

theorem bar0Access_of_plain {m : Mach} {off : Nat} (ha : m.answers off = true) (hp : isPairLo off = false)
    (ht : off ≠ Reg.CAM_TBL_DATA) : m.bar0Access off =
      { m.emit (.hostRead (leBytes 4 (m.bar0Read off))) with hiLatch := Tab.set none m.hiLatch off none } := by
  simp [Mach.bar0Access, ha, hp, ht]

/-- A latched half is never the default, so the latch reads it back whatever the table held. -/
theorem get_latched (t : Tab (Option Word)) (i j : Nat) (w : Word) :
    Tab.get none (Tab.set none t i (some w)) j = if i = j then some w else Tab.get none t j := by
  simp [Tab.get, Tab.set, Tab.setD, getD_insert]

theorem exec_loReadLatch (a n : Nat) (s : State) : exec (.loReadLatch ⟨a, n⟩) s = s.run fun m =>
    if bar0Size ≤ a then m
    else if n ≠ 4 ∨ a % 4 ≠ 0 then m.emit (.hostRead (leBytes 4 0xFFFFFFFF))
    else m.bar0Access a := rfl

/-- An aligned read of 32 bits. -/
theorem becomes_loReadLatch {s : State} {a : Nat} {m : Mach} (h : Runs s) (ha : a < bar0Size) (h4 : a % 4 = 0)
    (e : s.m.bar0Access a = m) (k : Keeps s.m m) : Becomes (.loReadLatch ⟨a, 4⟩) s m :=
  becomes_of_exec (exec_loReadLatch a 4 s) h (by simp [Nat.not_le.mpr ha, h4, e]) k

theorem lt_bar0Size_of_lt_scrWindow {a : Nat} (h : a < scrWindow) : a < bar0Size := by
  simp only [scrWindow, bar0Size] at *; omega

/-- A read of a register, latched half aside, shows it and gives its latch away. -/
theorem becomes_read_register {s : State} {a : Nat} (h : Runs s) (ha : a < scrWindow) (h4 : a % 4 = 0)
    (hm : s.m.glb.mode ≠ .boot) (hp : isPairLo a = false) (ht : a ≠ Reg.CAM_TBL_DATA)
    (hl : Tab.get none s.m.hiLatch a = none) :
    Becomes (.loReadLatch ⟨a, 4⟩) s
      { s.m.emit (.hostRead (leBytes 4 (s.m.regRead a))) with hiLatch := Tab.set none s.m.hiLatch a none } := by
  have e := bar0Access_of_plain (answers_of_running a hm) hp ht
  rw [bar0Read_of_unlatched hm ha hl] at e
  exact becomes_loReadLatch h (lt_bar0Size_of_lt_scrWindow ha) h4 e (.hiLatch (.emit (.refl _) _) _)

/-! ### Writes of registers (R7 to R9, R11) -/

theorem exec_registerWrite (a size v : Nat) (s : State) : exec (.registerWrite a size v) s = s.run fun m =>
    if size ≠ 4 ∨ a % 4 ≠ 0 ∨ bar0Size ≤ a then m else m.bar0Write a v := rfl

theorem exec_tableWindowWrite (a v : Nat) (s : State) : exec (.tableWindowWrite a v) s = s.run fun m =>
    if a % 4 ≠ 0 ∨ a < scrWindow ∨ bar0Size ≤ a then m else m.bar0Write a v := rfl

theorem bar0Write_unanswered {m : Mach} {off : Nat} (v : Nat) (h : m.answers off = false) : m.bar0Write off v = m := by
  simp [Mach.bar0Write, h]

theorem bar0Write_register {m : Mach} {off : Nat} (v : Nat) (hm : m.glb.mode ≠ .boot) (h : off < scrWindow) :
    m.bar0Write off v = m.regWrite off (v % 2 ^ 32) := by
  simp [Mach.bar0Write, answers_of_running off hm, h]

theorem bar0Write_window {m : Mach} {off : Nat} (v : Nat) (hm : m.glb.mode ≠ .boot) (h : scrWindow ≤ off) :
    m.bar0Write off v = m.windowWrite off v := by
  simp [Mach.bar0Write, answers_of_running off hm, Nat.not_lt.mpr h]

/-- The first registers of the arrays whose members a new value sets something off in, with stride and length. -/
def followedArrays : List (Nat × Nat × Nat) :=
  [(Reg.FGD_G_T_PW 0, 0x10, 16), (Reg.FGD_G_T_VOL 0, 0x10, 16), (Reg.MOT_A_CEIL 0, 0x100, 12), (Reg.CHN_CFG 0, 0x100, 5),
   (Reg.ETH_P_CFG 0, 0x100, 2), (Reg.STN_OUT_CFG 0, 8, 16), (Reg.HST_MSIX_CTRL 0, 0x10, 32), (Reg.SKX_L_CFG 0, 0x800, 40),
   (Reg.SKX_HUB_CFG 0, 0x40, 40), (Reg.MOT_A_CFG 0, 0x100, 12)]

/-- The single registers that a new value sets something off in. -/
def followedRegs : List Nat :=
  [Reg.FGD_G_NOZ, Reg.FGD_G_GAIN, Reg.FGD_G_GAIN_RATE, Reg.CHN_VOTE_CFG, Reg.TRV_PARK_REQ, Reg.TRV_CFG, Reg.FGD_CFG,
   Reg.CAM_CLS_CFG, Reg.ETH_BCN_CFG, Reg.ETH_PTP_INTV] ++ guardRegs

/-- A new value of the register sets nothing off. -/
abbrev SetsNothingOff (off : Nat) : Prop :=
  off ∉ followedRegs ∧ ∀ a ∈ followedArrays, within off a.1 a.2.1 a.2.2 = none

theorem afterWrite_of_setsNothingOff {m : Mach} {off : Nat} (old : Nat) (h : SetsNothingOff off) :
    m.afterWrite off old = m := by
  obtain ⟨hr, ha⟩ := h
  simp only [followedRegs, List.mem_append, List.mem_cons, not_or, List.not_mem_nil] at hr
  simp only [followedArrays, List.forall_mem_cons] at ha
  simp [Mach.afterWrite, Mach.tightenOne, Mach.guardNote, hr, ha]

/-- The registers that `regWrite` gives a rule of their own, beside the rings and the trims. -/
def ruledRegs : List Nat :=
  [Reg.GLB_COMPAT, Reg.TRV_PARK_ORDER, Reg.DTM_STATUS, Reg.DTM_INCR_LO, Reg.DTM_INCR_HI, Reg.DTM_OFFSET_LO,
   Reg.DTM_OFFSET_HI, Reg.DTM_EPOCH_LO, Reg.DTM_EPOCH_HI]

/-- The register at an offset has the row and follows its fields' access codes alone. -/
abbrev Unruled (off : Nat) (row : RegRow) : Prop :=
  off ∉ ruledRegs ∧ off / 65536 ≠ 18 ∧ within off (Reg.HST_RING_CFG 0) 0x20 64 = none ∧
  findRow (blockRows off) off = some (row, 0)

theorem regWrite_of_unruled {m : Mach} {off : Nat} {row : RegRow} (v : Nat) (h : Unruled off row) :
    m.regWrite off v = m.fieldWrite off v row := by
  obtain ⟨hr, ht, hring, hf⟩ := h
  simp only [ruledRegs, List.mem_cons, not_or, List.not_mem_nil] at hr
  simp [Mach.regWrite, hr, ht, hring, hf]

/-- A register that software may write at all times and that no rule of its own, no pair and no copy concerns. -/
structure Plain (off : Nat) (row : RegRow) : Prop where
  unruled : Unruled off row
  unlocked : row.hasRws = false
  takes : ∀ m : Mach, m.takes off row = true
  closed : ∀ m : Mach, m.writeClosed off = false
  camera : within off (Reg.CAM_D_CFG 0) 0x40 4 = none
  lead : off ≠ Reg.TRV_URGENT_LEAD
  quiet : SetsNothingOff off

theorem lockedWrite_of_unlocked {m : Mach} {off : Nat} {row : RegRow} (h : row.hasRws = false) :
    m.lockedWrite off row = m := by
  simp [Mach.lockedWrite, h]

/-- A write of the low half of a pair waits. -/
theorem regWrite_lo {m : Mach} {off v : Nat} {row : RegRow} (p : Plain off row) (hw : isWritableLo off = true) :
    m.regWrite off v =
      { m with loStage := Tab.set none m.loStage off (some (word (m.written off row (m.rd off) v))) } := by
  simp [regWrite_of_unruled _ p.unruled, Mach.fieldWrite, lockedWrite_of_unlocked p.unlocked, p.closed, p.takes, hw]

/-- A write of a register that is in no pair. -/
theorem regWrite_single {m : Mach} {off v : Nat} {row : RegRow} (p : Plain off row) (hw : isWritableLo off = false)
    (hp : isWritableLo (off - 4) = false) : m.regWrite off v = m.wr off (m.written off row (m.rd off) v) := by
  simp [regWrite_of_unruled _ p.unruled, Mach.fieldWrite, lockedWrite_of_unlocked p.unlocked, p.closed, p.takes,
    hw, p.camera, p.lead, hp, afterWrite_of_setsNothingOff _ p.quiet]

/-- A write of the high half of a pair takes the low half that waits with it. -/
theorem regWrite_hi {m : Mach} {off v : Nat} {row : RegRow} {lo : Word} (p : Plain off row)
    (hw : isWritableLo off = false) (hp : isWritableLo (off - 4) = true)
    (hl : Tab.get none m.loStage (off - 4) = some lo) : m.regWrite off v =
      (({ m with loStage := Tab.set none m.loStage (off - 4) none } : Mach).wr (off - 4) lo.toNat).wr off
        (m.written off row (m.rd off) v) := by
  simp [regWrite_of_unruled _ p.unruled, Mach.fieldWrite, lockedWrite_of_unlocked p.unlocked, p.closed, p.takes,
    hw, p.camera, p.lead, hp, hl, afterWrite_of_setsNothingOff _ p.quiet]

/-- A register of one RW field at bit 0 that stands alone. -/
abbrev rwRow (off hi : Nat) : RegRow := ⟨off, 1, 0, 1, 0, [⟨hi, 0, .rw, .val 0⟩]⟩

theorem written_rwRow (m : Mach) (off hi old v : Nat) :
    m.written off (rwRow off hi) old v = withBits old hi 0 (v % 2 ^ (hi + 1)) := by
  simp [Mach.written, Mach.fieldOpen, bitsOf]

/-- Replacing all 32 bits of a word leaves nothing of it. -/
theorem withBits_word {old v : Nat} (ho : old < 2 ^ 32) (hv : v < 2 ^ 32) : withBits old 31 0 v = v := by
  simp only [withBits, bitsOf, Nat.shiftRight_zero]
  omega

theorem rd_lt (m : Mach) (off : Nat) : m.rd off < 2 ^ 32 := BitVec.isLt _

theorem written_whole (m : Mach) (off : Nat) (v : Nat) :
    m.written off (rwRow off 31) (m.rd off) (v % 2 ^ 32) = v % 2 ^ 32 := by
  rw [written_rwRow, Nat.mod_mod, withBits_word (rd_lt m off) (Nat.mod_lt _ (by decide))]

theorem plain_STN_ARG : Plain Reg.STN_ARG (rwRow Reg.STN_ARG 31) :=
  ⟨by decide, by decide, fun _ => rfl, fun _ => rfl, by decide, by decide, by decide⟩

theorem plain_VGP_STORE_LOW : Plain Reg.VGP_STORE_LOW (rwRow Reg.VGP_STORE_LOW 31) :=
  ⟨by decide, by decide, fun _ => rfl, fun _ => rfl, by decide, by decide, by decide⟩

theorem plain_STN_TGT_LO : Plain Reg.STN_TGT_LO (rwRow Reg.STN_TGT_LO 31) :=
  ⟨by decide, by decide, fun _ => rfl, fun _ => rfl, by decide, by decide, by decide⟩

theorem plain_STN_TGT_HI : Plain Reg.STN_TGT_HI (rwRow Reg.STN_TGT_HI 15) :=
  ⟨by decide, by decide, fun _ => rfl, fun _ => rfl, by decide, by decide, by decide⟩

/-- After the lock a write of a register of RWS fields, outside Fire Guard, is counted and taken nowhere (R497). -/
theorem fieldWrite_locked {m : Mach} {off : Nat} {row : RegRow} (v : Nat) (hl : m.glb.locked = true)
    (hr : row.hasRws = true) (hf : ∀ f ∈ row.fields, f.acc = .rws) (hg : isGuard off = false) :
    m.fieldWrite off v row = m.countDiscard := by
  have hlock : m.lockedWrite off row = m.countDiscard := by simp [Mach.lockedWrite, hl, hr, hg]
  have hopen : m.countDiscard.rwsOpen = false := rwsOpen_of_locked hl
  have htake : m.countDiscard.takes off row = false := by
    simp only [Mach.takes, List.any_eq_false]
    intro f hm
    simp [hf f hm, Mach.fieldOpen, hopen]
  simp [Mach.fieldWrite, hlock, htake]

/-- DRM_REGION's row of the register map. -/
abbrev rowDRM_REGION : RegRow := ⟨Reg.DRM_REGION, 1, 0, 1, 0, [⟨13, 8, .rws, .val 8⟩, ⟨6, 0, .rws, .val 16⟩]⟩

theorem regWrite_DRM_REGION_locked {m : Mach} (v : Nat) (hl : m.glb.locked = true) :
    m.regWrite Reg.DRM_REGION v = m.countDiscard :=
  (regWrite_of_unruled (row := rowDRM_REGION) v (by decide)).trans
    (fieldWrite_locked v hl (by decide) (by decide) (by decide))

/-- A 32-bit write at an aligned offset of a register. -/
theorem becomes_registerWrite {s : State} {a v : Nat} {m : Mach} (h : Runs s) (hm : s.m.glb.mode ≠ .boot)
    (h4 : a % 4 = 0) (ha : a < scrWindow) (e : s.m.regWrite a (v % 2 ^ 32) = m)
    (k : Keeps s.m m) : Becomes (.registerWrite a 4 v) s m := by
  have hwrite : s.m.bar0Write a v = m := (bar0Write_register v hm ha).trans e
  exact becomes_of_exec (exec_registerWrite a 4 v s) h
    (by simp [h4, Nat.not_le.mpr (lt_bar0Size_of_lt_scrWindow ha), hwrite]) k

/-! ### Writes of the table windows (R261, R275) -/

theorem windowWrite_outside {m : Mach} {off : Nat} (v : Nat) (h : off < remapWindow ∨ waveEnd ≤ off) :
    m.windowWrite off v = m := by
  simp [Mach.windowWrite, h]

theorem windowWrite_locked {m : Mach} {off : Nat} (v : Nat) (hr : remapWindow ≤ off) (hw : off < waveEnd)
    (hl : m.glb.locked = true) : m.windowWrite off v = m.countDiscard := by
  simp [Mach.windowWrite, Nat.not_lt.mpr hr, Nat.not_le.mpr hw, hl]

theorem windowWrite_closed {m : Mach} {off : Nat} (v : Nat) (hl : m.glb.locked = false) (hm : m.glb.mode ≠ .setup) :
    m.windowWrite off v = m := by
  simp [Mach.windowWrite, hl, rwsOpen_of_not_setup hm]

theorem windowWrite_remap {m : Mach} {off : Nat} (v : Nat) (ho : m.rwsOpen = true) (hr : remapWindow ≤ off)
    (hw : off < waveWindow) (hh : m.fld Reg.FGD_TBL_SEL.head < 400)
    (hn : (off - remapWindow) / 4 < (m.headRec (m.fld Reg.FGD_TBL_SEL.head)).noz) :
    m.windowWrite off v = { m with fgd := { m.fgd with
      remap := Tab.set 0 m.fgd.remap (m.fld Reg.FGD_TBL_SEL.head * 4096 + (off - remapWindow) / 4) (v % 65536) } } := by
  have he : off < waveEnd := Nat.lt_trans hw (by decide)
  simp [Mach.windowWrite, Nat.not_lt.mpr hr, Nat.not_le.mpr he, ho, ((rwsOpen_iff m).mp ho).1, hw, hh, hn]

theorem windowWrite_wave {m : Mach} {off : Nat} (v : Nat) (ho : m.rwsOpen = true) (hr : waveWindow ≤ off)
    (hw : off < waveEnd) (hc : waveHas (off - waveWindow) = true) :
    m.windowWrite off v = { m with fgd := { m.fgd with
      wave := Tab.set 0 m.fgd.wave (waveKey (off - waveWindow)) (v % 65536) } } := by
  have he : remapWindow ≤ off := Nat.le_trans (by decide) hr
  simp [Mach.windowWrite, Nat.not_lt.mpr he, Nat.not_le.mpr hw, ho, ((rwsOpen_iff m).mp ho).1, Nat.not_lt.mpr hr, hc]

theorem scrWindow_le_remapWindow : scrWindow ≤ remapWindow := by decide

theorem waveEnd_le_bar0Size : waveEnd ≤ bar0Size := by decide

/-- A write of a table window by its own command and as a write of BAR0. -/
theorem becomes_windowWrite {s : State} {a v : Nat} {m : Mach} (h : Runs s) (hm : s.m.glb.mode ≠ .boot)
    (h4 : a % 4 = 0) (hr : remapWindow ≤ a) (hw : a < waveEnd) (e : s.m.windowWrite a v = m)
    (k : Keeps s.m m) : Becomes (.tableWindowWrite a v) s m ∧ Becomes (.registerWrite a 4 v) s m := by
  have hscr : scrWindow ≤ a := Nat.le_trans scrWindow_le_remapWindow hr
  have hbar : a < bar0Size := Nat.lt_of_lt_of_le hw waveEnd_le_bar0Size
  have hwrite : s.m.bar0Write a v = m := (bar0Write_window v hm hscr).trans e
  exact ⟨becomes_of_exec (exec_tableWindowWrite a v s) h
      (by simp [h4, Nat.not_lt.mpr hscr, Nat.not_le.mpr hbar, hwrite]) k,
    becomes_of_exec (exec_registerWrite a 4 v s) h (by simp [h4, Nat.not_le.mpr hbar, hwrite]) k⟩

/-- Outside the remap and the waveform window TABLE_WINDOW_WRITE changes nothing, in any mode. -/
theorem becomes_tableWindowWrite_outside {s : State} {a v : Nat} (h : Runs s)
    (ho : a < remapWindow ∨ waveEnd ≤ a) (hscr : scrWindow ≤ a) : Becomes (.tableWindowWrite a v) s s.m := by
  have hwrite : s.m.bar0Write a v = s.m := by
    simp [Mach.bar0Write, Nat.not_lt.mpr hscr, windowWrite_outside v ho]
  exact becomes_same (exec_tableWindowWrite a v s) h (by simp [hwrite])

/-! ### The parts of O2 -/

/-- A read of another size, or not aligned, gives all ones. -/
theorem becomes_misaligned_read {s : State} {a n : Nat} (h : Runs s) (ha : a < bar0Size) (hn : n ≠ 4 ∨ a % 4 ≠ 0) :
    Becomes (.loReadLatch ⟨a, n⟩) s (s.m.emit (.hostRead [0xFF, 0xFF, 0xFF, 0xFF])) :=
  becomes_of_exec (exec_loReadLatch a n s) h
    (by simp only [Nat.not_le.mpr ha, hn, if_false, if_true]; rfl) (.emit (.refl _) _)

/-- A read of the low half of a pair latches the high half, and no other. -/
theorem reaches_lo_read {s : State} {a : Nat} (h : Runs s) (ha : a < scrWindow) (h4 : a % 4 = 0)
    (hm : s.m.glb.mode ≠ .boot) (hp : isPairLo a = true) (ht : a ≠ Reg.DTM_TIME_LO) :
    Reaches (.loReadLatch ⟨a, 4⟩) s fun m =>
      Tab.get none m.hiLatch (a + 4) = some (word (s.m.regRead (a + 4))) ∧
      (∀ b ≠ a + 4, Tab.get none m.hiLatch b = Tab.get none s.m.hiLatch b) ∧
      m = { s.m with hiLatch := m.hiLatch, out := m.out } := by
  have e := bar0Access_of_lo (answers_of_running a hm) hp ht
  rw [Mach.latch, emit_hostRead, regRead_out] at e
  refine ⟨_, becomes_loReadLatch h (lt_bar0Size_of_lt_scrWindow ha) h4 e ⟨rfl, rfl, id⟩, ?_, fun b hb => ?_, rfl⟩
  · simp [get_latched]
  · simp [get_latched, hb.symm]

/-- A write that BAR0 does not take changes nothing. -/
theorem becomes_untaken_write {s : State} {a size v : Nat} (h : Runs s) (hw : size ≠ 4 ∨ a % 4 ≠ 0 ∨ bar0Size ≤ a ∨
    s.m.glb.mode = .boot ∧ a / 65536 ≠ 0 ∧ a / 65536 ≠ 21) : Becomes (.registerWrite a size v) s s.m := by
  refine becomes_same (exec_registerWrite a size v s) h ?_
  obtain hs | ha | hb | ⟨hm, h0, h21⟩ := hw
  · exact if_pos (.inl hs)
  · exact if_pos (.inr (.inl ha))
  · exact if_pos (.inr (.inr hb))
  · simp only [bar0Write_unanswered v (answers_in_boot hm h0 h21), ite_self]

/-- Settles O2, each clause from the rule of its read, its register or its window. -/
theorem registersAreReadAndWritten : Obligations.RegistersAreReadAndWritten := by
  refine ⟨fun s a n h ha hn => becomes_misaligned_read h ha hn,
    fun s a h ha h4 hm hp ht => reaches_lo_read h ha h4 hm hp ht,
    fun s a h ha h4 hm hp hn hl => ?none, fun s a h ha h4 hm hp ht hl => becomes_read_register h ha h4 hm hp ht hl,
    fun s a h ha h4 hm h0 h21 => ?boot, fun s a size v h hw => becomes_untaken_write h hw, fun s v h hm => ?regs,
    fun s a v h hm h4 hr hw => ?shut, fun s a v h hl hm h4 => ?taken,
    fun s a v h ho _ hscr => becomes_tableWindowWrite_outside h ho hscr⟩
  case none =>
    have ht : a ≠ Reg.CAM_TBL_DATA := by rintro rfl; exact absurd hn (by decide)
    have hread := becomes_read_register h ha h4 hm hp ht hl
    rwa [regRead_of_no_register hn] at hread
  case boot =>
    have e := bar0Access_in_boot (answers_in_boot hm h0 h21)
    exact becomes_loReadLatch h ha h4 e (.emit (.refl _) _)
  case regs =>
    refine ⟨?_, ?_, ?_, fun lo hlo => ?_, fun hl => ?_⟩
    · refine becomes_registerWrite h hm (by decide) (by decide) ?_ (.wr (.refl _) _ _)
      rw [regWrite_single plain_STN_ARG (by decide) (by decide), written_whole]
    · refine becomes_registerWrite h hm (by decide) (by decide) ?_ (.wr (.refl _) _ _)
      rw [regWrite_single plain_VGP_STORE_LOW (by decide) (by decide), written_whole]
    · refine becomes_registerWrite h hm (by decide) (by decide) ?_ (.loStage (.refl _) _)
      rw [regWrite_lo plain_STN_TGT_LO (by decide), written_whole]
    · refine becomes_registerWrite h hm (by decide) (by decide) ?_ (.wr (.wr (.loStage (.refl _) _) _ _) _ _)
      rw [regWrite_hi plain_STN_TGT_HI (by decide) (by decide) hlo, written_rwRow]
      rfl
    · exact becomes_registerWrite h hm (by decide) (by decide) (regWrite_DRM_REGION_locked _ hl)
        (.countDiscard (.refl _))
  case shut =>
    have locked (hl : s.m.glb.locked = true) :=
      becomes_windowWrite h hm h4 hr hw (windowWrite_locked v hr hw hl) (.countDiscard (.refl _))
    have closed (hl : s.m.glb.locked = false) (hs : s.m.glb.mode ≠ .setup) :=
      becomes_windowWrite h hm h4 hr hw (windowWrite_closed v hl hs) (.refl _)
    exact ⟨fun hl => (locked hl).1, fun hl => (locked hl).2, fun hl hs => (closed hl hs).1,
      fun hl hs => (closed hl hs).2⟩
  case taken =>
    have ho : s.m.rwsOpen = true := (rwsOpen_iff _).mpr ⟨hl, hm⟩
    have hb : s.m.glb.mode ≠ .boot := by simp [hm]
    refine ⟨fun hr hw hh hn => ?_, fun hr hw hc => ?_⟩
    · have hend : a < waveEnd := Nat.lt_trans hw (by decide)
      exact (becomes_windowWrite h hb h4 hr hend (windowWrite_remap v ho hr hw hh hn)
        (.remap (.refl _) _)).1
    · have hremap : remapWindow ≤ a := Nat.le_trans (by decide) hr
      exact (becomes_windowWrite h hb h4 hremap hw (windowWrite_wave v ho hr hw hc)
        (.wave (.refl _) _)).1

/-! ### A silent module (R339, R461, R479) -/

theorem emit_mailbox_of_silent {m : Mach} (d : Nat) (write : Bool) (a v : Word) (h : m.skx.silent = true) :
    m.emit (.mailbox d write a v) = m := by
  simp [Mach.emit, Output.onLinks, h]

/-- No mailbox packet leaves while the transceivers are silent. -/
theorem mailbox_out_of_silent {m : Mach} (write : Bool) (h : m.skx.silent = true) : (m.mailbox write).out = m.out := by
  unfold Mach.mailbox
  dsimp only
  split
  · rfl
  · split
    · rw [setFld_out]
    · rw [emit_mailbox_of_silent, setFld_out]
      rw [setFld_skx, h]

theorem exec_mailboxRead (s : State) : exec .mailboxRead s = s.run fun m => m.mailbox false := rfl

/-- The module runs with the LTX PLL out of lock, which silences the links (R479); camera device 0 is still UP. -/
def silentWithDeviceUp : State :=
  { m := { glb := { mode := .run, stage := 0 }, skx := { silent := true, pllDown := 1 },
           cam := { dev := [(0, { state := .up })] } } }

/-- Refutes O58: a mailbox access to an UP device sends nothing while the transceivers are silent, and the clause on the
mailbox, which asks nothing of them, counts one packet more among what has left the module. -/
theorem not_cameraDevicesComeUp : ¬ Obligations.CameraDevicesComeUp := by
  rintro ⟨-, -, -, -, hmail, -⟩
  have hup := (hmail silentWithDeviceUp 0 (by decide) rfl (by decide)).2 (by decide)
  obtain ⟨⟨m, hm, -, hlen⟩, -⟩ := hup
  rw [exec_mailboxRead, run_alive _ _ (by decide)] at hm
  injection hm with hm
  injection hm with hm
  have hout : m.out = silentWithDeviceUp.m.out := by
    rw [← hm, settle_out]
    exact mailbox_out_of_silent false rfl
  rw [hout] at hlen
  exact absurd hlen (by simp)

/-! ### A job table that lists a slot twice -/

/-- The failed block of job slot 0 at its fire horizon. -/
def dueBlock : BadBlock := { job := 0, layer := 0, plane := 0, block := 0, request := none, horizon := 0 }

/-- The job table is not in its canonical form: it lists slot 0 free, and once more open. -/
def slotListedTwice : State :=
  { m := { vgp := { job := [(0, {}), (0, { state := .opened })], bad := [dueBlock] } } }

/-- Writing the free job back erases the first entry, and the second shows. -/
theorem blockHorizonReached_slotListedTwice :
    ∃ m, exec (.blockHorizonReached 0 0 0 0) slotListedTwice = .next { slotListedTwice with m := m } ∧
      (m.job 0).state = .opened := ⟨_, rfl, by decide⟩

/-- Refutes O53: neither `Runs` nor the clause on a block's horizon asks that the job table be canonical. In one that lists
slot 0 twice, counting no lines writes the free job back, which erases its entry, and the slot reads the second one. -/
theorem not_deadlinesDecideAndClustersPark : ¬ Obligations.DeadlinesDecideAndClustersPark := by
  rintro ⟨-, hhorizon, -⟩
  obtain ⟨m, hm, -, -, -, hjob⟩ :=
    hhorizon slotListedTwice 0 0 0 0 dueBlock {} none (by decide) (by decide) (by decide) rfl rfl
  obtain ⟨t, ht, hopened⟩ := blockHorizonReached_slotListedTwice
  have hmt : m = t := by
    have := hm.symm.trans ht
    injection this with this
    injection this
  rw [← hmt, hjob] at hopened
  exact absurd hopened (by decide)

end Sys2Proof.Scope
end

section
/-! SUPPORT. The statements of the station chapter: a cancel's answer, a crossing and what returns by itself, a stop that
leaves the stations, and the statement on the station commands, which fails. -/

namespace Sys2Proof.Stations

open Sys2Proof Sys2Proof.Machine Sys2Proof.Laws Sys2Proof.Scope

/-! ### Slots as the table gives them -/

/-- A value that is not the default reads back, whatever the table listed before. -/
theorem get_set_of_ne_default {α : Type} [DecidableEq α] (d : α) (t : Tab α) (i j : Nat) {v : α} (hv : v ≠ d) :
    Tab.get d (Tab.set d t i v) j = if i = j then v else Tab.get d t j := by
  simp only [Tab.get, Tab.set, Tab.setD, hv, if_false, getD_insert]

theorem slot_setSlot (m : Mach) (n k : Nat) {x : Slot} (hx : x ≠ {}) :
    (m.setSlot n x).slot k = if n = k then x else m.slot k := get_set_of_ne_default _ _ _ _ hx

theorem slot_of_table_eq {a m : Mach} (h : a.stn.slot = m.stn.slot) (n : Nat) : a.slot n = m.slot n := by
  simp only [Mach.slot, h]

theorem ne_fresh_of_state {x : Slot} (h : x.state ≠ .free) : x ≠ {} := by
  rintro rfl
  exact h rfl

/-! ### The answer of a CANCEL (R73) -/

/-- Only a slot with rearm goes back to waiting as it retires, and a cancelled one does not (R82). -/
theorem retired_eq {m : Mach} {x : Slot} {st : SlotState} (h : x.f.rearm = false ∨ st = .cancelled) :
    m.retired x st = { x with state := st } := by
  obtain h | h := h <;> simp [Mach.retired, h]

theorem slot_slotTo_cancelled (m : Mach) (n k : Nat) (x : Slot) :
    (m.slotTo n x .cancelled).slot k = if n = k then { x with state := .cancelled } else m.slot k := by
  have hto : (m.slotTo n x .cancelled).stn = (m.setSlot n { x with state := .cancelled }).stn := by
    simp [Mach.slotTo, SlotState.retired, retired_eq]
  rw [slot_of_table_eq (congrArg Stn.slot hto) k, slot_setSlot _ _ _ (ne_fresh_of_state (by simp))]

/-- One step of the chain of cancellations (R83). -/
theorem retireChain_cancelled_succ (k : Nat) (m : Mach) (n : Nat) (t : Chainage) :
    m.retireChain (k + 1) n .cancelled t = m.slotTo n (m.slot n) .cancelled ∨
      ∃ c u, m.retireChain (k + 1) n .cancelled t =
        (m.slotTo n (m.slot n) .cancelled).retireChain k c .cancelled u := by
  simp only [Mach.retireChain, reduceCtorEq, if_false]
  split
  · exact .inr ⟨_, _, rfl⟩
  · exact .inl rfl

theorem retireChain_keeps_cancelled (k : Nat) (m : Mach) (c n : Nat) (t : Chainage)
    (h : (m.slot n).state = .cancelled) : ((m.retireChain k c .cancelled t).slot n).state = .cancelled := by
  induction k generalizing m c t with
  | zero => exact h
  | succ k ih =>
    have hto : ((m.slotTo c (m.slot c) .cancelled).slot n).state = .cancelled := by
      rw [slot_slotTo_cancelled]
      split
      · rfl
      · exact h
    obtain e | ⟨d, u, e⟩ := retireChain_cancelled_succ k m c t <;> rw [e]
    · exact hto
    · exact ih _ d u hto

theorem retireChain_cancels (k : Nat) (m : Mach) (n : Nat) (t : Chainage) :
    ((m.retireChain (k + 1) n .cancelled t).slot n).state = .cancelled := by
  have hto : ((m.slotTo n (m.slot n) .cancelled).slot n).state = .cancelled := by
    rw [slot_slotTo_cancelled, if_pos rfl]
  obtain e | ⟨d, u, e⟩ := retireChain_cancelled_succ k m n t <;> rw [e]
  · exact hto
  · exact retireChain_keeps_cancelled k _ d n u hto

theorem waiting_iff (st : SlotState) : st.waiting = true ↔ st ∈ [.waitStake, .waitChain, .armed] := by
  cases st <;> decide

theorem cancelSlot_refused {m : Mach} {n : Nat} (h : m.glb.mode = .halt ∨ m.glb.mode = .backsight) :
    m.cancelSlot n true = (m, 7) := by
  simp [Mach.cancelSlot, Mach.inMode, Mach.isBacksight, h]

section Working

variable {m : Mach} {n : Nat} (hh : m.glb.mode ≠ .halt) (hb : m.glb.mode ≠ .backsight)
include hh hb

theorem cancelSlot_waiting (hl : (m.slot n).lastTick ≠ some m.now) (hw : (m.slot n).state.waiting = true) :
    m.cancelSlot n true = (m.retireChain 256 n .cancelled (m.slot n).target, 0) := by
  simp [Mach.cancelSlot, Mach.inMode, Mach.isBacksight, hh, hb, hl, hw]

theorem cancelSlot_idle (hl : (m.slot n).lastTick ≠ some m.now) (hw : ¬ (m.slot n).state.waiting = true) :
    m.cancelSlot n true = (m, 6) := by
  simp [Mach.cancelSlot, Mach.inMode, Mach.isBacksight, hh, hb, hl, hw]

/-- A slot whose occurrence fell on this tick has acted: only a periodic one that goes on is cancelled. -/
theorem cancelSlot_acted (hl : (m.slot n).lastTick = some m.now) :
    m.cancelSlot n true = (if (m.slot n).f.ivl ≠ 0 ∧ (m.slot n).state.waiting = true then
      m.retireChain 256 n .cancelled (m.slot n).target else m, 3) := by
  simp [Mach.cancelSlot, Mach.inMode, Mach.isBacksight, hh, hb, hl]

end Working

theorem exec_stnCommandTaken (s : State) : exec .stnCommandTaken s = execStnCommandTaken s := rfl

/-- The module as a command of slot `n` finds it: the command gone from the queue and, where the slot is crossed on this
tick, every crossed slot's occurrence taken (R70). -/
def atCommand (m : Mach) (n : Nat) (rest : List StnCmd) : Mach :=
  let a : Mach := { m with stn := { m.stn with cmds := rest } }
  if a.slotCrossed n then a.crossAll else a

/-- A CANCEL of STN_CMD answers `cancelSlot`'s result and leaves the slots as it does. -/
theorem reaches_cancelTaken {s : State} {n r : Nat} {rest : List StnCmd} {m : Mach} {p : Mach → Prop} (h : Runs s)
    (hc : s.m.stn.cmds = .cancel n none :: rest) (e : (atCommand s.m n rest).cancelSlot n true = (m, r))
    (hp : ∀ a : Mach, a.stn.result = r → a.stn.slot = m.stn.slot → p a) : Reaches .stnCommandTaken s p := by
  rw [atCommand] at e
  rw [Reaches, exec_stnCommandTaken, execStnCommandTaken]
  refine reaches_of_run h.1 (hp _ ?_ ?_) <;>
    simp only [settle_stn, hc, Option.isNone_none, e, Mach.stnResult]

/-- Settles O3: where a CANCEL is refused, finds nothing waiting, comes after the act of its tick or cancels, its answer is
`cancelSlot`'s, and a slot it cancels stays cancelled whatever its chain retires. -/
theorem aCancelGetsItsAnswer : Obligations.ACancelGetsItsAnswer := by
  intro s n rest d h hc hd
  change d = atCommand s.m n rest at hd
  subst hd
  refine ⟨fun hmode => ?refused, fun hh hb hl => ⟨fun hw => ?waiting, fun hw => ?idle⟩, fun hh hb hl => ?acted⟩
  case refused => exact reaches_cancelTaken h hc (cancelSlot_refused hmode) fun a hr hs => ⟨hr, hs⟩
  case waiting =>
    refine reaches_cancelTaken h hc (cancelSlot_waiting hh hb hl ((waiting_iff _).mpr hw)) fun a hr hs => ⟨hr, ?_⟩
    rw [slot_of_table_eq hs]
    exact retireChain_cancels 255 _ n _
  case idle =>
    have hidle := cancelSlot_idle hh hb hl fun hwait => hw ((waiting_iff _).mp hwait)
    exact reaches_cancelTaken h hc hidle fun a hr hs => ⟨hr, hs⟩
  case acted =>
    refine reaches_cancelTaken h hc (cancelSlot_acted hh hb hl) fun a hr hs => ⟨hr, fun hi hw => ?_, fun hn => ?_⟩
    · rw [slot_of_table_eq hs, if_pos ⟨hi, (waiting_iff _).mpr hw⟩]
      exact retireChain_cancels 255 _ n _
    · rw [hs, if_neg]
      rintro ⟨hi, hwait⟩
      obtain hn | hn := hn
      · exact hi hn
      · exact hn ((waiting_iff _).mp hwait)

/-! ### A one-shot MARK (R66, R67, R79) -/

/-- A record changes the event registers and the field book's queue alone, and takes one sequence number. -/
theorem addRec_eq (m : Mach) (r : Rec) : ∃ evt regs, m.addRec r = { m with evt := evt, regs := regs } ∧
    evt.seq = m.evt.seq + 1 := by
  unfold Mach.addRec
  dsimp only
  split
  · exact ⟨_, _, rfl, rfl⟩
  · exact ⟨_, _, rfl, rfl⟩

theorem decide_of_not_mirroring {m : Mach} (h : m.mirroring = false) (typ : Nat) (c : Chainage) (v1 v2 : Nat) :
    m.decide_ typ c v1 v2 = m := by
  simp [Mach.decide_, Mach.mirror, h]

theorem slotTo_done {m : Mach} {n : Nat} {x : Slot} (hm : m.mirroring = false) (hr : x.f.rearm = false) :
    m.slotTo n x .done = m.setSlot n { x with state := .done } := by
  rw [Mach.slotTo, decide_of_not_mirroring (by simpa [Mach.mirroring] using hm)]
  simp [SlotState.retired, retired_eq (.inl hr)]

/-- The slot once a one-shot occurrence of it has been taken on this tick. -/
def oneShotTaken (m : Mach) (n : Nat) : Slot :=
  { m.slot n with taken := (m.slot n).taken + 1, lastTick := some m.now, actual := m.chn.printed }

theorem oneShotTaken_ne_fresh (m : Mach) (n : Nat) : oneShotTaken m n ≠ {} := by simp [oneShotTaken]

/-- A slot that marks, once, and neither rearms, chains nor notifies. -/
structure OneShotMark (f : SlotFields) : Prop where
  action : f.action = 6
  ivl : f.ivl = 0
  rearm : f.rearm = false
  chainEn : f.chainEn = false
  notify : f.notify = false

/-- Where nothing is mirrored, such a slot's occurrence is its record and the slot done. -/
theorem occur_mark {m : Mach} {n : Nat} (chain : Mach → Nat → Chainage → Mach) (hm : m.mirroring = false)
    (k : OneShotMark (m.slot n).f) :
    (m.occur n true chain).1 =
      ((m.raise Ev.stnMark .info (m.slot n).f.sel (m.slot n).f.arg).setSlot n (oneShotTaken m n)).setSlot n
        { oneShotTaken m n with state := .done } := by
  have hact : m.slotAct n (m.slot n) (m.slot n).target =
      (m.raise Ev.stnMark .info (m.slot n).f.sel (m.slot n).f.arg, true) := by simp [Mach.slotAct, k.action]
  generalize hr : m.raise Ev.stnMark .info (m.slot n).f.sel (m.slot n).f.arg = r at hact ⊢
  have hnow : ({ m.slot n with taken := (m.slot n).taken + 1, lastTick := some r.now, actual := r.chn.printed } : Slot) =
      oneShotTaken m n := by simp [← hr, oneShotTaken, Mach.now]
  have hread : (r.setSlot n (oneShotTaken m n)).slot n = oneShotTaken m n := by
    rw [slot_setSlot _ _ _ (oneShotTaken_ne_fresh _ _), if_pos rfl]
  have hmirror : (r.setSlot n (oneShotTaken m n)).mirroring = false := by
    simpa [Mach.mirroring, ← hr] using hm
  have hdone := slotTo_done (n := n) hmirror (x := oneShotTaken m n) k.rearm
  simp only [Mach.occur, if_true, hact, hnow, hread, hdone, k.ivl, k.chainEn, k.notify, Bool.false_and,
    Bool.false_eq_true, if_false]

theorem crossAll_of_none {m : Mach} (h : m.crossedSlots = []) : m.crossAll = m := by simp [Mach.crossAll, h]

/-- The one slot crossed on a tick takes its occurrence, which nothing of another slot bars (R78). -/
theorem crossAll_of_one {m : Mach} {n : Nat} (h : m.crossedSlots = [n]) :
    m.crossAll = (m.occur n true Mach.armChained).1 := by
  have hn : m.slotCrossed n = true := by
    have hmem : n ∈ m.crossedSlots := by simp [h]
    exact (List.mem_filter.mp hmem).2
  simp [Mach.crossAll, h, hn, Mach.crossOne]

theorem exec_stationCrossing (s : State) : exec .stationCrossing s = s.run fun m => m.crossAll := rfl

/-- The one crossed slot marks: one record, the slot done and the rest as it was. -/
theorem reaches_mark {s : State} {n : Nat} (h : Runs s) (hc : s.m.crossedSlots = [n]) (hm : s.m.mirroring = false)
    (k : OneShotMark (s.m.slot n).f) : Reaches .stationCrossing s fun m =>
      m = { s.m with stn := { s.m.stn with slot := m.stn.slot }, evt := m.evt, regs := m.regs } ∧
      m.slot n = { oneShotTaken s.m n with state := .done } ∧
      (∀ k ≠ n, m.slot k = s.m.slot k) ∧ m.evt.seq = s.m.evt.seq + 1 := by
  obtain ⟨evt, regs, hrec, hseq⟩ : ∃ evt regs, s.m.raise Ev.stnMark .info (s.m.slot n).f.sel (s.m.slot n).f.arg =
    { s.m with evt := evt, regs := regs } ∧ evt.seq = s.m.evt.seq + 1 := addRec_eq s.m _
  have hcross := (crossAll_of_one hc).trans (occur_mark Mach.armChained hm k)
  rw [hrec] at hcross
  refine ⟨_, becomes_of_exec (exec_stationCrossing s) h hcross ⟨rfl, rfl, id⟩, rfl, ?_, fun k hk => ?_, hseq⟩
  · rw [slot_setSlot _ _ _ (ne_fresh_of_state (by simp)), if_pos rfl]
  · rw [slot_setSlot _ _ _ (ne_fresh_of_state (by simp)), if_neg hk.symm,
      slot_setSlot _ _ _ (oneShotTaken_ne_fresh _ _), if_neg hk.symm]
    rfl

/-! ### The ends of pulses, of gaps and of inhibits (R81, R84) -/

theorem keeps_setOut (m : Mach) (n : Nat) (x : StnOut) : Keeps m (m.setOut n x) :=
  ⟨by simp, by simp, fun hs => powerSafe_of_eq hs (by simp) (by simp) (by simp) (by simp) (by simp) (by simp) (by simp)
    (by simp)⟩

theorem exec_pulseEnd (n : Nat) (s : State) : exec (.pulseEnd n) s = s.run fun m => match (m.stnOut n).pulse with
    | some t => if t ≤ m.now then m.endPulse n false t else m
    | none => m := rfl

theorem exec_minGapEnd (n : Nat) (s : State) : exec (.minGapEnd n) s = s.run fun m => match (m.stnOut n).gap with
    | some t => if t ≤ m.now then m.setOut n { m.stnOut n with gap := none } else m
    | none => m := rfl

theorem exec_liftInhibitEnd (g : Nat) (s : State) : exec (.liftInhibitEnd g) s = s.run fun m =>
    match (Tab.get ({} : Lift) m.stn.lift g).ends with
    | some e => if chnAtOrAhead m.chn.printed e then
        { m with stn := { m.stn with lift := Tab.set {} m.stn.lift g {} } } else m
    | none => m := rfl

theorem endPulse_of_pulse {m : Mach} {n p : Nat} (active : Bool) (t : Nat) (h : (m.stnOut n).pulse = some p) :
    m.endPulse n active t = m.setOut n { m.stnOut n with
      active := active, pulse := none, gap := if m.minGap n = 0 then (m.stnOut n).gap else some (t + m.minGap n) } := by
  by_cases hg : m.minGap n = 0 <;> simp [Mach.endPulse, h, hg]

/-- A pulse whose width has passed ends, and its min_gap counts from that tick where there is one. -/
theorem becomes_pulseEnd {s : State} {n t : Nat} (h : Runs s) (hp : (s.m.stnOut n).pulse = some t) (ht : t ≤ s.m.now) :
    Becomes (.pulseEnd n) s (s.m.setOut n { s.m.stnOut n with
      active := false, pulse := none,
      gap := if s.m.minGap n = 0 then (s.m.stnOut n).gap else some (t + s.m.minGap n) }) :=
  becomes_of_exec (exec_pulseEnd n s) h (by simp only [hp, ht, if_true, endPulse_of_pulse false t hp]) (keeps_setOut _ _ _)

/-- Settles O21: a crossing by the one crossed slot's occurrence, and each end by whether its tick or chainage has come. -/
theorem stationsActAndReturn : Obligations.StationsActAndReturn := by
  refine ⟨fun s n h hc hm ha hi hr hk hn => reaches_mark h hc hm ⟨ha, hi, hr, hk, hn⟩,
    fun s h hc => becomes_same (exec_stationCrossing s) h (crossAll_of_none hc),
    fun s n t h hp ht hg => ?gap, fun s n t h hp ht hg => ?noGap, fun s n t h hp ht => ?early,
    fun s n t h hp ht => ?gapOver, fun s n t h hp ht => ?gapRuns, fun s g e h he => ?lift⟩
  case gap =>
    have hmin : s.m.minGap n ≠ 0 := by simp only [Mach.minGap]; omega
    have hend := becomes_pulseEnd h hp ht
    rwa [if_neg hmin] at hend
  case noGap =>
    have hmin : s.m.minGap n = 0 := by simp only [Mach.minGap]; omega
    have hend := becomes_pulseEnd h hp ht
    rwa [if_pos hmin] at hend
  case early => exact becomes_same (exec_pulseEnd n s) h (by simp [hp, Nat.not_le.mpr ht])
  case gapOver =>
    exact becomes_of_exec (exec_minGapEnd n s) h (by simp [hp, ht]) (keeps_setOut _ _ _)
  case gapRuns => exact becomes_same (exec_minGapEnd n s) h (by simp [hp, Nat.not_le.mpr ht])
  case lift =>
    refine becomes_of_exec (exec_liftInhibitEnd g s) h (by simp only [he]) ?_
    split
    · exact ⟨rfl, rfl, id⟩
    · exact .refl _

/-! ### A slot table that is not in rising order -/

/-- The slot table is not in its canonical form: it lists slot 5 before slot 3, which is done and has skips. A commit of
the fresh fields to slot 3 is on its way, with its target one link ahead. -/
def slotsOutOfOrder : State :=
  { m := { glb := { mode := .run, stage := 0 }, chn := { vote := .two, printed := 0xFFFFFFFFFFFF },
           stn := { busy := true, cmds := [.commit 3 {} none],
                    slot := [(5, { state := .done }), (3, { state := .done, skips := 7 })] } } }

/-- Clearing slot 3 stops at slot 5, so the commit arms slot 3 with the skips it had. -/
theorem stnCommandTaken_slotsOutOfOrder :
    ∃ m, exec .stnCommandTaken slotsOutOfOrder = .next { slotsOutOfOrder with m := m } ∧ (m.slot 3).skips = 7 :=
  ⟨_, rfl, by decide⟩

/-- Refutes O20: neither `Runs` nor the clause on a commit by number asks that the slot table be canonical. In one whose
keys do not rise, putting the fresh slot before arming erases nothing, and the slot is armed with its old skips. -/
theorem not_stationCommandsQueueAndTakeEffect : ¬ Obligations.StationCommandsQueueAndTakeEffect := by
  rintro ⟨-, -, -, -, -, hcommit, -⟩
  obtain ⟨m, hm, -, hslot, -⟩ := hcommit slotsOutOfOrder 3 {} [] (by decide) rfl (by decide) (by decide) (by decide)
    (by decide) (by decide) (by decide) (by decide) (by decide)
  obtain ⟨t, ht, hskips⟩ := stnCommandTaken_slotsOutOfOrder
  have hmt : m = t := by
    have := hm.symm.trans ht
    injection this with this
    injection this
  rw [← hmt, hslot] at hskips
  exact absurd hskips (by decide)

/-! ### A stop and the stations (R69) -/

/-- A stop's working leaves the stations and every register of their block as they were, and a stopped module stopped: its
completions are held and not written (R136). -/
structure KeepsStations (a m : Mach) : Prop where
  stn : m.stn = a.stn
  regs : ∀ off, off / 65536 = Reg.STN_CMD / 65536 → m.rd off = a.rd off
  stopped : a.hst.stopped = true → m.hst.stopped = true

theorem rd_wr_ne (m : Mach) {off i : Nat} (v : Nat) (h : off ≠ i) : (m.wr off v).rd i = m.rd i := by
  simp only [Mach.rd, Mach.wr, getD_setD_ne _ _ _ _ _ h]

namespace KeepsStations

variable {a m : Mach}

theorem refl (m : Mach) : KeepsStations m m := ⟨rfl, fun _ _ => rfl, id⟩

theorem trans {b : Mach} (k : KeepsStations a b) (l : KeepsStations b m) : KeepsStations a m :=
  ⟨l.stn.trans k.stn, fun off h => (l.regs off h).trans (k.regs off h), fun h => l.stopped (k.stopped h)⟩

/-- Blocks other than STN and the registers may change freely. -/
theorem same {n : Mach} (k : KeepsStations a m) (hs : n.stn = m.stn := by rfl) (hr : n.regs = m.regs := by rfl)
    (hh : n.hst = m.hst := by rfl) : KeepsStations a n :=
  k.trans ⟨hs, fun off _ => by simp only [Mach.rd, hr], fun h => by rw [hh, h]⟩

theorem ite {c : Prop} [Decidable c] {n : Mach} (km : KeepsStations a m) (kn : KeepsStations a n) :
    KeepsStations a (if c then m else n) := by
  split
  · exact km
  · exact kn

theorem foldl {α : Type} {f : Mach → α → Mach} (k : KeepsStations a m) (l : List α)
    (h : ∀ m x, KeepsStations a m → KeepsStations a (f m x)) : KeepsStations a (l.foldl f m) :=
  List.foldlRecOn l f k fun m k x _ => h m x k

theorem forRange {f : Nat → Mach → Mach} (k : KeepsStations a m) (n : Nat)
    (h : ∀ i m, KeepsStations a m → KeepsStations a (f i m)) : KeepsStations a (Machine.forRange n f m) :=
  k.foldl _ fun m i => h i m

theorem wr (k : KeepsStations a m) {off : Nat} (v : Nat) (h : off / 65536 ≠ Reg.STN_CMD / 65536) :
    KeepsStations a (m.wr off v) :=
  k.trans ⟨rfl, fun _ hi => rd_wr_ne m v fun e => h (e ▸ hi), id⟩

theorem setFld (k : KeepsStations a m) {f : Fld} (v : Nat) (h : f.off / 65536 ≠ Reg.STN_CMD / 65536) :
    KeepsStations a (m.setFld f v) := k.wr _ h

theorem addSat (k : KeepsStations a m) {f : Fld} (n : Nat) (h : f.off / 65536 ≠ Reg.STN_CMD / 65536) :
    KeepsStations a (m.addSat f n) := k.setFld _ h

theorem addPair (k : KeepsStations a m) {lo : Nat} (n : Nat) (h : lo / 65536 ≠ Reg.STN_CMD / 65536)
    (h4 : (lo + 4) / 65536 ≠ Reg.STN_CMD / 65536) : KeepsStations a (m.addPair lo n) := (k.wr _ h).wr _ h4

/-- EVT's registers lie above those of the stations. -/
theorem raise (k : KeepsStations a m) (e : Ev) (sev : Sev) (a0 a1 : Nat) : KeepsStations a (m.raise e sev a0 a1) := by
  have hcnt : (Reg.EVT_CNT.cnt e.code).off / 65536 ≠ Reg.STN_CMD / 65536 := by
    simp only [Reg.EVT_CNT.cnt, Reg.STN_CMD]; omega
  refine (k.addSat 1 hcnt).same ?_ ?_ ?_ <;> simp only [Mach.raise, Mach.raiseAt, Mach.addRec] <;> split <;> rfl

/-! #### What goes to the partner -/

theorem checked (k : KeepsStations a m) (u n bad : Nat) : KeepsStations a (m.checked u n bad) := by
  refine .addSat (.setFld k _ ?_) bad ?_ <;> simp only [Reg.CHK_U_COUNT.cnt, Reg.CHK_U_MISMATCH.cnt, Reg.STN_CMD] <;>
    omega

theorem sendMirror (k : KeepsStations a m) (rs : List MirrorItem) : KeepsStations a (m.sendMirror rs) :=
  k.foldl _ fun _ _ k => k.foldl _ fun _ _ k => (k.checked 22 1 0).same (by simp) (by simp) (by simp)

theorem mirror (k : KeepsStations a m) (c : Bool) (b : MirrorRec) : KeepsStations a (m.mirror c b) := by
  unfold Mach.mirror
  split
  · extract_lets q i
    exact .sendMirror (.same k) _
  · exact k

theorem decide_ (k : KeepsStations a m) (typ : Nat) (c : Chainage) (v w : Nat) : KeepsStations a (m.decide_ typ c v w) :=
  k.mirror _ _

/-! #### The Traverse -/

theorem updateCeiling (k : KeepsStations a m) : KeepsStations a m.updateCeiling := by
  unfold Mach.updateCeiling
  extract_lets c e lower shown counted
  have hshown : KeepsStations a shown := .setFld (.setFld k _ (by decide)) _ (by decide)
  have hboot : KeepsStations a m.ceilingShown := .setFld (.setFld k _ (by decide)) _ (by decide)
  exact .ite hboot (.ite (.setFld k _ (by decide)) (.raise (.same hshown) _ _ _ _))

theorem stallEnds (k : KeepsStations a m) (e : Nat) : KeepsStations a (m.stallEnds e) := by
  unfold Mach.stallEnds
  extract_lets g
  split
  · exact (k.addPair (lo := Reg.TRV_STALL_LO) _ (by decide) (by decide)).same
  · exact k

theorem abandon (k : KeepsStations a m) (p : Nat → Bool) : KeepsStations a (m.abandon p) := by
  unfold Mach.abandon
  refine k.foldl _ fun m e k => ?_
  extract_lets stalled g g'
  have hstall : KeepsStations a stalled := .ite (k.stallEnds e) k
  split
  · split
    · exact .addSat (.same hstall) _ (by decide)
    · exact hstall.same
  · exact hstall.same

theorem discardSwaths (k : KeepsStations a m) (p : Nat → Bool) : KeepsStations a (m.discardSwaths p) := by
  unfold Mach.discardSwaths
  extract_lets abandoned
  have h : KeepsStations a abandoned := k.abandon p
  clear_value abandoned
  exact h.same

theorem parkUpdate (k : KeepsStations a m) : KeepsStations a m.parkUpdate := by
  unfold Mach.parkUpdate
  extract_lets host steps src ordered
  refine .foldl (.same k) _ fun m e k => ?_
  extract_lets g unclaimed stalled
  split
  · split <;> exact k.same
  · split
    · exact k
    · have hfree : KeepsStations a unclaimed := by
        unfold unclaimed
        split
        · exact k.same
        · exact k
      exact (hfree.stallEnds e).same

/-! #### Jobs that end -/

theorem jobState (k : KeepsStations a m) (j : Nat) (st : JobState) : KeepsStations a (m.jobState j st) := by
  unfold Mach.jobState
  extract_lets x raised
  have hraised : KeepsStations a raised := .raise (.same k) _ _ _ _
  exact .updateCeiling (hraised.mirror _ _)

theorem storeCheck (k : KeepsStations a m) : KeepsStations a m.storeCheck := by
  unfold Mach.storeCheck
  extract_lets low free
  exact .ite (.ite k.same k) (.ite (.raise (.same k) _ _ _ _) k)

theorem freeJob (k : KeepsStations a m) (j : Nat) : KeepsStations a (m.freeJob j) := by
  unfold Mach.freeJob
  exact .storeCheck (.same (k.jobState j .free))

/-- FGD's registers lie above those of the stations. -/
theorem countBlank (k : KeepsStations a m) (hub cause n : Nat) : KeepsStations a (m.countBlank hub cause n) := by
  have hcnt : (Reg.FGD_HB_BLANK.cnt hub cause).off / 65536 ≠ Reg.STN_CMD / 65536 := by
    simp only [Reg.FGD_HB_BLANK.cnt, Reg.STN_CMD]; omega
  unfold Mach.countBlank
  split
  · exact k
  · exact ((k.addSat n hcnt).addPair (lo := Reg.FGD_BLANK_TOTAL_LO) n (by decide) (by decide)).same

theorem cutJob (k : KeepsStations a m) (j cause : Nat) : KeepsStations a (m.cutJob j cause).1 := by
  unfold Mach.cutJob
  extract_lets x c count counted r discarded
  have hcount (m : Mach) (h : Nat) (k : KeepsStations a m) : KeepsStations a (count m h) := by
    unfold count
    extract_lets off r seen m'
    exact .countBlank (k.foldl _ fun m e k => .ite k (k.countBlank _ _ _)) _ _ _
  have hcounted : KeepsStations a counted := .ite (k.foldl _ hcount) k
  have hdiscarded : KeepsStations a discarded := hcounted.discardSwaths _
  clear_value discarded
  exact hdiscarded.same

theorem keepPast (k : KeepsStations a m) (j : Nat) : KeepsStations a (m.keepPast j) := by
  unfold Mach.keepPast
  extract_lets x
  exact .ite k k.same

theorem cplQueue (k : KeepsStations a m) (ha : a.hst.stopped = true) (t : Nat) (c : Cpl) :
    KeepsStations a (m.cplQueue t c) := by
  simp only [Mach.cplQueue, k.stopped ha, if_true]
  exact k.trans ⟨rfl, fun _ _ => rfl, fun _ => rfl⟩

theorem endJob (k : KeepsStations a m) (ha : a.hst.stopped = true) (j : Nat) (st : Status) (c : Chainage) (value : Nat) :
    KeepsStations a (m.endJob j st c value) := by
  unfold Mach.endJob
  extract_lets x past cpl queued owed _ closed cleared _ freed stored _
  have hqueued : KeepsStations a queued := (k.keepPast j).cplQueue ha _ _
  clear_value queued
  have hclosed : KeepsStations a closed := hqueued.same
  have hswaths := hclosed.discardSwaths fun k => keyJob k = j
  have hcleared : KeepsStations a cleared := by
    unfold cleared
    generalize closed.discardSwaths _ = swaths at hswaths
    exact hswaths.same
  clear_value cleared
  have hfreed : KeepsStations a freed := hcleared.same
  have hstored : KeepsStations a stored := hfreed.jobState j .stored
  clear_value stored
  exact .ite (hfreed.freeJob j) hstored.same

theorem oweUsage (k : KeepsStations a m) : KeepsStations a m.oweUsage := k.same

theorem endActive (k : KeepsStations a m) (ha : a.hst.stopped = true) (cause : Nat) (all : Bool) :
    KeepsStations a (m.endActive cause all) := by
  unfold Mach.endActive
  refine k.forRange 8 fun j m k => ?_
  extract_lets x n cut
  exact .ite ((k.cutJob j cause).endJob ha j _ _ _) k

/-! #### The axes -/

theorem setCoils (k : KeepsStations a m) (i : Nat) (x : Axis) : KeepsStations a (m.setCoils i x) := by
  unfold Mach.setCoils
  split
  · exact k.same
  · extract_lets off
    have hoff : KeepsStations a off := .ite (k.same (by simp) (by simp) (by simp)) k
    clear_value off
    exact hoff.same

theorem axisTo (k : KeepsStations a m) (i : Nat) (x : Axis) (reported : Bool) :
    KeepsStations a (m.axisTo i x reported) := by
  unfold Mach.axisTo
  extract_lets old driven recorded
  have hdriven : KeepsStations a driven := k.setCoils i x
  have hrecorded : KeepsStations a recorded := hdriven.decide_ _ _ _ _
  exact .ite hdriven (.ite (hrecorded.raise _ _ _ _) hrecorded)

theorem stopAxisNow (k : KeepsStations a m) (i : Nat) (byMode : Bool) : KeepsStations a (m.stopAxisNow i byMode) := by
  unfold Mach.stopAxisNow
  extract_lets x y
  exact .ite (k.axisTo i y byMode) k

theorem motStop (k : KeepsStations a m) : KeepsStations a m.motStop := by
  unfold Mach.motStop
  exact k.forRange 12 fun i m k => .ite (k.stopAxisNow i false) k

/-! #### The mode, and the stop itself -/

theorem benchEnd (k : KeepsStations a m) (result : Nat) : KeepsStations a (m.benchEnd result) := by
  unfold Mach.benchEnd
  split
  · exact k
  · extract_lets n
    exact .raise k.same _ _ _ _

theorem modeTo (k : KeepsStations a m) (mode : Mode) (source : Nat) : KeepsStations a (m.modeTo mode source) := by
  unfold Mach.modeTo
  extract_lets old benched since cut _ entered raised refused
  have hbenched : KeepsStations a benched := .ite (k.benchEnd 1) k
  have hsince : KeepsStations a since := .ite hbenched.same hbenched
  clear_value since
  have hentered : KeepsStations a entered := hsince.same
  have hraised : KeepsStations a raised := hentered.raise _ _ _ _
  have hrefused : KeepsStations a refused := .ite (hraised.raise _ _ _ _) hraised
  exact .ite k hrefused.parkUpdate

/-- HST may change as well, as long as a stopped module stays stopped. -/
theorem hst {h : Hst} (k : KeepsStations a m) (hh : m.hst.stopped = true → h.stopped = true) :
    KeepsStations a { m with hst := h } := k.trans ⟨rfl, fun _ _ => rfl, hh⟩

/-- A stop keeps the stations. Once it has marked the module stopped, the entries of the jobs it ends are held. -/
theorem stop (m : Mach) (src : StopSrc) : KeepsStations m (m.stop src) := by
  unfold Mach.stop
  split
  · exact .refl m
  · extract_lets bits _ counted _ stopped prints lost owed ready raised
    have hmarked : KeepsStations m { m with hst := { m.hst with stopSrc := bits } } := .hst (.refl m) id
    have hcounted : KeepsStations m counted := hmarked.addSat (f := Reg.HST_STOP_CNT.cnt) 1 (by decide)
    split
    · exact hcounted.decide_ _ _ _ _
    · have hstopped : KeepsStations m stopped := hcounted.hst fun _ => rfl
      have howed : KeepsStations stopped owed := (KeepsStations.refl stopped).motStop.oweUsage
      have hready : KeepsStations stopped ready := .ite ((howed.endActive rfl 6 false).modeTo .ready 2) howed
      exact hstopped.trans ((hready.raise _ _ _ _).decide_ _ _ _ _)

theorem settle (k : KeepsStations a m) : KeepsStations a m.settle := by
  unfold Mach.settle
  exact .ite (.raise k.same _ _ _ _) k

end KeepsStations

/-- STOP_n's fall as an effect of the module: the land is low, and a running module stops. -/
def stopLandFalls (m : Mach) : Mach :=
  if !m.hst.stopN then m
  else
    let low : Mach := { m with hst := { m.hst with stopN := false } }
    if low.alive then low.stop .land else low

theorem keepsStations_stopLandFalls (m : Mach) : KeepsStations m (stopLandFalls m) := by
  unfold stopLandFalls
  extract_lets _ low
  have hlow : KeepsStations m low := .hst (.refl m) id
  exact .ite (.refl m) (.ite (hlow.trans (.stop low .land)) hlow)

theorem exec_stopPageWrite (s : State) : exec .stopPageWrite s = s.run fun m => m.stop .page := rfl

theorem exec_doorbell_stopPage (off val : Nat) (s : State) :
    exec (.doorbell 0 off val) s = s.run fun m => m.stop .page := rfl

theorem exec_stopNFall (s : State) : exec .stopNFall s = s.runAon stopLandFalls := rfl

/-- A command whose effect keeps the stations leaves them and their registers as they were. -/
theorem reaches_kept {c : Instr} {s : State} {m : Mach}
    (hx : exec c s = .next { s with m := ({ m with dram := s.m.dram, otp := s.m.otp } : Mach).settle })
    (k : KeepsStations s.m m) :
    Reaches c s fun m => m.stn = s.m.stn ∧ ∀ a, a / 65536 = Reg.STN_CMD / 65536 → m.rd a = s.m.rd a := by
  have hsettled : KeepsStations s.m ({ m with dram := s.m.dram, otp := s.m.otp } : Mach).settle := .settle k.same
  exact ⟨_, hx, hsettled.stn, hsettled.regs⟩

/-- Settles O11: every operation that a stop's working passes through keeps the stations, its own registers and those of
the blocks it acts on standing outside theirs. -/
theorem aStopLeavesTheStations : Obligations.AStopLeavesTheStations := by
  intro s off val h c hc
  simp only [List.mem_cons, List.not_mem_nil, or_false] at hc
  obtain rfl | rfl | rfl := hc
  · exact reaches_kept ((exec_stopPageWrite s).trans (run_alive _ _ h.1)) (.stop s.m .page)
  · exact reaches_kept ((exec_doorbell_stopPage off val s).trans (run_alive _ _ h.1)) (.stop s.m .page)
  · exact reaches_kept (exec_stopNFall s) (keepsStations_stopLandFalls s.m)

end Sys2Proof.Stations
end

section
/-! SUPPORT. The statements of the Datum chapter: the latch of the clock, who sets it and what SNAP keeps, the stamps of
PTP messages, and the ports with their links and beacons. -/

namespace Sys2Proof.Datum

open Sys2Proof Sys2Proof.Machine Sys2Proof.Laws Sys2Proof.Scope Sys2Proof.Stations

/-! ### Changes that head power does not hang on -/

/-- DRAM, the fuses, GLB, FGD and the stop are all that `Keeps` speaks of. -/
theorem keeps_of_frame {a m : Mach} (hd : m.dram = a.dram) (ho : m.otp = a.otp) (hg : m.glb = a.glb)
    (hf : m.fgd = a.fgd) (hn : m.hst.stopN = a.hst.stopN) (hs : m.hst.stopSrc = a.hst.stopSrc) : Keeps a m :=
  ⟨hd, ho, fun h =>
    powerSafe_of_eq h (by rw [hg]) (by rw [hg]) hn hs (by rw [hf]) (by rw [hf]) (by rw [hf]) (by rw [hf])⟩

theorem keeps_trans {a b m : Mach} (k : Keeps a b) (l : Keeps b m) : Keeps a m :=
  ⟨l.dram.trans k.dram, l.otp.trans k.otp, l.safe ∘ k.safe⟩

/-- The module has changed in its registers, its records and what has left it alone. -/
def Reports (a m : Mach) : Prop := ∃ regs evt out, m = { a with regs := regs, evt := evt, out := out }

namespace Reports

variable {a m : Mach}

theorem refl (m : Mach) : Reports m m := ⟨_, _, _, rfl⟩

theorem trans {n : Mach} (k : Reports a m) (l : Reports m n) : Reports a n := by
  obtain ⟨_, _, _, rfl⟩ := k
  obtain ⟨_, _, _, rfl⟩ := l
  exact ⟨_, _, _, rfl⟩

theorem keeps (k : Reports a m) : Keeps a m := by
  obtain ⟨_, _, _, rfl⟩ := k
  exact ⟨rfl, rfl, id⟩

theorem emit (m : Mach) (o : Output) : Reports m (m.emit o) := by
  unfold Mach.emit
  split <;> exact ⟨_, _, _, rfl⟩

theorem wr (m : Mach) (off v : Nat) : Reports m (m.wr off v) := ⟨_, _, _, rfl⟩

theorem raiseAt (m : Mach) (e : Ev) (c : Chainage) (sev : Sev) (a0 a1 : Nat) : Reports m (m.raiseAt e c sev a0 a1) := by
  obtain ⟨_, _, h, -⟩ := addRec_eq m _
  exact ⟨_, _, _, h⟩

theorem raise (m : Mach) (e : Ev) (sev : Sev) (a0 a1 : Nat) : Reports m (m.raise e sev a0 a1) := raiseAt _ _ _ _ _ _

theorem setRate (m : Mach) (k : Nat) (r : RateSrc) : Reports m (m.setRate k r) := ⟨_, _, _, rfl⟩

theorem rateFlush (m : Mach) (e : Ev) (source : Nat) : Reports m (m.rateFlush e source) :=
  (raiseAt m _ _ _ _ _).trans ⟨_, _, _, rfl⟩

theorem raiseRated (m : Mach) (e : Ev) (source : Nat) (sev : Sev) (a0 a1 n : Nat)
    (join : Nat × Nat → Nat × Nat → Nat × Nat) : Reports m (m.raiseRated e source sev a0 a1 n join) := by
  unfold Mach.raiseRated
  split
  · exact refl m
  · extract_lets k r
    split
    · exact (setRate m k _).trans (rateFlush _ e source)
    · exact setRate m k _

theorem foldl {α : Type} {f : Mach → α → Mach} (h : ∀ m x, Reports m (f m x)) (l : List α) (m : Mach) :
    Reports m (l.foldl f m) :=
  List.foldlRecOn l f (refl m) fun n k x _ => k.trans (h n x)

end Reports

/-- The state of DTM beside its registers is nothing that `Keeps` speaks of, and neither is that of ETH. -/
theorem keeps_dtm {a m : Mach} (k : Keeps a m) (d : Dtm) : Keeps a { m with dtm := d } := ⟨k.dram, k.otp, k.safe⟩

theorem keeps_eth {a m : Mach} (k : Keeps a m) (e : Eth) : Keeps a { m with eth := e } := ⟨k.dram, k.otp, k.safe⟩

theorem keeps_setEthPort {a m : Mach} (k : Keeps a m) (p : Nat) (x : EthPort) : Keeps a (m.setEthPort p x) :=
  keeps_eth k _

theorem keeps_raise {a m : Mach} (k : Keeps a m) (e : Ev) (sev : Sev) (a0 a1 : Nat) : Keeps a (m.raise e sev a0 a1) :=
  keeps_trans k (Reports.raise m e sev a0 a1).keeps

/-- A telemetry record takes its place in the ring, waits in a stop or is dropped (R120, R136). -/
theorem keeps_tlmWrite {a m : Mach} (k : Keeps a m) (typ : Nat) (body : List Byte) : Keeps a (m.tlmWrite typ body) := by
  unfold Mach.tlmWrite
  extract_lets e _ counted
  have hcounted : Keeps a counted := keeps_trans k ⟨rfl, rfl, id⟩
  clear_value counted
  split
  · exact keeps_trans hcounted ⟨rfl, rfl, id⟩
  · refine keeps_trans hcounted ?_
    unfold Mach.sendHeld
    dsimp only
    split <;> apply keeps_of_frame <;> simp

/-! ### The latch of the clock (R92) -/

/-- The latched halves once DTM_TIME_LO has been read: the high half and the fraction as they show now. -/
def clockLatched (m : Mach) : Tab (Option Word) :=
  Tab.set none (Tab.set none m.hiLatch Reg.DTM_TIME_HI (some (word (m.regRead Reg.DTM_TIME_HI)))) Reg.DTM_TIME_FRAC
    (some (word (m.regRead Reg.DTM_TIME_FRAC)))

theorem bar0Access_DTM_TIME_LO {m : Mach} (hm : m.glb.mode ≠ .boot) : m.bar0Access Reg.DTM_TIME_LO =
    { m with hiLatch := clockLatched m, out := .hostRead (leBytes 4 (m.bar0Read Reg.DTM_TIME_LO)) :: m.out } := by
  have hpair : isPairLo Reg.DTM_TIME_LO = true := by decide
  simp only [Mach.bar0Access, answers_of_running _ hm, hpair, Bool.not_true, Bool.false_eq_true, if_false, if_true,
    emit_hostRead, Mach.latch, regRead_out]
  rfl

theorem get_clockLatched (m : Mach) (a : Nat) : Tab.get none (clockLatched m) a =
    if a = Reg.DTM_TIME_FRAC then some (word (m.regRead Reg.DTM_TIME_FRAC))
    else if a = Reg.DTM_TIME_HI then some (word (m.regRead Reg.DTM_TIME_HI))
    else Tab.get none m.hiLatch a := by
  simp only [clockLatched, get_latched, eq_comm]

/-- Settles O1: the read is the two latches and the answer, and a latched half reads back. -/
theorem readingTheClockLatchesIt : Obligations.ReadingTheClockLatchesIt := by
  intro s h hm
  have hread := becomes_loReadLatch h (by decide) (by decide) (bar0Access_DTM_TIME_LO hm) ⟨rfl, rfl, id⟩
  refine ⟨_, hread, (get_clockLatched _ _).trans ?high, (get_clockLatched _ _).trans ?fraction,
    fun a hi hfrac => (get_clockLatched _ a).trans ?other, rfl⟩
  case high => rw [if_neg (by decide), if_pos rfl]
  case fraction => rw [if_pos rfl]
  case other => rw [if_neg hfrac, if_neg hi]

/-! ### The owner sets the clock (R89 to R91, R94) -/

section Writes

variable {m : Mach} {fw : Bool} (hi : Nat)

theorem incrHi_of_owner {v : Nat} (ho : m.ownsServo fw = true)
    (hv : v = clampNat incrMin incrMax (hi % 256 * 2 ^ 32 + m.rd Reg.DTM_INCR_LO)) :
    m.incrHi hi fw = { ((m.wr Reg.DTM_INCR_LO (v % 2 ^ 32)).wr Reg.DTM_INCR_HI (v / 2 ^ 32)) with
      dtm := { m.dtm with incr := BitVec.ofNat 40 v } } := by
  simp only [Mach.incrHi, ho, ← hv, Bool.not_true, Bool.false_eq_true, if_false, wr_dtm]

theorem offsetHi_of_owner (ho : m.ownsServo fw = true) (hp : m.dtm.pendingOff = none) :
    m.offsetHi hi fw = { (m.wr Reg.DTM_OFFSET_HI (hi % 2 ^ 32)) with dtm := { m.dtm with
      pendingOff := some (BitVec.ofNat 64 ((m.wr Reg.DTM_OFFSET_HI (hi % 2 ^ 32)).pair Reg.DTM_OFFSET_LO)) } } := by
  simp [Mach.offsetHi, ho, hp]

theorem offsetHi_of_pending (ho : m.ownsServo fw = true) (hp : m.dtm.pendingOff ≠ none) :
    m.offsetHi hi fw = m.adjRefuse 2 1 := by
  simp [Mach.offsetHi, ho, Option.isSome_iff_ne_none.mpr hp]

theorem epochHi_of_owner {e : Nat} (ho : m.ownsServo fw = true)
    (he : e = (m.wr Reg.DTM_EPOCH_HI (hi % 2 ^ 32)).pair Reg.DTM_EPOCH_LO) :
    m.epochHi hi fw = (({ (m.wr Reg.DTM_EPOCH_HI (hi % 2 ^ 32)) with
      dtm := { m.dtm with epoch := BitVec.ofNat 64 e } } : Mach).raise Ev.dtmEpoch .info (e % 2 ^ 32) (e / 2 ^ 32)) := by
  subst he
  simp [Mach.epochHi, ho]

theorem incrHi_of_other (ho : m.ownsServo fw = false) : m.incrHi hi fw = m.adjRefuse 1 0 := by
  simp [Mach.incrHi, ho]

theorem offsetHi_of_other (ho : m.ownsServo fw = false) : m.offsetHi hi fw = m.adjRefuse 1 1 := by
  simp [Mach.offsetHi, ho]

theorem epochHi_of_other (ho : m.ownsServo fw = false) : m.epochHi hi fw = m.adjRefuse 1 2 := by
  simp [Mach.epochHi, ho]

end Writes

theorem keeps_adjRefuse (m : Mach) (why what : Nat) : Keeps m (m.adjRefuse why what) :=
  keeps_raise (keeps_dtm (.refl m) _) _ _ _ _

/-- A refused adjustment says who was refused and what (R91). -/
theorem becomes_adjRefuse {c : Instr} {s : State} {f : Mach → Mach} {why what : Nat} (hx : exec c s = s.run f)
    (h : Runs s) (e : f s.m = s.m.adjRefuse why what) : Becomes c s (s.m.adjRefuse why what) :=
  becomes_of_exec hx h e (keeps_adjRefuse _ _ _)

theorem exec_dtmIncrWrite (hi : Nat) (fw : Bool) (s : State) : exec (.dtmIncrWrite none hi fw) s =
    s.run fun m => if m.writerHere fw then m.incrHi hi fw else m := rfl

theorem exec_dtmOffsetWrite (hi : Nat) (fw : Bool) (s : State) : exec (.dtmOffsetWrite none hi fw) s =
    s.run fun m => if m.writerHere fw then m.offsetHi hi fw else m := rfl

theorem exec_dtmEpochWrite (hi : Nat) (fw : Bool) (s : State) : exec (.dtmEpochWrite none hi fw) s =
    s.run fun m => if m.writerHere fw then m.epochHi hi fw else m := rfl

/-- Settles O26: the offset by whether one is pending, and each write by its owner and by what it finds. -/
theorem theClockIsSetAndSnapshot : Obligations.TheClockIsSetAndSnapshot := by
  refine ⟨fun s o h hp => ?applied, fun s h hp => ?none, fun s h hm => ?snap, fun s hi fw v h hw ho hv => ?incr,
    fun s hi fw h hw ho hp => ?offset, fun s hi fw e h hw ho he => ?epoch, fun s hi fw h hw ho =>
      ⟨?incrOther, ?offsetOther, ?epochOther⟩, fun s hi fw h hw ho hp => ?pending⟩
  case applied =>
    exact becomes_of_exec (rfl : execDtmOffsetApplied s = _) h (by simp only [hp])
      (keeps_raise (keeps_dtm (.refl _) _) _ _ _ _)
  case none => exact becomes_same (rfl : execDtmOffsetApplied s = _) h (by simp only [hp])
  case snap =>
    have hboot : s.m.inMode .boot = false := by simp [Mach.inMode, hm]
    exact becomes_of_exec (rfl : execSnap s = _) h (by simp [hboot]) (keeps_dtm (.refl _) _)
  case incr =>
    exact becomes_of_exec (exec_dtmIncrWrite hi fw s) h ((if_pos hw).trans (incrHi_of_owner hi ho hv))
      (keeps_dtm (.wr (.wr (.refl _) _ _) _ _) _)
  case offset =>
    exact becomes_of_exec (exec_dtmOffsetWrite hi fw s) h ((if_pos hw).trans (offsetHi_of_owner hi ho hp))
      (keeps_dtm (.wr (.refl _) _ _) _)
  case epoch =>
    exact becomes_of_exec (exec_dtmEpochWrite hi fw s) h ((if_pos hw).trans (epochHi_of_owner hi ho he))
      (keeps_raise (keeps_dtm (.wr (.refl _) _ _) _) _ _ _ _)
  case pending =>
    exact becomes_adjRefuse (exec_dtmOffsetWrite hi fw s) h ((if_pos hw).trans (offsetHi_of_pending hi ho hp))
  case incrOther =>
    exact becomes_adjRefuse (exec_dtmIncrWrite hi fw s) h ((if_pos hw).trans (incrHi_of_other hi ho))
  case offsetOther =>
    exact becomes_adjRefuse (exec_dtmOffsetWrite hi fw s) h ((if_pos hw).trans (offsetHi_of_other hi ho))
  case epochOther =>
    exact becomes_adjRefuse (exec_dtmEpochWrite hi fw s) h ((if_pos hw).trans (epochHi_of_other hi ho))

/-! ### The ports (R107) -/

theorem ethOn_iff (m : Mach) (p : Nat) : m.ethOn p = true ↔ p < 2 ∧ m.flag (Reg.ETH_P_CFG.en p) = true := by
  simp [Mach.ethOn]

theorem ethOn_of_disabled {m : Mach} {p : Nat} (h : m.flag (Reg.ETH_P_CFG.en p) = false) : m.ethOn p = false := by
  simp [Mach.ethOn, h]

theorem ptpOn_iff (m : Mach) : m.ptpOn = true ↔ m.fld Reg.ETH_PTP_CFG.role ≠ 3 := by simp [Mach.ptpOn]

theorem ethPort_emit (m : Mach) (o : Output) (p : Nat) : (m.emit o).ethPort p = m.ethPort p := by
  simp only [Mach.ethPort, emit_eth]

/-! ### PTP messages (R94 to R98) -/

theorem ptpTime_of_nonneg {m : Mach} {t : DWord} {v : Int} (hv : v = (t.toNat : Int) + m.dtm.epoch.toInt) (h : 0 ≤ v) :
    m.ptpTime t = (m, v.toNat % 2 ^ 64) := by
  subst hv
  simp [Mach.ptpTime, Int.not_lt.mpr h]

/-- A message has left a port: the frame as the port sends it, and its egress stamp behind those not yet taken. -/
def ptpLeft (m : Mach) (p kind seq : Nat) (frame : List Byte) : Mach :=
  (m.emit (.ptp p kind seq (m.ethSent p frame))).setEthPort p { m.ethPort p with
    txStamps := (m.ethPort p).txStamps ++ [m.stampAt (m.fld (Reg.ETH_P_TS_LAT.tx_lat p))] }

theorem keeps_ptpLeft (m : Mach) (p kind seq : Nat) (frame : List Byte) : Keeps m (ptpLeft m p kind seq frame) :=
  keeps_setEthPort (.emit (.refl m) _) _ _

section Sent

variable {s : State} {p kind q : Nat} {f : List Byte} (h : Runs s) (hp : s.m.ethOn p = true) (ho : s.m.ptpOn = true)
  (hs : s.m.skx.silent = false) (hq : (s.m.ethPort p).txStamps.length < 16)
include h hp ho hs hq

/-- A two-step message leaves as it was given. -/
theorem becomes_twoStep (hk : kind < 4) : Becomes (.ptpFrameTx p kind q true f 0) s (ptpLeft s.m p kind q f) := by
  refine becomes_of_exec (rfl : execPtpFrameTx p kind q true f 0 s = _) h ?_ (keeps_ptpLeft _ _ _ _ _)
  have hroom : ¬ 16 ≤ (s.m.ethPort p).txStamps.length := Nat.not_le.mpr hq
  cases hh : s.m.ptpHeader f <;>
    simp [ptpStamped, hk, hp, ho, hs, hroom, ethPort_emit, ptpLeft]

/-- A one-step Sync of the PTP port leaves with its egress time. -/
theorem becomes_oneStepSync {hd : Nat × Option Nat} {v : Int} (hport : p = s.m.ptpPort) (hh : s.m.ptpHeader f = some hd)
    (hv : v = ((s.m.stampAt (s.m.fld (Reg.ETH_P_TS_LAT.tx_lat p))).toNat : Int) + s.m.dtm.epoch.toInt) (h0 : 0 ≤ v) :
    Becomes (.ptpFrameTx p 0 q false f 0) s (ptpLeft s.m p 0 q (syncFrame f hd (v.toNat % 2 ^ 64))) := by
  refine becomes_of_exec (rfl : execPtpFrameTx p 0 q false f 0 s = _) h ?_ (keeps_ptpLeft _ _ _ _ _)
  have hroom : ¬ 16 ≤ (s.m.ethPort p).txStamps.length := Nat.not_le.mpr hq
  have htime := ptpTime_of_nonneg hv h0
  simp [ptpStamped, hp, ho, hs, hroom, hh, ← hport, htime, ethPort_emit, ptpLeft]

end Sent

/-- Settles O27: a message that came in by its stamp, one that leaves by whether it is two-step, and a sample as the one
telemetry record it is. -/
theorem ptpFramesAreStamped : Obligations.PtpFramesAreStamped := by
  refine ⟨fun s p k q t h hk hp he hr ht => ?received, fun s p k q f h hk hp he hr hs hq => ?twoStep,
    fun s p q f hd t v h hp he hr hs hport hh hq ht hv h0 => ?oneStep, fun s d n h ho hf hr hd hn => ?sample⟩
  case received =>
    subst ht
    have hon := (ethOn_iff s.m p).mpr ⟨hp, he⟩
    exact becomes_of_exec (rfl : execPtpFrameRx p k q s = _) h (by simp [ptpStamped, hk, hon, (ptpOn_iff s.m).mpr hr])
      (keeps_setEthPort (.refl _) _ _)
  case twoStep => exact becomes_twoStep h ((ethOn_iff _ p).mpr ⟨hp, he⟩) ((ptpOn_iff _).mpr hr) hs hq hk
  case oneStep =>
    subst ht
    exact becomes_oneStepSync h ((ethOn_iff _ p).mpr ⟨hp, he⟩) ((ptpOn_iff _).mpr hr) hs hq hport hh hv h0
  case sample =>
    subst hn
    refine becomes_of_exec (rfl : execPtpSamplePost d s = _) h ?_ ?_
    · simp only [ho, hf, (ptpOn_iff s.m).mpr hr, List.take_left' hd, Bool.not_true, Bool.or_self,
        Bool.false_eq_true, if_false]
    · exact keeps_tlmWrite (keeps_eth (.refl _) _) _ _

/-! ### The state of the PTP port, links and failover (R99, R101) -/

theorem ptpState_of_ne {m : Mach} {st : Nat} (h : m.eth.portState ≠ st) : m.ptpState st =
    ({ m with eth := { m.eth with
      portState := st, servoState := if m.eth.portState = 9 then 3 else m.eth.servoState } } : Mach).raise
        Ev.ptpState .info st m.eth.portState := by
  simp only [Mach.ptpState, h, if_false]

/-- Leaving SLAVE puts the servo in HOLDOVER, whatever firmware reports of it. -/
theorem becomes_leavesSlave {s : State} {st servo : Nat} {off : Int} (h : Runs s) (hf : s.m.firmwareRuns = true)
    (ho : s.m.ptpOn = true) (hold : s.m.eth.portState = 9) (h1 : 1 ≤ st) (h9 : st < 9) :
    Becomes (.ptpPortStateChange st servo off) s { (({ (s.m.wr Reg.ETH_PTP_OFFSET
        (unsigned 32 (clampInt (-(2 ^ 31)) (2 ^ 31 - 1) off))) with
        eth := { s.m.eth with portState := st, servoState := 3 } } : Mach).raise Ev.ptpState .info st 9) with
      eth := { s.m.eth with portState := st, servoState := 3 } } := by
  refine becomes_of_exec (rfl : execPtpPortStateChange st servo off s = _) h ?_
    (keeps_eth (keeps_raise (keeps_eth (.wr (.refl _) _ _) _) _ _ _ _) _)
  have hne : s.m.eth.portState ≠ st := by omega
  have h0 : st ≠ 0 := by omega
  have hle : ¬ 9 < st := by omega
  have hst9 : st ≠ 9 := by omega
  simp [hf, ho, h0, hle, ptpState_of_ne (m := s.m.wr _ _) hne, hold, hst9]

/-! ### Received frames (R100) -/

theorem sound_iff (f : EthFrame) : f.sound = true ↔ f.crcOk = true ∧ f.len ≤ 1522 ∧ f.tags ≤ 1 := by
  simp [EthFrame.sound, and_assoc]

theorem sound_eq_false_iff (f : EthFrame) : f.sound = false ↔ f.crcOk = false ∨ 1522 < f.len ∨ 1 < f.tags := by
  simp only [EthFrame.sound, Bool.and_eq_false_iff, decide_eq_false_iff_not, Nat.not_le, or_assoc]

theorem exec_ethFrameRx (p : Nat) (f : EthFrame) (s : State) : exec (.ethFrameRx p f) s = s.run fun m =>
    if !m.ethOn p || (f.sound && f.kind = 4) then m
    else if !f.sound || !m.fwTakes f then m.addSat (Reg.ETH_P_RX_DISCARD.cnt p) 1
    else if f.kind ≠ 1 && m.firmwareRuns && m.rd (Reg.ETH_P_IP p) ≠ 0 then m.emit (.frame p (m.ethSent p f.data))
    else m := rfl

/-- A PTP frame is firmware's, whose work is outside the block (log entry 147). -/
theorem becomes_same_of_ptpFrame {s : State} {p : Nat} {f : EthFrame} (h : Runs s) (hf : f.sound = true)
    (hk : f.kind = 1) (ho : s.m.ptpOn = true) : Becomes (.ethFrameRx p f) s s.m := by
  have htake : s.m.fwTakes f = true := by simp [Mach.fwTakes, hk, ho]
  exact becomes_same (exec_ethFrameRx p f s) h (by simp [hf, hk, htake])

/-- An ARP or ICMP request to a port with an address is answered. -/
theorem becomes_answered {s : State} {p : Nat} {f : EthFrame} (h : Runs s) (hp : s.m.ethOn p = true)
    (hf : f.sound = true) (hk : f.kind = 2 ∨ f.kind = 3) (hr : s.m.firmwareRuns = true)
    (hip : s.m.rd (Reg.ETH_P_IP p) ≠ 0) :
    Becomes (.ethFrameRx p f) s (s.m.emit (.frame p (s.m.ethSent p f.data))) := by
  have htake : s.m.fwTakes f = true := by simp [Mach.fwTakes, or_assoc, hk]
  have h1 : f.kind ≠ 1 := by omega
  have h4 : f.kind ≠ 4 := by omega
  exact becomes_of_exec (exec_ethFrameRx p f s) h (by simp [hp, hf, htake, h1, h4, hr, hip]) (.emit (.refl _) _)

/-! ### The beacon (R102 to R104) -/

/-- The module once a beacon tick has been sampled: its pair is the newest of four, and the next tick a period later. -/
def beaconSampled (m : Mach) : Mach :=
  { m with eth := { m.eth with
    bcnPairs := ({ ptp := BitVec.ofNat 64 (((m.time.toNat : Int) + m.dtm.epoch.toInt).toNat % 2 ^ 64)
                   chn := m.chainage } :: m.eth.bcnPairs).take 4
    bcnDue := m.eth.bcnDue + 500 * max 100 (m.fld Reg.ETH_BCN_CFG.period_us) } }

/-- A beacon with a payload leaves a port, and is counted. -/
def beaconLeaves (d : List Byte) (m : Mach) (p : Nat) : Mach :=
  (m.emit (.beacon p (m.rd (Reg.ETH_P_CFG p) / 4096) (m.fld Reg.ETH_BCN_CFG.dscp) (m.rd (Reg.ETH_P_IP p))
    (m.rd Reg.ETH_BCN_DST_IP) (m.rd Reg.ETH_BCN_UDP) d)).addWrap Reg.ETH_BCN_SENT.cnt 1

/-- The ports that beacons are to leave by. -/
def beaconPorts (m : Mach) : List Nat := (List.range 2).filter (fun p => bitAt (m.fld Reg.ETH_BCN_CFG.ports) p)

/-- A sample's beacon has left each selected port that it can leave, and is counted and reported as lost on the
others. -/
def beaconSent (r : Nat) (m : Mach) : Mach :=
  let go := (beaconPorts m).filter (m.bcnLeaves r)
  let lost := (beaconPorts m).filter (fun p => !m.bcnLeaves r p)
  ((go.foldl (beaconLeaves m.bcnPayload) m).addSat Reg.ETH_BCN_DROP.cnt lost.length).raiseRated Ev.bcnDrop 0 .warning
    (lost.foldl (fun a p => a + 2 ^ p) 0) 0 lost.length joinBits

theorem reports_beaconLeaves (d : List Byte) (m : Mach) (p : Nat) : Reports m (beaconLeaves d m p) :=
  (Reports.emit m _).trans (.wr _ _ _)

theorem reports_beaconSent (r : Nat) (m : Mach) : Reports m (beaconSent r m) :=
  ((Reports.foldl (reports_beaconLeaves m.bcnPayload) _ m).trans (.wr _ _ _)).trans (.raiseRated _ _ _ _ _ _ _ _)

/-- While the transceivers are not silent, every beacon adds to what has left the module. -/
theorem foldl_beaconLeaves_out_length (d : List Byte) (l : List Nat) {m : Mach} (h : m.skx.silent = false) :
    (l.foldl (beaconLeaves d) m).out.length = m.out.length + l.length := by
  induction l generalizing m with
  | nil => rfl
  | cons p l ih =>
    have hone : (beaconLeaves d m p).out.length = m.out.length + 1 := by simp [beaconLeaves, Mach.emit, h]
    have hsilent : (beaconLeaves d m p).skx.silent = false := by simpa [beaconLeaves] using h
    rw [List.foldl_cons, ih hsilent, hone, List.length_cons]
    omega

/-- A port that is selected and can send adds to what has left the module. -/
theorem out_length_lt_beaconSent {m : Mach} {r p : Nat} (hs : m.skx.silent = false) (hp : p ∈ beaconPorts m)
    (hl : m.bcnLeaves r p = true) : m.out.length < (beaconSent r m).out.length := by
  have hmem : p ∈ (beaconPorts m).filter (m.bcnLeaves r) := List.mem_filter.mpr ⟨hp, hl⟩
  have hpos := List.length_pos_of_mem hmem
  simp only [beaconSent, raiseRated_out, addSat_out, foldl_beaconLeaves_out_length _ _ hs]
  omega

theorem bcnLeaves_of_resolved {m : Mach} {r p : Nat} (hl : (m.ethPort p).link = true) (hip : m.rd (Reg.ETH_P_IP p) ≠ 0)
    (hr : bitAt r p = true) (hs : m.skx.silent = false) : m.bcnLeaves r p = true := by
  simp [Mach.bcnLeaves, hl, hip, hr, hs]

/-- What a beacon tick makes of the module in its turn: the sample, the beacons and the next sequence number. -/
def beaconTaken (r : Nat) (m : Mach) : Mach :=
  let sent := beaconSent r (beaconSampled m)
  { sent with eth := { sent.eth with bcnSeq := sent.eth.bcnSeq + 1 } }

theorem beaconTaken_eq (r : Nat) (m : Mach) : ∃ regs evt, beaconTaken r m = { m with
    eth := { (beaconSampled m).eth with bcnSeq := m.eth.bcnSeq + 1 }, regs := regs, evt := evt
    out := (beaconSent r (beaconSampled m)).out } := by
  obtain ⟨regs, evt, out, hsent⟩ := reports_beaconSent r (beaconSampled m)
  exact ⟨regs, evt, by rw [beaconTaken, hsent]; rfl⟩

theorem becomes_beaconSample {s : State} (r : Nat) (h : Runs s) (he : s.m.flag Reg.ETH_BCN_CFG.en = true)
    (hd : s.m.eth.bcnDue ≤ s.m.now) (hboot : s.m.glb.mode ≠ .boot) (hback : s.m.glb.mode ≠ .backsight)
    (h0 : 0 ≤ (s.m.time.toNat : Int) + s.m.dtm.epoch.toInt) : Becomes (.beaconSample r) s (beaconTaken r s.m) := by
  have htick : s.m.bcnTick = true := by simp [Mach.bcnTick, he, hd]
  have hinboot : s.m.inMode .boot = false := by simp [Mach.inMode, hboot]
  have hactive (e : Eth) : ({ s.m with eth := e } : Mach).isBacksight = false := by simp [Mach.isBacksight, hback]
  have hnow (e : Eth) : ({ s.m with eth := e } : Mach).time = s.m.time := rfl
  have htime (e : Eth) := ptpTime_of_nonneg (m := { s.m with eth := e }) (t := s.m.time) rfl h0
  obtain ⟨_, _, htaken⟩ := beaconTaken_eq r s.m
  refine becomes_of_exec (rfl : execBeaconSample r s = _) h ?_ (htaken ▸ ⟨rfl, rfl, id⟩)
  simp only [htick, hinboot, hactive, hnow, htime, Bool.not_true, Bool.or_self, Bool.false_and, Bool.false_eq_true,
    if_false]
  rfl

theorem becomes_same_of_beacon_early {s : State} (r : Nat) (h : Runs s) (hd : s.m.now < s.m.eth.bcnDue) :
    Becomes (.beaconSample r) s s.m := by
  have htick : s.m.bcnTick = false := by simp [Mach.bcnTick, Nat.not_le.mpr hd]
  exact becomes_same (rfl : execBeaconSample r s = _) h (by simp only [htick, Bool.not_false, Bool.true_or, if_true])

/-- Settles O28: a port's state, link and failover by the rule of each, a frame by whether it is sound and what it is,
and a beacon tick by its sample and what leaves for it. -/
theorem portsLinksAndBeacons : Obligations.PortsLinksAndBeacons := by
  refine ⟨fun s st servo off h hf hr hold h1 h9 => becomes_leavesSlave h hf ((ptpOn_iff _).mpr hr) hold h1 h9,
    fun s p up h hp he hl => ?link, fun s p h he => ?disabledLink, fun s h hfo hl hf hr h4 h9 => ?failover,
    fun s p f h hp he hbad => ?discarded,
    fun s p f h hp hc hlen ht hk hr => ?ptp,
    fun s p f h hp he hc hlen ht hk hf hip => ?answered, fun s p f h he => ?disabledFrame,
    fun s r h he hd hboot hback h0 => ?beacon, fun s r h hd => becomes_same_of_beacon_early r h hd⟩
  case link =>
    have hon := (ethOn_iff s.m p).mpr ⟨hp, he⟩
    exact becomes_of_exec (rfl : execEthLinkChange p up s = _) h (if_neg (by simp [hp, hl, hon]))
      (keeps_raise (keeps_setEthPort (.refl _) _ _) _ _ _ _)
  case disabledLink =>
    exact becomes_same (rfl : execEthLinkChange p true s = _) h (if_pos (.inr (.inr ⟨rfl, ethOn_of_disabled he⟩)))
  case failover =>
    refine becomes_of_exec (rfl : execPtpFailover s = _) h ?_ (keeps_raise (keeps_eth (.refl _) _) _ _ _ _)
    simp [hfo, hl, hf, (ptpOn_iff s.m).mpr hr, ptpState_of_ne, h4, h9]
  case discarded =>
    have hsound := (sound_eq_false_iff f).mpr hbad
    exact becomes_of_exec (exec_ethFrameRx p f s) h (by simp [hsound, (ethOn_iff s.m p).mpr ⟨hp, he⟩])
      (.setFld (.refl _) _ _)
  case ptp => exact becomes_same_of_ptpFrame h ((sound_iff f).mpr ⟨hc, hlen, ht⟩) hk ((ptpOn_iff _).mpr hr)
  case answered =>
    exact becomes_answered h ((ethOn_iff _ p).mpr ⟨hp, he⟩) ((sound_iff f).mpr ⟨hc, hlen, ht⟩) hk hf hip
  case disabledFrame =>
    exact becomes_same (exec_ethFrameRx p f s) h (by simp [ethOn_of_disabled he])
  case beacon =>
    have htaken := becomes_beaconSample r h he hd hboot hback h0
    obtain ⟨regs, evt, heq⟩ := beaconTaken_eq r s.m
    rw [heq] at htaken
    refine ⟨_, htaken, rfl, rfl, fun p hp hsel hlink hs hip hres => ?_⟩
    have hport : p ∈ beaconPorts (beaconSampled s.m) := List.mem_filter.mpr ⟨List.mem_range.mpr hp, hsel⟩
    have hleaves := bcnLeaves_of_resolved (m := beaconSampled s.m) hlink hip hres hs
    exact out_length_lt_beaconSent (m := beaconSampled s.m) hs hport hleaves

end Sys2Proof.Datum
end

section
/-! SUPPORT. The statement of the job store chapter: a job opened, filled, repaired, closed and deleted, and a band that
waits for room. -/

namespace Sys2Proof.JobStore

open Sys2Proof Sys2Proof.Machine Sys2Proof.Laws Sys2Proof.Scope Sys2Proof.Stations Sys2Proof.Datum

/-! ### Changes that leave the jobs alone -/

/-- A change that leaves the job slots and the waiting band as they were, and what `Keeps` speaks of. -/
def KeepsJobs (a m : Mach) : Prop :=
  m.vgp.job = a.vgp.job ∧ m.vgp.imageWait = a.vgp.imageWait ∧ Keeps a m

namespace KeepsJobs

variable {a m : Mach}

theorem jobs (k : KeepsJobs a m) : m.vgp.job = a.vgp.job := k.1

theorem wait (k : KeepsJobs a m) : m.vgp.imageWait = a.vgp.imageWait := k.2.1

theorem keeps (k : KeepsJobs a m) : Keeps a m := k.2.2

theorem refl (m : Mach) : KeepsJobs m m := ⟨rfl, rfl, .refl m⟩

theorem trans {n : Mach} (k : KeepsJobs a m) (l : KeepsJobs m n) : KeepsJobs a n :=
  ⟨l.jobs.trans k.jobs, l.wait.trans k.wait, keeps_trans k.keeps l.keeps⟩

/-- What neither holds a job nor bears on head power may change freely. -/
theorem same {n : Mach} (k : KeepsJobs a m) (hj : n.vgp.job = m.vgp.job) (hw : n.vgp.imageWait = m.vgp.imageWait)
    (hk : Keeps m n) : KeepsJobs a n := k.trans ⟨hj, hw, hk⟩

/-- So may whatever a lemma of `Laws/Frames` leaves open beside these parts. -/
theorem framed {n : Mach} (k : KeepsJobs a m) (hn : n.vgp = m.vgp ∧ n.dram = m.dram ∧ n.otp = m.otp ∧ n.glb = m.glb ∧
    n.fgd = m.fgd ∧ n.hst.stopN = m.hst.stopN ∧ n.hst.stopSrc = m.hst.stopSrc) : KeepsJobs a n := by
  obtain ⟨hv, hd, ho, hg, hf, hstop, hsrc⟩ := hn
  exact k.same (by rw [hv]) (by rw [hv]) (keeps_of_frame hd ho hg hf hstop hsrc)

theorem ite {c : Prop} [Decidable c] {n : Mach} (km : KeepsJobs a m) (kn : KeepsJobs a n) :
    KeepsJobs a (if c then m else n) := by
  split
  · exact km
  · exact kn

theorem setFld (k : KeepsJobs a m) (f : Fld) (v : Nat) : KeepsJobs a (m.setFld f v) := k.same rfl rfl ⟨rfl, rfl, id⟩

theorem raise (k : KeepsJobs a m) (e : Ev) (sev : Sev) (a0 a1 : Nat) : KeepsJobs a (m.raise e sev a0 a1) := by
  obtain ⟨_, _, _, h⟩ := Reports.raise m e sev a0 a1
  rw [h]
  exact k.same rfl rfl ⟨rfl, rfl, id⟩

theorem mirror (k : KeepsJobs a m) (c : Bool) (b : MirrorRec) : KeepsJobs a (m.mirror c b) := k.framed (by simp)

theorem complete (k : KeepsJobs a m) (h : DescRef) (c : Cpl) : KeepsJobs a (m.complete h c) := k.framed (by simp)

theorem done (k : KeepsJobs a m) (h : DescRef) (st : Status) : KeepsJobs a (m.done h st) := k.complete h _

theorem takeDesc (k : KeepsJobs a m) (h : DescRef) : KeepsJobs a (m.takeDesc h) := k.framed (by simp)

theorem ceilingShown (k : KeepsJobs a m) : KeepsJobs a m.ceilingShown := (k.setFld _ _).setFld _ _

theorem trv (k : KeepsJobs a m) (t : Trv) : KeepsJobs a { m with trv := t } := k.same rfl rfl ⟨rfl, rfl, id⟩

theorem updateCeiling (k : KeepsJobs a m) : KeepsJobs a m.updateCeiling := by
  unfold Mach.updateCeiling
  extract_lets c e lower shown counted
  have hshown : KeepsJobs a shown := (k.setFld _ _).setFld _ _
  exact .ite k.ceilingShown (.ite (k.setFld _ _) (.raise (hshown.trv _) _ _ _ _))

theorem lowRaised (k : KeepsJobs a m) (b : Bool) : KeepsJobs a { m with vgp := { m.vgp with lowRaised := b } } :=
  k.same rfl rfl ⟨rfl, rfl, id⟩

theorem bad (k : KeepsJobs a m) (l : List BadBlock) : KeepsJobs a { m with vgp := { m.vgp with bad := l } } :=
  k.same rfl rfl ⟨rfl, rfl, id⟩

theorem storeCheck (k : KeepsJobs a m) : KeepsJobs a m.storeCheck := by
  unfold Mach.storeCheck
  extract_lets low free
  exact .ite (.ite (k.lowRaised _) k) (.ite ((k.lowRaised _).raise _ _ _ _) k)

theorem mirrorBlocks (k : KeepsJobs a m) (x : Job) (layer plane : Nat) (bs : List Block) :
    KeepsJobs a (m.mirrorBlocks x layer plane bs) :=
  .ite k (List.foldlRecOn bs _ k fun _ k _ _ => k.mirror _ _)

/-- A swath takes a repair in, is requeued or is left, and no job changes (R247). -/
theorem repairOne {r : Mach × Nat} (k : KeepsJobs a r.1) (layer block i : Nat) :
    KeepsJobs a (Mach.repairOne layer block r i).1 := by
  unfold Mach.repairOne
  extract_lets x rendered y
  split
  · exact k.same rfl rfl ⟨rfl, rfl, id⟩
  · split
    · exact k.same rfl rfl ⟨rfl, rfl, id⟩
    · exact k.same rfl rfl ⟨rfl, rfl, id⟩

theorem repairRequeue (k : KeepsJobs a m) (j layer plane : Nat) (b : Block) :
    KeepsJobs a (m.repairRequeue j layer plane b).1 :=
  List.foldlRecOn (motive := fun (r : Mach × Nat) => KeepsJobs a r.1) _ _ k fun _ k i _ => k.repairOne _ _ i

/-- A job's change of state writes its slot, and what goes with it leaves the jobs alone (R152). -/
theorem jobState (m : Mach) (j : Nat) (st : JobState) :
    KeepsJobs (m.setJob j { m.job j with state := st }) (m.jobState j st) := by
  unfold Mach.jobState
  extract_lets x raised
  exact ((KeepsJobs.raise (.refl _) _ _ _ _).mirror _ _).updateCeiling

end KeepsJobs

/-! ### Jobs as the table gives them -/

theorem job_setJob (m : Mach) (j k : Nat) {x : Job} (hx : x ≠ {}) :
    (m.setJob j x).job k = if j = k then x else m.job k := get_set_of_ne_default _ _ _ _ hx

theorem job_setJob_ne (m : Mach) {j k : Nat} (x : Job) (h : k ≠ j) : (m.setJob j x).job k = m.job k :=
  get_set_ne _ _ _ _ _ h.symm

theorem job_of_jobs_eq {a m : Mach} (h : m.vgp.job = a.vgp.job) (k : Nat) : m.job k = a.job k := by
  simp only [Mach.job, h]

theorem ne_empty_of_state {x : Job} (h : x.state ≠ .free) : x ≠ {} := by
  rintro rfl
  exact h rfl

/-- A tag names a slot that is not FREE. -/
theorem state_of_jobSlot {m : Mach} {tag j : Nat} (h : m.jobSlot tag = some j) : (m.job j).state ≠ .free := by
  have hfound := List.find?_some h
  simp only [Bool.and_eq_true, decide_eq_true_eq] at hfound
  exact hfound.1

theorem KeepsJobs.job_of_setJob {a m : Mach} {j : Nat} {x : Job} (k : KeepsJobs (a.setJob j x) m) (hx : x ≠ {}) :
    m.job j = x := by
  rw [job_of_jobs_eq k.jobs, job_setJob _ _ _ hx, if_pos rfl]

theorem job_jobState (m : Mach) (j : Nat) {st : JobState} (hs : st ≠ .free) :
    (m.jobState j st).job j = { m.job j with state := st } :=
  (KeepsJobs.jobState m j st).job_of_setJob (ne_empty_of_state hs)

/-- A change that leaves every job but that of slot `j`, and what `Keeps` speaks of. -/
def ChangesJob (a : Mach) (j : Nat) (m : Mach) : Prop := Keeps a m ∧ ∀ k ≠ j, m.job k = a.job k

theorem KeepsJobs.changesJob {a m : Mach} (k : KeepsJobs a m) (j : Nat) : ChangesJob a j m :=
  ⟨k.keeps, fun i _ => job_of_jobs_eq k.jobs i⟩

namespace ChangesJob

variable {a m : Mach} {j : Nat}

theorem keeps (w : ChangesJob a j m) : Keeps a m := w.1

theorem others (w : ChangesJob a j m) : ∀ k ≠ j, m.job k = a.job k := w.2

theorem trans {n : Mach} (w : ChangesJob a j m) (v : ChangesJob m j n) : ChangesJob a j n :=
  ⟨keeps_trans w.keeps v.keeps, fun i hi => (v.others i hi).trans (w.others i hi)⟩

theorem kept {n : Mach} (w : ChangesJob a j m) (k : KeepsJobs m n) : ChangesJob a j n := w.trans (k.changesJob j)

theorem setJob (m : Mach) (j : Nat) (x : Job) : ChangesJob m j (m.setJob j x) :=
  ⟨⟨rfl, rfl, id⟩, fun _ hi => job_setJob_ne m x hi⟩

theorem jobState (m : Mach) (j : Nat) (st : JobState) : ChangesJob m j (m.jobState j st) :=
  (setJob m j _).kept (.jobState m j st)

end ChangesJob

/-! ### A descriptor that is acted on -/

theorem mirrorDesc_of_not_mirroring {m : Mach} (h : m.mirroring = false) (r : DescRef) (b : DescBody)
    (epoch : Word) (effect : Chainage) (isCommit : Bool) : m.mirrorDesc r b epoch effect isCommit = m := by
  simp [Mach.mirrorDesc, Mach.mirror, h]

/-- A running module acts on the descriptor that its ring holds: no stop, HALT or BACKSIGHT refuses it, and
nothing is mirrored. `d` is the module that has taken it. -/
def ActsOn (s : State) (h : DescRef) (op : Nat) (d : Mach) : Prop :=
  Runs s ∧ Held s h op ∧ d = s.m.takeDesc h ∧ d.hst.stopped = false ∧ d.glb.mode ≠ .halt ∧ d.glb.mode ≠ .backsight ∧
  d.mirroring = false

namespace ActsOn

variable {s : State} {h : DescRef} {op : Nat} {d : Mach} (a : ActsOn s h op d)

include a

theorem runs : Runs s := a.1

theorem taken : d = s.m.takeDesc h := by
  obtain ⟨-, -, htaken, -⟩ := a
  exact htaken

theorem alone : d.mirroring = false := by
  obtain ⟨-, -, -, -, -, -, halone⟩ := a
  exact halone

theorem act (halt standby : Bool) (f : Mach → Mach) : s.m.act h op halt standby f = f d := by
  obtain ⟨-, ⟨hheld, hop⟩, rfl, hgo, hhalt, hback, -⟩ := a
  simp only [takeDesc_frame] at hgo hhalt hback
  simp [Mach.act, hheld, hop, hgo, Mach.inMode, Mach.isBacksight, hhalt, hback]

theorem actData (hp : d.pwr.powerFail = false) (standby : Bool) (f : Mach → Mach) :
    s.m.actData h op standby f = f d := by
  have hpower : s.m.pwr.powerFail = false := by simpa [a.taken] using hp
  simp [Mach.actData, hpower, a.act]

theorem keepsJobs : KeepsJobs s.m d := a.taken ▸ (KeepsJobs.refl s.m).takeDesc h

/-- A command whose effect changes no job of `d` but that of slot `j`. -/
theorem reaches {c : Instr} {g : Mach → Mach} {m : Mach} {j : Nat} {p : Mach → Prop} (hx : exec c s = s.run g)
    (e : g s.m = m) (w : ChangesJob d j m) (hp : (∀ k ≠ j, m.job k = s.m.job k) → p m) : Reaches c s p := by
  have hw : ChangesJob s.m j m := (a.keepsJobs.changesJob j).trans w
  exact ⟨m, becomes_of_exec hx a.runs e hw.keeps, hp hw.others⟩

end ActsOn

/-! ### JOB_OPEN (R151, R152, R160) -/

/-- The job that JOB_OPEN puts in a slot. -/
def openedJob (m : Mach) (f : JobOpenF) : Job :=
  { tag := f.jobTag, streamed := f.streamed = 1, layers := f.layers, depth := f.depth, planes := f.planes
    along := f.along, across := f.across, width := f.width, repeatLen := f.repeatLen
    reserve := ceilDiv f.reserve 4096, itemSrc := m.itemSrcNow }

theorem openedJob_ne_empty (m : Mach) {f : JobOpenF} (h : jobOpenOk f = true) : openedJob m f ≠ {} := by
  intro he
  have hplanes : f.planes = 0 := congrArg Job.planes he
  simp [jobOpenOk, hplanes] at h

/-- The module with the job in its slot, still FREE: what JOB_OPEN puts into state OPEN. -/
def slotFilled (m : Mach) (j : Nat) (f : JobOpenF) : Mach :=
  ((m.setJob j (openedJob m f)).setEnded f.jobTag none).clearWindows j

theorem keepsJobs_slotFilled (m : Mach) (j : Nat) (f : JobOpenF) :
    KeepsJobs (m.setJob j (openedJob m f)) (slotFilled m j f) :=
  (KeepsJobs.refl _).same rfl rfl ⟨rfl, rfl, id⟩

theorem openJob_eq (m : Mach) (j : Nat) (f : JobOpenF) :
    m.openJob j f = ((slotFilled m j f).jobState j .opened).storeCheck := rfl

theorem changesJob_openJob (m : Mach) (j : Nat) (f : JobOpenF) : ChangesJob m j (m.openJob j f) := by
  rw [openJob_eq]
  exact (((ChangesJob.setJob m j _).kept (keepsJobs_slotFilled m j f)).trans (.jobState _ j .opened)).kept
    (KeepsJobs.refl _).storeCheck

theorem job_openJob {m : Mach} {f : JobOpenF} (j : Nat) (hok : jobOpenOk f = true) :
    (m.openJob j f).job j = { openedJob m f with state := .opened } := by
  rw [openJob_eq, job_of_jobs_eq (KeepsJobs.refl _).storeCheck.jobs, job_jobState _ _ (by decide),
    (keepsJobs_slotFilled m j f).job_of_setJob (openedJob_ne_empty m hok)]

theorem exec_jobOpen (h : DescRef) (f : JobOpenF) (s : State) : exec (.jobOpen h f) s = execJobOpen h f s := rfl

theorem jobIsOpened {s : State} {h : DescRef} {f : JobOpenF} {j : Nat} {d : Mach} (a : ActsOn s h 0x01 d)
    (hfree : (List.range 8).find? (fun k => (d.job k).state = .free) = some j)
    (htag : d.jobSlot f.jobTag = none) (hok : jobOpenOk f = true) (hroom : ceilDiv f.reserve 4096 ≤ d.storeFree) :
    Reaches (.jobOpen h f) s fun m => m = (d.openJob j f).done h .ok ∧ (m.job j).state = .opened ∧
      (m.job j).tag = f.jobTag ∧ ∀ k ≠ j, m.job k = s.m.job k := by
  have hdone : KeepsJobs (d.openJob j f) ((d.openJob j f).done h .ok) := (KeepsJobs.refl _).done h .ok
  have hjob := (job_of_jobs_eq hdone.jobs j).trans (job_openJob j hok)
  refine a.reaches (exec_jobOpen h f s) ?_ ((changesJob_openJob d j f).kept hdone) fun hk =>
    ⟨rfl, by rw [hjob], by rw [hjob, openedJob], hk⟩
  refine (a.act false false _).trans ?_
  simp [hfree, htag, hok, Nat.not_lt.mpr hroom, mirrorDesc_of_not_mirroring a.alone]

/-! ### JOB_IMAGE (R153, R162) -/

theorem keepsJobs_storeBand {m : Mach} {j : Nat} {f : JobImageF} {t : Stream} (h : DescRef) (data : List Byte)
    (hroom : m.jobUsed ((m.job j).setStream f.layer f.plane t) - m.jobUsed (m.job j) ≤ m.jobRoom (m.job j)) :
    KeepsJobs (m.setJob j ((m.job j).setStream f.layer f.plane t)) (m.storeBand h f data j t) := by
  simp only [Mach.storeBand, Nat.not_lt.mpr hroom, if_false]
  exact ((KeepsJobs.refl _).storeCheck.mirrorBlocks _ _ _ _).done h .ok

theorem bandResult_ok_of_toOption {x : Job} {f : JobImageF} {data : List Byte} {t : Stream}
    (h : (bandResult x f data).toOption = some t) : bandResult x f data = .ok t := by
  cases e : bandResult x f data with
  | error st => simp [e, Except.toOption] at h
  | ok u => simpa [e, Except.toOption] using h

theorem setStream_ne_empty {x : Job} (h : x.state ≠ .free) (layer plane : Nat) (t : Stream) :
    x.setStream layer plane t ≠ {} := ne_empty_of_state h

theorem exec_jobImage (h : DescRef) (f : JobImageF) (data : List Byte) (s : State) :
    exec (.jobImage h f data) s = execJobImage h f data s := rfl

theorem bandIsStored {s : State} {h : DescRef} {f : JobImageF} {data : List Byte} {j : Nat} {t : Stream} {d : Mach}
    (a : ActsOn s h 0x02 d) (hj : d.jobSlot f.jobTag = some j)
    (htakes : (d.job j).takesImage = true) (hdma : d.dmaOk false f.addr f.byteLen = true)
    (hp : d.pwr.powerFail = false) (hfired : d.bandFired (d.job j) f = false)
    (hband : (bandResult (d.job j) f data).toOption = some t)
    (hroom : d.jobUsed ((d.job j).setStream f.layer f.plane t) - d.jobUsed (d.job j) ≤ d.jobRoom (d.job j)) :
    Reaches (.jobImage h f data) s fun m => m = d.storeBand h f data j t ∧
      m.job j = (d.job j).setStream f.layer f.plane t ∧ ∀ k ≠ j, m.job k = s.m.job k := by
  have hstored := keepsJobs_storeBand h data hroom
  have hjob := hstored.job_of_setJob (setStream_ne_empty (state_of_jobSlot hj) _ _ _)
  refine a.reaches (exec_jobImage h f data s) ?_ ((ChangesJob.setJob d j _).kept hstored) fun hk => ⟨rfl, hjob, hk⟩
  refine (a.actData hp _ _).trans ?_
  simp [hj, htakes, hdma, hfired, bandResult_ok_of_toOption hband, mirrorDesc_of_not_mirroring a.alone]

/-! ### STREAM_SPACE_RESUME (R162) -/

theorem exec_streamSpaceResume (s : State) : exec .streamSpaceResume s = execStreamSpaceResume s := rfl

theorem becomes_same_of_no_imageWait {s : State} (h : Runs s) (hw : s.m.vgp.imageWait = none) :
    Becomes .streamSpaceResume s s.m := by
  refine becomes_same (exec_streamSpaceResume s) h ?_
  simp only [hw]

/-- The module without the band that waits. -/
def bandTaken (m : Mach) : Mach := { m with vgp := { m.vgp with imageWait := none } }

section Resume

variable {s : State} {h : DescRef} {f : JobImageF} {data : List Byte} {j : Nat} {t : Stream} (hr : Runs s)
  (hw : s.m.vgp.imageWait = some (h, f, data)) (hj : s.m.jobSlot f.jobTag = some j)
  (hfired : s.m.bandFired (s.m.job j) f = false) (hband : (bandResult (s.m.job j) f data).toOption = some t)

include hr hw hj hfired hband

theorem becomes_same_of_no_room (hp : (s.m.job j).state = .printing)
    (hroom : s.m.jobRoom (s.m.job j) <
      s.m.jobUsed ((s.m.job j).setStream f.layer f.plane t) - s.m.jobUsed (s.m.job j)) :
    Becomes .streamSpaceResume s s.m := by
  refine becomes_same (exec_streamSpaceResume s) hr ?_
  simp [hw, hj, hfired, bandResult_ok_of_toOption hband, hroom, hp]

theorem bandGoesOn
    (hroom : s.m.jobUsed ((s.m.job j).setStream f.layer f.plane t) - s.m.jobUsed (s.m.job j) ≤
      s.m.jobRoom (s.m.job j)) :
    Reaches .streamSpaceResume s fun m => m.vgp.imageWait = none ∧
      m.job j = (s.m.job j).setStream f.layer f.plane t ∧ ∀ k ≠ j, m.job k = s.m.job k := by
  have hkeeps := keepsJobs_storeBand (m := bandTaken s.m) (j := j) (f := f) (t := t) h data hroom
  have hchanges := (ChangesJob.setJob (bandTaken s.m) j _).kept hkeeps
  have htaken : Keeps s.m (bandTaken s.m) := ⟨rfl, rfl, id⟩
  refine ⟨_, becomes_of_exec (exec_streamSpaceResume s) hr ?_ (keeps_trans htaken hchanges.keeps), hkeeps.wait,
    hkeeps.job_of_setJob (setStream_ne_empty (state_of_jobSlot hj) _ _ _), hchanges.others⟩
  simp [hw, hj, hfired, bandResult_ok_of_toOption hband, Nat.not_lt.mpr hroom, bandTaken]

end Resume

/-! ### JOB_CLOSE (R151, R155) -/

theorem exec_jobClose (h : DescRef) (tag : Nat) (s : State) : exec (.jobClose h tag) s = execJobClose h tag s := rfl

/-- An OPEN job as JOB_CLOSE leaves it, but for its state: a REPEAT gives back what it had reserved. -/
def closedJob (x : Job) : Job :=
  { x.closeStreams with closed := true, reserve := if x.streamed then x.closeStreams.reserve else 0 }

theorem closedJob_eq (x : Job) :
    closedJob x = if x.streamed then { x.closeStreams with closed := true }
      else { x.closeStreams with closed := true, reserve := 0 } := by
  rw [closedJob]
  split <;> rfl

theorem closedJob_ne_empty (x : Job) : closedJob x ≠ {} := fun h => Bool.noConfusion (congrArg Job.closed h)

/-- The module with a closed job in its slot, STORED. -/
def jobStored (m : Mach) (j : Nat) : Mach := (m.setJob j (closedJob (m.job j))).jobState j .stored

theorem changesJob_jobStored (m : Mach) (j : Nat) : ChangesJob m j (jobStored m j) :=
  (ChangesJob.setJob m j _).trans (.jobState _ j .stored)

theorem job_jobStored (m : Mach) (j : Nat) :
    (jobStored m j).job j = { closedJob (m.job j) with state := .stored } := by
  rw [jobStored, job_jobState _ _ (by decide), (KeepsJobs.refl _).job_of_setJob (closedJob_ne_empty _)]

theorem jobIsClosed {s : State} {h : DescRef} {tag j : Nat} {d : Mach} (a : ActsOn s h 0x03 d)
    (hj : d.jobSlot tag = some j) (hopen : (d.job j).state = .opened) (htakes : (d.job j).takesClose = true)
    (hroom : d.jobUsed { (d.job j).closeStreams with closed := true } - d.jobUsed (d.job j) ≤ d.jobRoom (d.job j)) :
    Reaches (.jobClose h tag) s fun m => m.job j = { closedJob (d.job j) with state := .stored } ∧
      ∀ k ≠ j, m.job k = s.m.job k := by
  have hdone := (KeepsJobs.refl (jobStored d j)).storeCheck.complete h
    { cplOf h .ok with value := (jobStored d j).jobHeld (closedJob (d.job j)) }
  refine a.reaches (exec_jobClose h tag s) ?_ ((changesJob_jobStored d j).kept hdone) fun hk =>
    ⟨(job_of_jobs_eq hdone.jobs j).trans (job_jobStored d j), hk⟩
  refine (a.act false false _).trans ?_
  simp [hj, htakes, hopen, Nat.not_lt.mpr hroom, mirrorDesc_of_not_mirroring a.alone, ← closedJob_eq, jobStored]

/-! ### JOB_DELETE (R151) -/

theorem exec_jobDelete (h : DescRef) (tag : Nat) (s : State) : exec (.jobDelete h tag) s = execJobDelete h tag s := rfl

theorem changesJob_freeJob (m : Mach) (j : Nat) : ChangesJob m j (m.freeJob j) := by
  have hstate := ChangesJob.jobState m j .free
  unfold Mach.freeJob
  generalize m.jobState j .free = b at hstate
  have hfreed := hstate.trans (.setJob b j {})
  exact hfreed.kept ((KeepsJobs.refl (b.setJob j {})).bad _).storeCheck

theorem jobIsDeleted {s : State} {h : DescRef} {tag j : Nat} {d : Mach} (a : ActsOn s h 0x05 d)
    (hj : d.jobSlot tag = some j) (hs : (d.job j).state = .opened ∨ (d.job j).state = .stored) :
    Reaches (.jobDelete h tag) s fun m => m = (d.freeJob j).done h .ok ∧ ∀ k ≠ j, m.job k = s.m.job k := by
  refine a.reaches (exec_jobDelete h tag s) ?_ ((changesJob_freeJob d j).kept ((KeepsJobs.refl _).done h .ok))
    fun hk => ⟨rfl, hk⟩
  refine (a.act false false _).trans ?_
  simp [hj, hs, mirrorDesc_of_not_mirroring a.alone]

/-! ### BLOCK_DATA (R177, R247) -/

/-- A block with the pixels that its repair decodes to. -/
def repairedBlock (b : Block) (px code : List Byte) : Block := { b with pixels := px, code := code, repair := true }

/-- The job with a block of a stream repaired, and `n` more extents of the repair pool. -/
def repairedJob (x : Job) (layer plane : Nat) (b b' : Block) (n : Nat) : Job :=
  { x.setStream layer plane { x.stream layer plane with
      blocks := (x.stream layer plane).blocks.map fun c => if c = b then b' else c } with
    pool := x.pool + n }

theorem repairedJob_ne_empty {x : Job} (h : x.state ≠ .free) (layer plane : Nat) (b b' : Block) (n : Nat) :
    repairedJob x layer plane b b' n ≠ {} := ne_empty_of_state h

/-- The repair comes before the fire horizon of a failed block: it names it, and its lines are not yet blanked. -/
def repairsInTime (m : Mach) (j : Nat) (f : BlockDataF) (q : BadBlock) : Bool :=
  q.job = j && q.layer = f.layer && q.plane = f.plane && q.block = f.block && !q.blank &&
  !chnAtOrAhead m.chainage q.horizon

/-- What follows the write of a repaired block: the requests that it closes, its record, and the swaths that it requeues
where it is in time for a failed block. -/
def afterRepair (m : Mach) (f : BlockDataF) (j : Nat) (b : Block) (early : BadBlock → Bool) (requeues : Bool) : Mach :=
  let closed : Mach := { m with vgp := { m.vgp with bad := repairEntries early f.request m.vgp.bad } }
  let id := streamId f.jobTag f.layer f.plane
  let reported := closed.raise Ev.blockRepaired .info id f.request
  if requeues then
    let r := reported.repairRequeue j f.layer f.plane b
    r.1.raise Ev.trvRepairRequeue .info id r.2
  else reported

theorem keepsJobs_afterRepair (m : Mach) (f : BlockDataF) (j : Nat) (b : Block) (early : BadBlock → Bool)
    (requeues : Bool) : KeepsJobs m (afterRepair m f j b early requeues) := by
  unfold afterRepair
  extract_lets _ closed stream reported r
  have hclosed : KeepsJobs m closed := (KeepsJobs.refl m).bad _
  have hreported : KeepsJobs m reported := hclosed.raise _ _ _ _
  exact .ite ((hreported.repairRequeue _ _ _ _).raise _ _ _ _) hreported

theorem exec_blockData (h : DescRef) (f : BlockDataF) (data : List Byte) (s : State) :
    exec (.blockData h f data) s = execBlockData h f data s := rfl

/-- A descriptor that names a block of the stream, with data that decode to that block's size, repairs it. -/
theorem blockIsRepaired {s : State} {h : DescRef} {f : BlockDataF} {data px : List Byte} {j : Nat} {b : Block}
    {d : Mach} (a : ActsOn s h 0x06 d) (hj : d.jobSlot f.jobTag = some j)
    (htakes : (d.job j).takesStream f.layer f.plane = true)
    (hb : ((d.job j).stream f.layer f.plane).blocks.find?
      (fun c => c.row * (d.job j).blockCols f.layer + c.col = f.block) = some b)
    (hp : d.pwr.powerFail = false) (hdma : d.dmaOk false f.addr f.byteLen = true)
    (hdata : vangopBlock data = some ((b.lines, b.width, px), []))
    (hpool : d.poolUsed + ceilDiv data.length 4096 ≤ 2048) :
    Reaches (.blockData h f data) s fun m =>
      m.job j = repairedJob (d.job j) f.layer f.plane b (repairedBlock b px data) (ceilDiv data.length 4096) ∧
      ∀ k ≠ j, m.job k = s.m.job k := by
  have hsent := (KeepsJobs.refl (d.setJob j (repairedJob (d.job j) f.layer f.plane b (repairedBlock b px data)
    (ceilDiv data.length 4096)))).mirrorBlocks (d.job j) f.layer f.plane [repairedBlock b px data]
  have hrepaired := hsent.trans
    (keepsJobs_afterRepair _ f j b (repairsInTime d j f) (d.vgp.bad.any (repairsInTime d j f)))
  have hdone := hrepaired.done h .ok
  refine a.reaches (exec_blockData h f data s) ?_ ((ChangesJob.setJob d j _).kept hdone) fun hk =>
    ⟨hdone.job_of_setJob (repairedJob_ne_empty (state_of_jobSlot hj) _ _ _ _ _), hk⟩
  refine (a.actData hp _ _).trans ?_
  simp only [hj, htakes, hb, hdma, hdata, Nat.not_lt.mpr hpool, mirrorDesc_of_not_mirroring a.alone, Bool.not_true,
    Bool.false_eq_true, if_false, ne_eq, not_true_eq_false, or_self, List.length_nil, Nat.sub_zero]
  rfl

/-- Settles O48: each descriptor by what its effect writes in its slot, a waiting band by whether it finds room. -/
theorem jobsAreFilledRepairedAndFreed : Obligations.JobsAreFilledRepairedAndFreed := by
  refine ⟨fun s h f j d hr hh hd hs hm hb hmir hfree htag hok hroom => ?opens,
    fun s h f data j t d hr hh hd hs hm hb hmir hj ht hdma hp hf hband hroom => ?image,
    fun s h tag j d y hr hh hd hs hm hb hmir hj ho ht hy hroom => ?closes,
    fun s h tag j d hr hh hd hs hm hb hmir hj hst => ?deletes,
    fun s h f data j t x hr hw hj hx hp hf hband => ?resumes, fun s hr hw => becomes_same_of_no_imageWait hr hw,
    fun s h f data px j b d x t hr hh hd hs hm hb hmir hj hx ht htakes hfind hp hdma hdata hpool => ?repairs⟩
  case opens => exact jobIsOpened ⟨hr, hh, hd, hs, hm, hb, hmir⟩ hfree htag hok hroom
  case image => exact bandIsStored ⟨hr, hh, hd, hs, hm, hb, hmir⟩ hj ht hdma hp hf hband hroom
  case closes =>
    subst hy
    exact jobIsClosed ⟨hr, hh, hd, hs, hm, hb, hmir⟩ hj ho ht hroom
  case deletes => exact jobIsDeleted ⟨hr, hh, hd, hs, hm, hb, hmir⟩ hj hst
  case resumes =>
    subst hx
    exact ⟨becomes_same_of_no_room hr hw hj hf hband hp, bandGoesOn hr hw hj hf hband⟩
  case repairs =>
    subst hx ht
    exact blockIsRepaired ⟨hr, hh, hd, hs, hm, hb, hmir⟩ hj htakes hfind hp hdma hdata hpool

end Sys2Proof.JobStore
end

section
/-! SUPPORT. The statement of the layers chapter on what comes by ring: items stored and waiting, fences, slots that
bind, and camera buffers. -/

namespace Sys2Proof.Layers

open Sys2Proof Sys2Proof.Machine Sys2Proof.Laws Sys2Proof.Scope Sys2Proof.Stations Sys2Proof.Datum Sys2Proof.JobStore

/-! ### Changes that leave the layers alone -/

/-- A change that leaves the layers, the jobs and the chainage as they were, and what `Keeps` speaks of. -/
structure KeepsLayers (a m : Mach) : Prop where
  cmp : m.cmp = a.cmp
  chn : m.chn = a.chn
  keepsJobs : KeepsJobs a m

namespace KeepsLayers

variable {a m : Mach}

theorem layer (k : KeepsLayers a m) (n : Nat) : m.layer n = a.layer n := by
  simp only [Mach.layer, k.cmp]

theorem refl (m : Mach) : KeepsLayers m m := ⟨rfl, rfl, .refl m⟩

theorem trans {n : Mach} (k : KeepsLayers a m) (l : KeepsLayers m n) : KeepsLayers a n :=
  ⟨l.cmp.trans k.cmp, l.chn.trans k.chn, k.keepsJobs.trans l.keepsJobs⟩

theorem reports (h : Reports a m) : KeepsLayers a m := by
  obtain ⟨_, _, _, rfl⟩ := h
  exact ⟨rfl, rfl, rfl, rfl, rfl, rfl, id⟩

theorem raise (k : KeepsLayers a m) (e : Ev) (sev : Sev) (a0 a1 : Nat) : KeepsLayers a (m.raise e sev a0 a1) :=
  k.trans (reports (.raise m e sev a0 a1))

theorem addSat (k : KeepsLayers a m) (f : Fld) (n : Nat) : KeepsLayers a (m.addSat f n) :=
  k.trans (reports (.wr m _ _))

theorem mirror (k : KeepsLayers a m) (c : Bool) (b : MirrorRec) : KeepsLayers a (m.mirror c b) :=
  k.trans ⟨by simp, by simp, (KeepsJobs.refl m).mirror c b⟩

theorem done (k : KeepsLayers a m) (h : DescRef) (st : Status) : KeepsLayers a (m.done h st) :=
  k.trans ⟨by simp, by simp, (KeepsJobs.refl m).done h st⟩

theorem takeDesc (m : Mach) (h : DescRef) : KeepsLayers m (m.takeDesc h) :=
  ⟨by simp, by simp, (KeepsJobs.refl m).takeDesc h⟩

theorem ite {c : Prop} [Decidable c] {n : Mach} (km : KeepsLayers a m) (kn : KeepsLayers a n) :
    KeepsLayers a (if c then m else n) := by
  split
  · exact km
  · exact kn

theorem lowRaised (m : Mach) (b : Bool) : KeepsLayers m { m with vgp := { m.vgp with lowRaised := b } } :=
  ⟨rfl, rfl, (KeepsJobs.refl m).lowRaised b⟩

theorem storeCheck (k : KeepsLayers a m) : KeepsLayers a m.storeCheck := by
  unfold Mach.storeCheck
  extract_lets low free
  exact k.trans (.ite (.ite (lowRaised m _) (.refl m)) (.ite ((lowRaised m _).raise _ _ _ _) (.refl m)))

theorem mirrorPart (k : KeepsLayers a m) (n : Nat) (i : Word) (base : Nat) (p : Part) :
    KeepsLayers a (m.mirrorPart n i base p) :=
  .ite k (List.foldlRecOn (motive := fun (r : Mach × Nat) => KeepsLayers a r.1) _ _ k fun _ k _ _ => k.mirror _ _)

theorem itemsDiscarded (k : KeepsLayers a m) (n count : Nat) (lowest : Word) :
    KeepsLayers a (m.itemsDiscarded n count lowest) :=
  .ite k ((k.addSat _ _).raise _ _ _ _)

end KeepsLayers

/-! ### Layers as the table gives them -/

theorem layer_setLayer (m : Mach) (n : Nat) {l : Layer} (hl : l ≠ {}) : (m.setLayer n l).layer n = l := by
  rw [Mach.layer, Mach.setLayer, get_set_of_ne_default _ _ _ _ hl, if_pos rfl]

theorem layer_setLayer_ne (m : Mach) {n k : Nat} (l : Layer) (h : k ≠ n) : (m.setLayer n l).layer k = m.layer k :=
  get_set_ne _ _ _ _ _ h.symm

theorem ne_empty_of_items {l : Layer} (h : l.items ≠ []) : l ≠ {} := by
  rintro rfl
  exact h rfl

theorem ne_empty_of_slots {l : Layer} (h : l.slots ≠ []) : l ≠ {} := by
  rintro rfl
  exact h rfl

theorem ne_empty_of_wait {l : Layer} (h : l.wait ≠ none) : l ≠ {} := by
  rintro rfl
  exact h rfl

theorem KeepsLayers.layer_of_setLayer {a m : Mach} {n : Nat} {l : Layer} (k : KeepsLayers (a.setLayer n l) m)
    (hl : l ≠ {}) : m.layer n = l := by
  rw [k.layer, layer_setLayer _ _ hl]

/-- A change that leaves every layer but layer `n`, the jobs and the chainage, and what `Keeps` speaks of. -/
structure ChangesLayer (a : Mach) (n : Nat) (m : Mach) : Prop where
  keeps : Keeps a m
  jobs : m.vgp.job = a.vgp.job
  chn : m.chn = a.chn
  others : ∀ k ≠ n, m.layer k = a.layer k

theorem KeepsLayers.changesLayer {a m : Mach} (k : KeepsLayers a m) (n : Nat) : ChangesLayer a n m :=
  ⟨k.keepsJobs.keeps, k.keepsJobs.jobs, k.chn, fun i _ => k.layer i⟩

namespace ChangesLayer

variable {a m : Mach} {n : Nat}

theorem trans {b : Mach} (w : ChangesLayer a n m) (v : ChangesLayer m n b) : ChangesLayer a n b :=
  ⟨keeps_trans w.keeps v.keeps, v.jobs.trans w.jobs, v.chn.trans w.chn,
    fun k hk => (v.others k hk).trans (w.others k hk)⟩

theorem kept {b : Mach} (w : ChangesLayer a n m) (k : KeepsLayers m b) : ChangesLayer a n b :=
  w.trans (k.changesLayer n)

theorem setLayer (m : Mach) (n : Nat) (l : Layer) : ChangesLayer m n (m.setLayer n l) :=
  ⟨⟨rfl, rfl, id⟩, rfl, rfl, fun _ hk => layer_setLayer_ne m l hk⟩

end ChangesLayer

/-- What leaves the blocks that `Keeps` speaks of by a lemma of `Laws/Frames` keeps it. -/
theorem keeps_framed {a m n : Mach} (k : Keeps a m) (hn : n.dram = m.dram ∧ n.otp = m.otp ∧ n.glb = m.glb ∧
    n.fgd = m.fgd ∧ n.hst.stopN = m.hst.stopN ∧ n.hst.stopSrc = m.hst.stopSrc) : Keeps a n := by
  obtain ⟨hd, ho, hg, hf, hstop, hsrc⟩ := hn
  exact keeps_trans k (keeps_of_frame hd ho hg hf hstop hsrc)

theorem keeps_complete {a m : Mach} (k : Keeps a m) (h : DescRef) (c : Cpl) : Keeps a (m.complete h c) :=
  keeps_framed k (by simp)

/-- A descriptor that is acted on comes to what its effect makes of `d`. -/
theorem becomes_of_actsOn {s : State} {h : DescRef} {op : Nat} {d : Mach} (a : ActsOn s h op d) {c : Instr}
    {g : Mach → Mach} {m : Mach} (hx : exec c s = s.run g) (e : g s.m = m) (k : Keeps d m) : Becomes c s m :=
  becomes_of_exec hx a.runs e (keeps_trans a.keepsJobs.keeps k)

theorem layer_taken {s : State} {h : DescRef} {op : Nat} {d : Mach} (a : ActsOn s h op d) (k : Nat) :
    d.layer k = s.m.layer k := by
  rw [a.taken, (KeepsLayers.takeDesc s.m h).layer]

/-! ### A part as it is stored (R193) -/

/-- The items of a layer with a part among those of its item. -/
def storedItems (l : Layer) (f : ItemF) (p : Part) : List Item :=
  match l.item f.item with
  | none => l.items ++ [{ number := f.item, complete := f.last, parts := [p] }]
  | some _ => l.items.map (fun i =>
      if i.number = f.item then { i with complete := f.last, parts := putPart p i.parts } else i)

theorem storedItems_length (l : Layer) (f : ItemF) (p : Part) :
    (storedItems l f p).length = l.items.length + (if (l.item f.item).isNone then 1 else 0) := by
  unfold storedItems
  split
  case h_1 hnew => simp [hnew]
  case h_2 hheld => simp [hheld]

/-- A layer in which a part was stored has an item. -/
theorem storedItems_ne_nil (l : Layer) (f : ItemF) (p : Part) : storedItems l f p ≠ [] := by
  unfold storedItems
  split
  case h_1 => simp
  case h_2 hheld => simpa using List.ne_nil_of_mem (List.mem_of_find?_eq_some hheld)

theorem keepsLayers_storePart (m : Mach) (n : Nat) (f : ItemF) (p : Part) :
    KeepsLayers (m.setLayer n { m.layer n with items := storedItems (m.layer n) f p }) (m.storePart n f p) := by
  have hchecked := (KeepsLayers.refl (m.setLayer n { m.layer n with items := storedItems (m.layer n) f p })).storeCheck
  exact .ite hchecked (hchecked.mirrorPart _ _ _ _)

theorem changesLayer_storePart (m : Mach) (n : Nat) (f : ItemF) (p : Part) : ChangesLayer m n (m.storePart n f p) :=
  (ChangesLayer.setLayer m n _).kept (keepsLayers_storePart m n f p)

theorem items_storePart (m : Mach) (n : Nat) (f : ItemF) (p : Part) :
    ((m.storePart n f p).layer n).items = storedItems (m.layer n) f p := by
  rw [(keepsLayers_storePart m n f p).layer_of_setLayer (ne_empty_of_items (storedItems_ne_nil _ f p))]

/-! ### ITEM and ITEM_WAIT_RESUME (R192 to R194) -/

section TakeItem

variable {m : Mach} {n : Nat} {f : ItemF} {data : List Byte} {p : Part} (h : DescRef)
  (href : m.itemRefused n f.item = false) (hp : itemPart f data = some p)

include href hp

theorem takeItem_of_room (hw : m.itemWaits n f p = none) :
    m.takeItem h n f data false = (m.storePart n f p).done h .ok := by
  simp [Mach.takeItem, href, hp, hw]

theorem takeItem_of_no_room {c : Nat} (hw : m.itemWaits n f p = some c) : m.takeItem h n f data false =
    (m.setLayer n { m.layer n with wait := some (h, f, data) }).raise Ev.itemWait .warning h.ring c := by
  simp [Mach.takeItem, href, hp, hw]

theorem takeItem_waited_of_room (hw : m.itemWaits n f p = none) : m.takeItem h n f data true =
    ((m.setLayer n { m.layer n with wait := none }).storePart n f p).done h .ok := by
  simp [Mach.takeItem, href, hp, hw]

theorem takeItem_waited_of_no_room {c : Nat} (hw : m.itemWaits n f p = some c) : m.takeItem h n f data true = m := by
  simp [Mach.takeItem, href, hp, hw]

end TakeItem

theorem exec_item (h : DescRef) (f : ItemF) (data : List Byte) (s : State) :
    exec (.item h f data) s = execItem h f data s := rfl

section Item

variable {s : State} {h : DescRef} {f : ItemF} {data : List Byte} {n : Nat} {p : Part} {d : Mach}
  (a : ActsOn s h 0x40 d) (hr : h.ring = n + 2) (hok : itemOk n f = true) (hpow : d.pwr.powerFail = false)
  (hdma : d.dmaOk false f.addr f.byteLen = true)

include a hr hok hpow hdma

/-- An ITEM with sound fields and an address in a window is taken, where its data can be read. -/
theorem becomes_item {m : Mach} (ht : d.takeItem h n f data false = m) (k : Keeps d m) :
    Becomes (.item h f data) s m := by
  refine becomes_of_actsOn a (exec_item h f data s) ((a.actData hpow _ _).trans ?_) k
  simp [hr, hok, hdma, mirrorDesc_of_not_mirroring a.alone, ht]

variable (href : d.itemRefused n f.item = false) (hp : itemPart f data = some p)

include href hp

theorem itemIsStored (hw : d.itemWaits n f p = none) : Reaches (.item h f data) s fun m =>
    m = (d.storePart n f p).done h .ok ∧
    (m.layer n).items.length = (d.layer n).items.length + (if ((d.layer n).item f.item).isNone then 1 else 0) ∧
    ∀ k ≠ n, m.layer k = s.m.layer k := by
  have hdone := (KeepsLayers.refl (d.storePart n f p)).done h .ok
  have hchanges := (changesLayer_storePart d n f p).kept hdone
  refine ⟨_, becomes_item a hr hok hpow hdma (takeItem_of_room h href hp hw) hchanges.keeps, rfl, ?_,
    fun k hk => (hchanges.others k hk).trans (layer_taken a k)⟩
  rw [hdone.layer, items_storePart, storedItems_length]

theorem itemWaitsForRoom {c : Nat} (hw : d.itemWaits n f p = some c) : Reaches (.item h f data) s fun m =>
    m.layer n = { d.layer n with wait := some (h, f, data) } ∧ ∀ k ≠ n, m.layer k = s.m.layer k := by
  have hraised := (KeepsLayers.refl (d.setLayer n { d.layer n with wait := some (h, f, data) })).raise
    Ev.itemWait .warning h.ring c
  have hchanges := (ChangesLayer.setLayer d n _).kept hraised
  exact ⟨_, becomes_item a hr hok hpow hdma (takeItem_of_no_room h href hp hw) hchanges.keeps,
    hraised.layer_of_setLayer (ne_empty_of_wait (Option.some_ne_none _)),
    fun k hk => (hchanges.others k hk).trans (layer_taken a k)⟩

end Item

theorem exec_itemWaitResume (n : Nat) (s : State) : exec (.itemWaitResume n) s = execItemWaitResume n s := rfl

theorem becomes_same_of_no_wait {s : State} {n : Nat} (hr : Runs s) (hw : (s.m.layer n).wait = none) :
    Becomes (.itemWaitResume n) s s.m := by
  refine becomes_same (exec_itemWaitResume n s) hr ?_
  simp only [hw]

section Resume

variable {s : State} {n : Nat} {h : DescRef} {f : ItemF} {data : List Byte} {p : Part} (hr : Runs s)
  (hwait : (s.m.layer n).wait = some (h, f, data)) (href : s.m.itemRefused n f.item = false)
  (hp : itemPart f data = some p)

include hr hwait href hp

theorem itemGoesOnWaiting {c : Nat} (hw : s.m.itemWaits n f p = some c) : Becomes (.itemWaitResume n) s s.m := by
  refine becomes_same (exec_itemWaitResume n s) hr ?_
  simp only [hwait, takeItem_waited_of_no_room h href hp hw]

theorem waitingItemIsStored (hw : s.m.itemWaits n f p = none) : Reaches (.itemWaitResume n) s fun m =>
    m = ((s.m.setLayer n { s.m.layer n with wait := none }).storePart n f p).done h .ok ∧
    ∀ k ≠ n, m.layer k = s.m.layer k := by
  have hchanges := ((ChangesLayer.setLayer s.m n { s.m.layer n with wait := none }).trans
    (changesLayer_storePart _ n f p)).kept ((KeepsLayers.refl _).done h .ok)
  refine ⟨_, becomes_of_exec (exec_itemWaitResume n s) hr ?_ hchanges.keeps, rfl, hchanges.others⟩
  simp only [hwait, takeItem_waited_of_room h href hp hw]

end Resume

/-! ### FENCE (R195) -/

/-- The module in which fence_reached of a layer has moved to a value, where that is ahead. -/
def fenceMoved (m : Mach) (n : Nat) (v : Word) : Mach :=
  if epochNewer v (m.layer n).fence then m.setLayer n { m.layer n with fence := v } else m

theorem fenceMoved_of_newer {m : Mach} {n : Nat} {v : Word} (h : epochNewer v (m.layer n).fence = true) :
    fenceMoved m n v = m.setLayer n { m.layer n with fence := v } := if_pos h

theorem fenceMoved_of_not_newer {m : Mach} {n : Nat} {v : Word} (h : epochNewer v (m.layer n).fence = false) :
    fenceMoved m n v = m := by
  simp [fenceMoved, h]

theorem keeps_fenceMoved (m : Mach) (n : Nat) (v : Word) : Keeps m (fenceMoved m n v) := by
  unfold fenceMoved
  split
  · exact (ChangesLayer.setLayer m n _).keeps
  · exact .refl m

theorem mirroring_fenceMoved (m : Mach) (n : Nat) (v : Word) : (fenceMoved m n v).mirroring = m.mirroring := by
  unfold fenceMoved
  split <;> rfl

theorem exec_fence (h : DescRef) (n : Nat) (v : Word) (s : State) : exec (.fence h n v) s = s.run fun m =>
    if n ≠ h.ring - 2 then m
    else m.act h 0x41 false false fun m => ((fenceMoved m n v).mirrorDesc h (.fence n v)).done h .ok := rfl

theorem becomes_fence {s : State} {h : DescRef} {n : Nat} {d : Mach} (a : ActsOn s h 0x41 d) (hr : h.ring = n + 2)
    (v : Word) : Becomes (.fence h n v) s ((fenceMoved d n v).done h .ok) := by
  have halone := (mirroring_fenceMoved d n v).trans a.alone
  refine becomes_of_actsOn a (exec_fence h n v s) ?_ (keeps_complete (keeps_fenceMoved d n v) h _)
  simp only [hr, Nat.add_sub_cancel, ne_eq, not_true_eq_false, if_false, a.act,
    mirrorDesc_of_not_mirroring halone]

/-! ### SLOT_BIND (R196) -/

theorem lastSlot_mem {l : Layer} {j : Nat} {x : LSlot} (h : l.lastSlot j = some x) : x ∈ l.slots ∧ x.job = j := by
  simpa [Layer.slotsOf] using List.mem_of_getLast? h

theorem lastSlot_of_append {l l' : Layer} {x : LSlot} (h : l'.slots = l.slots ++ [x]) (i : Nat) :
    l'.lastSlot i = if x.job = i then some x else l.lastSlot i := by
  by_cases hx : x.job = i <;> simp [Layer.lastSlot, Layer.slotsOf, h, List.filter_append, hx]

/-- A filter that the last of a list passes leaves it the last. -/
theorem getLast?_filter_of_last {α : Type} {p : α → Bool} {l : List α} (h : ∀ x, l.getLast? = some x → p x = true) :
    (l.filter p).getLast? = l.getLast? := by
  rcases List.eq_nil_or_concat l with rfl | ⟨l, x, rfl⟩
  · rfl
  · simp [List.filter_append, h x (by simp)]

/-- Slots that leave a layer without the newest of any job leave the newest of every job. -/
theorem lastSlot_of_filter {l l' : Layer} {p : LSlot → Bool} (h : l'.slots = l.slots.filter p)
    (hp : ∀ x, l.lastSlot x.job = some x → p x = true) (i : Nat) : l'.lastSlot i = l.lastSlot i := by
  have hlast : ∀ x, (l.slotsOf i).getLast? = some x → p x = true := fun x hx =>
    hp x (by rwa [(lastSlot_mem hx).2])
  have hslots : l'.slotsOf i = (l.slotsOf i).filter p := by
    simp only [Layer.slotsOf, h, List.filter_filter, Bool.and_comm]
  rw [Layer.lastSlot, hslots, getLast?_filter_of_last hlast, Layer.lastSlot]

/-- What a layer is left with loses slots, but the newest of no job (R196). -/
theorem tidyLayer_spec (m : Mach) (n : Nat) (number : Word) : ∃ l : Layer,
    (∀ i, l.lastSlot i = (m.layer n).lastSlot i) ∧ KeepsLayers (m.setLayer n l) (m.tidyLayer n number) := by
  unfold Mach.tidyLayer
  extract_lets old shown gone items
  refine ⟨_, fun i => lastSlot_of_filter rfl (fun x hx => ?_) i, (KeepsLayers.refl _).itemsDiscarded _ _ _⟩
  simp [old, hx]

/-- The slot that binds is from then on the newest of its job in its layer, and the newest of every other job stays. -/
theorem bindSlot_spec (m : Mach) (n j k first planes : Nat) : ∃ x : LSlot, x.job = j ∧ x.k = k ∧
    ChangesLayer m n (m.bindSlot n j k first planes) ∧
    ∀ i, ((m.bindSlot n j k first planes).layer n).lastSlot i = if j = i then some x else (m.layer n).lastSlot i := by
  unfold Mach.bindSlot
  extract_lets x l number isReady fits hold heldItem shown late fell bound reported tidied
  obtain ⟨new, hjob, hk, hbound⟩ : ∃ x : LSlot, x.job = j ∧ x.k = k ∧
      bound = m.setLayer n { l with slots := l.slots ++ [x] } := ⟨_, rfl, rfl, rfl⟩
  have hreported : KeepsLayers bound reported :=
    .ite (((KeepsLayers.refl bound).addSat _ _).raise _ _ _ _) (.refl bound)
  rw [hbound] at hreported
  obtain ⟨left, hlast, htidied⟩ := tidyLayer_spec reported n number
  have hnew : ∀ i, left.lastSlot i = if j = i then some new else l.lastSlot i := fun i => by
    rw [hlast, hreported.layer_of_setLayer (ne_empty_of_slots (by simp)), lastSlot_of_append rfl, hjob]
  obtain ⟨hmem, -⟩ := lastSlot_mem ((hnew j).trans (if_pos rfl))
  have hleft : left ≠ {} := ne_empty_of_slots (List.ne_nil_of_mem hmem)
  have hsent (b : MirrorRec) := htidied.mirror false b
  have hchanges := ((ChangesLayer.setLayer m n _).kept hreported).trans (.setLayer reported n left)
  refine ⟨new, hjob, hk, hchanges.kept (hsent _), fun i => ?_⟩
  rw [(hsent _).layer_of_setLayer hleft, hnew]

theorem bindDue_congr {a m : Mach} {n i : Nat} (hj : m.vgp.job = a.vgp.job) (hc : m.chn = a.chn)
    (hl : (m.layer n).lastSlot i = (a.layer n).lastSlot i) : m.bindDue i n = a.bindDue i n := by
  have hjob : m.job i = a.job i := job_of_jobs_eq hj i
  have hnext : m.slotNext i n = a.slotNext i n := by rw [Mach.slotNext, Mach.slotNext, hjob, hl]
  have hchainage : m.chainage = a.chainage := by rw [Mach.chainage, Mach.chainage, hc]
  rw [Mach.bindDue, Mach.bindDue, hjob, hnext, hchainage]

/-- What SLOT_BIND does for one job of a layer. -/
def bindOne (n : Nat) (m : Mach) (j : Nat) : Mach :=
  if m.bindDue j n then
    m.bindSlot n j (m.slotNext j n) ((m.job j).latched (Reg.CMP_L_ITEM_OFFSET n) +
      m.slotNext j n * (m.job j).latched (Reg.CMP_L_ITEM_PITCH n)) 0
  else m

theorem exec_slotBind (n : Nat) (s : State) : exec (.slotBind n) s = s.run fun m =>
    if m.isBacksight then m else (List.range 8).foldl (bindOne n) m := rfl

theorem bindOne_spec {m : Mach} {n j : Nat} (h : m.bindDue j n = true) : ∃ x : LSlot, x.job = j ∧
    x.k = m.slotNext j n ∧ ChangesLayer m n (bindOne n m j) ∧
    ∀ i, ((bindOne n m j).layer n).lastSlot i = if j = i then some x else (m.layer n).lastSlot i := by
  rw [bindOne, if_pos h]
  exact bindSlot_spec m n j _ _ _

theorem bindOne_of_not_due {m : Mach} {n j : Nat} (h : m.bindDue j n = false) : bindOne n m j = m := by
  simp [bindOne, h]

theorem foldl_bindOne_of_none_due {m : Mach} {n : Nat} (l : List Nat) (h : ∀ i ∈ l, m.bindDue i n = false) :
    l.foldl (bindOne n) m = m := by
  induction l with
  | nil => rfl
  | cons i l ih =>
    rw [List.foldl_cons, bindOne_of_not_due (h i (by simp)), ih fun k hk => h k (by simp [hk])]

/-- A slot bound in one job leaves every other job as due as it was. -/
theorem bindDue_bindOne {m : Mach} {n i j : Nat} (h : i ≠ j) : (bindOne n m j).bindDue i n = m.bindDue i n := by
  cases hdue : m.bindDue j n with
  | false => rw [bindOne_of_not_due hdue]
  | true =>
    obtain ⟨x, -, -, hchanges, hlast⟩ := bindOne_spec hdue
    exact bindDue_congr hchanges.jobs hchanges.chn ((hlast i).trans (if_neg h.symm))

theorem foldl_bindOne_of_one_due {m : Mach} {n j : Nat} {l : List Nat} (hl : l.Nodup) (hj : j ∈ l)
    (h : ∀ i, i ≠ j → m.bindDue i n = false) : l.foldl (bindOne n) m = bindOne n m j := by
  obtain ⟨before, after, rfl⟩ := List.append_of_mem hj
  obtain ⟨-, htail, hapart⟩ := List.nodup_append.mp hl
  obtain ⟨hafter, -⟩ := List.nodup_cons.mp htail
  have hbefore : ∀ i ∈ before, m.bindDue i n = false := fun i hi => h i (hapart i hi j List.mem_cons_self)
  have hrest : ∀ i ∈ after, (bindOne n m j).bindDue i n = false := fun i hi => by
    have hne : i ≠ j := fun he => hafter (he ▸ hi)
    rw [bindDue_bindOne hne, h i hne]
  rw [List.foldl_append, List.foldl_cons, foldl_bindOne_of_none_due before hbefore,
    foldl_bindOne_of_none_due after hrest]

theorem becomes_same_of_none_due {s : State} {n : Nat} (hr : Runs s) (h : ∀ j, s.m.bindDue j n = false) :
    Becomes (.slotBind n) s s.m := by
  refine becomes_same (exec_slotBind n s) hr ?_
  simp [foldl_bindOne_of_none_due _ fun i _ => h i]

theorem slotBinds {s : State} {n j : Nat} (hr : Runs s) (hb : s.m.isBacksight = false) (hj : j < 8)
    (hdue : s.m.bindDue j n = true) (hother : ∀ i, i ≠ j → s.m.bindDue i n = false) :
    Reaches (.slotBind n) s fun m => (∀ l ≠ n, m.layer l = s.m.layer l) ∧ m.vgp.job = s.m.vgp.job ∧
      (m.layer n).slots.any (fun x => x.job = j ∧ x.k = s.m.slotNext j n) = true := by
  obtain ⟨x, hxj, hxk, hchanges, hlast⟩ := bindOne_spec hdue
  obtain ⟨hmem, -⟩ := lastSlot_mem ((hlast j).trans (if_pos rfl))
  refine ⟨_, becomes_of_exec (exec_slotBind n s) hr ?_ hchanges.keeps, hchanges.others, hchanges.jobs,
    List.any_eq_true.mpr ⟨x, hmem, by simp [hxj, hxk]⟩⟩
  rw [hb, if_neg Bool.false_ne_true, foldl_bindOne_of_one_due List.nodup_range (List.mem_range.mpr hj) hother]

/-! ### BUFFER (R127, R354) -/

theorem keeps_setCamBufs {a m : Mach} (k : Keeps a m) (n : Nat) (l : List CamBuffer) : Keeps a (m.setCamBufs n l) :=
  keeps_trans k ⟨rfl, rfl, id⟩

theorem keeps_setSpill {a m : Mach} (k : Keeps a m) (n : Nat) (l : List OutUnit) : Keeps a (m.setSpill n l) :=
  keeps_trans k ⟨rfl, rfl, id⟩

theorem keeps_refuse {a m : Mach} (k : Keeps a m) (h : DescRef) (st : Status) : Keeps a (m.refuse h st) := by
  unfold Mach.refuse
  extract_lets n
  split
  · exact keeps_complete k h _
  · exact keeps_setCamBufs k n _

theorem keeps_windowFail {a m : Mach} (k : Keeps a m) (h : DescRef) : Keeps a (m.windowFail h) :=
  keeps_refuse (keeps_raise k _ _ _ _) h .window

theorem keeps_cplDrain {a m : Mach} (k : Keeps a m) (t n : Nat) : Keeps a (m.cplDrain t n) := by
  induction n generalizing m with
  | zero => exact k
  | succ n ih =>
    unfold Mach.cplDrain
    split
    · exact k
    · split
      · exact ih (keeps_framed k (by simp))
      · exact k

theorem keeps_drainWaiting {a m : Mach} (k : Keeps a m) : Keeps a m.drainWaiting := by
  have hfirst : Keeps a m.drainFirst := keeps_framed k (by simp)
  unfold Mach.drainWaiting
  extract_lets first
  split
  · exact hfirst
  · exact List.foldlRecOn _ _ hfirst fun _ k e _ => keeps_cplDrain k e.1 _

/-- A spill goes out of the module's own memory, and no write of DRAM is among its steps. -/
theorem keeps_drainSteps {a m : Mach} (k : Keeps a m) (n fuel left : Nat) : Keeps a (m.drainSteps n fuel left) := by
  induction fuel generalizing m left with
  | zero => exact k
  | succ fuel ih =>
    unfold Mach.drainSteps
    split
    · exact ih (keeps_complete (keeps_setCamBufs k n _) _ _) _
    · extract_lets cut chunk rest filled sent
      have hsent : Keeps a sent := by
        unfold sent
        split
        · exact k
        · exact k.emit _
      split
      · exact ih (keeps_windowFail (keeps_setCamBufs k n _) _) _
      · split
        · exact ih (keeps_complete (keeps_setCamBufs (keeps_setSpill hsent n _) n _) _ _) _
        · have hspilt := keeps_setSpill hsent n
          split
          · exact ih (keeps_complete (keeps_setCamBufs (hspilt _) n _) _ _) _
          · exact keeps_setCamBufs (hspilt _) n _
    · exact k

theorem keeps_camHold {a m : Mach} (k : Keeps a m) (n : Nat) : Keeps a (m.camHold n) := by
  unfold Mach.camHold
  extract_lets new
  split
  · exact k
  · exact keeps_trans k ⟨rfl, rfl, id⟩

theorem keeps_camDrain {a m : Mach} (k : Keeps a m) (n : Nat) : Keeps a (m.camDrain n) := by
  unfold Mach.camDrain
  split
  · exact k
  · split
    · exact keeps_camHold k n
    · split
      · exact k
      · exact keeps_drainSteps (keeps_drainWaiting k) n _ _

theorem exec_buffer (h : DescRef) (f : BufferF) (s : State) : exec (.buffer h f) s = execBuffer h f s := rfl

theorem bufferJoins {s : State} {h : DescRef} {f : BufferF} {n : Nat} {d : Mach} (a : ActsOn s h 0x80 d)
    (hr : h.ring = n + 12) (hunit : f.len % 64 = 0) (hmin : 4096 ≤ f.len) (hmax : f.len ≤ 2 ^ 24)
    (haddr : f.addr % 64 = 0) (hdma : d.dmaOk true f.addr f.len = true) : Becomes (.buffer h f) s
      ((d.setCamBufs n (d.camBufs n ++ [{ desc := h, addr := f.addr, len := f.len }])).camDrain n) := by
  refine becomes_of_actsOn a (exec_buffer h f s) ((a.act _ _ _).trans ?_)
    (keeps_camDrain (keeps_setCamBufs (.refl d) n _) n)
  simp only [hr, hunit, Nat.not_lt.mpr hmin, Nat.not_lt.mpr hmax, haddr, hdma, mirrorDesc_of_not_mirroring a.alone]
  rfl

/-- Settles O51: an item by whether it finds room, a fence by whether its value is ahead, a slot as the one that is due,
and a buffer as one more that its context posts. -/
theorem itemsAreStoredAndBound : Obligations.ItemsAreStoredAndBound := by
  refine ⟨fun s h f data n p d hr hh hd hs hm hb hmir hring hok hpow hdma href hp => ?item,
    fun s n h f data p hr hwait href hp => ?resume, fun s n hr hw => becomes_same_of_no_wait hr hw,
    fun s h n v d hr hring hh hd hs hm hb hmir => ?fence,
    fun s n j k hr hb hj hdue hother hk _ => ?binds, fun s n hr hnone => becomes_same_of_none_due hr hnone,
    fun s h f n d hr hh hd hs hm hb hmir hring hunit hmin hmax haddr hdma => ?buffer⟩
  case item =>
    have a : ActsOn s h 0x40 d := ⟨hr, hh, hd, hs, hm, hb, hmir⟩
    exact ⟨itemIsStored a hring hok hpow hdma href hp, fun c => itemWaitsForRoom a hring hok hpow hdma href hp⟩
  case resume =>
    exact ⟨fun c => itemGoesOnWaiting hr hwait href hp, fun hw _ => waitingItemIsStored hr hwait href hp hw⟩
  case fence =>
    have hfence := becomes_fence ⟨hr, hh, hd, hs, hm, hb, hmir⟩ hring v
    exact ⟨fun hnewer => by rwa [fenceMoved_of_newer hnewer] at hfence,
      fun hnot => by rwa [fenceMoved_of_not_newer hnot] at hfence⟩
  case binds =>
    subst hk
    exact slotBinds hr hb hj hdue hother
  case buffer => exact bufferJoins ⟨hr, hh, hd, hs, hm, hb, hmir⟩ hring hunit hmin hmax haddr hdma

end Sys2Proof.Layers
end

section
/-! SUPPORT. The statement of the Traverse chapter on what an engine does: what it selects and starts, what a render
leaves, and how a stall ends. -/

namespace Sys2Proof.Engines

open Sys2Proof Sys2Proof.Machine Sys2Proof.Laws Sys2Proof.Scope Sys2Proof.Stations Sys2Proof.Datum Sys2Proof.Layers

/-! ### Engines and swaths as their tables give them -/

theorem engine_of_eng_eq {a m : Mach} (h : m.trv.eng = a.trv.eng) (e : Nat) : m.engine e = a.engine e := by
  simp only [Mach.engine, h]

theorem swath_of_swaths_eq {a m : Mach} (h : m.trv.swath = a.trv.swath) (k : Nat) : m.swath k = a.swath k := by
  simp only [Mach.swath, h]

theorem engine_setEngine (m : Mach) (e : Nat) {g : Engine} (hg : g ≠ {}) : (m.setEngine e g).engine e = g := by
  rw [Mach.engine, Mach.setEngine, get_set_of_ne_default _ _ _ _ hg, if_pos rfl]

theorem engine_setEngine_ne (m : Mach) {e i : Nat} (g : Engine) (h : i ≠ e) : (m.setEngine e g).engine i = m.engine i :=
  get_set_ne _ _ _ _ _ h.symm

theorem swath_setSwath (m : Mach) (k : Nat) {x : Swath} (hx : x ≠ {}) : (m.setSwath k x).swath k = x := by
  rw [Mach.swath, Mach.setSwath, get_set_of_ne_default _ _ _ _ hx, if_pos rfl]

theorem swath_setSwath_ne (m : Mach) {k i : Nat} (x : Swath) (h : i ≠ k) : (m.setSwath k x).swath i = m.swath i :=
  get_set_ne _ _ _ _ _ h.symm

theorem swath_setEngine (m : Mach) (e i : Nat) (g : Engine) : (m.setEngine e g).swath i = m.swath i := rfl

theorem keeps_setEngine {a m : Mach} (k : Keeps a m) (e : Nat) (g : Engine) : Keeps a (m.setEngine e g) :=
  keeps_trans k ⟨rfl, rfl, id⟩

theorem keeps_setSwath {a m : Mach} (k : Keeps a m) (i : Nat) (x : Swath) : Keeps a (m.setSwath i x) :=
  keeps_trans k ⟨rfl, rfl, id⟩

theorem keeps_addPair {a m : Mach} (k : Keeps a m) (lo n : Nat) : Keeps a (m.addPair lo n) :=
  keeps_trans k ⟨rfl, rfl, id⟩

/-! ### Changes that leave the Traverse alone -/

/-- A change that leaves every engine and swath as it was, and what `Keeps` speaks of. -/
structure KeepsTraverse (a m : Mach) : Prop where
  trv : m.trv = a.trv
  keeps : Keeps a m

namespace KeepsTraverse

variable {a m : Mach}

theorem refl (m : Mach) : KeepsTraverse m m := ⟨rfl, .refl m⟩

theorem trans {n : Mach} (k : KeepsTraverse a m) (l : KeepsTraverse m n) : KeepsTraverse a n :=
  ⟨l.trv.trans k.trv, keeps_trans k.keeps l.keeps⟩

theorem engine (k : KeepsTraverse a m) (e : Nat) : m.engine e = a.engine e := engine_of_eng_eq (by rw [k.trv]) e

theorem swath (k : KeepsTraverse a m) (i : Nat) : m.swath i = a.swath i := swath_of_swaths_eq (by rw [k.trv]) i

theorem ite {c : Prop} [Decidable c] {n : Mach} (km : KeepsTraverse a m) (kn : KeepsTraverse a n) :
    KeepsTraverse a (if c then m else n) := by
  split
  · exact km
  · exact kn

theorem reports (h : Reports a m) : KeepsTraverse a m := by
  refine ⟨?_, h.keeps⟩
  obtain ⟨_, _, _, rfl⟩ := h
  rfl

theorem addSat (k : KeepsTraverse a m) (f : Fld) (n : Nat) : KeepsTraverse a (m.addSat f n) :=
  k.trans (reports (.wr m _ _))

theorem addWrap (k : KeepsTraverse a m) (f : Fld) (n : Nat) : KeepsTraverse a (m.addWrap f n) :=
  k.trans (reports (.wr m _ _))

theorem raise (k : KeepsTraverse a m) (e : Ev) (sev : Sev) (a0 a1 : Nat) : KeepsTraverse a (m.raise e sev a0 a1) :=
  k.trans (reports (.raise m e sev a0 a1))

theorem checked (k : KeepsTraverse a m) (u n bad : Nat) : KeepsTraverse a (m.checked u n bad) :=
  (k.addWrap _ _).addSat _ _

theorem cplQueue (k : KeepsTraverse a m) (t : Nat) (c : Cpl) : KeepsTraverse a (m.cplQueue t c) :=
  k.trans ⟨by simp, keeps_framed (.refl m) (by simp)⟩

theorem setLayer (k : KeepsTraverse a m) (n : Nat) (l : Layer) : KeepsTraverse a (m.setLayer n l) :=
  k.trans ⟨rfl, rfl, rfl, id⟩

theorem vgp (k : KeepsTraverse a m) (v : Vgp) : KeepsTraverse a { m with vgp := v } := k.trans ⟨rfl, rfl, rfl, id⟩

theorem drm (k : KeepsTraverse a m) (d : Drm) : KeepsTraverse a { m with drm := d } := k.trans ⟨rfl, rfl, rfl, id⟩

/-- A bad block is asked for or noted in the store (R176, R178). -/
theorem badBlock (k : KeepsTraverse a m) (i : Nat) (r : BlockRead) (b : Block) : KeepsTraverse a (m.badBlock i r b) := by
  unfold Mach.badBlock
  extract_lets x id same horizon rest asked known entry n ask noted c
  exact .ite ((((k.vgp _).addSat _ _).cplQueue _ _).raise _ _ _ _) (k.vgp _)

/-- A bad item block is noted in its layer (R200). -/
theorem badItem (k : KeepsTraverse a m) (r : BlockRead) (i : Word) : KeepsTraverse a (m.badItem r i) := by
  unfold Mach.badItem
  extract_lets x l dy lines noted
  exact .ite k (((k.setLayer _ _).addSat _ _).raise _ _ _ _)

/-- A table that loads is rewritten or noted as broken in the memory block (R395). -/
theorem tableLoad (k : KeepsTraverse a m) (i : Nat) (l : TableLoad) : KeepsTraverse a (m.tableLoad i l) := by
  unfold Mach.tableLoad
  extract_lets x id v b
  exact .ite (k.addSat _ _) (.ite k ((k.drm _).raise _ _ _ _))

theorem tableLoads (m : Mach) (i : Nat) (loads : List TableLoad) :
    KeepsTraverse m (loads.foldl (fun m l => m.tableLoad i l) m) :=
  List.foldlRecOn loads _ (refl m) fun _ k l _ => k.tableLoad i l

end KeepsTraverse

/-! ### Reads of a claimed swath's inputs (R175, R176, R200) -/

/-- A change that leaves the engines and the claim on swath `k` as they were, and what `Keeps` speaks of. -/
structure KeepsClaim (k : Nat) (a m : Mach) : Prop where
  keeps : Keeps a m
  engines : m.trv.eng = a.trv.eng
  claimed : (m.swath k).claimed = (a.swath k).claimed

namespace KeepsClaim

variable {k : Nat} {a m : Mach}

theorem trans {n : Mach} (c : KeepsClaim k a m) (d : KeepsClaim k m n) : KeepsClaim k a n :=
  ⟨keeps_trans c.keeps d.keeps, d.engines.trans c.engines, d.claimed.trans c.claimed⟩

theorem of_keepsTraverse (c : KeepsTraverse a m) : KeepsClaim k a m := ⟨c.keeps, by rw [c.trv], by rw [c.swath]⟩

theorem refl (m : Mach) : KeepsClaim k m m := of_keepsTraverse (.refl m)

/-- A failed read joins those that the swath has noted. -/
theorem setFails (m : Mach) (f : Nat × Option Word × Nat) :
    KeepsClaim k m (m.setSwath k { m.swath k with fails := (m.swath k).fails ++ [f] }) :=
  ⟨keeps_setSwath (.refl m) _ _, rfl, by rw [swath_setSwath _ _ (ne_of_apply_ne Swath.fails (by simp))]⟩

theorem blockRead (m : Mach) (r : BlockRead) : KeepsClaim k m (m.blockRead k r) := by
  unfold Mach.blockRead
  extract_lets x counted s failed
  have hcounted : KeepsTraverse m counted := (KeepsTraverse.refl m).addSat _ _
  split
  · exact of_keepsTraverse ((hcounted.addSat _ _).raise _ _ _ _)
  · have hfailed : KeepsClaim k m failed := (of_keepsTraverse hcounted).trans (setFails counted _)
    refine hfailed.trans (of_keepsTraverse ?_)
    split
    · exact (KeepsTraverse.refl failed).badItem _ _
    · split
      · exact .ite ((KeepsTraverse.refl failed).badBlock _ _ _) (.refl failed)
      · exact .refl failed

theorem blockReads (m : Mach) (reads : List BlockRead) :
    KeepsClaim k m (reads.foldl (fun m r => m.blockRead k r) m) :=
  List.foldlRecOn reads _ (refl m) fun _ c r _ => c.trans (blockRead _ r)

end KeepsClaim

/-! ### Selecting (R238, R239) -/

/-- Engine `e` alone has selected swath `k`, which it claims, and what `Keeps` speaks of is as it was. -/
structure Selects (e k : Nat) (a m : Mach) : Prop where
  keeps : Keeps a m
  engine : m.engine e = { a.engine e with next := some k }
  claimed : (m.swath k).claimed = some e
  others : ∀ i ≠ e, m.engine i = a.engine i

theorem Selects.kept {e k : Nat} {a m n : Mach} (w : Selects e k a m) (c : KeepsTraverse m n) : Selects e k a n :=
  ⟨keeps_trans w.keeps c.keeps, (c.engine e).trans w.engine, (congrArg _ (c.swath k)).trans w.claimed,
    fun i hi => (c.engine i).trans (w.others i hi)⟩

theorem selects_select (m : Mach) (e k : Nat) (reads : List BlockRead) : Selects e k m (m.select e k reads) := by
  unfold Mach.select
  extract_lets c s claimed counted stolen read
  have hstolen : KeepsTraverse claimed stolen :=
    have hcounted : KeepsTraverse claimed counted :=
      .ite ((KeepsTraverse.refl _).addSat _ _) (.ite ((KeepsTraverse.refl _).addSat _ _) (.refl _))
    .ite hcounted (hcounted.addWrap _ _)
  have hread : KeepsClaim k claimed read := (KeepsClaim.of_keepsTraverse hstolen).trans (.blockReads stolen _)
  have hengine (i : Nat) : read.engine i = m.engine i := engine_of_eng_eq hread.engines i
  refine ⟨keeps_setEngine (keeps_trans (keeps_setSwath (.refl m) _ _) hread.keeps) _ _, ?_, ?_, fun i hi => ?_⟩
  · exact (engine_setEngine _ _ (ne_of_apply_ne Engine.next (by simp))).trans
      (congrArg (fun g : Engine => { g with next := some k }) (hengine e))
  · exact hread.claimed.trans (by rw [swath_setSwath _ _ (ne_of_apply_ne Swath.claimed (by simp))])
  · rw [engine_setEngine_ne _ _ hi, hengine]

theorem letGo_of_sound {m : Mach} {e k : Nat} (hn : (m.engine e).next = some k) (h : m.needsBroken k = false) :
    m.letGo e = m := by
  simp [Mach.letGo, hn, h]

/-! ### Starting (R242) -/

/-- The module in which engine `e` has begun to render swath `k` into a slot. -/
def started (m : Mach) (e k slot : Nat) : Mach :=
  (m.setSwath k { m.swath k with
    urgent := m.isUrgent k, claimed := none, rendering := true, requeue := false, waiting := false, slot := slot
    again := false }).setEngine e { m.engine e with
    cur := some k, next := none, epoch := m.epo.counter, stalled := false, state := .busy }

theorem keeps_started (m : Mach) (e k slot : Nat) : Keeps m (started m e k slot) :=
  keeps_setEngine (keeps_setSwath (.refl m) _ _) _ _

theorem engine_started_ne (m : Mach) {e i : Nat} (k slot : Nat) (h : i ≠ e) :
    (started m e k slot).engine i = m.engine i := engine_setEngine_ne _ _ h

theorem swath_started_ne (m : Mach) {k i : Nat} (e slot : Nat) (h : i ≠ k) :
    (started m e k slot).swath i = m.swath i := (swath_setEngine _ _ _ _).trans (swath_setSwath_ne _ _ h)

theorem startNext_of_held {m : Mach} {e c : Nat} (h : (m.engine e).cur = some c) : m.startNext e = m := by
  simp [Mach.startNext, h]

theorem startNext_of_room {m : Mach} {e k slot : Nat} (hc : (m.engine e).cur = none)
    (hn : (m.engine e).next = some k) (hs : m.tileSlot (tileUnits (m.job (keyJob k)).depth) = some slot)
    (hroom : m.isUrgent k = true ∨ m.tileCap / 16 ≤ m.tileFree) : m.startNext e = started m e k slot := by
  have hmay : (m.isUrgent k || decide (m.tileCap / 16 ≤ m.tileFree)) = true := by simpa using hroom
  simp only [Mach.startNext, hc, hn, hmay, if_true, hs]
  rfl

/-- A swath that finds no room waits, and TILE_WAIT reports it at most once in its time. -/
theorem keeps_startNext {a m : Mach} (k : Keeps a m) (e : Nat) : Keeps a (m.startNext e) := by
  unfold Mach.startNext
  extract_lets g
  split
  case h_2 => exact k
  case h_1 =>
    extract_lets urgent s free
    split
    · exact keeps_setEngine (keeps_setSwath k _ _) _ _
    · split
      · exact keeps_trans (keeps_trans (keeps_setSwath k _ _) (Reports.wr _ _ _).keeps)
          (Reports.raiseRated _ _ _ _ _ _ _ _).keeps
      · exact k

/-! ### The commands that render nothing -/

theorem exec_tileWaitResume (e : Nat) (s : State) : exec (.tileWaitResume e) s = execTileWaitResume e s := rfl

theorem exec_engineSelect (e : Nat) (reads : List BlockRead) (loads : List TableLoad) (s : State) :
    exec (.engineSelect e reads loads) s = execEngineSelect e reads loads s := rfl

theorem exec_prefetchStallEnd (e : Nat) (s : State) : exec (.prefetchStallEnd e) s = execPrefetchStallEnd e s := rfl

section

variable {s : State} {e : Nat} (hr : Runs s)

include hr

theorem becomes_same_of_nothing_selected (hn : (s.m.engine e).next = none) : Becomes (.tileWaitResume e) s s.m :=
  becomes_same (exec_tileWaitResume e s) hr (by simp [hn])

theorem becomes_same_of_may_not_work (reads : List BlockRead) (loads : List TableLoad) (hw : s.m.mayWork e = false) :
    Becomes (.engineSelect e reads loads) s s.m :=
  becomes_same (exec_engineSelect e reads loads s) hr (by simp [hw])

theorem becomes_same_of_not_stalled (hs : (s.m.engine e).stalled = false) : Becomes (.prefetchStallEnd e) s s.m :=
  becomes_same (exec_prefetchStallEnd e s) hr (by simp [hs])

theorem stallIsCounted (hs : (s.m.engine e).stalled = true) (hc : (s.m.engine e).cur = none) :
    Becomes (.prefetchStallEnd e) s
      (((s.m.addPair Reg.TRV_STALL_LO ((s.m.now - (s.m.engine e).ended) * 12 / 5)).setEngine e
        { s.m.engine e with stalled := false }).startNext e) :=
  becomes_of_exec (exec_prefetchStallEnd e s) hr (by simp [Mach.stallEnds, hs, hc])
    (keeps_startNext (keeps_setEngine (keeps_addPair (.refl _) _ _) _ _) e)

section

variable {k slot : Nat} (hc : (s.m.engine e).cur = none) (hn : (s.m.engine e).next = some k)
  (hs : (s.m.engine e).stalled = false)
  (hslot : s.m.tileSlot (tileUnits (s.m.job (keyJob k)).depth) = some slot)
  (hroom : s.m.isUrgent k = true ∨ s.m.tileCap / 16 ≤ s.m.tileFree)

include hc hn hs hslot hroom

theorem waitingSwathStarts : Becomes (.tileWaitResume e) s (started s.m e k slot) :=
  becomes_of_exec (exec_tileWaitResume e s) hr (by simp [hn, hs, startNext_of_room hc hn hslot hroom])
    (keeps_started _ _ _ _)

theorem selectedSwathStarts (reads : List BlockRead) (loads : List TableLoad) (hw : s.m.mayWork e = true) :
    Becomes (.engineSelect e reads loads) s (started s.m e k slot) :=
  becomes_of_exec (exec_engineSelect e reads loads s) hr
    (by simp [hw, hn, hs, startNext_of_room hc hn hslot hroom]) (keeps_started _ _ _ _)

end

/-- An engine that holds a swath selects its next and leaves it unstarted. -/
theorem nextSwathIsSelected {k c : Nat} {reads : List BlockRead} {loads : List TableLoad} {r : Mach}
    (hw : s.m.mayWork e = true) (hn : (s.m.engine e).next = none) (hc : (s.m.engine e).cur = some c)
    (hp : s.m.pick e = some k) (hsel : r = loads.foldl (fun m l => m.tableLoad k l) (s.m.select e k reads))
    (hb : r.needsBroken k = false) : Reaches (.engineSelect e reads loads) s fun m => m = r ∧
      (m.engine e).next = some k ∧ (m.swath k).claimed = some e ∧ ∀ i ≠ e, m.engine i = s.m.engine i := by
  have w : Selects e k s.m r := hsel ▸ (selects_select s.m e k reads).kept (.tableLoads _ k loads)
  have hnext : (r.engine e).next = some k := by rw [w.engine]
  have hcur : (r.engine e).cur = some c := by rw [w.engine, hc]
  refine ⟨r, becomes_of_exec (exec_engineSelect e reads loads s) hr ?_ w.keeps, rfl, hnext, w.claimed, w.others⟩
  simp [hw, hn, hp, ← hsel, letGo_of_sound hnext hb, startNext_of_held hcur]

end

/-! ### Rendering (R240, R241, R244) -/

/-- The swath as a render leaves it that no commit and no repair has overtaken. -/
def renderedSwath (m : Mach) (k : Nat) (epoch : Word) : Swath :=
  { m.swath k with
    rendering := false, spent := (m.swath k).spent ++ tileSpan (m.swath k).fallback, pend := [], repair := false
    again := false, tile := some (m.makeTile k epoch).1, fallback := none, urgent := false }

theorem renderedSwath_ne_empty (m : Mach) (k : Nat) (epoch : Word) : renderedSwath m k epoch ≠ {} :=
  ne_of_apply_ne Swath.tile (by simp [renderedSwath])

theorem proofRef_trv (m : Mach) (k : Nat) (t : Tile) : (m.proofRef k t).trv = m.trv := by
  unfold Mach.proofRef
  split
  · simp
  · rfl

theorem finishSwath_trv {m : Mach} {k : Nat} {epoch : Word} (ha : (m.swath k).again = false)
    (hp : ∀ p ∈ (m.swath k).pend, epochNewer p.epoch epoch = false) :
    (m.finishSwath k epoch).trv.eng = m.trv.eng ∧
    (m.finishSwath k epoch).trv.swath = (m.setSwath k (renderedSwath m k epoch)).trv.swath := by
  have hleft : (m.swath k).pend.filter (fun p => epochNewer p.epoch epoch) = [] := by simpa using hp
  simp only [Mach.finishSwath, hleft, ha, raiseRated_trv, addSat_trv, addWrap_trv, proofRef_trv, List.isEmpty_nil,
    Bool.not_false, Bool.and_self, if_true]
  exact ⟨rfl, rfl⟩

/-- The module whose engine has let go of the swath that it held, before its next starts. -/
def released (m : Mach) (e : Nat) (g : Engine) : Mach :=
  m.setEngine e { g.drop with stalled := g.next.isSome, ended := m.now }

theorem exec_swathRenderDone (e : Nat) (s : State) : exec (.swathRenderDone e) s = execSwathRenderDone e s := rfl

theorem becomes_of_runMem {c : Instr} {s : State} {f : Mach → Mach} {m : Mach} (hx : exec c s = s.runMem f)
    (h : Runs s) (e : f s.m = m) (k : Keeps s.m m) : Becomes c s m := by
  obtain ⟨ha, hs⟩ := h
  have hm : ({ f s.m with otp := s.m.otp } : Mach) = m := by rw [e, ← k.otp]
  rw [Becomes, hx, State.runMem, if_pos ha, hm, settle_of_safe m (k.safe hs)]

/-- Settling and the fuses are nothing that a property of the Traverse hangs on. -/
theorem reaches_trv_of_runMem {c : Instr} {s : State} {f : Mach → Mach} {p : Mach → Prop}
    (hx : exec c s = s.runMem f) (ha : s.m.alive = true) (hp : ∀ m : Mach, m.trv = (f s.m).trv → p m) :
    Reaches c s p := by
  refine ⟨_, hx.trans ?_, hp ({ f s.m with otp := s.m.otp } : Mach).settle (settle_trv _)⟩
  rw [State.runMem, if_pos ha]

section

variable {s : State} {e k : Nat} (hr : Runs s)

include hr

theorem becomes_same_of_nothing_held (hc : (s.m.engine e).cur = none) : Becomes (.swathRenderDone e) s s.m :=
  becomes_of_runMem (exec_swathRenderDone e s) hr (by simp [hc]) (.refl _)

variable (hc : (s.m.engine e).cur = some k) (hrend : (s.m.swath k).rendering = true)

include hc hrend

theorem lateRenderIsAbandoned (hl : s.m.reached k = true) : Becomes (.swathRenderDone e) s
    (released ((s.m.setSwath k { s.m.swath k with rendering := false }).addSat Reg.TRV_ABANDONED.cnt 1) e
      (s.m.engine e)) :=
  becomes_of_runMem (exec_swathRenderDone e s) hr (by simp [hc, hrend, hl, released]) ⟨rfl, rfl, id⟩

theorem timelyRenderLeavesItsTile (hl : s.m.reached k = false) (ha : (s.m.swath k).again = false)
    (hp : ∀ p ∈ (s.m.swath k).pend, epochNewer p.epoch (s.m.engine e).epoch = false) :
    Reaches (.swathRenderDone e) s fun m => (m.swath k).tile = some (s.m.makeTile k (s.m.engine e).epoch).1 ∧
      (m.swath k).rendering = false ∧ (∀ i ≠ k, m.swath i = s.m.swath i) ∧ ∀ i ≠ e, m.engine i = s.m.engine i := by
  obtain ⟨hengines, hswaths⟩ := finishSwath_trv ha hp
  have hcounted := (((KeepsTraverse.refl (s.m.finishSwath k (s.m.engine e).epoch)).addWrap
    (Reg.TRV_E_COUNT.cnt e) 1).checked (10 + e / 8) 1 0).trv
  refine reaches_trv_of_runMem (exec_swathRenderDone e s) hr.1 fun m hm => ?_
  simp only [hc, hrend, hl, if_true, Bool.false_eq_true, if_false] at hm
  have hswath (i : Nat) : m.swath i = (s.m.setSwath k (renderedSwath s.m k (s.m.engine e).epoch)).swath i :=
    by
    rw [swath_of_swaths_eq (congrArg Trv.swath hm), swath_setEngine,
      swath_of_swaths_eq ((congrArg Trv.swath hcounted).trans hswaths)]
  have hrendered := (hswath k).trans (swath_setSwath _ _ (renderedSwath_ne_empty _ _ _))
  refine ⟨by rw [hrendered]; rfl, by rw [hrendered]; rfl, fun i hi => ?_, fun i hi => ?_⟩
  · rw [hswath, swath_setSwath_ne _ _ hi]
  · rw [engine_of_eng_eq (congrArg Trv.eng hm), engine_setEngine_ne _ _ hi,
      engine_of_eng_eq ((congrArg Trv.eng hcounted).trans hengines)]

end

/-- Settles O52: an engine by what it holds and has selected, a render by whether its deadline came first. -/
theorem enginesSelectAndRender : Obligations.EnginesSelectAndRender := by
  refine ⟨fun s e k slot reads loads t hr hc hn hs hslot hroom ht => ?starts,
    fun s e k c reads loads r hr hw hn hc hp hsel hb => nextSwathIsSelected hr hw hn hc hp hsel hb,
    fun s e reads loads hr hw => becomes_same_of_may_not_work hr reads loads hw,
    fun s e k hr hc hrend _ => ⟨timelyRenderLeavesItsTile hr hc hrend, lateRenderIsAbandoned hr hc hrend⟩,
    fun s e hr => ⟨becomes_same_of_nothing_held hr, stallIsCounted hr, becomes_same_of_not_stalled hr,
      becomes_same_of_nothing_selected hr⟩⟩
  case starts =>
    subst ht
    exact ⟨waitingSwathStarts hr hc hn hs hslot hroom, selectedSwathStarts hr hc hn hs hslot hroom reads loads,
      fun i hi => engine_started_ne s.m k slot hi, fun i hi => swath_started_ne s.m e slot hi⟩

end Sys2Proof.Engines
end

section
/-! SUPPORT. The statements of the Fire Guard chapter: HEAD_PWR_EN under its conditions in every step; the watchdog,
whose expiry halts the module, the ceilings and head power. -/

namespace Sys2Proof.Guard

open Sys2Proof Sys2Proof.Machine Sys2Proof.Laws Sys2Proof.Scope Sys2Proof.Stations Sys2Proof.Datum

/-! ### The conditions of R301 -/

theorem ofBool_eq_zero_iff (b : Bool) : ofBool b = 0 ↔ b = false := by cases b <;> simp [ofBool]

/-- Each bit of FGD_G_STATUS.pwr_off is 0 where its condition holds (R305). -/
theorem pwrOff_eq_zero_iff (m : Mach) : m.pwrOff = 0 ↔
    m.glb.locked = true ∧ (m.hst.stopN = true ∧ m.hst.stopSrc.getLsbD 1 = false) ∧
    (m.fgd.wdgRefreshed = true ∧ m.fgd.wdgExpired = false) ∧
    ((m.glb.mode = .ready ∨ m.glb.mode = .run ∨ m.glb.mode = .benchmark) ∧ m.fgd.fatalCause = 0) := by
  have hsum (a b c d : Nat) : a + 2 * b + 4 * c + 8 * d = 0 ↔ a = 0 ∧ b = 0 ∧ c = 0 ∧ d = 0 := by omega
  simp only [Mach.pwrOff, hsum, ofBool_eq_zero_iff, Bool.or_eq_false_iff, Bool.not_eq_false', Bool.or_eq_true,
    decide_eq_true_eq, decide_eq_false_iff_not, ne_eq, Decidable.not_not, or_assoc]

/-- HEAD_PWR_EN obeys R301 after every step, as it does after every command (`exec_next`). -/
theorem step_safe {s t : State} (h : Safe s) (ht : step s = .next t) : Safe t := by
  unfold step at ht
  split at ht
  · cases ht
    exact h
  · next c rest _ =>
    obtain ⟨m, hm, hsafe⟩ := exec_next c { s with pending := rest }
    rw [hm] at ht
    cases ht
    exact hsafe h

/-- Settles O7: a safe state with HEAD_PWR_EN high has no condition of R301 failing. -/
theorem headPowerNeedsItsConditions : Obligations.HeadPowerNeedsItsConditions := by
  intro s t h ht
  have hsafe : Safe t := step_safe h ht
  refine ⟨hsafe, fun hp => ?_⟩
  obtain ⟨hlocked, ⟨hstop, -⟩, ⟨hrefreshed, hexpired⟩, hmode, -⟩ := (pwrOff_eq_zero_iff t.m).1 (hsafe hp)
  exact ⟨hlocked, hstop, hrefreshed, hexpired, hmode⟩

/-! ### Changes that leave the watchdog, the mode and the clock -/

/-- The clock, the mode and the watchdog's expiry stand: what HALT's working changes beside them is left open. -/
structure KeepsExpiry (a m : Mach) : Prop where
  dtm : m.dtm = a.dtm
  mode : m.glb.mode = a.glb.mode
  expired : m.fgd.wdgExpired = a.fgd.wdgExpired

namespace KeepsExpiry

variable {a m : Mach}

theorem refl (m : Mach) : KeepsExpiry m m := ⟨rfl, rfl, rfl⟩

theorem trans {b : Mach} (k : KeepsExpiry a b) (l : KeepsExpiry b m) : KeepsExpiry a m :=
  ⟨l.dtm.trans k.dtm, l.mode.trans k.mode, l.expired.trans k.expired⟩

/-- Whatever else the module holds may change freely. -/
theorem same {n : Mach} (k : KeepsExpiry a m)
    (h : (n.dtm, n.glb.mode, n.fgd.wdgExpired) = (m.dtm, m.glb.mode, m.fgd.wdgExpired)) : KeepsExpiry a n := by
  simp only [Prod.mk.injEq] at h
  obtain ⟨hd, hm, he⟩ := h
  exact k.trans ⟨hd, hm, he⟩

/-- So may whatever a lemma of `Laws/Frames` leaves open beside these blocks. -/
theorem framed {n : Mach} (k : KeepsExpiry a m) (hn : n.dtm = m.dtm ∧ n.glb = m.glb ∧ n.fgd = m.fgd) :
    KeepsExpiry a n := by
  obtain ⟨hd, hg, hf⟩ := hn
  exact k.trans ⟨hd, by rw [hg], by rw [hf]⟩

theorem ite {c : Prop} [Decidable c] {n : Mach} (km : KeepsExpiry a m) (kn : KeepsExpiry a n) :
    KeepsExpiry a (if c then m else n) := by
  split
  · exact km
  · exact kn

theorem foldl {α : Type} {f : Mach → α → Mach} (k : KeepsExpiry a m) (l : List α)
    (h : ∀ m x, KeepsExpiry a m → KeepsExpiry a (f m x)) : KeepsExpiry a (l.foldl f m) :=
  List.foldlRecOn l f k fun m k x _ => h m x k

theorem forRange {f : Nat → Mach → Mach} (k : KeepsExpiry a m) (n : Nat)
    (h : ∀ i m, KeepsExpiry a m → KeepsExpiry a (f i m)) : KeepsExpiry a (Machine.forRange n f m) :=
  k.foldl _ fun m i => h i m

theorem setFld (k : KeepsExpiry a m) (f : Fld) (v : Nat) : KeepsExpiry a (m.setFld f v) := k.same (by rfl)

theorem addPair (k : KeepsExpiry a m) (lo n : Nat) : KeepsExpiry a (m.addPair lo n) := k.same (by rfl)

theorem raise (k : KeepsExpiry a m) (e : Ev) (sev : Sev) (a0 a1 : Nat) : KeepsExpiry a (m.raise e sev a0 a1) :=
  k.framed (by simp)

theorem decide_ (k : KeepsExpiry a m) (typ : Nat) (c : Chainage) (v w : Nat) : KeepsExpiry a (m.decide_ typ c v w) :=
  k.framed (by simp)

/-! #### The Traverse -/

theorem updateCeiling (k : KeepsExpiry a m) : KeepsExpiry a m.updateCeiling := by
  unfold Mach.updateCeiling
  extract_lets c e lower shown counted
  have hshown : KeepsExpiry a shown := (k.setFld _ _).setFld _ _
  have hboot : KeepsExpiry a m.ceilingShown := (k.setFld _ _).setFld _ _
  exact .ite hboot (.ite (k.setFld _ _) (.raise (hshown.same (by rfl)) _ _ _ _))

theorem stallEnds (k : KeepsExpiry a m) (e : Nat) : KeepsExpiry a (m.stallEnds e) := by
  unfold Mach.stallEnds
  extract_lets g
  have hcounted : KeepsExpiry a (m.addPair Reg.TRV_STALL_LO ((m.now - g.ended) * 12 / 5)) := k.addPair _ _
  exact .ite (hcounted.same (by rfl)) k

theorem discardSwaths (k : KeepsExpiry a m) (p : Nat → Bool) : KeepsExpiry a (m.discardSwaths p) := by
  unfold Mach.discardSwaths
  extract_lets abandoned
  have habandoned : KeepsExpiry a abandoned := by
    unfold abandoned Mach.abandon
    refine k.foldl _ fun m e k => ?_
    extract_lets stalled g g'
    have hstalled : KeepsExpiry a stalled := .ite (k.stallEnds e) k
    split
    · exact .ite (hstalled.same (by rfl)) (hstalled.same (by rfl))
    · exact hstalled.same (by rfl)
  clear_value abandoned
  exact habandoned.same (by rfl)

theorem parkUpdate (k : KeepsExpiry a m) : KeepsExpiry a m.parkUpdate := by
  unfold Mach.parkUpdate
  extract_lets host steps src ordered
  refine .foldl (k.same (by rfl)) _ fun m e k => ?_
  extract_lets g unclaimed stalled
  have hunclaimed : KeepsExpiry a unclaimed := by
    unfold unclaimed
    split
    · exact k.same (by rfl)
    · exact k
  exact .ite (.ite (k.same (by rfl)) (k.same (by rfl))) (.ite k ((hunclaimed.stallEnds e).same (by rfl)))

/-! #### Jobs that end -/

theorem jobState (k : KeepsExpiry a m) (j : Nat) (st : JobState) : KeepsExpiry a (m.jobState j st) := by
  unfold Mach.jobState
  extract_lets x raised
  have hraised : KeepsExpiry a raised := .raise (k.same (by rfl)) _ _ _ _
  exact .updateCeiling (hraised.framed (by simp))

theorem storeCheck (k : KeepsExpiry a m) : KeepsExpiry a m.storeCheck := by
  unfold Mach.storeCheck
  exact .ite (.ite (k.same (by rfl)) k) (.ite (.raise (k.same (by rfl)) _ _ _ _) k)

theorem freeJob (k : KeepsExpiry a m) (j : Nat) : KeepsExpiry a (m.freeJob j) := by
  unfold Mach.freeJob
  extract_lets freed
  have hfreed : KeepsExpiry a freed := k.jobState j .free
  clear_value freed
  exact .storeCheck (hfreed.same (by rfl))

theorem countBlank (k : KeepsExpiry a m) (hub cause n : Nat) : KeepsExpiry a (m.countBlank hub cause n) := by
  have hcounted : KeepsExpiry a ((m.addSat (Reg.FGD_HB_BLANK.cnt hub cause) n).addPair Reg.FGD_BLANK_TOTAL_LO n) :=
    (k.setFld _ _).addPair _ n
  exact .ite k (hcounted.same (by rfl))

theorem cutJob (k : KeepsExpiry a m) (j cause : Nat) : KeepsExpiry a (m.cutJob j cause).1 := by
  unfold Mach.cutJob
  extract_lets x c count counted r discarded
  have hcount (m : Mach) (h : Nat) (k : KeepsExpiry a m) : KeepsExpiry a (count m h) :=
    .countBlank (k.foldl _ fun m e k => .ite k (k.countBlank _ _ _)) _ _ _
  have hcounted : KeepsExpiry a counted := .ite (k.foldl _ hcount) k
  have hdiscarded : KeepsExpiry a discarded := hcounted.discardSwaths _
  clear_value discarded
  exact hdiscarded.same (by rfl)

theorem keepPast (k : KeepsExpiry a m) (j : Nat) : KeepsExpiry a (m.keepPast j) := by
  unfold Mach.keepPast
  exact .ite k (k.same (by rfl))

theorem endJob (k : KeepsExpiry a m) (j : Nat) (st : Status) (c : Chainage) (value : Nat) :
    KeepsExpiry a (m.endJob j st c value) := by
  unfold Mach.endJob
  extract_lets x past cpl queued owed _ closed cleared _ freed stored _
  have hqueued : KeepsExpiry a queued := (k.keepPast j).framed (by simp [queued, past])
  clear_value queued
  have hclosed : KeepsExpiry a closed := hqueued.same (by rfl)
  have hswaths := hclosed.discardSwaths fun k => keyJob k = j
  have hcleared : KeepsExpiry a cleared := by
    unfold cleared
    generalize closed.discardSwaths _ = swaths at hswaths
    exact hswaths.same (by rfl)
  clear_value cleared
  have hfreed : KeepsExpiry a freed := hcleared.same (by rfl)
  have hstored : KeepsExpiry a stored := hfreed.jobState j .stored
  clear_value stored
  exact .ite (hfreed.freeJob j) (hstored.same (by rfl))

theorem endActive (k : KeepsExpiry a m) (cause : Nat) (all : Bool) : KeepsExpiry a (m.endActive cause all) := by
  unfold Mach.endActive
  exact k.forRange 8 fun j m k => .ite ((k.cutJob j cause).endJob j _ _ _) k

/-! #### Station outputs and axes -/

theorem stnSafe (k : KeepsExpiry a m) (why : Nat) : KeepsExpiry a (m.stnSafe why) := by
  have houtputs : KeepsExpiry a m.outputsSafe := k.forRange 16 fun _ _ k => k.framed (by simp)
  exact houtputs.raise _ _ _ _

theorem setCoils (k : KeepsExpiry a m) (i : Nat) (x : Axis) : KeepsExpiry a (m.setCoils i x) := by
  unfold Mach.setCoils
  extract_lets off
  have hoff : KeepsExpiry a off := .ite (k.framed (by simp)) k
  exact .ite (k.same (by rfl)) (hoff.same (by rfl))

theorem axisTo (k : KeepsExpiry a m) (i : Nat) (x : Axis) (reported : Bool) :
    KeepsExpiry a (m.axisTo i x reported) := by
  unfold Mach.axisTo
  extract_lets old driven recorded
  have hdriven : KeepsExpiry a driven := k.setCoils i x
  have hrecorded : KeepsExpiry a recorded := hdriven.decide_ _ _ _ _
  exact .ite hdriven (.ite (hrecorded.raise _ _ _ _) hrecorded)

theorem motHalt (k : KeepsExpiry a m) : KeepsExpiry a m.motHalt := by
  unfold Mach.motHalt
  refine k.forRange 12 fun i m k => ?_
  unfold Mach.stopAxisNow
  exact .ite (k.axisTo i _ true) k

/-! #### Frames that close -/

theorem refuse (k : KeepsExpiry a m) (h : DescRef) (st : Status) : KeepsExpiry a (m.refuse h st) := by
  unfold Mach.refuse
  exact .ite (k.framed (by simp)) (k.same (by rfl))

theorem windowFail (k : KeepsExpiry a m) (h : DescRef) : KeepsExpiry a (m.windowFail h) :=
  (k.raise _ _ _ _).refuse h .window

theorem cplDrain (k : KeepsExpiry a m) (t n : Nat) : KeepsExpiry a (m.cplDrain t n) := by
  induction n generalizing m with
  | zero => exact k
  | succ n ih =>
    unfold Mach.cplDrain
    split
    · exact k
    · exact .ite (ih (k.framed (by simp))) k

theorem drainWaiting (k : KeepsExpiry a m) : KeepsExpiry a m.drainWaiting := by
  have hfirst : KeepsExpiry a m.drainFirst := k.framed (by simp)
  unfold Mach.drainWaiting
  exact .ite hfirst (hfirst.foldl _ fun _ e k => k.cplDrain e.1 _)

theorem bufDone (k : KeepsExpiry a m) (b : CamBuffer) (u : OutUnit) (value : Nat) (last : Bool) :
    KeepsExpiry a (m.bufDone b u value last) := k.framed (by simp [Mach.bufDone])

theorem drainSteps (k : KeepsExpiry a m) (n fuel left : Nat) : KeepsExpiry a (m.drainSteps n fuel left) := by
  induction fuel generalizing m left with
  | zero => exact k
  | succ fuel ih =>
    unfold Mach.drainSteps
    split
    · exact ih (k.framed (by simp [Mach.setCamBufs])) _
    · next b bs u us _ _ _ =>
      extract_lets cut chunk rest filled sent spilt
      have hsent : KeepsExpiry a sent := .ite k (k.framed (by simp))
      have hspilt : KeepsExpiry a spilt := hsent.same (by rfl)
      have hfailed : KeepsExpiry a ((m.setCamBufs n bs).windowFail b.desc) := .windowFail (k.same (by rfl)) _
      have hclosed : KeepsExpiry a (((sent.setSpill n us).setCamBufs n bs).bufDone b u filled true) :=
        .bufDone (hsent.same (by rfl)) _ _ _ _
      have hfull : KeepsExpiry a ((spilt.setCamBufs n bs).bufDone b u filled false) :=
        .bufDone (hspilt.same (by rfl)) _ _ _ _
      exact .ite (ih hfailed _) (.ite (ih hclosed _) (.ite (ih hfull _) (hspilt.same (by rfl))))
    · exact k

theorem camDrain (k : KeepsExpiry a m) (n : Nat) : KeepsExpiry a (m.camDrain n) := by
  have hheld : KeepsExpiry a (m.camHold n) := .ite k (k.same (by rfl))
  unfold Mach.camDrain
  exact .ite k (.ite hheld (.ite k (k.drainWaiting.drainSteps n _ _)))

theorem unitPut (k : KeepsExpiry a m) (n c o : Nat) (frame : Word) (records : Nat) (d : List Byte) :
    KeepsExpiry a (m.unitPut n c o frame records d) := by
  unfold Mach.unitPut
  split
  · exact k
  · exact .ite k (.ite (k.same (by rfl)) (.raise (k.same (by rfl)) _ _ _ _))

theorem putBoxes (k : KeepsExpiry a m) (c o n : Nat) (f : Frame) (upTo : Nat) (final : Bool) (fuel b : Nat) :
    KeepsExpiry a (m.putBoxes c o n f upTo final fuel b) := by
  induction fuel generalizing m b with
  | zero =>
    unfold Mach.putBoxes
    split
    · exact k.same (by rfl)
    · exact k
  | succ fuel ih =>
    unfold Mach.putBoxes
    extract_lets e
    refine .ite (ih (k.unitPut _ _ _ _ _ _) _) ?_
    split
    · exact k.same (by rfl)
    · exact k

theorem produce (k : KeepsExpiry a m) (c : Nat) (f : Frame) (upTo : Nat) (final : Bool) :
    KeepsExpiry a (m.produce c f upTo final) := by
  unfold Mach.produce
  refine k.foldl _ fun m o k => ?_
  extract_lets s
  split
  · exact k
  · extract_lets waits headed put
    have hheaded : KeepsExpiry a headed := .ite k (k.same (by rfl))
    have hput : KeepsExpiry a put :=
      .ite (hheaded.putBoxes _ _ _ _ _ _ _ _) (.ite (hheaded.unitPut _ _ _ _ _ _) hheaded)
    exact hput.camDrain _

theorem toClosure (k : KeepsExpiry a m) (c : Nat) (f : Frame) (w : FrameEnd) : KeepsExpiry a (m.toClosure c f w) := by
  unfold Mach.toClosure
  exact k.foldl _ fun m o k => .ite k (k.same (by rfl))

theorem schedUpdate (k : KeepsExpiry a m) (d : Nat) : KeepsExpiry a (m.schedUpdate d) := by
  unfold Mach.schedUpdate
  exact .ite k (k.same (by rfl))

theorem closeFrame (k : KeepsExpiry a m) (c : Nat) (w : FrameEnd) : KeepsExpiry a (m.closeFrame c w) := by
  unfold Mach.closeFrame
  split
  · exact k
  · next f _ =>
    extract_lets written upTo handed drained _ closed id short long
    have hwritten : KeepsExpiry a written := .ite (k.same (by rfl)) k
    have hhanded : KeepsExpiry a handed := (hwritten.produce _ _ _ _).toClosure _ _ _
    have hdrained : KeepsExpiry a drained := by
      refine hhanded.foldl _ fun m o k => .ite ?_ k
      extract_lets n
      split
      · exact k
      · exact .camDrain (k.same (by rfl)) _
    have hclosed : KeepsExpiry a closed := hdrained.same (by rfl)
    have hshort : KeepsExpiry a short := .ite (hclosed.raise _ _ _ _) hclosed
    have hlong : KeepsExpiry a long := .ite (hshort.raise _ _ _ _) hshort
    exact hlong.schedUpdate _

/-! #### HALT's causes -/

theorem haltCause (k : KeepsExpiry a m) (c : HaltCause) : KeepsExpiry a (m.haltCause c) := by
  unfold Mach.haltCause
  exact .ite (.ite (k.same (by rfl)) (.ite (k.same (by rfl)) k)) (k.same (by rfl))

theorem benchEnd (k : KeepsExpiry a m) (result : Nat) : KeepsExpiry a (m.benchEnd result) := by
  unfold Mach.benchEnd
  split
  · exact k
  · exact .raise (k.same (by rfl)) _ _ _ _

end KeepsExpiry

/-! ### HALT is entered (R495, R498) -/

/-- A mode is entered, and the clock and the watchdog's expiry stand. -/
structure Enters (mode : Mode) (a m : Mach) : Prop where
  dtm : m.dtm = a.dtm
  expired : m.fgd.wdgExpired = a.fgd.wdgExpired
  mode : m.glb.mode = mode

namespace Enters

variable {mode : Mode} {a b m : Mach}

theorem of_keepsExpiry (k : KeepsExpiry a m) (h : a.glb.mode = mode) : Enters mode a m :=
  ⟨k.dtm, k.expired, k.mode.trans h⟩

theorem kept (e : Enters mode a b) (k : KeepsExpiry b m) : Enters mode a m :=
  ⟨k.dtm.trans e.dtm, k.expired.trans e.expired, k.mode.trans e.mode⟩

theorem after (k : KeepsExpiry a b) (e : Enters mode b m) : Enters mode a m :=
  ⟨e.dtm.trans k.dtm, e.expired.trans k.expired, e.mode⟩

theorem modeTo (m : Mach) (mode : Mode) (source : Nat) : Enters mode m (m.modeTo mode source) := by
  unfold Mach.modeTo
  extract_lets old benched since cut _ entered raised refused
  split
  · next h => exact .of_keepsExpiry (.refl m) h
  · have hbenched : KeepsExpiry m benched := .ite (.benchEnd (.refl m) 1) (.refl m)
    have hsince : KeepsExpiry m since := .ite (hbenched.same (by rfl)) hbenched
    have hentered : Enters mode m entered := .after hsince ⟨rfl, rfl, rfl⟩
    have hraised : KeepsExpiry entered raised := .raise (.refl entered) _ _ _ _
    have hrefused : KeepsExpiry entered refused := .ite (hraised.raise _ _ _ _) hraised
    exact hentered.kept hrefused.parkUpdate

theorem enterHalt (m : Mach) (c : HaltCause) (others : List HaltCause) : Enters .halt m (m.enterHalt c others) := by
  unfold Mach.enterHalt
  extract_lets safe _ ticked caused ended discarded closed halted
  have hsafe : KeepsExpiry m safe := .stnSafe (.refl m) 1
  clear_value safe
  have hticked : KeepsExpiry m ticked := hsafe.same (by rfl)
  have hcaused : KeepsExpiry m caused := .foldl (hticked.same (by rfl)) _ fun _ c k => k.haltCause c
  have hended : KeepsExpiry m ended := .ite hcaused (hcaused.endActive _ _)
  have hdiscarded : KeepsExpiry m discarded := hended.discardSwaths _
  have hclosed : KeepsExpiry m closed := hdiscarded.forRange 8 fun c _ k => k.closeFrame c .halted
  have hhalted : Enters .halt m halted := .after hclosed.motHalt (.modeTo _ .halt 4)
  exact hhalted.kept (.raise (.refl halted) _ _ _ _)

theorem halt (c : HaltCause) (h : m.glb.mode ≠ .boot) : Enters .halt m (m.halt c) := by
  simp only [Mach.halt, Mach.inMode, h, decide_false, Bool.false_eq_true, if_false, decide_eq_true_eq]
  split
  · next hh => exact .of_keepsExpiry (.haltCause (.refl m) c) hh
  · exact enterHalt m c []

theorem settle (e : Enters mode a m) : Enters mode a m.settle := by
  unfold Mach.settle
  split
  · exact e.kept (.raise (.same (.refl m) (by rfl)) _ _ _ _)
  · exact e

end Enters

/-- HEAD_PWR_EN is low in HALT (R301). -/
theorem headPwr_of_halt {m : Mach} (hs : Mach.powerSafe m) (h : m.glb.mode = .halt) : m.fgd.headPwr = false := by
  refine Bool.eq_false_iff.2 fun hp => ?_
  obtain ⟨-, -, -, hmode, -⟩ := (pwrOff_eq_zero_iff m).1 (hs hp)
  simp [h] at hmode

/-! ### The watchdog (R302) -/

theorem exec_watchdogRefresh (v : Nat) (firmware : Bool) (s : State) :
    exec (.watchdogRefresh v firmware) s = execWatchdogRefresh v firmware s := rfl

/-- The watchdog's period in DTM ticks: wdg_ms from 1 to 1000. -/
abbrev wdgTicks (m : Mach) : Nat := clampNat 1 1000 (m.fld Reg.FGD_G_CFG.wdg_ms) * 500000

/-- The watchdog is marked expired. -/
def markExpired (m : Mach) : Mach := { m with fgd := { m.fgd with wdgExpired := true } }

/-- What the expiry does once the period has passed: the mark, its record and HALT. -/
def watchdogExpires (m : Mach) : Mach :=
  ((markExpired m).raise Ev.guardWatchdog (if (markExpired m).inMode .halt then .warning else .fatal)
    (clampNat 1 1000 ((markExpired m).fld Reg.FGD_G_CFG.wdg_ms))
    ((markExpired m).fld Reg.FGD_G_WDG_BAD.cnt)).halt .watchdog

theorem exec_watchdogExpiry (s : State) : exec .watchdogExpiry s = s.run fun m =>
    if !m.glb.locked || m.fgd.wdgExpired || !m.passed m.fgd.wdgTick (wdgTicks m) then m else watchdogExpires m := rfl

theorem enters_watchdogExpires {m : Mach} (h : m.glb.mode ≠ .boot) : Enters .halt (markExpired m) (watchdogExpires m) :=
  .after (.raise (.refl _) _ _ _ _) (.halt .watchdog (by simpa [markExpired] using h))

/-- A refresh makes no condition of R301 fail. -/
theorem keeps_refreshed (m : Mach) :
    Keeps m { m with fgd := { m.fgd with wdgRefreshed := true, wdgTick := m.now } } := by
  refine ⟨rfl, rfl, fun h hp => ?_⟩
  obtain ⟨hlocked, hstop, ⟨-, hexpired⟩, hmode⟩ := (pwrOff_eq_zero_iff m).1 (h hp)
  exact (pwrOff_eq_zero_iff _).2 ⟨hlocked, hstop, ⟨rfl, hexpired⟩, hmode⟩

/-! ### The ceilings (R293) -/

/-- Both copies of the ceiling record hold the ceilings in force, closed by their check. -/
def savedCeilings (m : Mach) : Mach := { m with nand := { m.nand with
  ceilA := { words := m.ceilingWords, crc := ceilingCrc m.ceilingWords }
  ceilB := { words := m.ceilingWords, crc := ceilingCrc m.ceilingWords } } }

/-- Nothing in NAND is a condition of R301. -/
theorem keeps_nand (m : Mach) (n : Nand) : Keeps m { m with nand := n } := ⟨rfl, rfl, id⟩

theorem keeps_checked {a m : Mach} (k : Keeps a m) (unit n bad : Nat) : Keeps a (m.checked unit n bad) :=
  (k.setFld _ _).setFld _ _

theorem exec_ceilingSave (s : State) : exec .ceilingSave s = s.run fun m =>
    if m.inMode .boot || !m.ceilingsOpen then m else (savedCeilings m).checked 23 2 0 := rfl

/-! ### What the commands of the Fire Guard do -/

theorem exec_headPwrChange (s : State) : exec .headPwrChange s = execHeadPwrChange s := rfl

section

variable {s : State} (hr : Runs s)

include hr

theorem hostRefreshIsTaken (hm : s.m.glb.mode ≠ .boot) (hl : s.m.glb.locked = true) (he : s.m.fgd.wdgExpired = false)
    (ho : s.m.flag Reg.FGD_G_CFG.wdg_src = true) : Becomes (.watchdogRefresh 0xC3A5 false) s
      { s.m with fgd := { s.m.fgd with wdgRefreshed := true, wdgTick := s.m.now } } :=
  becomes_of_exec (exec_watchdogRefresh _ _ s) hr (by simp [Mach.inMode, hm, hl, he, ho]) (keeps_refreshed s.m)

theorem badRefreshIsCounted {v : Nat} (hm : s.m.glb.mode ≠ .boot) (hv : v % 65536 ≠ 0xC3A5) :
    Becomes (.watchdogRefresh v false) s (s.m.addSat Reg.FGD_G_WDG_BAD.cnt 1) :=
  becomes_of_exec (exec_watchdogRefresh _ _ s) hr (by simp [Mach.inMode, hm, hv]) ⟨rfl, rfl, id⟩

theorem watchdogRunsOn (ht : s.m.now < s.m.fgd.wdgTick + wdgTicks s.m) : Becomes .watchdogExpiry s s.m :=
  becomes_same (exec_watchdogExpiry s) hr (by simp [Mach.passed, Nat.not_le.2 ht])

theorem watchdogExpiryHalts (hm : s.m.glb.mode ≠ .boot) (hl : s.m.glb.locked = true) (he : s.m.fgd.wdgExpired = false)
    (ht : s.m.fgd.wdgTick + wdgTicks s.m ≤ s.m.now) : Reaches .watchdogExpiry s fun m =>
      m.glb.mode = .halt ∧ m.fgd.wdgExpired = true ∧ m.fgd.headPwr = false ∧ m.dtm = s.m.dtm := by
  rw [Reaches, exec_watchdogExpiry]
  refine reaches_of_run hr.1 ?_
  have hhalted : Enters .halt (markExpired s.m) (watchdogExpires s.m) := enters_watchdogExpires hm
  simp only [hl, he, Mach.passed, ht, decide_true, Bool.not_true, Bool.or_self, Bool.false_eq_true, if_false]
  generalize watchdogExpires s.m = m at hhalted
  have hsettled := (hhalted.kept (m := { m with dram := s.m.dram, otp := s.m.otp }) ⟨rfl, rfl, rfl⟩).settle
  exact ⟨hsettled.mode, hsettled.expired, headPwr_of_halt (settle_safe _) hsettled.mode, hsettled.dtm⟩

theorem ceilingsAreSaved (hm : s.m.glb.mode ≠ .boot) (ho : s.m.ceilingsOpen = true) : Becomes .ceilingSave s
    ((savedCeilings s.m).checked 23 2 0) :=
  becomes_of_exec (exec_ceilingSave s) hr (by simp [Mach.inMode, hm, ho]) (keeps_checked (keeps_nand s.m _) 23 2 0)

theorem headPowerGoesHigh (hp : s.m.fgd.headPwr = false) (hc : s.m.pwrOff = 0) (ht : s.m.thm.latch = none) :
    Becomes .headPwrChange s
      (({ s.m with fgd := { s.m.fgd with headPwr := true } } : Mach).raise Ev.guardPwr .info 1 0) :=
  have hhigh : Keeps s.m { s.m with fgd := { s.m.fgd with headPwr := true } } := ⟨rfl, rfl, fun _ _ => hc⟩
  becomes_of_exec (exec_headPwrChange s) hr (by simp [hp, hc, ht]) (keeps_raise hhigh _ _ _ _)

theorem headPowerStaysLow (hc : s.m.pwrOff ≠ 0) : Becomes .headPwrChange s s.m :=
  becomes_same (exec_headPwrChange s) hr (by simp [hc])

end

/-- Settles O35: HALT's working, which the expiry starts, leaves the clock and the expiry's mark, and R301 then takes
HEAD_PWR_EN low. -/
theorem theGuardWatches : Obligations.TheGuardWatches :=
  ⟨fun _ => hostRefreshIsTaken, fun _ => watchdogRunsOn, fun _ _ hr => badRefreshIsCounted hr,
    fun _ => watchdogExpiryHalts, fun _ => ceilingsAreSaved, fun _ => headPowerGoesHigh, fun _ => headPowerStaysLow⟩

end Sys2Proof.Guard
end

section
/-! SUPPORT. What the statement on training hangs on. Its clause on a head lane that comes UP asks nothing of the register
bank, and a bank out of its canonical form breaks it wherever a capability block can pass its check; whether one can rests
on the output latency of the Benchmark block (log entry 36), which has no value here. -/

namespace Sys2Proof.Training

open Sys2Proof Sys2Proof.Machine Sys2Proof.Laws Sys2Proof.Stations

/-! ### A lane comes UP (R322, R325) -/

theorem lane_setLane_of_on (m : Mach) (n : Nat) {x : Lane} (hx : x.state ≠ .off) : (m.setLane n x).lane n = x := by
  have hne : x ≠ {} := fun h => hx (by rw [h])
  rw [Mach.lane, Mach.setLane, get_set_of_ne_default _ _ _ _ hne, if_pos rfl]

/-- Under an output latency above the 4 000 ns of R325 no capability block passes its check. -/
theorem capsCause_ne_zero_of_outputLatency {m : Mach} (h : 4000 * 16 < Config.outputLatency) (n hub : Nat) :
    m.capsCause n hub ≠ 0 := by
  have hlat (a : Mach) : Config.outputLatency ≤ a.laneLat hub := Nat.le_add_left _ _
  unfold Mach.capsCause
  extract_lets x c y lat depth3
  have hslow : 4000 * 16 < min 65535 lat + leField c 6 2 * 16 := by
    have : Config.outputLatency ≤ lat := hlat _
    omega
  rw [if_pos hslow]
  split
  · decide
  · split
    · decide
    · split <;> decide

/-- A lane whose hub's capability block holds, before the hub follows it. -/
def laneComesUp (m : Mach) (n h : Nat) : Mach :=
  let x := m.lane n
  let y := m.hub h
  (((m.setHub h { y with hash := x.t2Hash }).takeCaps h y.caps).laneTo n
    { x with state := .up, trainCause := 0, hash := x.t2Hash }).raise Ev.laneUp .info n (x.rate + 256 * ofBool x.full)

/-- LANE_UP after a retrain at the rate in use, with no usage record to read again. -/
theorem exec_laneUp_of_capsHold {s : State} {n h : Nat} (hs : (s.m.lane n).state = .caps)
    (ha : (s.m.hub (s.m.capsHub n)).reqs.any (CtrlReq.capsOf n) = false) (hh : s.m.hubOfLane n = some h)
    (hc : s.m.capsCause n h = 0) (hf : (s.m.lane n).full = false) (hr : (s.m.hub h).readAgain = false) :
    exec (.laneUp n) s = s.run fun m => (laneComesUp m n h).hubUpdate h := by
  change execLaneUp n s = _
  simp only [execLaneUp, State.run, laneComesUp, hs, ha, hh, hc, hf, hr, ne_eq, not_true_eq_false, Bool.false_eq_true,
    if_false]

/-- FGD_HB<n>_LAT shows a hub's lane_lat as it is measured. -/
def latShown (m : Mach) (hub : Nat) : Mach :=
  m.setFld (Reg.FGD_HB_LAT.lane_lat hub) (min 65535 (m.laneLat hub))

/-- A timing lane that is UP reports LATENCY while its hub is slow (R269, R325). -/
theorem trainCause_latUpdate_of_slow {m : Mach} {hub n : Nat} (hn : (latShown m hub).timingLane hub = n)
    (hx : (m.lane n).state = .up) (hs : (latShown m hub).hubSlow hub = true) :
    ((m.latUpdate hub).lane n).trainCause = 4 := by
  have hup : ((latShown m hub).lane n).state = .up := hx
  have hlat : m.latUpdate hub =
      (latShown m hub).setLane n { (latShown m hub).lane n with trainCause := 4 } := by
    rw [Mach.latUpdate, ← latShown]
    dsimp only
    rw [hn, hs, if_pos hup, if_pos rfl]
  rw [hlat, lane_setLane_of_on _ _ (by simp [hup])]

theorem loseLines_skx (m : Mach) (hub : Nat) : (m.loseLines hub).skx = m.skx := by
  unfold Mach.loseLines Mach.cutPacket
  dsimp only
  split <;> simp

/-- Of the lanes, a hub's change of state touches its timing lane's cause alone. -/
theorem hubUpdate_lane (m : Mach) (hub : Nat) : (m.hubUpdate hub).skx.lane = (m.latUpdate hub).skx.lane := by
  unfold Mach.hubUpdate
  extract_lets x lanes up shown st dark set lost
  have hset : set.skx.lane = (m.latUpdate hub).skx.lane := rfl
  have hlost : lost.skx.lane = set.skx.lane := by
    unfold lost
    split
    · rw [loseLines_skx]
    · rfl
  rw [← hset, ← hlost]
  split
  · simp
  · split <;> simp

/-! ### A register bank out of its canonical form -/

/-- Writing lane_lat leaves hub_lat as it was, where hub_lat is not 0. -/
theorem hub_lat_setFld_lane_lat {m : Mach} {hub : Nat} (v : Nat) (h : m.rd (Reg.FGD_HB_LAT hub) = 0xFFFF0000)
    (hz : regReset (Reg.FGD_HB_LAT hub) = 0) :
    (m.setFld (Reg.FGD_HB_LAT.lane_lat hub) v).fld (Reg.FGD_HB_LAT.hub_lat hub) = 65535 := by
  have hread : (m.setFld (Reg.FGD_HB_LAT.lane_lat hub) v).rd (Reg.FGD_HB_LAT hub) = 0xFFFF0000 + v % 65536 := by
    have hword : withBits (m.rd (Reg.FGD_HB_LAT hub)) 15 0 v = 0xFFFF0000 + v % 65536 := by
      simp [withBits, bitsOf, h]
    have hnz : word (0xFFFF0000 + v % 65536) ≠ regReset (Reg.FGD_HB_LAT hub) := by
      rw [hz, word]
      bv_omega
    change (Tab.getD regReset (Tab.setD regReset m.regs (Reg.FGD_HB_LAT hub)
      (word (withBits (m.rd (Reg.FGD_HB_LAT hub)) 15 0 v))) (Reg.FGD_HB_LAT hub)).toNat = _
    rw [hword, Tab.setD, if_neg hnz, getD_insert, if_pos rfl, word, BitVec.toNat_ofNat]
    omega
  change bitsOf ((m.setFld (Reg.FGD_HB_LAT.lane_lat hub) v).rd (Reg.FGD_HB_LAT hub)) 31 16 = 65535
  rw [hread, bitsOf, Nat.shiftRight_eq_div_pow]
  omega

/-- Writing lane_lat of hub 4 leaves its timing lane as it was. -/
theorem timingLane_setFld_lane_lat (m : Mach) (v : Nat) :
    (m.setFld (Reg.FGD_HB_LAT.lane_lat 4) v).timingLane 4 = m.timingLane 4 := by
  have hcfg : (m.setFld (Reg.FGD_HB_LAT.lane_lat 4) v).rd (Reg.SKX_HUB_CFG 4) = m.rd (Reg.SKX_HUB_CFG 4) :=
    rd_wr_ne m _ (by decide)
  rw [Reg.SKX_HUB_CFG] at hcfg
  simp only [Mach.timingLane, Mach.flag, Mach.fld, Reg.SKX_HUB_CFG.lane0, Reg.SKX_HUB_CFG.lane1,
    Reg.SKX_HUB_CFG.bonded, hcfg]
  rfl

/-- A capability block that serves no head and adds no latency (R324). -/
def headlessCaps : List Byte := leBytes 2 0x5C0B ++ leBytes 1 1 ++ List.replicate 141 0

/-- Lane 4 in CAPS with its hub's block received. The bank lists SKX_HUB4_CFG, which enables the hub, ahead of
FGD_HB4_LAT, which has the lower offset and names a hub_lat of 65 535 ns. -/
def hubCfgListedBeforeLat : State :=
  { m := { glb := { mode := .run, stage := 0 }
           skx := { lane := [(4, { state := .caps, full := false, t2Hash := (crc8 headlessCaps).toNat })]
                    hub := [(4, { caps := headlessCaps })] }
           regs := [(Reg.SKX_HUB_CFG 4, 0x80000004), (Reg.FGD_HB_LAT 4, 0xFFFF0000)] } }

theorem hubOfLane_hubCfgListedBeforeLat : hubCfgListedBeforeLat.m.hubOfLane 4 = some 4 := by decide

theorem hubHeads_hubCfgListedBeforeLat : hubCfgListedBeforeLat.m.hubHeads 4 = [] := by decide

/-- The lane once it is taken to be UP, as the check of the block takes it. -/
def lane4Up : Lane := { hubCfgListedBeforeLat.m.lane 4 with state := .up }

/-- With no round trip measured, lane_lat is the output latency. -/
theorem laneLat_setLane_lane4Up : (hubCfgListedBeforeLat.m.setLane 4 lane4Up).laneLat 4 = Config.outputLatency := by
  have htiming : (hubCfgListedBeforeLat.m.setLane 4 lane4Up).timingLane 4 = 4 := by decide
  have hlane : (hubCfgListedBeforeLat.m.setLane 4 lane4Up).lane 4 = lane4Up :=
    lane_setLane_of_on _ _ (by decide)
  have hloops : lane4Up.loops = [] := rfl
  simp [Mach.laneLat, htiming, hlane, Lane.lat, Lane.meanTrip, hloops]

/-- The block passes its check where the output latency alone is within 4 000 ns. -/
theorem capsCause_hubCfgListedBeforeLat (h : Config.outputLatency ≤ 4000 * 16) :
    hubCfgListedBeforeLat.m.capsCause 4 4 = 0 := by
  have hlat : (hubCfgListedBeforeLat.m.setLane 4 { hubCfgListedBeforeLat.m.lane 4 with state := .up }).laneLat 4 =
      Config.outputLatency := laneLat_setLane_lane4Up
  have hlen : headlessCaps.length = 144 := by simp [headlessCaps, leBytes]
  have hhash : (hubCfgListedBeforeLat.m.lane 4).t2Hash = (crc8 headlessCaps).toNat := by
    simp only [hubCfgListedBeforeLat, Mach.lane, Tab.get, Tab.getD, if_true]
  have hcaps : (hubCfgListedBeforeLat.m.hub 4).caps = headlessCaps := rfl
  have hplain : hubCfgListedBeforeLat.m.flag (Reg.SKX_HUB_CFG.bonded 4) = false := by decide
  have hdepth : hubCfgListedBeforeLat.m.vgp.job = [] := rfl
  have hmagic : leField headlessCaps 0 2 = 0x5C0B ∧ leField headlessCaps 2 1 = 1 ∧ leField headlessCaps 6 2 = 0 := by
    decide
  obtain ⟨hm0, hm1, hm2⟩ := hmagic
  have hfast : ¬ 4000 * 16 < min 65535 Config.outputLatency + 0 * 16 := by omega
  unfold Mach.capsCause
  dsimp only
  rw [hlat, hcaps, hubHeads_hubCfgListedBeforeLat, hplain, hdepth, hm0, hm1, hm2, hlen, hhash, if_neg hfast]
  simp

/-- The block's hub_lat of 0 makes the word its reset value, and writing that erases no entry that stands out of order. -/
theorem rd_lat_laneComesUp : (laneComesUp hubCfgListedBeforeLat.m 4 4).rd (Reg.FGD_HB_LAT 4) = 0xFFFF0000 := by
  decide

theorem timingLane_laneComesUp : (laneComesUp hubCfgListedBeforeLat.m 4 4).timingLane 4 = 4 := by decide

/-- Beside the block's hub_lat of 0 the bank still reads 65 535 ns, and the lane reports the cause LATENCY. -/
theorem trainCause_hubUpdate_laneComesUp :
    (((laneComesUp hubCfgListedBeforeLat.m 4 4).hubUpdate 4).lane 4).trainCause = 4 := by
  rw [Mach.lane, hubUpdate_lane, ← Mach.lane]
  refine trainCause_latUpdate_of_slow ?_ (by decide) ?_
  · rw [latShown, timingLane_setFld_lane_lat, timingLane_laneComesUp]
  · rw [latShown, Mach.hubSlow, hub_lat_setFld_lane_lat _ rd_lat_laneComesUp (by decide), decide_eq_true_eq]
    omega

/-- The statement on training entails that no capability block ever passes its check
(`capsCause_ne_zero_of_outputLatency`): where one can, the lane that comes UP in `hubCfgListedBeforeLat` has the cause 4
for the 0 of the clause. A proof of the statement would thus bound a constant that has no value. -/
theorem outputLatency_gt_of_lanesTrain (h : Obligations.LanesTrain) : 4000 * 16 < Config.outputLatency := by
  refine Nat.lt_of_not_le fun hle => ?_
  obtain ⟨-, -, -, -, hup, -⟩ := h
  have hc := capsCause_hubCfgListedBeforeLat hle
  obtain ⟨m, hm, -, hlane⟩ := hup hubCfgListedBeforeLat 4 4 _ ⟨rfl, fun h => nomatch h⟩ rfl rfl
    hubOfLane_hubCfgListedBeforeLat (by decide)
  rw [if_pos hc] at hlane
  rw [exec_laneUp_of_capsHold rfl (by decide) hubOfLane_hubCfgListedBeforeLat hc rfl rfl, run_alive _ _ rfl] at hm
  injection hm with hm
  injection hm with hm
  have hcause := trainCause_hubUpdate_laneComesUp
  have hsame : m.lane 4 = ((laneComesUp hubCfgListedBeforeLat.m 4 4).hubUpdate 4).lane 4 := by
    rw [← hm, Mach.lane, settle_skx, Mach.lane]
  rw [← hsame, hlane] at hcause
  exact absurd hcause (by decide)

end Sys2Proof.Training
end

section
/-! SUPPORT. The statement on training, clause by clause. All hold but one: that on a head lane that comes UP asks nothing of
the register bank, and one out of its canonical form breaks it, as the section above shows, wherever a capability block
can pass its check. Whether one can rests on the output latency of the Benchmark block (log entry 36), a constant without
a value, so that the statement is neither proved nor refuted: `lanesTrain_iff` says what it comes to. -/

namespace Sys2Proof.Training

open Sys2Proof Sys2Proof.Machine Sys2Proof.Laws Sys2Proof.Scope Sys2Proof.Stations

/-! ### Changes that leave the lanes and hubs alone -/

theorem skx_ite {c : Prop} [Decidable c] {m n : Mach} {x : Skx} (hm : m.skx = x) (hn : n.skx = x) :
    (if c then m else n).skx = x := by
  split
  · exact hm
  · exact hn

theorem trv_skx (m : Mach) (t : Trv) : ({ m with trv := t } : Mach).skx = m.skx := rfl

@[simp] theorem setEngine_skx (m : Mach) (e : Nat) (g : Engine) : (m.setEngine e g).skx = m.skx := rfl
@[simp] theorem setSwath_skx (m : Mach) (k : Nat) (x : Swath) : (m.setSwath k x).skx = m.skx := rfl
@[simp] theorem setJob_skx (m : Mach) (j : Nat) (x : Job) : (m.setJob j x).skx = m.skx := rfl
@[simp] theorem setLayer_skx (m : Mach) (n : Nat) (l : Layer) : (m.setLayer n l).skx = m.skx := rfl
@[simp] theorem setAxis_skx (m : Mach) (a : Nat) (x : Axis) : (m.setAxis a x).skx = m.skx := rfl
@[simp] theorem setEnded_skx (m : Mach) (t : Nat) (c : Option Chainage) : (m.setEnded t c).skx = m.skx := rfl
@[simp] theorem oweUsage_skx (m : Mach) : m.oweUsage.skx = m.skx := rfl
@[simp] theorem dropSlots_skx (m : Mach) (j : Nat) : (m.dropSlots j).skx = m.skx := rfl
@[simp] theorem sendC_skx (m : Mach) (n t : Nat) (d : List Byte) : (m.sendC n t d).skx = m.skx := emit_skx _ _

@[simp] theorem stallEnds_skx (m : Mach) (e : Nat) : (m.stallEnds e).skx = m.skx := by
  unfold Mach.stallEnds
  dsimp only
  split <;> simp

@[simp] theorem abandon_skx (m : Mach) (p : Nat → Bool) : (m.abandon p).skx = m.skx := by
  unfold Mach.abandon
  refine foldl_keeps Mach.skx _ (fun m e => ?_) _ m
  extract_lets stalled g g'
  have hstalled : stalled.skx = m.skx := by
    unfold stalled
    split <;> simp
  split
  · split <;> simp [hstalled]
  · simp [hstalled]

@[simp] theorem discardSwaths_skx (m : Mach) (p : Nat → Bool) : (m.discardSwaths p).skx = m.skx := by
  unfold Mach.discardSwaths
  extract_lets abandoned trv
  have habandoned : abandoned.skx = m.skx := abandon_skx m p
  clear_value abandoned
  exact habandoned

theorem countFall_skx (m : Mach) (k : Nat) (ls : List Nat) (ps : List Pend) (p : Pend) :
    (m.countFall k ls ps p).skx = m.skx := by
  unfold Mach.countFall
  extract_lets x ahead old key past
  split <;> rfl

@[simp] theorem fallBack_skx (m : Mach) (k : Nat) (ls : List Nat) (b c : List Pend × Bool) :
    (m.fallBack k ls b c).skx = m.skx := by
  unfold Mach.fallBack
  extract_lets x y z counted
  have hcounted : counted.skx = m.skx := by simp [counted, Mach.recountFld]
  rw [← hcounted]
  exact foldl_keeps Mach.skx _ (fun m p => countFall_skx m k ls c.1 p) _ counted

@[simp] theorem requeueOne_skx (m : Mach) (sc : Scope) (p : Pend) (k : Nat) : (m.requeueOne sc p k).skx = m.skx := by
  unfold Mach.requeueOne
  dsimp only
  repeat' split
  all_goals simp

theorem requeueAll_skx (m : Mach) (sc : Scope) (p : Pend) : (m.requeueAll sc p).skx = m.skx := by
  unfold Mach.requeueAll
  refine foldl_keeps Mach.skx _ (fun m x => ?_) _ m
  exact requeueOne_skx m sc p x.1

@[simp] theorem commit_skx (m : Mach) (sc : Scope) (e : Chainage) (v : Bool) (w : Option Word)
    (f : Nat → Tab Nat → Tab Nat) : (m.commit sc e v w f).skx = m.skx := by
  unfold Mach.commit
  extract_lets ep vs c epo committed
  exact requeueAll_skx committed _ _

@[simp] theorem updateCeiling_skx (m : Mach) : m.updateCeiling.skx = m.skx := by
  unfold Mach.updateCeiling
  extract_lets c e lower shown old counted
  have hboot : m.ceilingShown.skx = m.skx := by rw [Mach.ceilingShown, setFld_skx, setFld_skx]
  have hshown : shown.skx = m.skx := (setFld_skx _ _ _).trans (setFld_skx _ _ _)
  have hcounted : counted.skx = m.skx := (trv_skx shown _).trans hshown
  exact skx_ite hboot (skx_ite (setFld_skx _ _ _) ((raise_skx _ _ _ _ _).trans hcounted))

@[simp] theorem parkUpdate_skx (m : Mach) : m.parkUpdate.skx = m.skx := by
  unfold Mach.parkUpdate
  extract_lets host steps src trv ordered
  refine foldl_keeps Mach.skx _ (fun m e => ?_) _ ordered
  extract_lets g unclaimed stalled
  have hunclaimed : unclaimed.skx = m.skx := by
    unfold unclaimed
    split <;> simp
  have hstalled : stalled.skx = m.skx := by simp [stalled, hunclaimed]
  split
  · split <;> simp
  · split
    · rfl
    · simp [hstalled]

@[simp] theorem jobState_skx (m : Mach) (j : Nat) (t : JobState) : (m.jobState j t).skx = m.skx := by
  simp [Mach.jobState]

@[simp] theorem storeCheck_skx (m : Mach) : m.storeCheck.skx = m.skx := by
  unfold Mach.storeCheck
  dsimp only
  split
  · split <;> rfl
  · split <;> simp

@[simp] theorem freeJob_skx (m : Mach) (j : Nat) : (m.freeJob j).skx = m.skx := by
  simp [Mach.freeJob]

@[simp] theorem keepPast_skx (m : Mach) (j : Nat) : (m.keepPast j).skx = m.skx := by
  unfold Mach.keepPast
  dsimp only
  split <;> rfl

@[simp] theorem endJob_skx (m : Mach) (j : Nat) (t : Status) (c : Chainage) (v : Nat) :
    (m.endJob j t c v).skx = m.skx := by
  unfold Mach.endJob
  extract_lets x past cpl queued owed vgp closed cleared fgd freed stored y
  have howed : owed.skx = m.skx := by simp [owed, queued, past]
  have hfreed : freed.skx = m.skx := by simp [freed, cleared, closed, howed]
  split <;> simp [stored, hfreed]

@[simp] theorem stopLines_skx (m : Mach) (j : Nat) (c : Chainage) : (m.stopLines j c).skx = m.skx := by
  simp [Mach.stopLines]

@[simp] theorem takeOver_skx (m : Mach) (j : Nat) (e : Chainage) : (m.takeOver j e).skx = m.skx := by
  unfold Mach.takeOver
  refine foldl_keeps Mach.skx _ (fun m i => ?_) _ m
  extract_lets x stop stopped
  have hstopped : stopped.skx = m.skx := by simp [stopped]
  split
  · rfl
  · split <;> simp [Mach.endTaken, hstopped]

@[simp] theorem startJob_skx (m : Mach) (j : Nat) (o e : Chainage) (ep : Word) : (m.startJob j o e ep).skx = m.skx := by
  simp [Mach.startJob]

@[simp] theorem afterTable_skx (m : Mach) (f : TableF) : (m.afterTable f).skx = m.skx := by
  unfold Mach.afterTable
  extract_lets drm whole n shown
  have hwhole : whole.skx = m.skx := by
    unfold whole
    split <;> rfl
  split
  · simp [hwhole]
  · split
    · split <;> simp [shown, hwhole]
    · exact hwhole

@[simp] theorem closureMap_skx (m : Mach) (f : TableF) (es : List Nat) (v : Version) :
    (m.closureMap f es v).skx = m.skx := by
  unfold Mach.closureMap
  dsimp only
  split <;> rfl

@[simp] theorem mapChanged_skx (m : Mach) (p : Nat) (v : Version) : (m.mapChanged p v).skx = m.skx := rfl

@[simp] theorem revokeItems_skx (m : Mach) (f : RevokeF) (e : Chainage) : (m.revokeItems f e).skx = m.skx := by
  unfold Mach.revokeItems
  extract_lets l ranges names hit shows noted held
  exact foldl_keeps Mach.skx _ (fun m s => raise_skx _ _ _ _ _) _ noted

@[simp] theorem itemsDiscarded_skx (m : Mach) (n k : Nat) (i : Word) : (m.itemsDiscarded n k i).skx = m.skx := by
  unfold Mach.itemsDiscarded
  repeat' split
  all_goals simp

@[simp] theorem bindSlot_skx (m : Mach) (n j k a p : Nat) : (m.bindSlot n j k a p).skx = m.skx := by
  unfold Mach.bindSlot
  extract_lets x l number isReady fits hold heldItem shown late fell bound told tidied
  have htold : told.skx = m.skx := by
    unfold told
    split <;> simp [bound]
  simp [tidied, Mach.tidyLayer, htold]

@[simp] theorem openSlot_skx (m : Mach) (n j : Nat) (e : Chainage) (p : Nat) : (m.openSlot n j e p).skx = m.skx := by
  unfold Mach.openSlot
  extract_lets x l a k flipped cut
  have hcut : cut.skx = m.skx := by
    unfold cut
    split
    · simp [flipped]
    · extract_lets short shortened
      have hshortened : shortened.skx = m.skx := by simp [shortened, flipped]
      split <;> simp [hshortened]
  simp [hcut]

/-- A change comes to its commit point (R21, R30). -/
theorem applyChange_skx (m : Mach) (c : Change) (e : Chainage) (moved report : Bool) :
    (m.applyChange c e moved report).skx = m.skx := by
  have hfinish {m : Mach} {h : DescRef} {c : Cpl} {x : Skx} (hm : m.skx = x) :
      (if report then m.complete h c else m).skx = x := skx_ite (by simp [hm]) hm
  cases c
  case table h f es => exact hfinish (skx_ite (by simp) (by simp))
  case closure f es tag =>
    simp only [Mach.applyChange]
    refine skx_ite (c := f.table = 1) ?_ ?_
    all_goals
      split
      · simp only [cplQueue_frame]
        exact skx_ite (by simp) (by simp)
      · exact skx_ite (by simp) (by simp)
  case revoke h f => exact hfinish (by simp)
  case arm h f =>
    refine hfinish ?_
    split
    · exact skx_ite (by simp) (by simp)
    · simp
  case station j o => exact skx_ite (by simp) (by simp)
  case flip n p t =>
    simp only [Mach.applyChange]
    split <;> simp

theorem releaseHeld_skx (m : Mach) : m.releaseHeld.skx = m.skx := by
  unfold Mach.releaseHeld Mach.commitHeld
  refine foldl_keeps Mach.skx _ (fun m h => ?_) _ { m with ptn := { m.ptn with held := [] } }
  simp [Mach.commitNow, Mach.updCommit, applyChange_skx]

@[simp] theorem ptnTo_skx (m : Mach) (t : PtnState) (c : Nat) : (m.ptnTo t c).skx = m.skx := by
  unfold Mach.ptnTo
  dsimp only
  split <;> simp

@[simp] theorem stnSafe_skx (m : Mach) (why : Nat) : (m.stnSafe why).skx = m.skx := by
  have hsafe : m.outputsSafe.skx = m.skx := foldl_keeps Mach.skx _ (fun m n => by simp) _ m
  simp [Mach.stnSafe, hsafe]

@[simp] theorem axisTo_skx (m : Mach) (a : Nat) (x : Axis) (r : Bool) : (m.axisTo a x r).skx = m.skx := by
  unfold Mach.axisTo
  extract_lets old driven recorded
  have hdriven : driven.skx = m.skx := by
    unfold driven Mach.setCoils
    dsimp only
    split
    · simp
    · split <;> simp
  have hrecorded : recorded.skx = m.skx := by simp [recorded, Mach.axisRecord, hdriven]
  split
  · exact hdriven
  · split <;> simp [hrecorded]

@[simp] theorem motOff_skx (m : Mach) : m.motOff.skx = m.skx := foldl_keeps Mach.skx _ (fun m a => by simp) _ m

@[simp] theorem benchEnd_skx (m : Mach) (r : Nat) : (m.benchEnd r).skx = m.skx := by
  unfold Mach.benchEnd
  split <;> simp

@[simp] theorem modeTo_skx (m : Mach) (k : Mode) (source : Nat) : (m.modeTo k source).skx = m.skx := by
  unfold Mach.modeTo
  extract_lets old benched since cut glb entered told refused
  have hbenched : benched.skx = m.skx := by
    unfold benched
    split <;> simp
  have hsince : since.skx = m.skx := by
    unfold since
    split <;> simp [Mach.stripsSince, hbenched]
  have hrefused : refused.skx = m.skx := by
    unfold refused
    split <;> simp [told, entered, hsince]
  split <;> simp [hrefused]

theorem revertEnds_skx (m : Mach) : m.revertEnds.skx = m.skx := by
  unfold Mach.revertEnds
  extract_lets reverted again was stood
  have hreverted : reverted.skx = m.skx := by simp [reverted, Mach.revertEvent]
  have hstood : stood.skx = m.skx := by
    unfold stood Mach.toStandby
    split <;> simp [hreverted]
  split
  · simp [again, hreverted]
  · exact hstood

theorem startClaiming_lane (m : Mach) (t : Nat) : (m.startClaiming t).skx.lane = m.skx.lane := by
  have hclaims (m : Mach) (hs : List Nat) : (m.claimHubs hs).skx.lane = m.skx.lane := by
    refine foldl_keeps (fun m => m.skx.lane) _ (fun m h => ?_) _ m
    dsimp only
    split
    · simp [Mach.setHub]
    · rfl
  unfold Mach.startClaiming
  dsimp only
  rw [parkUpdate_skx]
  split
  · simp
  · simp [hclaims, Mach.beaten]

/-- The loss of the partner leaves the lanes as they were (R409, R418, R419). -/
theorem partnerGone_lane (m : Mach) (b : Bool) : (m.partnerGone b).skx.lane = m.skx.lane := by
  unfold Mach.partnerGone
  split
  · rfl
  · extract_lets ended hold told
    have htold : told.skx = m.skx := by
      simp only [told, raise_skx, ended]
      split
      · exact revertEnds_skx m
      · rfl
    rw [← htold]
    split
    · split
      · rfl
      · simp [Mach.goSolo, releaseHeld_skx]
    · exact startClaiming_lane _ _
    · exact congrArg Skx.lane (ptnTo_skx told .detached 0)
    · rfl

/-! ### What becomes of one lane -/

/-- A lane takes a value and no other lane changes. -/
structure LaneBecomes (n : Nat) (x : Lane) (a m : Mach) : Prop where
  others : ∀ k ≠ n, m.lane k = a.lane k
  lane : m.lane n = x

/-- A lane takes a value but for the numbers of its /A/ and /S/, which follow its group, and no other lane changes but in
the cause that it reports. -/
structure LaneRestarts (n : Nat) (x : Lane) (a m : Mach) : Prop where
  others : ∀ k ≠ n, m.lane k = { a.lane k with trainCause := (m.lane k).trainCause }
  lane : m.lane n = { x with aSeq := (m.lane n).aSeq, aDue := (m.lane n).aDue, sDue := (m.lane n).sDue }

theorem lane_of_lanes_eq {a m : Mach} (h : m.skx.lane = a.skx.lane) (k : Nat) : m.lane k = a.lane k := by
  rw [Mach.lane, h, Mach.lane]

theorem lane_of_skx_eq {a m : Mach} (h : m.skx = a.skx) (k : Nat) : m.lane k = a.lane k :=
  lane_of_lanes_eq (congrArg Skx.lane h) k

namespace LaneBecomes

variable {n : Nat} {x : Lane} {a b m : Mach}

/-- What leaves the lanes as they were may come before. -/
theorem of_lanes (h : LaneBecomes n x b m) (hb : b.skx.lane = a.skx.lane) : LaneBecomes n x a m :=
  ⟨fun k hk => (h.others k hk).trans (lane_of_lanes_eq hb k), h.lane⟩

/-- And after. -/
theorem kept (h : LaneBecomes n x a b) (hm : m.skx.lane = b.skx.lane) : LaneBecomes n x a m :=
  ⟨fun k hk => (lane_of_lanes_eq hm k).trans (h.others k hk), (lane_of_lanes_eq hm n).trans h.lane⟩

theorem trans {y : Lane} (h : LaneBecomes n y a b) (l : LaneBecomes n x b m) : LaneBecomes n x a m :=
  ⟨fun k hk => (l.others k hk).trans (h.others k hk), l.lane⟩

theorem setLane (m : Mach) (n : Nat) (hx : x.state ≠ .off) : LaneBecomes n x m (m.setLane n x) :=
  ⟨fun _ hk => get_set_ne _ _ _ _ _ hk.symm, lane_setLane_of_on m n hx⟩

theorem laneTo (m : Mach) (n : Nat) (hx : x.state ≠ .off) : LaneBecomes n { x with since := m.now } m (m.laneTo n x) := by
  refine (setLane (x := { x with since := m.now }) m n hx).kept ?_
  unfold Mach.laneTo
  dsimp only
  split <;> rfl

end LaneBecomes

theorem laneTo_dtm (m : Mach) (n : Nat) (x : Lane) : (m.laneTo n x).dtm = m.dtm := by
  unfold Mach.laneTo
  dsimp only
  split <;> rfl

theorem laneTo_silent (m : Mach) (n : Nat) (x : Lane) : (m.laneTo n x).skx.silent = m.skx.silent := by
  unfold Mach.laneTo
  dsimp only
  split <;> rfl

theorem laneTo_out (m : Mach) (n : Nat) (x : Lane) : (m.laneTo n x).out = m.out := by
  unfold Mach.laneTo
  dsimp only
  split <;> rfl

theorem dropCaps_lane (m : Mach) (n : Nat) : (m.dropCaps n).skx.lane = m.skx.lane := by
  unfold Mach.dropCaps
  dsimp only
  split <;> rfl

theorem dropCaps_dtm (m : Mach) (n : Nat) : (m.dropCaps n).dtm = m.dtm := by
  unfold Mach.dropCaps
  dsimp only
  split <;> rfl

/-- The value of a lane that starts to train, but for the numbers of its /A/ and /S/. -/
def trainingLane (m : Mach) (n : Nat) (full : Bool) (rate : Nat) : Lane :=
  { m.lane n with state := .lock, full := full, rate := rate, since := m.now }

/-- A lane that starts to train takes the numbers of its /A/ and /S/ from its group, or has them start now. -/
theorem startTraining_becomes (m : Mach) (n : Nat) (full : Bool) (rate : Nat) : ∃ q d e,
    LaneBecomes n { trainingLane m n full rate with aSeq := q, aDue := d, sDue := e } m (m.startTraining n full rate) := by
  have hstart (q d e : Nat) : LaneBecomes n { trainingLane m n full rate with aSeq := q, aDue := d, sDue := e } m
      ((m.dropCaps n).laneTo n { m.lane n with
        state := .lock, full := full, rate := rate, aSeq := q, aDue := d, sDue := e }) := by
    have hnow : (m.dropCaps n).now = m.now := congrArg (fun d => d.ticks.toNat) (dropCaps_dtm m n)
    have hbegun := LaneBecomes.laneTo (x := { m.lane n with
      state := .lock, full := full, rate := rate, aSeq := q, aDue := d, sDue := e }) (m.dropCaps n) n (by simp)
    rw [hnow] at hbegun
    exact hbegun.of_lanes (dropCaps_lane m n)
  have hlane := lane_of_lanes_eq (dropCaps_lane m n) n
  unfold Mach.startTraining
  dsimp only
  rw [hlane]
  split
  · exact ⟨_, _, _, hstart _ _ _⟩
  · exact ⟨_, _, _, hstart (m.lane n).aSeq _ _⟩

/-- The timing lane of a hub changes its cause, where it is UP, and no lane changes else (R325). -/
theorem hubUpdate_lane_eq (m : Mach) (hub k : Nat) :
    (m.hubUpdate hub).lane k = { m.lane k with trainCause := ((m.hubUpdate hub).lane k).trainCause } ∧
    ((m.lane k).state ≠ .up → (m.hubUpdate hub).lane k = m.lane k) := by
  rw [lane_of_lanes_eq (hubUpdate_lane m hub) k]
  unfold Mach.latUpdate
  extract_lets shown n x
  by_cases hup : x.state = .up
  · rw [if_pos hup]
    have hset := LaneBecomes.setLane (x := { x with trainCause := if shown.hubSlow hub = true then 4 else 0 }) shown n
      (by simp [hup])
    by_cases hk : k = n
    · subst hk
      rw [hset.lane]
      exact ⟨rfl, fun h => absurd hup h⟩
    · rw [hset.others k hk]
      exact ⟨rfl, fun _ => rfl⟩
  · rw [if_neg hup]
    exact ⟨rfl, fun _ => rfl⟩

/-- A lane that has restarted stands while its hub follows. -/
theorem LaneBecomes.hubUpdate {n : Nat} {x : Lane} {a m : Mach} {q d e : Nat}
    (h : LaneBecomes n { x with aSeq := q, aDue := d, sDue := e } a m) (hx : x.state ≠ .up) (hub : Nat) :
    LaneRestarts n x a (m.hubUpdate hub) := by
  have hself := (hubUpdate_lane_eq m hub n).2 (by rw [h.lane]; exact hx)
  refine ⟨fun k hk => ?_, by rw [hself, h.lane]⟩
  rw [← h.others k hk]
  exact (hubUpdate_lane_eq m hub k).1

theorem LaneBecomes.restarts {n : Nat} {x : Lane} {a m : Mach} {q d e : Nat}
    (h : LaneBecomes n { x with aSeq := q, aDue := d, sDue := e } a m) : LaneRestarts n x a m :=
  ⟨fun k hk => by rw [h.others k hk], by rw [h.lane]⟩

/-! ### The commands of training -/

/-- A failed training (R325). -/
theorem failTraining_becomes (m : Mach) (n cause : Nat) :
    LaneBecomes n { m.lane n with state := .failed, trainCause := cause, since := m.now } m (m.failTraining n cause) := by
  have hfailed := LaneBecomes.laneTo (x := { m.lane n with state := .failed, trainCause := cause }) m n (by simp)
  refine hfailed.kept ?_
  unfold Mach.failTraining
  dsimp only
  split <;> simp

/-- A rate is passed over: the lane trains at the next one down, or fails (R322, R406). -/
structure PassesRate (n : Nat) (a m : Mach) : Prop where
  others : ∀ k ≠ n, m.lane k = a.lane k
  lane : m.lane n =
    if (a.lane n).full = true ∧ 0 < (a.lane n).rate ∧ n < 40 then
      { a.lane n with state := .lock, full := true, rate := (a.lane n).rate - 1, since := a.now,
                        aSeq := (m.lane n).aSeq, aDue := (m.lane n).aDue, sDue := (m.lane n).sDue }
    else { a.lane n with state := .failed, trainCause := 1, since := a.now }

theorem nextRate_passes (m : Mach) (n : Nat) : PassesRate n m (m.nextRate n) := by
  unfold Mach.nextRate
  dsimp only
  by_cases hnext : (m.lane n).full = true ∧ 0 < (m.lane n).rate ∧ n < 40
  · obtain ⟨q, d, e, h⟩ := startTraining_becomes m n true ((m.lane n).rate - 1)
    rw [if_pos (by simpa [and_assoc] using hnext)]
    refine ⟨h.others, ?_⟩
    rw [if_pos hnext, h.lane]
    rfl
  · rw [if_neg (by simpa [and_assoc] using hnext)]
    refine ⟨(failTraining_becomes m n 1).others, ?_⟩
    rw [if_neg hnext, (failTraining_becomes m n 1).lane]

/-- A lane of the head link or of Farsil that loses its lock trains again at its rate (R327, R328). -/
theorem loseLock_restarts {m : Mach} {n : Nat} (hx : (m.lane n).state = .up) (cause : Nat) :
    LaneRestarts n { m.lane n with state := .lock, full := false, since := m.now } m (m.loseLock n cause) := by
  have hfull : ((m.lane n).full && decide ((m.lane n).state ≠ .up)) = false := by simp [hx]
  obtain ⟨q, d, e, h⟩ := startTraining_becomes m n false (m.lane n).rate
  unfold Mach.loseLock
  dsimp only
  rw [hfull, if_neg (by simp [hx])]
  by_cases hn : 40 ≤ n
  · rw [if_pos hn]
    exact (h.kept (congrArg Skx.lane (addSat_skx _ _ _))).restarts
  · rw [if_neg hn]
    split
    · exact (h.kept (by simp)).hubUpdate (by simp [trainingLane]) _
    · exact (h.kept (by simp)).restarts

theorem LaneRestarts.kept {n : Nat} {x : Lane} {a b m : Mach} (h : LaneRestarts n x a b)
    (hm : m.skx.lane = b.skx.lane) : LaneRestarts n x a m := by
  have hlane := lane_of_lanes_eq hm
  exact ⟨fun k hk => by rw [hlane k]; exact h.others k hk, by rw [hlane n]; exact h.lane⟩

theorem loseLane_restarts {m : Mach} {n : Nat} (hx : (m.lane n).state = .up) (cause : Nat) :
    LaneRestarts n { m.lane n with state := .lock, full := false, since := m.now } m (m.loseLane n cause) := by
  unfold Mach.loseLane
  split
  · exact (loseLock_restarts hx cause).kept (partnerGone_lane _ _)
  · exact loseLock_restarts hx cause

theorem retrain_restarts {m : Mach} {n : Nat} (he : m.fld (Reg.SKX_L_CFG.en n) ≠ 0) (hx : (m.lane n).state ≠ .cal) :
    LaneRestarts n { m.lane n with state := .lock, full := true, rate := m.topRate n, since := m.now } m
      (m.retrain n) := by
  obtain ⟨q, d, e, h⟩ := startTraining_becomes m n true (m.topRate n)
  unfold Mach.retrain
  rw [if_neg (by simp [Mach.flag, he, hx])]
  dsimp only
  split
  · exact h.hubUpdate (by simp [trainingLane]) _
  · exact h.restarts

theorem sendT1_becomes (m : Mach) {n : Nat} (hx : (m.lane n).state ≠ .off) :
    LaneBecomes n { m.lane n with tSeq := ((m.lane n).tSeq + 1) % 256, t1At := m.now } m (m.sendT1 n) := by
  refine (LaneBecomes.setLane (x := { m.lane n with tSeq := ((m.lane n).tSeq + 1) % 256, t1At := m.now }) m n hx).kept ?_
  simp [Mach.sendT1]

theorem sendLoop_becomes (m : Mach) {n : Nat} (hx : (m.lane n).state ≠ .off) :
    LaneBecomes n { m.lane n with loopNum := ((m.lane n).loopNum + 1) % 256 } m (m.sendLoop n) := by
  refine (LaneBecomes.setLane (x := { m.lane n with loopNum := ((m.lane n).loopNum + 1) % 256 }) m n hx).kept ?_
  simp [Mach.sendLoop]

theorem ctrlSend_lane (m : Mach) (hub n slot op space len : Nat) (use : CtrlUse) (addr : Nat) (d : List Byte) :
    (m.ctrlSend hub n slot op space len use addr d).skx.lane = m.skx.lane := by
  simp [Mach.ctrlSend, Mach.setHub]

/-- The 64th round trip ends the measurement (R323). -/
theorem measured_becomes {m : Mach} {n : Nat} (hp : m.ptn.state ≠ .pairing) : LaneBecomes n
    { m.lane n with state := if 40 ≤ n then .up else .caps, since := m.now,
                    trained := if 40 ≤ n then (m.lane n).meanTrip else (m.lane n).trained } m (m.measured n) := by
  unfold Mach.measured
  dsimp only
  by_cases hn : 40 ≤ n
  · have hup := LaneBecomes.laneTo (x := { m.lane n with state := .up, trained := (m.lane n).meanTrip }) m n (by simp)
    have hptn (x : Lane) : (m.laneTo n x).ptn = m.ptn := by
      rw [Mach.laneTo, if_pos hn]
      rfl
    simp only [if_pos hn, hptn, hp, decide_false, Bool.false_and, Bool.false_eq_true, if_false]
    exact hup
  · have hcaps := LaneBecomes.laneTo (x := { m.lane n with state := .caps }) m n (by simp)
    simp only [if_neg hn]
    split
    · exact hcaps.kept (ctrlSend_lane _ _ _ _ _ _ _ _ _ _)
    · exact hcaps.kept rfl

/-! ### The clauses of the statement -/

/-- A command reaches what depends on the lanes, the hubs and what has left the module alone. -/
theorem reaches_of_skx {c : Instr} {s : State} {f : Mach → Mach} {p : Mach → Prop} (hr : Runs s)
    (hx : exec c s = s.run f) (h : ∀ m : Mach, m.skx = (f s.m).skx → m.out = (f s.m).out → p m) : Reaches c s p := by
  rw [Reaches, hx]
  exact reaches_of_run hr.1 (h _ (settle_skx _) (settle_out _))

theorem keeps_discard (m : Mach) (n : Nat) : Keeps m (m.discard n) := by
  unfold Mach.discard
  split
  · exact ⟨rfl, rfl, id⟩
  · exact .refl m

theorem exec_laneLockAcquired (l : LaneLock) (s : State) :
    exec (.laneLockAcquired l) s = execLaneLockAcquired l s := rfl

theorem exec_t2Rx (n : Nat) (t : T2F) (s : State) : exec (.t2Rx n t) s = execT2Rx n t s := rfl

theorem exec_loopRetRx (l : LaneSet) (num rt : Nat) (s : State) :
    exec (.loopRetRx l num rt) s = execLoopRetRx l num rt s := rfl

theorem exec_rxlostRx (l : LaneSet) (s : State) : exec (.rxlostRx l) s = execRxlostRx l s := rfl

theorem exec_laneUp (n : Nat) (s : State) : exec (.laneUp n) s = execLaneUp n s := rfl

theorem exec_trainStepTimeout (n : Nat) (s : State) : exec (.trainStepTimeout n) s = execTrainStepTimeout n s := rfl

theorem exec_laneLockLost (n cause : Nat) (s : State) : exec (.laneLockLost n cause) s = execLaneLockLost n cause s := rfl

theorem exec_laneRetrain (n : Nat) (s : State) : exec (.laneRetrain n) s = execLaneRetrain n s := rfl

theorem exec_retrainRetry (n : Nat) (s : State) : exec (.retrainRetry n) s = execRetrainRetry n s := rfl

theorem laneByte_laneTo (m : Mach) (n : Nat) (x : Lane) : (m.laneTo n x).laneByte n = m.laneByte n := by
  unfold Mach.laneTo
  dsimp only
  split
  · next hn => simp only [Mach.laneByte, if_pos hn]
  · rfl

theorem sendT1_out {m : Mach} (hs : m.skx.silent = false) (n : Nat) : (m.sendT1 n).out =
    .laneSymbols n kC (checkedSet (leBytes 1 1 ++ (leBytes 1 (m.lane n).rate ++ leBytes 1 (m.laneByte n) ++
      leBytes 1 (((m.lane n).tSeq + 1) % 256) ++ leBytes 1 0))) :: m.out := by
  unfold Mach.sendT1 Mach.sendC Mach.emit
  extract_lets x q
  rw [if_neg]
  · rfl
  · have hsame : (m.setLane n { x with tSeq := q, t1At := m.now }).skx.silent = m.skx.silent := rfl
    rw [hsame, hs]
    simp

theorem startTraining_skx_only (m : Mach) {n : Nat} (hn : n < 40) (full : Bool) (rate : Nat) :
    m.startTraining n full rate = { m with skx := (m.startTraining n full rate).skx } := by
  have hn' : ¬ 40 ≤ n := Nat.not_le.2 hn
  simp only [Mach.startTraining, Mach.laneTo, Mach.dropCaps, if_neg hn']
  rfl

theorem PassesRate.kept {n : Nat} {a b m : Mach} (h : PassesRate n a b) (hm : m.skx.lane = b.skx.lane) :
    PassesRate n a m := by
  have hlane := lane_of_lanes_eq hm
  exact ⟨fun k hk => (hlane k).trans (h.others k hk), by rw [hlane n]; exact h.lane⟩

section

variable {s : State} (hr : Runs s) {n : Nat}

include hr

theorem alignedLaneSendsT1 (hx : (s.m.lane n).state = .lock ∨ (s.m.lane n).state = .align)
    (hs : s.m.skx.silent = false) : Reaches (.laneLockAcquired ⟨n, true⟩) s fun m =>
      m.lane n = { s.m.lane n with
        state := .handshake, tSeq := ((s.m.lane n).tSeq + 1) % 256, since := s.m.now, t1At := s.m.now } ∧
      m.out = .laneSymbols n kC (checkedSet (leBytes 1 1 ++ (leBytes 1 (s.m.lane n).rate ++ leBytes 1 (s.m.laneByte n) ++
        leBytes 1 (((s.m.lane n).tSeq + 1) % 256) ++ leBytes 1 0))) :: s.m.out ∧ ∀ k ≠ n, m.lane k = s.m.lane k := by
  have hlocking : (decide ((s.m.lane n).state ≠ .lock) && decide ((s.m.lane n).state ≠ .align)) = false := by
    rcases hx with h | h <;> simp [h]
  refine reaches_of_skx hr (exec_laneLockAcquired _ s) fun m hm ho => ?_
  simp only [hlocking, hs, Bool.or_self, Bool.false_eq_true, if_false, if_true] at hm ho
  have hto := LaneBecomes.laneTo (x := { s.m.lane n with state := .handshake }) s.m n (by simp)
  have hnow : (s.m.laneTo n { s.m.lane n with state := .handshake }).now = s.m.now :=
    congrArg (fun d => d.ticks.toNat) (laneTo_dtm _ _ _)
  have hsent := sendT1_becomes (s.m.laneTo n { s.m.lane n with state := .handshake }) (n := n) (by rw [hto.lane]; simp)
  have hall := (hto.trans hsent).kept (m := m) (congrArg Skx.lane hm)
  rw [hto.lane, hnow] at hall
  refine ⟨hall.lane, ?_, hall.others⟩
  have hsilent : (s.m.laneTo n { s.m.lane n with state := .handshake }).skx.silent = false := by
    rw [laneTo_silent, hs]
  have hout := sendT1_out hsilent n
  rw [hto.lane, laneByte_laneTo, laneTo_out] at hout
  exact ho.trans hout

theorem lockedLaneAwaitsMarkers (hx : (s.m.lane n).state = .lock ∨ (s.m.lane n).state = .align)
    (hs : s.m.skx.silent = false) : Reaches (.laneLockAcquired ⟨n, false⟩) s fun m =>
      m.lane n = { s.m.lane n with state := .align } ∧ m.out = s.m.out ∧ ∀ k ≠ n, m.lane k = s.m.lane k := by
  have hlocking : (decide ((s.m.lane n).state ≠ .lock) && decide ((s.m.lane n).state ≠ .align)) = false := by
    rcases hx with h | h <;> simp [h]
  refine reaches_of_skx hr (exec_laneLockAcquired _ s) fun m hm ho => ?_
  simp only [hlocking, hs, Bool.or_self, Bool.false_eq_true, if_false] at hm ho
  have hto := LaneBecomes.laneTo (x := { s.m.lane n with state := .align }) s.m n (by simp)
  have hset := LaneBecomes.setLane (x := { s.m.lane n with state := .align })
    (s.m.laneTo n { s.m.lane n with state := .align }) n (by simp)
  have hall := (hto.trans hset).kept (m := m) (congrArg Skx.lane hm)
  exact ⟨hall.lane, ho.trans (laneTo_out _ _ _), hall.others⟩

theorem badSetIsDiscarded (hx : (s.m.lane n).state ≠ .off) (num rt : Nat) (t : T2F) :
    (t.bad = true → Becomes (.t2Rx n t) s (s.m.discard n)) ∧
    Becomes (.loopRetRx ⟨n, true⟩ num rt) s (s.m.discard n) ∧ Becomes (.rxlostRx ⟨n, true⟩) s (s.m.discard n) :=
  ⟨fun hb => becomes_of_exec (exec_t2Rx n t s) hr (by simp [hx, hb]) (keeps_discard _ _),
    becomes_of_exec (exec_loopRetRx _ _ _ s) hr (by simp [hx]) (keeps_discard _ _),
    becomes_of_exec (exec_rxlostRx _ s) hr (by simp [hx]) (keeps_discard _ _)⟩

theorem answeredLaneMeasuresOrPassesRate {t : T2F} (hx : (s.m.lane n).state = .handshake) (hb : t.bad = false)
    (hw : t.what = 2) (hq : t.seq = (s.m.lane n).tSeq) : Reaches (.t2Rx n t) s fun m =>
      (∀ k ≠ n, m.lane k = s.m.lane k) ∧ m.lane n =
      (if t.rate = 0xFF then
        (if (s.m.lane n).full = true ∧ 0 < (s.m.lane n).rate ∧ n < 40 then
           { s.m.lane n with state := .lock, full := true, rate := (s.m.lane n).rate - 1, since := s.m.now,
                              aSeq := (m.lane n).aSeq, aDue := (m.lane n).aDue, sDue := (m.lane n).sDue }
         else { s.m.lane n with state := .failed, trainCause := 1, since := s.m.now })
       else { s.m.lane n with
        state := .measure, port := t.port, t2Hash := t.hash, loops := []
        loopNum := ((s.m.lane n).loopNum + 1) % 256, since := s.m.now }) := by
  refine reaches_of_skx hr (exec_t2Rx n t s) fun m hm _ => ?_
  simp only [hx, hb, hw, hq, ne_eq, not_true_eq_false, reduceCtorEq, decide_false, Bool.or_self, Bool.false_eq_true,
    if_false] at hm
  by_cases hrate : t.rate = 0xFF
  · rw [if_pos hrate] at hm ⊢
    have hpass := (nextRate_passes s.m n).kept (congrArg Skx.lane hm)
    exact ⟨hpass.others, hpass.lane⟩
  · rw [if_neg hrate] at hm ⊢
    have hto := LaneBecomes.laneTo (x := { s.m.lane n with
      state := .measure, port := t.port, t2Hash := t.hash, loops := [] }) s.m n (by simp)
    have hsent := sendLoop_becomes (s.m.laneTo n { s.m.lane n with
      state := .measure, port := t.port, t2Hash := t.hash, loops := [] }) (n := n) (by rw [hto.lane]; simp)
    have hall := (hto.trans hsent).kept (m := m) (congrArg Skx.lane hm)
    rw [hto.lane] at hall
    exact ⟨hall.others, hall.lane⟩

theorem loopReturnsAreMeasured (hx : (s.m.lane n).state = .measure) (hp : s.m.ptn.state ≠ .pairing) (rt : Nat) :
    Reaches (.loopRetRx ⟨n, false⟩ (s.m.lane n).loopNum rt) s fun m => (∀ k ≠ n, m.lane k = s.m.lane k) ∧ m.lane n =
      (if (s.m.lane n).loops.length < 63 then { s.m.lane n with
          loops := (rt :: (s.m.lane n).loops).take 64, loopNum := ((s.m.lane n).loopNum + 1) % 256 }
       else { s.m.lane n with
          loops := (rt :: (s.m.lane n).loops).take 64, state := if 40 ≤ n then .up else .caps, since := s.m.now
          trained := if 40 ≤ n then ({ s.m.lane n with loops := (rt :: (s.m.lane n).loops).take 64 } : Lane).meanTrip
                     else (s.m.lane n).trained }) := by
  have hset := LaneBecomes.setLane (x := { s.m.lane n with loops := (rt :: (s.m.lane n).loops).take 64 }) s.m n
    (by simp [hx])
  refine reaches_of_skx hr (exec_loopRetRx _ _ _ s) fun m hm _ => ?_
  dsimp only at hm
  rw [if_neg (by simp [hx]), if_neg (by simp), if_neg (by simp), if_pos hx] at hm
  by_cases hlen : (s.m.lane n).loops.length < 63
  · rw [if_pos (by omega)] at hm
    rw [if_pos hlen]
    have hsent := sendLoop_becomes (s.m.setLane n { s.m.lane n with loops := (rt :: (s.m.lane n).loops).take 64 })
      (n := n) (by rw [hset.lane]; simp [hx])
    have hall := (hset.trans hsent).kept (m := m) (congrArg Skx.lane hm)
    rw [hset.lane] at hall
    exact ⟨hall.others, hall.lane⟩
  · rw [if_neg (by omega)] at hm
    rw [if_neg hlen]
    have hdone := measured_becomes (m := s.m.setLane n { s.m.lane n with
      loops := (rt :: (s.m.lane n).loops).take 64 }) (n := n) hp
    have hall := (hset.trans hdone).kept (m := m) (congrArg Skx.lane hm)
    rw [hset.lane] at hall
    exact ⟨hall.others, hall.lane⟩

/-- No block passes its check under such an output latency, so the lane fails. -/
theorem headLaneFails (hl : 4000 * 16 < Config.outputLatency) {h : Nat} (hx : (s.m.lane n).state = .caps)
    (hh : s.m.hubOfLane n = some h) (ha : (s.m.hub (s.m.capsHub n)).reqs.any (CtrlReq.capsOf n) = false) :
    Reaches (.laneUp n) s fun m =>
      (∀ k ≠ n, m.lane k = { s.m.lane k with trainCause := (m.lane k).trainCause }) ∧ m.lane n =
      (if s.m.capsCause n h = 0 then
        { s.m.lane n with state := .up, trainCause := 0, hash := (s.m.lane n).t2Hash, since := s.m.now }
       else { s.m.lane n with state := .failed, trainCause := s.m.capsCause n h, since := s.m.now }) := by
  have hc := capsCause_ne_zero_of_outputLatency (m := s.m) hl n h
  refine reaches_of_skx hr (exec_laneUp n s) fun m hm _ => ?_
  simp only [hx, hh, ha, hc, ne_eq, not_true_eq_false, not_false_eq_true, Bool.false_eq_true, if_false, if_true] at hm
  have hfail := (failTraining_becomes s.m n (s.m.capsCause n h)).kept (m := m) (congrArg Skx.lane hm)
  rw [if_neg hc]
  exact ⟨fun k hk => by rw [hfail.others k hk], hfail.lane⟩

theorem spareLaneComesUpOrFails (hx : (s.m.lane n).state = .caps) (hh : s.m.hubOfLane n = none)
    (ha : (s.m.hub (s.m.capsHub n)).reqs.any (CtrlReq.capsOf n) = false) : Reaches (.laneUp n) s fun m =>
      (∀ k ≠ n, m.lane k = s.m.lane k) ∧ m.lane n =
      (if s.m.spareCause n = 0 then
        { s.m.lane n with state := .up, trainCause := 0, hash := (s.m.lane n).t2Hash, since := s.m.now }
       else { s.m.lane n with state := .failed, trainCause := s.m.spareCause n, since := s.m.now }) := by
  refine reaches_of_skx hr (exec_laneUp n s) fun m hm _ => ?_
  simp only [hx, hh, ha, ne_eq, not_true_eq_false, Bool.false_eq_true, if_false] at hm
  by_cases hc : s.m.spareCause n = 0
  · rw [if_neg (not_not_intro hc)] at hm
    rw [if_pos hc]
    have hup := LaneBecomes.laneTo (x := { s.m.lane n with
      state := .up, trainCause := 0, hash := (s.m.lane n).t2Hash }) s.m n (by simp)
    have hall := hup.kept (m := m) (congrArg Skx.lane (hm.trans (raise_skx _ _ _ _ _)))
    exact ⟨hall.others, hall.lane⟩
  · rw [if_pos hc] at hm
    rw [if_neg hc]
    have hfail := (failTraining_becomes s.m n (s.m.spareCause n)).kept (m := m) (congrArg Skx.lane hm)
    exact ⟨hfail.others, hfail.lane⟩

theorem stepThatTookTooLongPassesRate {limit : Nat} (hs : s.m.skx.silent = false)
    (hx : ((s.m.lane n).state = .lock ∨ (s.m.lane n).state = .align) ∧ limit = 250000 ∨
      (s.m.lane n).state = .handshake ∧ limit = 100000) :
    (s.m.now < (s.m.lane n).since + limit → Becomes (.trainStepTimeout n) s s.m) ∧
    ((s.m.lane n).since + limit ≤ s.m.now →
      Reaches (.trainStepTimeout n) s fun m => (∀ k ≠ n, m.lane k = s.m.lane k) ∧ m.lane n =
        (if (s.m.lane n).full = true ∧ 0 < (s.m.lane n).rate ∧ n < 40 then
           { s.m.lane n with state := .lock, full := true, rate := (s.m.lane n).rate - 1, since := s.m.now,
                              aSeq := (m.lane n).aSeq, aDue := (m.lane n).aDue, sDue := (m.lane n).sDue }
         else { s.m.lane n with state := .failed, trainCause := 1, since := s.m.now })) := by
  have hlimit : (s.m.lane n).state.limit * ticksUs = limit := by
    obtain ⟨h | h, rfl⟩ | ⟨h, rfl⟩ := hx <;> rw [h] <;> rfl
  refine ⟨fun ht => ?_, fun ht => ?_⟩
  · exact becomes_same (exec_trainStepTimeout n s) hr (by simp [hlimit, Mach.passed, Nat.not_le.2 ht])
  · refine reaches_of_skx hr (exec_trainStepTimeout n s) fun m hm _ => ?_
    have hnext : m.skx = (s.m.nextRate n).skx := by
      simp only [hs, hlimit, Mach.passed, ht, decide_true, Bool.not_true, Bool.or_self, Bool.false_eq_true,
        if_false] at hm
      obtain ⟨h | h, -⟩ | ⟨h, -⟩ := hx <;> simpa only [h] using hm
    have hpass := (nextRate_passes s.m n).kept (congrArg Skx.lane hnext)
    exact ⟨hpass.others, hpass.lane⟩

theorem laneThatLosesLockRestarts (hx : (s.m.lane n).state = .up) (cause : Nat) :
    (Reaches (.laneLockLost n cause) s fun m =>
      (m.lane n = { s.m.lane n with
        state := .lock, full := false, since := s.m.now,
        aSeq := (m.lane n).aSeq, aDue := (m.lane n).aDue, sDue := (m.lane n).sDue }) ∧
      ∀ k ≠ n, m.lane k = { s.m.lane k with trainCause := (m.lane k).trainCause }) ∧
    (Reaches (.rxlostRx ⟨n, false⟩) s fun m =>
      (m.lane n = { s.m.lane n with
        state := .lock, full := false, since := s.m.now,
        aSeq := (m.lane n).aSeq, aDue := (m.lane n).aDue, sDue := (m.lane n).sDue }) ∧
      ∀ k ≠ n, m.lane k = { s.m.lane k with trainCause := (m.lane k).trainCause }) := by
  refine ⟨reaches_of_skx hr (exec_laneLockLost n cause s) fun m hm _ => ?_,
    reaches_of_skx hr (exec_rxlostRx _ s) fun m hm _ => ?_⟩
  · have hall := (loseLane_restarts hx cause).kept (m := m) (congrArg Skx.lane hm)
    exact ⟨hall.lane, hall.others⟩
  · have hall := (loseLane_restarts hx 4).kept (m := m) (congrArg Skx.lane hm)
    exact ⟨hall.lane, hall.others⟩

theorem enabledLaneRetrains (hn : n < 40) (he : s.m.fld (Reg.SKX_L_CFG.en n) ≠ 0) (hx : (s.m.lane n).state ≠ .cal) :
    Reaches (.laneRetrain n) s fun m =>
      (m.lane n = { s.m.lane n with
        state := .lock, full := true, rate := s.m.topRate n, since := s.m.now,
        aSeq := (m.lane n).aSeq, aDue := (m.lane n).aDue, sDue := (m.lane n).sDue }) ∧
      ∀ k ≠ n, m.lane k = { s.m.lane k with trainCause := (m.lane k).trainCause } := by
  refine reaches_of_skx hr (exec_laneRetrain n s) fun m hm _ => ?_
  rw [if_pos hn] at hm
  have hall := (retrain_restarts he hx).kept (m := m) (congrArg Skx.lane hm)
  exact ⟨hall.lane, hall.others⟩

theorem failedRetrainIsRepeated (hn : n < 40) (hx : (s.m.lane n).state = .failed) (hf : (s.m.lane n).full = false) :
    (s.m.now < (s.m.lane n).since + 5000000 → Becomes (.retrainRetry n) s s.m) ∧
    ((s.m.lane n).since + 5000000 ≤ s.m.now → Reaches (.retrainRetry n) s fun m => m = { s.m with skx := m.skx } ∧
      (m.lane n = { s.m.lane n with
        state := .lock, since := s.m.now,
        aSeq := (m.lane n).aSeq, aDue := (m.lane n).aDue, sDue := (m.lane n).sDue }) ∧
      ∀ k ≠ n, m.lane k = s.m.lane k) := by
  refine ⟨fun ht => ?_, fun ht => ?_⟩
  · exact becomes_same (exec_retrainRetry n s) hr (by simp [ticks10ms, Mach.passed, Nat.not_le.2 ht])
  · obtain ⟨q, d, e, h⟩ := startTraining_becomes s.m n false (s.m.lane n).rate
    have hskx := startTraining_skx_only s.m hn false (s.m.lane n).rate
    refine ⟨s.m.startTraining n false (s.m.lane n).rate, becomes_of_exec (exec_retrainRetry n s) hr ?_ ?_, hskx, ?_, h.others⟩
    · simp [hx, hf, hn, ticks10ms, Mach.passed, ht]
    · rw [hskx]
      exact ⟨rfl, rfl, id⟩
    · rw [h.lane]
      simp [trainingLane, hf]

end

/-- The statement on training holds exactly where no capability block ever passes its check: its clause on a head lane that
comes UP is then empty, and else fails on a register bank out of its canonical form. -/
theorem lanesTrain_iff : Obligations.LanesTrain ↔ 4000 * 16 < Config.outputLatency := by
  refine ⟨outputLatency_gt_of_lanesTrain, fun hl => ⟨?_, ?_, ?_, ?_, ?_, ?_, ?_, ?_, ?_⟩⟩
  · rintro s n _ hr rfl hx hs
    exact ⟨alignedLaneSendsT1 hr hx hs, lockedLaneAwaitsMarkers hr hx hs⟩
  · exact fun s n num rt t hr hx => badSetIsDiscarded hr hx num rt t
  · rintro s n t _ hr rfl hx hb hw hq
    exact answeredLaneMeasuresOrPassesRate hr hx hb hw hq
  · rintro s n rt _ hr rfl hx hp
    exact loopReturnsAreMeasured hr hx hp rt
  · rintro s n h _ hr rfl hx hh ha
    exact headLaneFails hr hl hx hh ha
  · rintro s n _ hr rfl hx hh ha
    exact spareLaneComesUpOrFails hr hx hh ha
  · rintro s n limit _ hr rfl hs hx
    exact stepThatTookTooLongPassesRate hr hs hx
  · rintro s n cause _ hr rfl hx
    exact laneThatLosesLockRestarts hr hx cause
  · rintro s n _ hr hn rfl
    exact ⟨enabledLaneRetrains hr hn, failedRetrainIsRepeated hr hn⟩

end Sys2Proof.Training
end

section
/-! SUPPORT. What holds of every command, the host's diagnostic window, axis operations that wait and trim words. -/

namespace Sys2Proof.Whole

open Sys2Proof Sys2Proof.Machine Sys2Proof.Laws Sys2Proof.Scope Sys2Proof.Datum

/-! ### Steps and commands -/

/-- Settles O4: the two cases of `step`, by what waits. -/
theorem aStepRunsTheFrontCommand : Obligations.AStepRunsTheFrontCommand := by
  refine ⟨fun s c rest h => ?_, fun s h => ?_⟩
  · simp only [step, h]
  · simp only [step, h]

/-- Settles O9: the reset machine is a closed term, and nothing is listed in it. -/
theorem resetIsSafe : Obligations.ResetIsSafe :=
  ⟨fun h => absurd h (by decide), reset_memory_wf, rfl, rfl, rfl, rfl, rfl, rfl⟩

theorem runMem_held (s : State) (f : Mach → Mach) (ha : s.m.alive = false) : s.runMem f = .next s := by
  simp [State.runMem, ha]

theorem runFuse_held (s : State) (f : Mach → Mach) (ha : s.m.alive = false) : s.runFuse f = .next s := by
  simp [State.runFuse, ha]

/-- The commands that AON takes whatever the other domains do (R479, R488). -/
def aonTakes : Instr → Bool
  | .powerOn _ | .resetPin _ | .clockFailure | .clockStable | .backoffEnd | .stopNFall | .stopNRise
  | .supplyGoodChange .. | .shutdownRecordDone | .powerDown | .thermalShutdown .. => true
  | _ => false

/-- What AON does not take is run, with or without DRAM or the fuses in its reach, and a held module runs nothing. -/
theorem exec_held (c : Instr) (s : State) (ha : s.m.alive = false) (hc : aonTakes c = false) : exec c s = .next s := by
  cases c with
  | powerOn | resetPin | clockFailure | clockStable | backoffEnd | stopNFall | stopNRise | supplyGoodChange
  | shutdownRecordDone | powerDown | thermalShutdown => exact absurd hc (by simp [aonTakes])
  | dtmTick | diagWrite | swathRenderDone | fireFetchStart | fireCommit | cameraLineRx | dramRequestAccept
  | haltResetTimer | finalMonumentDone | softwareReset =>
    unfold exec
    exact runMem_held s _ ha
  | confirm =>
    unfold exec
    exact runFuse_held s _ ha
  | _ =>
    unfold exec
    exact run_held s _ ha

/-- Settles O5: every command's outcome is `exec_next`, and a held module runs what AON takes alone. -/
theorem everyCommandCompletes : Obligations.EveryCommandCompletes := by
  refine ⟨fun c s => ?_, fun c s ha hstraps hfail hstable hback hfall hrise hsupply hdone hdown htherm => ?_⟩
  · obtain ⟨m, hm, hsafe⟩ := exec_next c s
    exact ⟨_, hm, rfl, hsafe⟩
  · refine exec_held c s ha ?_
    cases c with
    | powerOn r => exact absurd rfl (hstraps r).1
    | resetPin r => exact absurd rfl (hstraps r).2
    | clockFailure => exact absurd rfl hfail
    | clockStable => exact absurd rfl hstable
    | backoffEnd => exact absurd rfl hback
    | stopNFall => exact absurd rfl hfall
    | stopNRise => exact absurd rfl hrise
    | supplyGoodChange i g v => exact absurd rfl (hsupply i g v)
    | shutdownRecordDone => exact absurd rfl hdone
    | powerDown => exact absurd rfl hdown
    | thermalShutdown n r => exact absurd rfl (htherm n r)
    | _ => rfl

/-! ### The diagnostic window (R110, R382) -/

/-- A command that may store to DRAM comes to its effect where that leaves the fuses and head power safe. -/
theorem becomes_of_runMem {c : Instr} {s : State} {f : Mach → Mach} {m : Mach} (hx : exec c s = s.runMem f) (h : Runs s)
    (e : f s.m = m) (ho : m.otp = s.m.otp) (hs : Mach.powerSafe m) : Becomes c s m := by
  have hm : ({ f s.m with otp := s.m.otp } : Mach) = m := by rw [e, ← ho]
  refine hx.trans ?_
  simp only [State.runMem, h.1, if_true, hm, settle_of_safe m hs]

theorem exec_diagRead (off len : Nat) (s : State) : exec (.diagRead off len) s = s.run fun m =>
    if 64 < len ∨ unit256M < off + len then m else m.emit (.hostRead (m.diagBytes off len)) := rfl

theorem exec_diagWrite (off : Nat) (d : List Byte) (s : State) : exec (.diagWrite off d) s = s.runMem fun m =>
    if unit256M < off + d.length then m
    else if m.diagOpen then m.dramWrite (m.diagAddr off) d
    else m.addSat Reg.HST_DIAG_WDISC.cnt 1 := rfl

/-- Settles O13: a read is an answer, a write is bytes of DRAM or a count. -/
theorem theStateRegionIsReadUnderTheLock : Obligations.TheStateRegionIsReadUnderTheLock := by
  refine ⟨fun s off len h hlen hoff => ?_, fun s off d h hoff => ⟨fun hopen => ?_, fun hclosed => ?_⟩⟩
  · have hin : ¬(64 < len ∨ unit256M < off + len) := by simp only [unit256M]; omega
    refine becomes_of_exec (exec_diagRead off len s) h ?_ (.emit (.refl _) _)
    rw [if_neg hin]
    simp [Mach.diagBytes, Mach.diagAddr, Mach.diagOpen, stateRegion, unit256M]
  all_goals have hin : ¬unit256M < off + d.length := by simp only [unit256M]; omega
  · refine becomes_of_runMem (exec_diagWrite off d s) h ?_ rfl h.2
    rw [if_neg hin, if_pos (by rw [Mach.diagOpen, hopen])]
    rfl
  · refine becomes_of_runMem (exec_diagWrite off d s) h ?_ rfl h.2
    rw [if_neg hin, if_neg (by rw [Mach.diagOpen, hclosed]; decide)]

/-! ### Operations of an axis (R447, R457) -/

theorem writeOp_of_idle {m : Mach} {a : Nat} (op : AxOp) (hm : m.glb.mode ≠ .boot) (hc : (m.axis a).cmd = none) :
    m.writeOp a op = (m.setAxis a { m.axis a with cmd := some op }).setFld (Reg.MOT_A_CMD.busy a) 1 := by
  simp [Mach.writeOp, Mach.inMode, hm, hc]

theorem writeOp_of_waiting {m : Mach} {a : Nat} (op : AxOp) (hc : (m.axis a).cmd ≠ none) : m.writeOp a op = m := by
  simp [Mach.writeOp, Option.isSome_iff_ne_none.mpr hc]

/-- Settles O22: each operation's command is `writeOp` of its own op. -/
theorem axisCommandsWait : Obligations.AxisCommandsWait := by
  refine ⟨fun s a h hm hc => ?_, fun s a h hc c hin => ?_⟩
  · have waits {c : Instr} (op : AxOp) (hx : exec c s = s.run fun m => m.writeOp a op) :
        Becomes c s ((s.m.setAxis a { s.m.axis a with cmd := some op }).setFld (Reg.MOT_A_CMD.busy a) 1) :=
      becomes_of_exec hx h (writeOp_of_idle op hm hc) ⟨rfl, rfl, id⟩
    exact ⟨waits .move rfl, waits .preset rfl, waits .stop rfl, waits .limits rfl, waits .home rfl, waits .setPos rfl,
      waits .gearOn rfl, waits .gearOff rfl, waits .clear rfl, waits .off rfl⟩
  · have discarded {c : Instr} (op : AxOp) (hx : exec c s = s.run fun m => m.writeOp a op) : Becomes c s s.m :=
      becomes_same hx h (writeOp_of_waiting op hc)
    simp only [List.mem_cons, List.not_mem_nil, or_false] at hin
    obtain rfl | rfl | rfl | rfl | rfl | rfl | rfl | rfl | rfl | rfl := hin
    · exact discarded .move rfl
    · exact discarded .preset rfl
    · exact discarded .stop rfl
    · exact discarded .limits rfl
    · exact discarded .home rfl
    · exact discarded .setPos rfl
    · exact discarded .gearOn rfl
    · exact discarded .gearOff rfl
    · exact discarded .clear rfl
    · exact discarded .off rfl

/-! ### Trims (R470 to R472) -/

theorem exec_calRequest (s : State) : exec .calRequest s = s.run fun m =>
    let kind := m.fld Reg.CAL_REQ.kind
    let i := m.fld Reg.CAL_REQ.index
    let m' := m.setFld Reg.CAL_STATUS.kind kind
    let m' := m'.setFld Reg.CAL_STATUS.index i
    if m.inMode .boot then m
    else if m.cal.running.isSome then m'.setFld Reg.CAL_STATUS.result 1
    else if m.inMode .halt || (decide (i < calIndexes kind) && !m.calAllowed kind i) then m'.setFld Reg.CAL_STATUS.result 2
    else if calIndexes kind ≤ i then m'.setFld Reg.CAL_STATUS.result 3
    else
      let m := (m'.setFld Reg.CAL_STATUS.busy 1).calStart kind i
      { m with cal := { running := some (kind, i) } } := rfl

/-- A calibration of a temperature channel interrupts nothing (R472). -/
theorem calStart_thm (m : Mach) (i : Nat) : m.calStart 4 i = m := rfl

/-- It may run whenever it is asked for (R470). -/
theorem calAllowed_thm (m : Mach) (i : Nat) : m.calAllowed 4 i = true := rfl

theorem exec_trimWordWrite (a v : Nat) (s : State) : exec (.trimWordWrite a v) s =
    s.run fun m => if isTrim a && !m.inMode .boot then m.trimWrite a v else m := rfl

/-- What a calibration of temperature channel `i` leaves once its words are judged: it interrupts nothing. -/
def calEnded (m : Mach) (i : Nat) (good : Bool) : Mach :=
  ((m.setFld Reg.CAL_STATUS.busy 0).setFld Reg.CAL_STATUS.result (if good then 0 else 4)).raise Ev.calDone
    (if good then .info else .warning) (4 + 256 * i) (if good then 0 else 4)

theorem keeps_cal {a m : Mach} (k : Keeps a m) (c : Cal) : Keeps a { m with cal := c } := ⟨k.dram, k.otp, k.safe⟩

theorem keeps_calEnded {a m : Mach} (k : Keeps a m) (i : Nat) (good : Bool) : Keeps a (calEnded m i good) :=
  keeps_raise ((k.setFld _ _).setFld _ _) _ _ _ _

theorem exec_calibrationDone (words : List Word) (ok : Bool) (s : State) : exec (.calibrationDone words ok) s =
    s.run fun m =>
      match m.cal.running with
      | none => m
      | some (kind, i) =>
        let offs := trimWords kind i
        let good := ok && decide (words.length = offs.length) &&
          (offs.zip words).all (fun (e : Nat × Word) => trimOk e.1 e.2.toNat)
        let m := { m with cal := { running := none } }
        let m := if good then (offs.zip words).foldl (fun (m : Mach) (e : Nat × Word) => m.putTrim e.1 e.2.toNat) m else m
        let m := (m.setFld Reg.CAL_STATUS.busy 0).setFld Reg.CAL_STATUS.result (if good then 0 else 4)
        (m.calEnd kind i).raise Ev.calDone (if good then .info else .warning) (kind + 256 * i) (if good then 0 else 4) := rfl

/-- A temperature channel's one word is never of the wrong number of elements. -/
theorem trimOk_CAL_THM (i v : Nat) : trimOk (Reg.CAL_THM i) v = true := by
  have h1 : ¬Reg.CAL_THM i < Reg.CAL_SNS_COIL 0 0 := by simp only [Reg.CAL_THM, Reg.CAL_SNS_COIL]; omega
  have h2 : ¬Reg.CAL_THM i < Reg.CAL_XCVR 0 := by simp only [Reg.CAL_THM, Reg.CAL_XCVR]; omega
  have h3 : ¬Reg.CAL_THM i < Reg.CAL_THM 0 := by simp only [Reg.CAL_THM]; omega
  simp only [trimOk, h1, h2, h3, if_false]

theorem trimWrite_of_open {m : Mach} {a v : Nat} (hm : m.glb.mode = .setup) (hl : m.glb.locked = false)
    (ht : trimOk a v = true) : m.trimWrite a v = m.wr a (v &&& trimMask a) := by
  simp [Mach.trimWrite, hl, (rwsOpen_iff m).mpr ⟨hl, hm⟩, ht, Mach.putTrim]

theorem trimWrite_of_locked {m : Mach} (a v : Nat) (hl : m.glb.locked = true) : m.trimWrite a v = m.countDiscard := by
  simp [Mach.trimWrite, hl]

theorem becomes_trimWordWrite {s : State} {a v : Nat} {m : Mach} (h : Runs s) (ha : isTrim a = true)
    (hm : s.m.glb.mode ≠ .boot) (e : s.m.trimWrite a v = m) (k : Keeps s.m m) : Becomes (.trimWordWrite a v) s m :=
  becomes_of_exec (exec_trimWordWrite a v s) h (by simp [ha, Mach.inMode, hm, e]) k

/-- Settles O45: each case of a request, an end and a trim word's write. -/
theorem trimsAreFoundAndWritten : Obligations.TrimsAreFoundAndWritten := by
  refine ⟨fun s i h hm hr hk hi hlt => ?starts, fun s h hm hr => ?busy, fun s i w h hr hi => ?found,
    fun s i ws h hr => ?failed, fun s a v h ha hm hl ht => ?taken, fun s a v h ha hm hl => ?discarded⟩
  case starts =>
    refine becomes_of_exec (exec_calRequest s) h ?_
      (keeps_cal (((Keeps.setFld (.refl s.m) _ _).setFld _ _).setFld _ _) _)
    have h16 : ¬calIndexes 4 ≤ i := by simpa [calIndexes] using hlt
    simp only [hk, hi, Mach.inMode, hm, hr, h16, calAllowed_thm, calStart_thm, reduceCtorEq, decide_false,
      Bool.false_eq_true, if_false, Option.isSome_none, Bool.false_or, Bool.not_true, Bool.and_false]
  case busy =>
    refine becomes_of_exec (exec_calRequest s) h ?_ (((Keeps.setFld (.refl _) _ _).setFld _ _).setFld _ _)
    simp [Mach.inMode, hm, Option.isSome_iff_ne_none.mpr hr]
  case found =>
    refine becomes_of_exec (exec_calibrationDone [w] true s) h ?_
      (keeps_calEnded (a := s.m) (.wr (keeps_cal (.refl _) _) _ _) i true)
    simp [hr, trimWords, trimOk_CAL_THM, Mach.calEnd]
  case failed =>
    refine becomes_of_exec (exec_calibrationDone ws false s) h ?_
      (keeps_calEnded (a := s.m) (keeps_cal (.refl _) _) i false)
    simp [hr, Mach.calEnd]
  case taken =>
    exact becomes_trimWordWrite h ha (by rw [hm]; decide) (trimWrite_of_open hm hl ht) (.wr (.refl _) _ _)
  case discarded =>
    exact becomes_trimWordWrite h ha hm (trimWrite_of_locked a v hl) (.countDiscard (.refl _))

end Sys2Proof.Whole
end

section
/-! SUPPORT. The statements on pairing, the revert, the supplies and heat that fail, each by a state that its hypotheses
allow and its author did not mean. -/

namespace Sys2Proof.Exceptions

open Sys2Proof Sys2Proof.Machine Sys2Proof.Laws

/-- What a command reaches is what it comes to: a command has one outcome. -/
theorem reaches_next {c : Instr} {s : State} {p : Mach → Prop} {m : Mach} (h : Reaches c s p)
    (hm : exec c s = .next { s with m := m }) : p m := by
  obtain ⟨t, ht, hp⟩ := h
  have heq : t = m := by
    have := ht.symm.trans hm
    injection this with this
    injection this
  rwa [← heq]

/-! ### A monument that is due in a silent module (R417, R479) -/

/-- FORESIGHT and paired, 10 ms in, with its lanes silent while a PLL is unlocked. -/
def silentForesight : State :=
  { m := { ptn := { state := .foresight, paired := true }, skx := { silent := true }, dtm := { ticks := 5000000 } } }

theorem monumentDue_silentForesight :
    ∃ m, exec .monumentDue silentForesight = .next { silentForesight with m := m } ∧ m.out = [] := ⟨_, rfl, by decide +kernel⟩

/-- Refutes O39: its last clause but one claims that a monument that is due leaves the module, and a module whose lanes
are silent sends nothing. -/
theorem not_pairingAndTheMirror : ¬ Obligations.PairingAndTheMirror := by
  rintro ⟨-, -, -, -, -, -, -, -, -, -, -, -, -, -, -, -, -, -, hdue, -⟩
  obtain ⟨m, hm, hout⟩ := monumentDue_silentForesight
  obtain ⟨-, hlonger, -⟩ :=
    reaches_next (hdue silentForesight (by decide) rfl (by decide) rfl (by decide)) hm
  rw [hout] at hlonger
  exact absurd hlonger (by decide)

/-! ### An axis listed twice in a revert (R428, R449) -/

/-- The old active module of a revert, at the switch point. The axis table is not in its canonical form: it lists axis 0
at rest, and once more holding. -/
def axisListedTwice : State :=
  { m := { ptn := { state := .reverting, oldActive := true, cSw := some 0 }
           mot := { axis := [(0, {}), (0, { state := .hold })] } } }

/-- Switching axis 0 off erases the first entry, and the second shows. -/
theorem revertSwitch_axisListedTwice : ∃ m, exec .revertSwitch axisListedTwice = .next { axisListedTwice with m := m } ∧
    (m.axis 0).state = .hold := ⟨_, rfl, by decide +kernel⟩

/-- Refutes O42: neither `Runs` nor the clause on the switch asks that the table of axes be canonical. -/
theorem not_handoverAndRevert : ¬ Obligations.HandoverAndRevert := by
  rintro ⟨-, -, -, -, -, -, -, -, -, hswitch, -⟩
  obtain ⟨m, hm, hhold⟩ := revertSwitch_axisListedTwice
  obtain ⟨hoff, -⟩ := reaches_next
    (hswitch axisListedTwice 0 (by decide) rfl rfl rfl rfl (by decide) (by decide) (by decide)) hm
  rw [hoff 0 (by decide)] at hhold
  exact absurd hhold (by decide)

/-! ### An output beyond the sixteen in power-fail and in a thermal shutdown (R461, R468) -/

/-- In SETUP, both inputs bad for 100 µs; the table of outputs lists a seventeenth. -/
def outputBeyondAll : State :=
  { m := { glb := { mode := .setup }, pwr := { vmainGood := false, vbackGood := false }, dtm := { ticks := 50000 }
           stn := { out := [(16, { active := true })] } } }

theorem powerFail_outputBeyondAll : ∃ m, exec (.powerFail 0 0) outputBeyondAll = .next { outputBeyondAll with m := m } ∧
    m.stn.out ≠ [] := ⟨_, rfl, by decide +kernel⟩

theorem thermalShutdown_outputBeyondAll :
    ∃ m, exec (.thermalShutdown 0 0) outputBeyondAll = .next { outputBeyondAll with m := m } ∧ m.stn.out ≠ [] :=
  ⟨_, rfl, by decide +kernel⟩

/-- Refutes O43: power-fail takes the module's sixteen outputs to their safe level, and no hypothesis bounds what the
table of outputs lists. -/
theorem not_suppliesCarryTheLoad : ¬ Obligations.SuppliesCarryTheLoad := by
  rintro ⟨-, -, -, -, -, hfail, -⟩
  obtain ⟨m, hm, hlisted⟩ := powerFail_outputBeyondAll
  obtain ⟨-, -, hnone, -⟩ := reaches_next
    (hfail outputBeyondAll 0 0 (by decide) rfl rfl rfl rfl (by decide) (by decide)) hm
  exact hlisted hnone

/-- Refutes O44: so does a thermal shutdown. -/
theorem not_heatAndClocks : ¬ Obligations.HeatAndClocks := by
  rintro ⟨htrip, -⟩
  obtain ⟨m, hm, hlisted⟩ := thermalShutdown_outputBeyondAll
  obtain ⟨-, -, -, hnone, -⟩ := reaches_next
    (htrip outputBeyondAll 0 0 (by decide) (.inl (by decide)) rfl rfl) hm
  exact hlisted hnone

end Sys2Proof.Exceptions
end

section
/-! SUPPORT. Shared operations that leave DRAM, the fuses and head power alone: job ends, the Traverse, station outputs,
axes and frames that close. -/

namespace Sys2Proof.Scope.Keeps

open Sys2Proof Sys2Proof.Machine Sys2Proof.Laws Sys2Proof.Datum Sys2Proof.JobStore Sys2Proof.Layers Sys2Proof.Engines

variable {a m : Mach}

/-! ### Combinators -/

/-- What a further change keeps, the two keep. -/
theorem next {n : Mach} (k : Keeps a m) (l : Keeps m n) : Keeps a n := keeps_trans k l

theorem framed {n : Mach} (k : Keeps a m) (hn : n.dram = m.dram ∧ n.otp = m.otp ∧ n.glb = m.glb ∧
    n.fgd = m.fgd ∧ n.hst.stopN = m.hst.stopN ∧ n.hst.stopSrc = m.hst.stopSrc) : Keeps a n := keeps_framed k hn

theorem ite {c : Prop} [Decidable c] {n : Mach} (km : Keeps a m) (kn : Keeps a n) : Keeps a (if c then m else n) := by
  split
  · exact km
  · exact kn

theorem foldl {α : Type} {f : Mach → α → Mach} (k : Keeps a m) (l : List α)
    (h : ∀ m x, Keeps a m → Keeps a (f m x)) : Keeps a (l.foldl f m) := List.foldlRecOn l f k fun m k x _ => h m x k

theorem forRange {f : Nat → Mach → Mach} (k : Keeps a m) (n : Nat) (h : ∀ i m, Keeps a m → Keeps a (f i m)) :
    Keeps a (Machine.forRange n f m) := k.foldl _ fun m i => h i m

theorem reports {n : Mach} (k : Keeps a m) (h : Reports m n) : Keeps a n := k.next h.keeps

theorem raise (k : Keeps a m) (e : Ev) (sev : Sev) (a0 a1 : Nat) : Keeps a (m.raise e sev a0 a1) :=
  keeps_raise k e sev a0 a1

theorem raiseRated (k : Keeps a m) (e : Ev) (source : Nat) (sev : Sev) (a0 a1 n : Nat)
    (join : Nat × Nat → Nat × Nat → Nat × Nat) : Keeps a (m.raiseRated e source sev a0 a1 n join) :=
  k.reports (.raiseRated m e source sev a0 a1 n join)

theorem addSat (k : Keeps a m) (f : Fld) (n : Nat) : Keeps a (m.addSat f n) := k.wr _ _

theorem addWrap (k : Keeps a m) (f : Fld) (n : Nat) : Keeps a (m.addWrap f n) := k.wr _ _

theorem addPair (k : Keeps a m) (lo n : Nat) : Keeps a (m.addPair lo n) := keeps_addPair k lo n

theorem mirror (k : Keeps a m) (c : Bool) (b : MirrorRec) : Keeps a (m.mirror c b) := k.framed (by simp)

theorem decide_ (k : Keeps a m) (typ : Nat) (c : Chainage) (v w : Nat) : Keeps a (m.decide_ typ c v w) :=
  k.framed (by simp)

theorem cplQueue (k : Keeps a m) (t : Nat) (c : Cpl) : Keeps a (m.cplQueue t c) := k.framed (by simp)

theorem complete (k : Keeps a m) (h : DescRef) (c : Cpl) : Keeps a (m.complete h c) := keeps_complete k h c

/-! ### Blocks that head power does not hang on -/

theorem trv (k : Keeps a m) (x : Trv) : Keeps a { m with trv := x } := ⟨k.dram, k.otp, k.safe⟩

theorem vgp (k : Keeps a m) (x : Vgp) : Keeps a { m with vgp := x } := ⟨k.dram, k.otp, k.safe⟩

theorem cmp (k : Keeps a m) (x : Cmp) : Keeps a { m with cmp := x } := ⟨k.dram, k.otp, k.safe⟩

theorem cam (k : Keeps a m) (x : Cam) : Keeps a { m with cam := x } := ⟨k.dram, k.otp, k.safe⟩

theorem cls (k : Keeps a m) (x : Cls) : Keeps a { m with cls := x } := ⟨k.dram, k.otp, k.safe⟩

theorem mot (k : Keeps a m) (x : Mot) : Keeps a { m with mot := x } := ⟨k.dram, k.otp, k.safe⟩

/-- Of the Fire Guard, the watchdog, head power and the fatal alone bear on it. -/
theorem fgd (k : Keeps a m) (x : Fgd) (hr : x.wdgRefreshed = m.fgd.wdgRefreshed) (he : x.wdgExpired = m.fgd.wdgExpired)
    (hp : x.headPwr = m.fgd.headPwr) (hf : x.fatalCause = m.fgd.fatalCause) : Keeps a { m with fgd := x } :=
  k.next ⟨rfl, rfl, fun h => powerSafe_of_eq h rfl rfl rfl rfl hp hr he hf⟩

/-! ### The Traverse -/

theorem updateCeiling (k : Keeps a m) : Keeps a m.updateCeiling := k.next (KeepsJobs.refl m).updateCeiling.keeps

theorem stallEnds (k : Keeps a m) (e : Nat) : Keeps a (m.stallEnds e) := by
  unfold Mach.stallEnds
  extract_lets g
  exact .ite (keeps_setEngine (k.addPair _ _) _ _) k

theorem abandon (k : Keeps a m) (p : Nat → Bool) : Keeps a (m.abandon p) := by
  unfold Mach.abandon
  refine k.foldl _ fun m e k => ?_
  extract_lets stalled g g'
  have hstalled : Keeps a stalled := .ite (k.stallEnds e) k
  clear_value stalled
  split
  · exact .ite ((keeps_setEngine hstalled _ _).addSat _ _) (keeps_setEngine hstalled _ _)
  · exact keeps_setEngine hstalled _ _

theorem discardSwaths (k : Keeps a m) (p : Nat → Bool) : Keeps a (m.discardSwaths p) :=
  (k.abandon p).trv _

theorem parkUpdate (k : Keeps a m) : Keeps a m.parkUpdate := by
  unfold Mach.parkUpdate
  extract_lets host steps src ordered
  refine .foldl (k.trv _) _ fun m e k => ?_
  extract_lets g unclaimed stalled
  have hunclaimed : Keeps a unclaimed := by
    unfold unclaimed
    split
    · exact keeps_setSwath k _ _
    · exact k
  exact .ite (.ite (keeps_setEngine k _ _) (keeps_setEngine k _ _))
    (.ite k (keeps_setEngine (hunclaimed.stallEnds e) _ _))

/-! ### Jobs that end -/

theorem setJob (k : Keeps a m) (j : Nat) (x : Job) : Keeps a (m.setJob j x) := k.vgp _

theorem jobState (k : Keeps a m) (j : Nat) (st : JobState) : Keeps a (m.jobState j st) :=
  (k.setJob j _).next (KeepsJobs.jobState m j st).keeps

theorem storeCheck (k : Keeps a m) : Keeps a m.storeCheck := k.next (KeepsJobs.refl m).storeCheck.keeps

theorem freeJob (k : Keeps a m) (j : Nat) : Keeps a (m.freeJob j) :=
  ((k.jobState j .free).vgp _).storeCheck

theorem stripHit (k : Keeps a m) (hub : Nat) : Keeps a (m.stripHit hub) := k.cls _

theorem countBlank (k : Keeps a m) (hub cause n : Nat) : Keeps a (m.countBlank hub cause n) :=
  .ite k (((k.addSat _ _).addPair _ _).stripHit hub)

theorem cutJob (k : Keeps a m) (j cause : Nat) : Keeps a (m.cutJob j cause).1 := by
  unfold Mach.cutJob
  extract_lets x c count counted r discarded
  have hcount (m : Mach) (h : Nat) (k : Keeps a m) : Keeps a (count m h) :=
    .countBlank (k.foldl _ fun m e k => .ite k (k.countBlank _ _ _)) _ _ _
  have hcounted : Keeps a counted := .ite (k.foldl _ hcount) k
  have hdiscarded : Keeps a discarded := hcounted.discardSwaths _
  clear_value discarded
  exact hdiscarded.fgd _ rfl rfl rfl rfl

theorem keepPast (k : Keeps a m) (j : Nat) : Keeps a (m.keepPast j) := by
  unfold Mach.keepPast
  exact .ite k ⟨k.dram, k.otp, k.safe⟩

theorem endJob (k : Keeps a m) (j : Nat) (st : Status) (c : Chainage) (value : Nat) :
    Keeps a (m.endJob j st c value) := by
  unfold Mach.endJob
  extract_lets x past cpl queued owed _ closed cleared _ freed stored _
  have hqueued : Keeps a queued := (k.keepPast j).cplQueue _ _
  clear_value queued
  have howed : Keeps a owed := (hqueued.vgp _).fgd _ rfl rfl rfl rfl
  have hcleared : Keeps a cleared := ((howed.vgp _).discardSwaths _).cmp _
  clear_value cleared
  have hfreed : Keeps a freed := hcleared.fgd _ rfl rfl rfl rfl
  exact .ite (hfreed.freeJob j) ((hfreed.jobState j .stored).setJob j _)

theorem endActive (k : Keeps a m) (cause : Nat) (all : Bool) : Keeps a (m.endActive cause all) := by
  unfold Mach.endActive
  exact k.forRange 8 fun j m k => .ite ((k.cutJob j cause).endJob j _ _ _) k

theorem endTaken (k : Keeps a m) : Keeps a m.endTaken := k.vgp _

theorem abortJob (k : Keeps a m) (h : DescRef) (tag : Nat) : Keeps a (m.abortJob h tag) := by
  unfold Mach.abortJob
  extract_lets cpl late
  have hlate : Keeps a (late m) := by
    unfold late
    split
    · exact k.complete _ _
    · exact k.complete _ _
  split
  · exact hlate
  · next j _ =>
    have hmirrored : Keeps a (m.mirrorDesc h (.abort tag)) := k.framed (by simp)
    exact .ite (((hmirrored.cutJob j 9).endJob j _ _ _).complete h _) hlate

theorem jobsEnd (k : Keeps a m) : Keeps a m.jobsEnd := by
  unfold Mach.jobsEnd
  split
  · split
    · exact k.endTaken.endJob _ _ _ _
    · exact k
  · split
    · exact (k.vgp _).endTaken.abortJob _ _
    · exact k

/-! ### Station outputs and axes -/

theorem setOut (k : Keeps a m) (n : Nat) (x : StnOut) : Keeps a (m.setOut n x) := k.framed (by simp)

theorem outputsSafe (k : Keeps a m) : Keeps a m.outputsSafe := k.forRange 16 fun n _ k => k.setOut n _

theorem stnSafe (k : Keeps a m) (why : Nat) : Keeps a (m.stnSafe why) := k.outputsSafe.raise _ _ _ _

theorem setAxis (k : Keeps a m) (i : Nat) (x : Axis) : Keeps a (m.setAxis i x) := k.mot _

theorem setCoils (k : Keeps a m) (i : Nat) (x : Axis) : Keeps a (m.setCoils i x) := by
  unfold Mach.setCoils
  exact .ite (k.setAxis i x) (.setAxis (.ite (k.emit _) k) i _)

theorem axisTo (k : Keeps a m) (i : Nat) (x : Axis) (reported : Bool) : Keeps a (m.axisTo i x reported) := by
  have hdriven : Keeps a (m.setCoils i x) := k.setCoils i x
  have hrecorded : Keeps a ((m.setCoils i x).axisRecord i) := hdriven.decide_ _ _ _ _
  exact .ite hdriven (.ite (hrecorded.raise _ _ _ _) hrecorded)

theorem stopAxisNow (k : Keeps a m) (i : Nat) (byMode : Bool) : Keeps a (m.stopAxisNow i byMode) :=
  .ite (k.axisTo i _ byMode) k

theorem motHalt (k : Keeps a m) : Keeps a m.motHalt := k.forRange 12 fun i _ k => k.stopAxisNow i true

/-! ### Frames that close -/

theorem setDev (k : Keeps a m) (d : Nat) (x : Device) : Keeps a (m.setDev d x) := k.cam _

theorem setFrame (k : Keeps a m) (c : Nat) (f : Frame) : Keeps a (m.setFrame c f) := k.cam _

theorem updUnit (k : Keeps a m) (n c o : Nat) (frame : Word) (f : OutUnit → OutUnit) :
    Keeps a (m.updUnit n c o frame f) := keeps_setSpill k n _

theorem unitAdd (k : Keeps a m) (n c o : Nat) (frame : Word) (d : List Byte) (f : OutUnit → OutUnit) :
    Keeps a (m.unitAdd n c o frame d f) := (k.cam _ : Keeps a (m.spillPost n _ d)).updUnit n c o frame _

theorem unitPut (k : Keeps a m) (n c o : Nat) (frame : Word) (records : Nat) (d : List Byte) :
    Keeps a (m.unitPut n c o frame records d) := by
  unfold Mach.unitPut
  split
  · exact k
  · exact .ite k (.ite (k.unitAdd _ _ _ _ _ _) (((k.updUnit _ _ _ _ _).addSat _ _).raise _ _ _ _))

theorem putBoxes (k : Keeps a m) (c o n : Nat) (f : Frame) (upTo : Nat) (final : Bool) (fuel b : Nat) :
    Keeps a (m.putBoxes c o n f upTo final fuel b) := by
  induction fuel generalizing m b with
  | zero =>
    unfold Mach.putBoxes
    split
    · exact k.setFrame _ _
    · exact k
  | succ fuel ih =>
    unfold Mach.putBoxes
    extract_lets e
    refine .ite (ih (k.unitPut _ _ _ _ _ _) _) ?_
    split
    · exact k.setFrame _ _
    · exact k

theorem produce (k : Keeps a m) (c : Nat) (f : Frame) (upTo : Nat) (final : Bool) :
    Keeps a (m.produce c f upTo final) := by
  unfold Mach.produce
  refine k.foldl _ fun m o k => ?_
  extract_lets s
  split
  · exact k
  · extract_lets waits headed put
    have hheaded : Keeps a headed := .ite k (k.unitAdd _ _ _ _ _ _)
    clear_value headed
    exact keeps_camDrain (.ite (hheaded.putBoxes _ _ _ _ _ _ _ _) (.ite (hheaded.unitPut _ _ _ _ _ _) hheaded)) _

theorem toClosure (k : Keeps a m) (c : Nat) (f : Frame) (w : FrameEnd) : Keeps a (m.toClosure c f w) := by
  unfold Mach.toClosure
  exact k.foldl _ fun m o k => .ite k (k.cls _)

theorem schedUpdate (k : Keeps a m) (d : Nat) : Keeps a (m.schedUpdate d) := .ite k (k.setDev d _)

theorem closeFrame (k : Keeps a m) (c : Nat) (w : FrameEnd) : Keeps a (m.closeFrame c w) := by
  unfold Mach.closeFrame
  split
  · exact k
  · next f _ =>
    extract_lets written upTo handed drained _ closed id short long
    have hwritten : Keeps a written := .ite (k.setDev _ _) k
    have hhanded : Keeps a handed := (hwritten.produce _ _ _ _).toClosure _ _ _
    have hdrained : Keeps a drained := by
      refine hhanded.foldl _ fun m o k => .ite ?_ k
      extract_lets n
      split
      · exact k
      · exact keeps_camDrain (k.unitAdd _ _ _ _ _ _) _
    have hclosed : Keeps a closed := hdrained.cam _
    have hshort : Keeps a short := .ite (hclosed.raise _ _ _ _) hclosed
    have hlong : Keeps a long := .ite (hshort.raise _ _ _ _) hshort
    exact hlong.schedUpdate _

theorem benchEnd (k : Keeps a m) (result : Nat) : Keeps a (m.benchEnd result) := by
  unfold Mach.benchEnd
  split
  · exact k
  · exact (k.cls _).raise _ _ _ _

end Sys2Proof.Scope.Keeps
end

section
/-! SUPPORT. What the fire path, the cameras, the memory subsystem and the clock's tick do beside DRAM leaves head power
alone. -/

namespace Sys2Proof.Scope.Keeps

open Sys2Proof Sys2Proof.Machine Sys2Proof.Laws Sys2Proof.Datum Sys2Proof.JobStore Sys2Proof.Layers Sys2Proof.Engines

variable {a m : Mach}

theorem chn (k : Keeps a m) (x : Chn) : Keeps a { m with chn := x } := ⟨k.dram, k.otp, k.safe⟩

theorem drm (k : Keeps a m) (x : Drm) : Keeps a { m with drm := x } := ⟨k.dram, k.otp, k.safe⟩

theorem epo (k : Keeps a m) (x : Epo) : Keeps a { m with epo := x } := ⟨k.dram, k.otp, k.safe⟩

theorem skx (k : Keeps a m) (x : Skx) : Keeps a { m with skx := x } := ⟨k.dram, k.otp, k.safe⟩

theorem ptn (k : Keeps a m) (x : Ptn) : Keeps a { m with ptn := x } := ⟨k.dram, k.otp, k.safe⟩

theorem checked (k : Keeps a m) (unit n bad : Nat) : Keeps a (m.checked unit n bad) := (k.addWrap _ _).addSat _ _

theorem addPairSat (k : Keeps a m) (lo n : Nat) : Keeps a (m.addPairSat lo n) := (k.wr _ _).wr _ _

/-! ### Deadlines (R243, R245) -/

theorem starve (k : Keeps a m) (j p row : Nat) : Keeps a (m.starve j p row) := by
  unfold Mach.starve
  exact k.foldl _ fun m s k => (k.setJob j _).raiseRated _ _ _ _ _ _ _

theorem blockBlank (k : Keeps a m) (q : BadBlock) (lines : Nat) : Keeps a (m.blockBlank q lines) :=
  ((k.setJob q.job _).addSat _ _).raise _ _ _ _

theorem repairLate (k : Keeps a m) (i : Nat) : Keeps a (m.repairLate i) := by
  unfold Mach.repairLate
  exact k.foldl _ fun m r k => (k.vgp _).blockBlank _ _

theorem countFall (k : Keeps a m) (i : Nat) (lines : List Nat) (ps : List Pend) (p : Pend) :
    Keeps a (m.countFall i lines ps p) := .ite k (k.epo _)

theorem fallBack (k : Keeps a m) (i : Nat) (lines : List Nat) (before now : List Pend × Bool) :
    Keeps a (m.fallBack i lines before now) := by
  unfold Mach.fallBack
  exact .foldl ((k.setFld _ _).setFld _ _) _ fun m p k => k.countFall i lines _ p

theorem swathDue (k : Keeps a m) (i : Nat) : Keeps a (m.swathDue i) := by
  unfold Mach.swathDue
  extract_lets starved s abandoned _ s' repaired cause quiet missed
  have hstarved : Keeps a starved := .ite (k.starve _ _ _) k
  have habandoned : Keeps a abandoned := hstarved.abandon _
  clear_value abandoned
  have hrepaired : Keeps a repaired := .ite (habandoned.repairLate i) habandoned
  have hmissed : Keeps a missed := (keeps_setSwath habandoned _ _).addSat _ _
  clear_value missed repaired
  exact .ite k (.ite (keeps_setSwath hstarved _ _)
    (.ite ((keeps_setSwath hrepaired _ _).fallBack _ _ _ _) (.ite hmissed (hmissed.raiseRated _ _ _ _ _ _ _))))

/-! ### The fire path (R264 to R280) -/

theorem fetched (k : Keeps a m) (j hub n : Nat) : Keeps a (m.fetched j hub n) := k.fgd _ rfl rfl rfl rfl

theorem setFireLine (k : Keeps a m) (i : Nat) (e : FireLine) : Keeps a (m.setFireLine i e) := k.fgd _ rfl rfl rfl rfl

theorem tidyLines (k : Keeps a m) (j hub : Nat) : Keeps a (m.tidyLines j hub) := k.fgd _ rfl rfl rfl rfl

theorem releaseTiles (k : Keeps a m) (j line : Nat) (hs : List HeadRec) : Keeps a (m.releaseTiles j line hs) := by
  unfold Mach.releaseTiles
  exact .ite k (k.foldl _ fun m i k => .ite (keeps_setSwath k i _) k)

theorem consume (k : Keeps a m) (h : HeadRec) (r : Nat) (e : FireLine) : Keeps a (m.consume h r e) := by
  have hhead (x : Head) : Keeps a (m.setHead h.id x) := k.fgd _ rfl rfl rfl rfl
  exact (((hhead _).addPairSat _ _).addPairSat _ _).addPairSat _ _

theorem sendFire (k : Keeps a m) (x : Job) (line hub : Nat) (e : FireLine) (want : Int) (rows : List RowSight) :
    Keeps a (m.sendFire x line hub e want rows) := by
  unfold Mach.sendFire
  extract_lets lane rate last slot collided set sent off _ placed _ timed
  have hsent : Keeps a sent := (k.addSat _ _).foldl _ fun _ _ k => k.emit _
  clear_value sent
  have hplaced : Keeps a placed := hsent.fgd _ rfl rfl rfl rfl
  have htimed : Keeps a timed := by
    unfold timed
    split
    · exact (hplaced.ptn _).setFld _ _
    · exact hplaced
  exact htimed.foldl _ fun m d k => k.consume _ _ _

theorem sendSymbol (k : Keeps a m) (lanes : List Nat) (x : Nat) : Keeps a (m.sendSymbol lanes x) := k.framed (by simp)

theorem sendIdle (k : Keeps a m) (lanes : List Nat) : Keeps a (m.sendIdle lanes) := k.framed (by simp)

theorem cutPacket (k : Keeps a m) (lanes : List Nat) : Keeps a (m.cutPacket lanes) :=
  ((k.sendSymbol lanes kL).sendSymbol lanes kV).sendIdle lanes

theorem lineLate (k : Keeps a m) (j line hub : Nat) : Keeps a (m.lineLate j line hub) := by
  unfold Mach.lineLate
  exact .ite k (.setFireLine (.ite (k.cutPacket _) k) _ _)

theorem placeCheck (k : Keeps a m) : Keeps a m.placeCheck := by
  unfold Mach.placeCheck
  extract_lets errs worst keep _ placed shown past
  have hplaced : Keeps a placed := k.fgd _ rfl rfl rfl rfl
  exact ((hplaced.setFld _ _).addSat _ _).raiseRated _ _ _ _ _ _ _

theorem seekBoundary (k : Keeps a m) : Keeps a m.seekBoundary := by
  unfold Mach.seekBoundary
  split
  · exact k
  · split
    · exact k
    · exact k.fgd _ rfl rfl rfl rfl

/-! ### Camera lines (R342 to R348) -/

theorem takeLine (k : Keeps a m) (c i : Nat) (web : Chainage) (time : DWord) (good : Bool) (l : CamLine) :
    Keeps a (m.takeLine c i web time good l) := by
  unfold Mach.takeLine
  split
  · exact k
  · exact ((k.cam _).setFrame _ _).produce _ _ _ _

theorem closeIfDone (k : Keeps a m) (c : Nat) : Keeps a (m.closeIfDone c) := by
  unfold Mach.closeIfDone
  split
  · exact .ite (k.closeFrame c .ended) k
  · exact k

theorem orphan (k : Keeps a m) (d : Nat) (overflow : Bool) : Keeps a (m.orphan d overflow) := by
  unfold Mach.orphan
  extract_lets counted
  have hcounted : Keeps a counted := .ite (k.addSat _ _) (k.addSat _ _)
  exact hcounted.raiseRated _ _ _ _ _ _ _

theorem lineModeRx (k : Keeps a m) (d : Nat) (good : Bool) (l : CamLine) : Keeps a (m.lineModeRx d good l) := by
  unfold Mach.lineModeRx
  extract_lets x
  split
  · exact k.orphan _ _
  · extract_lets answered takes
    have hanswered : Keeps a answered := k.setDev _ _
    clear_value answered
    refine .ite ((hanswered.orphan d true).foldl _ fun m c k => ?_)
      (.ite (hanswered.orphan d false) (hanswered.foldl _ fun m c k => ?_))
    · split
      · exact (k.setFrame _ _).closeIfDone c
      · exact k
    · split
      · exact (k.takeLine _ _ _ _ _ _).closeIfDone c
      · exact k

theorem frameModeRx (k : Keeps a m) (d c : Nat) (f : Frame) (good : Bool) (l : CamLine) :
    Keeps a (m.frameModeRx d c f good l) := by
  unfold Mach.frameModeRx
  extract_lets i taken
  have htaken : Keeps a taken :=
    .ite ((k.orphan d true).setFrame _ _) (.ite (k.setFrame _ _) (k.takeLine _ _ _ _ _ _))
  exact .ite (htaken.closeFrame c .ended) htaken

/-! ### The memory subsystem beside its bytes (R384 to R391) -/

theorem setDramCh (k : Keeps a m) (c : Nat) (x : DramCh) : Keeps a (m.setDramCh c x) := k.drm _

theorem issuePiece (k : Keeps a m) (c : Nat) : Keeps a (m.issuePiece c) := by
  unfold Mach.issuePiece
  split
  · exact k
  · exact k.setDramCh _ _

theorem memCycle (k : Keeps a m) (cycle : Nat) : Keeps a (m.memCycle cycle) := .ite k (k.drm _)

theorem targetMiss (k : Keeps a m) (port : Nat) : Keeps a (m.targetMiss port) :=
  ((k.addSat _ _).drm _).raiseRated _ _ _ _ _ _ _

theorem panicTime (k : Keeps a m) : Keeps a m.panicTime := by
  unfold Mach.panicTime
  exact k.foldl _ fun m i k => .ite k (.ite ((k.drm _).addSat _ _) (k.drm _))

theorem payRefreshes (k : Keeps a m) : Keeps a m.payRefreshes := by
  unfold Mach.payRefreshes
  exact k.foldl _ fun m e k => .ite k (.ite (k.setDramCh _ _) (.ite (k.setDramCh _ _) k))

/-! ### The tick of the clock (R46, R252) -/

theorem setChan (k : Keeps a m) (c : Nat) (x : Channel) : Keeps a (m.setChan c x) := k.chn _

theorem chanTick (k : Keeps a m) (residual : List Int) (c : Nat) : Keeps a (m.chanTick residual c).1 := by
  unfold Mach.chanTick
  extract_lets x y p
  split
  · exact k
  · split
    · exact k.setChan _ _
    · exact k.setChan _ _

theorem devTick (k : Keeps a m) (v : Int) (inc : Nat → Int) (c : Nat) : Keeps a (m.devTick v inc c) := by
  unfold Mach.devTick
  exact .ite k (k.setChan _ _)

theorem holdEnds (k : Keeps a m) : Keeps a m.holdEnds := (k.chn _).raise _ _ _ _

theorem lockoutTick (k : Keeps a m) (adv : Nat) : Keeps a (m.lockoutTick adv) := .ite k (k.chn _)

theorem camWindow (k : Keeps a m) : Keeps a m.camWindow := ((k.cam _).setFld _ _).setFld _ _

theorem dramWindow (k : Keeps a m) : Keeps a m.dramWindow := ((k.drm _).setFld _ _).setFld _ _

theorem windowTicks (k : Keeps a m) : Keeps a m.windowTicks := by
  unfold Mach.windowTicks
  extract_lets busy _ counted l loads slack _ loaded shown
  have hcounted : Keeps a counted := k.trv _
  clear_value counted
  have hslack : Keeps a slack := by
    unfold slack
    split
    · exact hcounted.wr _ _
    · exact hcounted
  have hshown : Keeps a shown := ((hslack.trv _).setFld _ _).setFld _ _
  exact .ite hcounted hshown.camWindow.dramWindow

theorem sendT1 (k : Keeps a m) (lane : Nat) : Keeps a (m.sendT1 lane) := (k.skx _).emit _

theorem t1Repeats (k : Keeps a m) : Keeps a m.t1Repeats := k.foldl _ fun _ _ k => k.sendT1 _

/-! ### HALT's causes (R498) -/

theorem haltCause (k : Keeps a m) (c : HaltCause) : Keeps a (m.haltCause c) :=
  .ite (.ite ((k.setFld _ _).setFld _ _) (.ite (k.setFld _ _) k)) (k.setFld _ _)

end Sys2Proof.Scope.Keeps
end

section
/-! SUPPORT. DRAM keeps its canonical form (R380): every byte stored goes in by `dramWrite`, and a reset empties it. -/

namespace Sys2Proof.Memory

open Sys2Proof Sys2Proof.Machine Sys2Proof.Laws Sys2Proof.Scope Sys2Proof.Datum Sys2Proof.Engines

/-! ### Changes that keep DRAM canonical -/

/-- A change leaves DRAM in its canonical form where it was in it. -/
def KeepsForm (a m : Mach) : Prop := Mach.memorySafe a → Mach.memorySafe m

namespace KeepsForm

variable {a m : Mach}

theorem refl (m : Mach) : KeepsForm m m := id

/-- Whatever else the module holds may change freely. -/
theorem same {n : Mach} (k : KeepsForm a m) (h : n.dram = m.dram) : KeepsForm a n := fun ha => by
  rw [Mach.memorySafe, h]
  exact k ha

theorem kept {n : Mach} (k : KeepsForm a m) (l : Keeps m n) : KeepsForm a n := k.same l.dram

/-- A reset lists nothing, and nothing is canonical. -/
theorem emptied (h : m.dram = []) : KeepsForm a m := fun _ => by
  rw [Mach.memorySafe, h]
  rfl

theorem dramWrite (k : KeepsForm a m) (addr : Nat) (d : List Byte) : KeepsForm a (m.dramWrite addr d) :=
  fun ha => dramWrite_wf m addr d (k ha)

theorem ite {c : Prop} [Decidable c] {n : Mach} (km : KeepsForm a m) (kn : KeepsForm a n) :
    KeepsForm a (if c then m else n) := by
  split
  · exact km
  · exact kn

theorem foldl {α : Type} {f : Mach → α → Mach} (k : KeepsForm a m) (l : List α)
    (h : ∀ m x, KeepsForm a m → KeepsForm a (f m x)) : KeepsForm a (l.foldl f m) :=
  List.foldlRecOn l f k fun m k x _ => h m x k

theorem forRange {f : Nat → Mach → Mach} (k : KeepsForm a m) (n : Nat)
    (h : ∀ i m, KeepsForm a m → KeepsForm a (f i m)) : KeepsForm a (Machine.forRange n f m) :=
  k.foldl _ fun m i => h i m

/-! ### HALT and the voter's tick, which change the mode -/

theorem modeTo (k : KeepsForm a m) (mode : Mode) (source : Nat) : KeepsForm a (m.modeTo mode source) := by
  unfold Mach.modeTo
  extract_lets old benched stripped cut _ entered raised refused
  have hbenched : KeepsForm a benched := .ite (k.kept (.benchEnd (.refl m) 1)) k
  have hstripped : KeepsForm a stripped := .ite (hbenched.same rfl) hbenched
  clear_value stripped
  have hraised : KeepsForm a raised := (hstripped.same rfl).kept (m := entered) (.raise (.refl _) _ _ _ _)
  clear_value raised
  have hrefused : KeepsForm a refused := .ite (hraised.kept (.raise (.refl _) _ _ _ _)) hraised
  exact .ite k (hrefused.kept (Keeps.refl refused).parkUpdate)

theorem enterHalt (k : KeepsForm a m) (c : HaltCause) (others : List HaltCause) : KeepsForm a (m.enterHalt c others) := by
  unfold Mach.enterHalt
  extract_lets safe _ ticked caused ended discarded closed halted
  have hsafe : KeepsForm a safe := k.kept (.stnSafe (.refl m) 1)
  clear_value safe
  have hticked : KeepsForm a ticked := hsafe.same rfl
  have hcaused : Keeps ticked caused := .foldl (.setFld (.refl ticked) _ _) _ fun _ c k => k.haltCause c
  have hended : Keeps ticked ended := .ite hcaused (hcaused.endActive 8 true)
  have hclosed : Keeps ticked closed := (hended.discardSwaths _).forRange 8 fun c _ k => k.closeFrame c .halted
  have hhalted : KeepsForm a halted := (hticked.kept hclosed.motHalt).modeTo .halt 4
  exact hhalted.kept (.raise (.refl _) _ _ _ _)

theorem halt (k : KeepsForm a m) (c : HaltCause) : KeepsForm a (m.halt c) :=
  .ite k (.ite (k.kept (.haltCause (.refl m) c)) (k.enterHalt c []))

theorem debtTick (k : KeepsForm a m) : KeepsForm a m.debtTick := by
  unfold Mach.debtTick
  extract_lets d past _ raised held _ judged ended out was _ overran
  have hheld : Keeps m held := .ite (.raise (.chn (.refl m) _) _ _ _ _) (.refl m)
  have hjudged : Keeps m judged := hheld.chn _
  have hended : Keeps m ended := .ite hjudged.holdEnds hjudged
  have hoverran : KeepsForm a overran := k.kept (hended.chn _)
  exact .ite ((hoverran.kept (.raise (.refl overran) _ _ _ _)).halt .backstep) hoverran

theorem voteTick (k : KeepsForm a m) (inc : Nat → Int) : KeepsForm a (m.voteTick inc) := by
  unfold Mach.voteTick
  extract_lets v s lead _ voted deviated past _ judged
  have hdeviated : Keeps m deviated := .forRange (.chn (.refl m) _) 3 fun c _ k => k.devTick v inc c
  clear_value deviated
  exact .ite k (k.kept (hdeviated.chn _)).debtTick

theorem chainageTick (k : KeepsForm a m) (residual : List Int) : KeepsForm a (m.chainageTick residual) := by
  unfold Mach.chainageTick
  extract_lets r voted
  have hr : Keeps m r.1 := List.foldlRecOn (motive := fun (r : Mach × List Int) => Keeps m r.1) _ _ (.refl m)
    fun _ k c _ => k.chanTick residual c
  clear_value r
  exact ((k.kept hr).voteTick _).kept (.lockoutTick (.refl _) _)

/-! ### The proof output (R203, R204) -/

theorem writeProof (k : KeepsForm a m) (x : Job) (w : ProofRow) : KeepsForm a (m.writeProof x w) := by
  unfold Mach.writeProof
  extract_lets depth rows cells body head addr r _ listed
  have hlisted : KeepsForm a listed := k.same rfl
  have hwritten := hlisted.dramWrite addr (head ++ body)
  exact .ite (k.kept (.raiseRated (.addSat (.refl m) _ _) _ _ _ _ _ _ _))
    (hwritten.kept (.checked (.addWrap (.refl _) _ _) _ _ _))

theorem proofLine (k : KeepsForm a m) (j hub line : Nat) (e : FireLine) : KeepsForm a (m.proofLine j hub line e) := by
  unfold Mach.proofLine
  extract_lets x hubs cy cx lo first w hs sums w' lines rest _
  have hlisted (l : List ProofRow) : KeepsForm a { m with cmp := { m.cmp with proof := l } } := k.same rfl
  exact .ite k (.ite (hlisted _) ((hlisted _).writeProof _ _))

/-! ### Lines that are settled (R264 to R280) -/

theorem skipLine (k : KeepsForm a m) (j line hub : Nat) : KeepsForm a (m.skipLine j line hub) := by
  unfold Mach.skipLine
  extract_lets x fetched counted
  have hfetched : Keeps m fetched := .fetched (.refl m) j hub line
  have hcounted : Keeps m counted := .ite (hfetched.addSat _ _) hfetched
  exact ((k.kept hcounted).proofLine _ _ _ _).kept (.releaseTiles (.refl _) _ _ _)

theorem finishLine (k : KeepsForm a m) (j line hub : Nat) (e : FireLine) : KeepsForm a (m.finishLine j line hub e) := by
  unfold Mach.finishLine
  extract_lets cause e' set counted
  clear_value cause
  have hset : Keeps m set := .setFireLine (.refl m) _ _
  have hcounted : Keeps m counted := by
    unfold counted
    split
    · exact hset
    · next o =>
      have hblank := hset.countBlank hub (causeValue o) 1
      exact .ite (hblank.raiseRated _ _ _ _ _ _ _) (.ite (hblank.raiseRated _ _ _ _ _ _ _) hblank)
  exact (k.kept hcounted).proofLine _ _ _ _

theorem ensureLine (k : KeepsForm a m) (j line hub : Nat) : KeepsForm a (m.ensureLine j line hub) := by
  unfold Mach.ensureLine
  extract_lets i hs ours e
  have hset : Keeps m ((m.fetched j hub line).setFireLine i e) := .setFireLine (.fetched (.refl m) _ _ _) _ _
  exact .ite k (.ite (k.skipLine j line hub) (k.kept (hset.releaseTiles _ _ _)))

theorem commitRows (k : KeepsForm a m) (j line hub : Nat) (due : List RowSight) :
    KeepsForm a (m.commitRows j line hub due) := by
  unfold Mach.commitRows
  extract_lets x ours late e judged predicted go e' set lead sent
  have hlate : Keeps m late := .ite (.refl m) (.lineLate (.refl m) j line hub)
  clear_value late
  have hpredicted : Keeps m predicted := hlate.foldl _ fun m d k => by
    split
    · exact k.fgd _ rfl rfl rfl rfl
    · exact k
  have hset : Keeps m set := hpredicted.setFireLine _ _
  have hsent : KeepsForm a sent := k.kept (hset.foldl _ fun _ _ k => k.sendFire _ _ _ _ _ _)
  exact .ite (hsent.finishLine j line hub _) hsent

theorem settleRows (k : KeepsForm a m) (j line hub : Nat) (due : List RowSight) :
    KeepsForm a (m.settleRows j line hub due) := by
  have hensured := k.ensureLine j line hub
  exact .ite k (.ite hensured (hensured.commitRows j line hub due))

theorem settleCrossed (k : KeepsForm a m) : KeepsForm a m.settleCrossed := by
  unfold Mach.settleCrossed
  exact .ite k (k.foldl _ fun m j k => k.foldl _ fun m h k => k.foldl _ fun m n k => k.settleRows _ _ _ _)

/-! ### Tiles, cameras and requests (R241, R341, R385) -/

theorem proofRef (k : KeepsForm a m) (i : Nat) (t : Tile) : KeepsForm a (m.proofRef i t) :=
  .ite (k.kept (.mirror (.refl m) _ _)) k

theorem finishSwath (k : KeepsForm a m) (i : Nat) (epoch : Word) : KeepsForm a (m.finishSwath i epoch) := by
  unfold Mach.finishSwath
  extract_lets s r left s' set written sl _ slacked referred p
  have hset : Keeps m set := .ite (keeps_setSwath (.refl m) _ _) (.addSat (keeps_setSwath (.refl m) _ _) _ _)
  have hwritten : KeepsForm a written := (k.kept hset).dramWrite _ _
  clear_value written
  have hslacked : KeepsForm a slacked := hwritten.same rfl
  have hreferred : KeepsForm a referred := hslacked.proofRef i r.1
  exact hreferred.kept (.raiseRated (.addSat (.addWrap (.refl _) _ _) _ _) _ _ _ _ _ _ _)

theorem camFlush (k : KeepsForm a m) : KeepsForm a m.camFlush :=
  (k.foldl m.cam.posted fun _ w k => k.dramWrite w.1 w.2).same rfl

theorem rawStore (k : KeepsForm a m) (d : Nat) (l : CamLine) : KeepsForm a (m.rawStore d l) := .ite k (k.dramWrite _ _)

theorem cycleWrite (k : KeepsForm a m) (port addr : Nat) (b : Byte) : KeepsForm a (m.cycleWrite port addr b) := by
  unfold Mach.cycleWrite
  split
  · exact .ite k (dramWrite (k.same rfl) _ _)
  · exact dramWrite (k.same rfl) _ _

theorem dramTick (k : KeepsForm a m) : KeepsForm a m.dramTick :=
  (KeepsForm.same (n := m.camFlush.camTick.panicUpdate) k.camFlush rfl).kept
    (.payRefreshes (.panicTime (.refl _)))

end KeepsForm

/-! ### Resets (R488) -/

theorem restart_dram (m : Mach) (c : ResetCause) (straps : Nat) : (m.restart c straps).dram = [] := by
  unfold Mach.restart
  extract_lets fails backoff finals fresh
  split
  · rfl
  · exact raise_dram ..

/-! ### Commands -/

section Commands

variable {s t : State} {f : Mach → Mach}

theorem settle_form {m : Mach} (h : Mach.memorySafe m) : Mach.memorySafe m.settle := by
  rwa [Mach.memorySafe, settle_dram]

theorem run_form (h : s.run f = .next t) : KeepsForm s.m t.m := by
  cases h
  intro hs
  dsimp only
  split
  · exact settle_form hs
  · exact hs

theorem runFuse_form (h : s.runFuse f = .next t) : KeepsForm s.m t.m := by
  cases h
  intro hs
  dsimp only
  split
  · exact settle_form hs
  · exact hs

theorem runAon_form (h : s.runAon f = .next t) : KeepsForm s.m t.m := by
  cases h
  exact fun hs => settle_form hs

theorem runMem_form (h : s.runMem f = .next t) (hf : KeepsForm s.m (f s.m)) : KeepsForm s.m t.m := by
  cases h
  intro hs
  dsimp only
  split
  · exact settle_form (hf hs)
  · exact hs

theorem runReset_form (h : s.runReset f = .next t) (hf : KeepsForm s.m (f s.m)) : KeepsForm s.m t.m := by
  cases h
  exact fun hs => settle_form (hf hs)

end Commands

variable {s t : State}

theorem dtmTick_form (residual : List Int) (h : execDtmTick residual s = .next t) : KeepsForm s.m t.m := by
  refine runMem_form h ?_
  extract_lets _ clocked voted _ _ stamped settled ended
  have hclocked : KeepsForm s.m clocked := .same (.refl s.m) rfl
  have hvoted : KeepsForm s.m voted := hclocked.chainageTick residual
  clear_value voted
  have hstamped : KeepsForm s.m stamped := hvoted.same rfl
  clear_value stamped
  have hplaced : KeepsForm s.m stamped.placeCheck := hstamped.kept (.placeCheck (.refl _))
  have hsettled : KeepsForm s.m settled := hplaced.settleCrossed.kept (.seekBoundary (.refl _))
  clear_value settled
  have hended : KeepsForm s.m ended := .ite hsettled (hsettled.kept (.jobsEnd (.refl _)))
  clear_value ended
  exact (hended.kept (Keeps.refl ended).storeCheck.windowTicks).dramTick.kept (.t1Repeats (.refl _))

theorem swathRenderDone_form (e : Nat) (h : execSwathRenderDone e s = .next t) : KeepsForm s.m t.m := by
  refine runMem_form h ?_
  extract_lets g
  split
  · exact .refl _
  · next k _ =>
    extract_lets _ done
    have hdone : KeepsForm s.m done := .ite
      (.ite (.kept (.refl s.m) (.addSat (keeps_setSwath (.refl _) _ _) _ _))
        ((KeepsForm.finishSwath (.refl s.m) k _).kept (.checked (.addWrap (.refl _) _ _) _ _ _)))
      (.refl s.m)
    exact hdone.kept (keeps_setEngine (.refl _) _ _)

theorem fireFetchStart_form (job line hub : Nat) (h : execFireFetchStart job line hub s = .next t) :
    KeepsForm s.m t.m := by
  refine runMem_form h ?_
  extract_lets x hs tidied fetched all e
  have htidied : Keeps s.m tidied := .tidyLines (.refl s.m) job hub
  have hfetched : Keeps s.m fetched := (htidied.fetched job hub line).foldl _ fun _ i k => k.swathDue i
  clear_value fetched
  exact .ite (.refl _) (.ite (.skipLine (.kept (.refl s.m) htidied) job line hub)
    (.kept (.refl s.m) ((hfetched.setFireLine _ _).releaseTiles _ _ _)))

theorem fireCommit_form (job line hub rows : Nat) (h : execFireCommit job line hub rows s = .next t) :
    KeepsForm s.m t.m := by
  refine runMem_form h ?_
  exact .ite (.refl _) (.settleRows (.refl _) job line hub _)

theorem cameraLineRx_form (d : Nat) (l : CamLine) (h : execCameraLineRx d l s = .next t) : KeepsForm s.m t.m := by
  refine runMem_form h ?_
  extract_lets flushed before received failed good judged stored taken work
  have hflushed : KeepsForm s.m flushed := .camFlush (.refl s.m)
  clear_value flushed
  have hreceived : Keeps flushed received := .foldl (.refl flushed) _ fun _ _ k => k.addWrap _ _
  have hfailed : Keeps flushed failed :=
    hreceived.foldl _ fun _ _ k => (k.addSat _ _).raiseRated _ _ _ _ _ _ _
  have hjudged : Keeps flushed judged := .ite hfailed (hfailed.addSat _ _)
  have hstored : KeepsForm s.m stored := ((hflushed.kept hjudged).rawStore d l).kept (.addWrap (.refl _) _ _)
  clear_value stored
  have htaken : Keeps stored taken := by
    unfold taken
    split
    · split
      · exact .frameModeRx (.refl _) _ _ _ _ _
      · exact .refl _
    · exact .lineModeRx (.refl _) _ _ _
  clear_value taken
  exact .ite (.refl _) ((hstored.kept htaken).same rfl)

theorem dramRequestAccept_form (port : Nat) (write : Bool) (addr len : Nat) (data : List Byte) (q : DramTiming)
    (h : execDramRequestAccept port write addr len data q s = .next t) : KeepsForm s.m t.m := by
  refine runMem_form h ?_
  extract_lets begun served counted _ moved queued issued _ timed target
  have hbegun : KeepsForm s.m begun := .kept (.refl s.m) (.memCycle (.refl _) _)
  have hserved : KeepsForm s.m served := .ite (hbegun.foldl _ fun _ _ k => k.cycleWrite _ _ _)
    (hbegun.kept (.emit (.addWrap (.refl _) _ _) _))
  clear_value served
  have hmoved : Keeps served moved := .drm (.addPair (.refl served) _ _) _
  clear_value moved
  have hqueued : Keeps served queued := hmoved.foldl _ fun _ _ k => k.setDramCh _ _
  have hissued : Keeps served issued := hqueued.foldl _ fun _ _ k => k.issuePiece _
  clear_value issued
  have htimed : Keeps served timed := hissued.drm _
  exact .ite (.refl _) (hserved.kept (.ite (htimed.targetMiss port) htimed))

/-- Every command leaves DRAM canonical: most put it back as it was, the resets empty it, and the others write to it. -/
theorem exec_form (c : Instr) (h : exec c s = .next t) : KeepsForm s.m t.m := by
  cases c with
  | dtmTick residual => exact dtmTick_form residual h
  | swathRenderDone e => exact swathRenderDone_form e h
  | fireFetchStart j n hub => exact fireFetchStart_form j n hub h
  | fireCommit j n hub rows => exact fireCommit_form j n hub rows h
  | cameraLineRx d l => exact cameraLineRx_form d l h
  | dramRequestAccept p w a n d q => exact dramRequestAccept_form p w a n d q h
  | diagWrite off d =>
    unfold exec at h
    refine runMem_form h ?_
    exact .ite (.refl _) (.ite (.dramWrite (.refl _) _ _) (.same (.refl _) rfl))
  | finalMonumentDone =>
    unfold exec at h
    refine runMem_form h ?_
    dsimp only
    split
    · exact .refl _
    · exact .ite (.emptied (restart_dram _ _ _)) (.same (.refl _) rfl)
  | haltResetTimer =>
    unfold exec at h
    refine runMem_form h ?_
    exact .ite (.emptied (restart_dram _ _ _)) (.refl _)
  | softwareReset key straps =>
    unfold exec at h
    refine runMem_form h ?_
    exact .ite (.emptied (restart_dram _ _ _)) (.refl _)
  | powerOn straps =>
    unfold exec at h
    exact runReset_form h (.emptied (restart_dram s.m .power straps))
  | resetPin straps =>
    unfold exec at h
    refine runReset_form h ?_
    exact .ite (.refl _) (.emptied (restart_dram _ _ _))
  | clockFailure =>
    unfold exec at h
    refine runReset_form h ?_
    exact .ite (.refl _) (.emptied (restart_dram _ _ _))
  | confirm =>
    unfold exec at h
    exact runFuse_form h
  | stopNFall | stopNRise | supplyGoodChange | thermalShutdown | shutdownRecordDone | clockStable | backoffEnd
  | powerDown =>
    unfold exec at h
    exact runAon_form h
  | _ =>
    unfold exec at h
    exact run_form h

/-- Settles O8: a step idles or runs one command. -/
theorem memoryStaysCanonical : Obligations.MemoryStaysCanonical := by
  intro s t hs ht
  unfold step at ht
  split at ht
  · cases ht
    exact hs
  · exact exec_form _ ht hs

end Sys2Proof.Memory
end

section
/-! SUPPORT. The statement on DRAM's ports (R384 to R396): bytes in acceptance order, refreshes, and code pages. -/

namespace Sys2Proof.Memory

open Sys2Proof Sys2Proof.Machine Sys2Proof.Laws Sys2Proof.Scope Sys2Proof.Stations Sys2Proof.Datum

/-! ### The bytes of a request (R384, R385) -/

theorem dramWriteList_snoc (l : List Byte) (b : Byte) (a : Nat) (d : List Host.Cell) :
    dramWriteList (l ++ [b]) a d = Tab.set (0 : Byte) (dramWriteList l a d) (a + l.length) b := by
  induction l generalizing a d with
  | nil => rfl
  | cons x r ih =>
    simp only [List.cons_append, dramWriteList, ih, List.length_cons]
    rw [Nat.add_assoc, Nat.add_comm 1]

/-- A byte that no write of the cycle has replaced takes the write. -/
theorem cycleWrite_of_fresh {m : Mach} {a : Nat} (h : Tab.get none m.drm.replaced a = none) (port : Nat) (b : Byte) :
    m.cycleWrite port a b = { m with
      drm := { m.drm with replaced := Tab.set none m.drm.replaced a (some (m.dramByte a, port)) }
      dram := Tab.set (0 : Byte) m.dram a b } := by
  unfold Mach.cycleWrite
  rw [h]
  rfl

/-- The first writes of a cycle, byte by byte, are one write of DRAM; what they replace is noted. -/
theorem cycleWrites_of_fresh {m : Mach} (port a : Nat) (d : List Byte) (h : m.drm.replaced = []) {k : Nat}
    (hk : k ≤ d.length) : ∃ old : Tab (Option (Byte × Nat)),
      (List.range k).foldl (fun m i => m.cycleWrite port (a + i) (d.getD i 0)) m =
        { m with drm := { m.drm with replaced := old }, dram := dramWriteList (d.take k) a m.dram } ∧
      ∀ i, a + k ≤ i → Tab.get none old i = none := by
  induction k with
  | zero => exact ⟨[], by simp [dramWriteList, ← h], fun _ _ => rfl⟩
  | succ k ih =>
    obtain ⟨old, hfold, hfresh⟩ := ih (by omega)
    have htake : d.take (k + 1) = d.take k ++ [d.getD k 0] := by
      rw [List.take_succ_eq_append_getElem (by omega), List.getD_eq_getElem _ _ (by omega)]
    refine ⟨Tab.set none old (a + k) (some (Tab.get (0 : Byte) (dramWriteList (d.take k) a m.dram) (a + k), port)),
      ?_, fun i hi => (get_set_ne none old (a + k) i _ (by omega)).trans (hfresh i (by omega))⟩
    · rw [List.range_succ, List.foldl_append, hfold, List.foldl_cons, List.foldl_nil,
        cycleWrite_of_fresh (hfresh (a + k) (Nat.le_refl _)), htake, dramWriteList_snoc]
      simp only [List.length_take, Nat.min_eq_left (show k ≤ d.length by omega), Mach.dramByte]

theorem cycleByte_of_fresh {m : Mach} {a : Nat} (h : Tab.get none m.drm.replaced a = none) :
    m.cycleByte a = m.dramByte a := by
  simp [Mach.cycleByte, h]

theorem emit_dramRead (m : Mach) (a : Nat) (l : List Byte) :
    m.emit (.dramRead a l) = { m with out := .dramRead a l :: m.out } := by
  simp [Mach.emit, Output.onLinks]

/-! ### What a request leaves beside its bytes -/

/-- The memory subsystem's own state, records and registers have changed alone, and no byte more is counted. -/
def Queues (a m : Mach) : Prop :=
  (∃ drm evt regs, m = { a with drm := drm, evt := evt, regs := regs }) ∧ m.drm.bytes = a.drm.bytes

namespace Queues

variable {a m : Mach}

theorem refl (m : Mach) : Queues m m := ⟨⟨_, _, _, rfl⟩, rfl⟩

theorem trans {n : Mach} (k : Queues a m) (l : Queues m n) : Queues a n := by
  obtain ⟨⟨_, _, _, rfl⟩, hm⟩ := k
  obtain ⟨⟨_, _, _, rfl⟩, hn⟩ := l
  exact ⟨⟨_, _, _, rfl⟩, hn.trans hm⟩

theorem drm (k : Queues a m) (d : Drm) (h : d.bytes = m.drm.bytes) : Queues a { m with drm := d } :=
  k.trans ⟨⟨_, _, _, rfl⟩, h⟩

theorem ite {c : Prop} [Decidable c] {n : Mach} (km : Queues a m) (kn : Queues a n) : Queues a (if c then m else n) := by
  split
  · exact km
  · exact kn

theorem foldl {α : Type} {f : Mach → α → Mach} (k : Queues a m) (l : List α)
    (h : ∀ m x, Queues a m → Queues a (f m x)) : Queues a (l.foldl f m) := List.foldlRecOn l f k fun m k x _ => h m x k

theorem setDramCh (k : Queues a m) (c : Nat) (x : DramCh) : Queues a (m.setDramCh c x) := k.drm _ rfl

theorem issuePiece (k : Queues a m) (c : Nat) : Queues a (m.issuePiece c) := by
  unfold Mach.issuePiece
  split
  · exact k
  · exact k.setDramCh _ _

theorem addSat (k : Queues a m) (f : Fld) (n : Nat) : Queues a (m.addSat f n) := k.trans ⟨⟨_, _, _, rfl⟩, rfl⟩

theorem addPair (m : Mach) (lo n : Nat) : Queues m (m.addPair lo n) := ⟨⟨_, _, _, rfl⟩, rfl⟩

theorem reports {n : Mach} (k : Queues a m) (h : Reports m n) (hout : n.out = m.out) : Queues a n := by
  obtain ⟨regs, evt, out, rfl⟩ := h
  dsimp only at hout
  subst hout
  exact k.trans ⟨⟨m.drm, evt, regs, rfl⟩, rfl⟩

theorem raise (k : Queues a m) (e : Ev) (sev : Sev) (a0 a1 : Nat) : Queues a (m.raise e sev a0 a1) :=
  k.reports (.raise m e sev a0 a1) (by simp)

theorem raiseRated (k : Queues a m) (e : Ev) (source : Nat) (sev : Sev) (a0 a1 n : Nat)
    (join : Nat × Nat → Nat × Nat → Nat × Nat) : Queues a (m.raiseRated e source sev a0 a1 n join) :=
  k.reports (.raiseRated m e source sev a0 a1 n join) (by simp)

theorem targetMiss (k : Queues a m) (port : Nat) : Queues a (m.targetMiss port) := by
  unfold Mach.targetMiss
  extract_lets counted r misses _ missed top
  have hmissed : Queues a missed := (k.addSat _ _).drm _ rfl
  exact hmissed.raiseRated _ _ _ _ _ _ _

end Queues

/-- A request once its bytes have moved: they are counted, its pieces queue, and its port's latency is judged. -/
def requestCounted (m : Mach) (port : Nat) (write : Bool) (addr len : Nat) (t : DramTiming) : Mach :=
  let m := m.addPair (Reg.DRM_P_BYTES_LO port) len
  let m := { m with drm := { m.drm with bytes := m.drm.bytes + len } }
  let m : Mach := (List.range (pieceCount addr len)).foldl (fun m i =>
    let e := t.chans.getD i (0, false)
    let c := e.1 % 16
    let x := m.dramCh c
    let p := Piece.cut { port := port, tick := m.now, hit := e.2, write := write, cycle := t.cycle } addr len i
    m.setDramCh c { x with queue := x.queue ++ [p] }) m
  let m : Mach := t.issues.foldl (fun (m : Mach) c => m.issuePiece (c % 16)) m
  let m : Mach := { m with drm := { m.drm with
    lats := Tab.set [] m.drm.lats port (placeWorst m.now (Tab.get [] m.drm.lats port) (some t.ns)) } }
  let target := m.fld (portTarget port)
  if m.qosTarget && target ≠ 0 && decide (target < t.ns) then m.targetMiss port else m

theorem requestCounted_spec (m : Mach) (port : Nat) (write : Bool) (addr len : Nat) (t : DramTiming) :
    ∃ drm evt regs, requestCounted m port write addr len t = { m with drm := drm, evt := evt, regs := regs } ∧
      drm.bytes = m.drm.bytes + len := by
  have hqueues (n : Mach) (h : n = { m.addPair (Reg.DRM_P_BYTES_LO port) len with
      drm := { m.drm with bytes := m.drm.bytes + len } }) : Queues n (requestCounted m port write addr len t) := by
    unfold requestCounted
    extract_lets moved _ counted queued issued _ timed target
    have hcounted : counted = n := h.symm
    clear_value counted
    subst hcounted
    have hqueued : Queues counted queued := .foldl (.refl _) _ fun _ _ k => k.setDramCh _ _
    have hissued : Queues counted issued := hqueued.foldl _ fun _ _ k => k.issuePiece _
    have htimed : Queues counted timed := hissued.drm _ rfl
    exact .ite (htimed.targetMiss port) htimed
  obtain ⟨⟨_, _, _, h⟩, hbytes⟩ := hqueues _ rfl
  exact ⟨_, _, _, h, by rw [h] at hbytes; exact hbytes⟩

/-- What a request does to the bytes, and what the port is given. -/
def requestServed (m : Mach) (port : Nat) (write : Bool) (addr len : Nat) (data : List Byte) (cycle : Nat) : Mach :=
  if write then
    (List.range (min len data.length)).foldl (fun m i => m.cycleWrite port (addr + i) (data.getD i 0)) m
  else (m.addWrap Reg.DRM_FWD.cnt (ofBool (m.writeWaits cycle addr len))).emit
    (.dramRead addr ((List.range len).map (fun i => m.cycleByte (addr + i))))

/-- An accepted request comes to its bytes and to what `requestCounted` adds. -/
theorem becomes_request {s : State} {p a n : Nat} {w : Bool} {d : List Byte} {t : DramTiming} {served : Mach} (h : Runs s)
    (hsize : a + n ≤ dramSize) (hup : s.m.dramUp = true) (htherm : s.m.thm.latch = none)
    (hserved : requestServed (s.m.memCycle t.cycle) p w a n d t.cycle = served)
    (hsame : served = { s.m with drm := served.drm, regs := served.regs, dram := served.dram, out := served.out }) :
    ∃ drm evt regs, Becomes (.dramRequestAccept p w a n d t) s
      { s.m with drm := drm, evt := evt, regs := regs, dram := served.dram, out := served.out } ∧
      drm.bytes = served.drm.bytes + n := by
  obtain ⟨drm, evt, regs, hcounted, hbytes⟩ := requestCounted_spec served p w a n t
  refine ⟨drm, evt, regs, Whole.becomes_of_runMem (rfl : execDramRequestAccept p w a n d t s = _) h ?_ rfl h.2, hbytes⟩
  have hgo : ¬(decide (dramSize < a + n) || !s.m.dramUp || s.m.thm.latch.isSome) = true := by
    simp [hup, htherm, Nat.not_lt.mpr hsize]
  have hmoved : { served with drm := drm, evt := evt, regs := regs } =
      { s.m with drm := drm, evt := evt, regs := regs, dram := served.dram, out := served.out } := by rw [hsame]
  rw [← hmoved, ← hcounted, ← hserved]
  exact if_neg hgo

theorem memCycle_of_new {m : Mach} {cycle : Nat} (h : m.drm.cycle ≠ some cycle) :
    m.memCycle cycle = { m with drm := { m.drm with cycle := some cycle, replaced := [] } } := if_neg h

theorem memCycle_of_same {m : Mach} {cycle : Nat} (h : m.drm.cycle = some cycle) : m.memCycle cycle = m := if_pos h

theorem requestServed_of_read (m : Mach) (p a n : Nat) (d : List Byte) (cycle : Nat) :
    requestServed m p false a n d cycle = { m.addWrap Reg.DRM_FWD.cnt (ofBool (m.writeWaits cycle a n)) with
      out := .dramRead a ((List.range n).map fun i => m.cycleByte (a + i)) :: m.out } := emit_dramRead _ _ _

/-- The first request of a MEM cycle: a write is a write of DRAM, and a read finds DRAM as it is. -/
theorem requestOfNewCycle {s : State} {p a n : Nat} {w : Bool} {d : List Byte} {t : DramTiming} (h : Runs s)
    (hsize : a + n ≤ dramSize) (hup : s.m.dramUp = true) (htherm : s.m.thm.latch = none)
    (hnew : s.m.drm.cycle ≠ some t.cycle) :
    Reaches (.dramRequestAccept p w a n d t) s fun m =>
      (∀ b, m.dramByte b = if w then (s.m.dramWrite a (d.take n)).dramByte b else s.m.dramByte b) ∧
      (w = false → m.dram = s.m.dram) ∧ m.drm.bytes = s.m.drm.bytes + n ∧
      m.out = (if w then s.m.out else .dramRead a (s.m.dramRead a n) :: s.m.out) ∧
      m = { s.m with drm := m.drm, evt := m.evt, regs := m.regs, dram := m.dram, out := m.out } := by
  cases w with
  | false =>
    obtain ⟨drm, evt, regs, hb, hbytes⟩ := becomes_request (p := p) (d := d) h hsize hup htherm
      (requestServed_of_read (s.m.memCycle t.cycle) p a n d t.cycle) (by rw [memCycle_of_new hnew]; rfl)
    rw [memCycle_of_new hnew] at hb hbytes
    exact ⟨_, hb, fun _ => rfl, fun _ => rfl, hbytes, rfl, rfl⟩
  | true =>
    obtain ⟨old, hfold, -⟩ := cycleWrites_of_fresh (m := s.m.memCycle t.cycle) p a d
      (by rw [memCycle_of_new hnew]) (k := min n d.length) (Nat.min_le_right _ _)
    have htake : d.take (min n d.length) = d.take n := by rw [← List.take_eq_take_min]
    rw [htake] at hfold
    have hserved := (rfl : requestServed (s.m.memCycle t.cycle) p true a n d t.cycle = _).trans hfold
    obtain ⟨drm, evt, regs, hb, hbytes⟩ := becomes_request h hsize hup htherm hserved
      (by rw [memCycle_of_new hnew])
    rw [memCycle_of_new hnew] at hb hbytes
    exact ⟨_, hb, fun _ => rfl, fun hw => (by cases hw), hbytes, rfl, rfl⟩

/-- A later request of the cycle to a byte that the cycle has written: a read gives what was replaced. -/
theorem readOfReplaced {s : State} {p a q : Nat} {b : Byte} {t : DramTiming} (h : Runs s) (hsize : a < dramSize)
    (hup : s.m.dramUp = true) (htherm : s.m.thm.latch = none) (hcycle : s.m.drm.cycle = some t.cycle)
    (hold : Tab.get none s.m.drm.replaced a = some (b, q)) :
    Reaches (.dramRequestAccept p false a 1 [] t) s fun m => m.out = .dramRead a [b] :: s.m.out ∧ m.dram = s.m.dram := by
  obtain ⟨drm, evt, regs, hb, -⟩ := becomes_request (p := p) (d := []) h hsize hup htherm
    (requestServed_of_read (s.m.memCycle t.cycle) p a 1 [] t.cycle) (by rw [memCycle_of_same hcycle]; rfl)
  rw [memCycle_of_same hcycle] at hb
  refine ⟨_, hb, ?_, rfl⟩
  simp [Mach.cycleByte, hold]

/-- And a write of a lower port changes nothing. -/
theorem writeOfLowerPort {s : State} {p a q : Nat} {b v : Byte} {t : DramTiming} (h : Runs s) (hsize : a < dramSize)
    (hup : s.m.dramUp = true) (htherm : s.m.thm.latch = none) (hcycle : s.m.drm.cycle = some t.cycle)
    (hold : Tab.get none s.m.drm.replaced a = some (b, q)) (hlow : p < q) :
    Reaches (.dramRequestAccept p true a 1 [v] t) s fun m => m.dram = s.m.dram := by
  have hwrite : s.m.cycleWrite p a v = s.m := by
    unfold Mach.cycleWrite
    rw [hold]
    exact if_pos hlow
  have hserved : requestServed (s.m.memCycle t.cycle) p true a 1 [v] t.cycle = s.m := by
    rw [memCycle_of_same hcycle]
    exact hwrite
  obtain ⟨drm, evt, regs, hb, -⟩ := becomes_request h hsize hup htherm hserved rfl
  exact ⟨_, hb, rfl⟩

/-! ### Refreshes (R390, R391) -/

theorem exec_refreshDue (c : Nat) (s : State) : exec (.refreshDue c) s = s.run fun m =>
    let x := m.dramCh c
    if !m.dramUp || decide (m.now < x.due) then m
    else
    let x := { x with due := m.now + m.refreshInterval c }
    let m := m.setDramCh c x
    if !m.postpones c then m
    else if x.owed < 8 then m.setDramCh c { x with owed := x.owed + 1, paid := m.now }
    else (m.addSat (Reg.DRM_CH_FORCED.cnt c) 1).raiseRated Ev.drmRefreshForced 0 .warning c 0 1 := rfl

theorem refreshInterval_pos (m : Mach) (c : Nat) : 0 < m.refreshInterval c := by
  unfold Mach.refreshInterval
  split <;> decide

theorem dramCh_setDramCh (m : Mach) (c : Nat) {x : DramCh} (h : x.due ≠ 0) : (m.setDramCh c x).dramCh c = x := by
  have hx : x ≠ {} := fun e => h (by rw [e])
  rw [Mach.dramCh, Mach.setDramCh, get_set_of_ne_default _ _ _ _ hx, if_pos rfl]

/-- Dating a channel's next refresh leaves what its queue asks for. -/
theorem postpones_setDramCh (m : Mach) (c due : Nat) (h : due ≠ 0) :
    (m.setDramCh c { m.dramCh c with due := due }).postpones c = m.postpones c := by
  rw [Mach.postpones, dramCh_setDramCh m c h]
  rfl

/-- A refresh that is due is dated, and then issued, owed or forced. -/
theorem becomes_refreshDue {s : State} {c : Nat} {x : DramCh} {m : Mach} (h : Runs s) (hup : s.m.dramUp = true)
    (hdue : (s.m.dramCh c).due ≤ s.m.now) (hx : x = { s.m.dramCh c with due := s.m.now + s.m.refreshInterval c })
    (e : (if !s.m.postpones c then s.m.setDramCh c x
      else if (s.m.dramCh c).owed < 8 then
        (s.m.setDramCh c x).setDramCh c { x with owed := x.owed + 1, paid := s.m.now }
      else ((s.m.setDramCh c x).addSat (Reg.DRM_CH_FORCED.cnt c) 1).raiseRated Ev.drmRefreshForced 0 .warning c 0 1) = m)
    (k : Keeps s.m m) : Becomes (.refreshDue c) s m := by
  refine becomes_of_exec (exec_refreshDue c s) h ?_ k
  have hpos := refreshInterval_pos s.m c
  have hpost : (s.m.setDramCh c x).postpones c = s.m.postpones c := by
    rw [hx]
    exact postpones_setDramCh _ _ _ (by omega)
  have hgo : ¬(!s.m.dramUp || decide (s.m.now < (s.m.dramCh c).due)) = true := by simp [hup, hdue]
  rw [if_neg hgo, ← e, ← hpost, hx]
  rfl

theorem refreshIsServed {s : State} {c : Nat} {x : DramCh} (h : Runs s) (hup : s.m.dramUp = true)
    (hdue : (s.m.dramCh c).due ≤ s.m.now) (hx : x = { s.m.dramCh c with due := s.m.now + s.m.refreshInterval c }) :
    (s.m.postpones c = false → Becomes (.refreshDue c) s (s.m.setDramCh c x)) ∧
    (s.m.postpones c = true → (s.m.dramCh c).owed < 8 →
      Becomes (.refreshDue c) s ((s.m.setDramCh c x).setDramCh c { x with owed := x.owed + 1, paid := s.m.now })) ∧
    (s.m.postpones c = true → 8 ≤ (s.m.dramCh c).owed →
      Becomes (.refreshDue c) s
        (((s.m.setDramCh c x).addSat (Reg.DRM_CH_FORCED.cnt c) 1).raiseRated Ev.drmRefreshForced 0 .warning c 0 1)) := by
  have hdated : Keeps s.m (s.m.setDramCh c x) := .setDramCh (.refl _) c x
  refine ⟨fun hp => ?_, fun hp ho => ?_, fun hp ho => ?_⟩
  · exact becomes_refreshDue h hup hdue hx (by simp [hp]) hdated
  · exact becomes_refreshDue h hup hdue hx (by simp [hp, ho]) (hdated.setDramCh _ _)
  · exact becomes_refreshDue h hup hdue hx (by simp [hp, Nat.not_lt.mpr ho])
      ((hdated.addSat _ _).raiseRated _ _ _ _ _ _ _)

/-! ### Code pages (R396) -/

theorem raise_eq (m : Mach) (e : Ev) (sev : Sev) (a0 a1 : Nat) :
    ∃ evt regs, m.raise e sev a0 a1 = { m with evt := evt, regs := regs } ∧ evt.seq = m.evt.seq + 1 := addRec_eq m _

theorem keeps_beaten {a m : Mach} (k : Keeps a m) (b : Beat) : Keeps a (m.beaten b) := k.next ⟨rfl, rfl, id⟩

theorem onBeat_of_due {m : Mach} {b : Beat} {period : Nat} (h : m.lastBeat b + period ≤ m.now) (f : Mach → Mach) :
    m.onBeat b period f = f (m.beaten b) := if_pos (decide_eq_true h)

theorem onBeat_of_early {m : Mach} {b : Beat} {period : Nat} (h : m.now < m.lastBeat b + period) (f : Mach → Mach) :
    m.onBeat b period f = m := if_neg (by simp [Mach.beatDue, Mach.passed, h])

/-- What a failed code page leaves: one that is lost holds the cores, and one that is not is counted. -/
def pageFailed (lost : List Nat) (m : Mach) (p : Nat) : Mach :=
  let m := m.raise Ev.drmCheck .warning 1 p
  if lost.contains p then ({ m with drm := { m.drm with coresHeld := true } }).raise Ev.drmCheck .error 3 p
  else m.addSat Reg.DRM_CHECK_CNT.cnt 1

theorem becomes_codePageCheck {s : State} {p : Nat} {lost : List Nat} (h : Runs s) (hup : s.m.dramUp = true)
    (hdue : s.m.lastBeat .pages + 500000000 ≤ s.m.now) :
    Becomes (.codePageCheck [p] lost) s (pageFailed lost (s.m.beaten .pages) p) := by
  refine becomes_of_exec (rfl : execCodePageCheck [p] lost s = _) h ?_ ?_
  · have hgo : ¬(!s.m.dramUp) = true := by simp [hup]
    exact (if_neg hgo).trans (onBeat_of_due hdue _)
  · have hraised := (keeps_beaten (.refl s.m) .pages).raise Ev.drmCheck .warning 1 p
    exact .ite ((hraised.drm _).raise _ _ _ _) (hraised.addSat _ _)

/-- Settles O46: requests by whether their MEM cycle has begun, refreshes by what waits, code pages by what is lost. -/
theorem dramServesItsPorts : Obligations.DramServesItsPorts := by
  refine ⟨fun s p a n w d t h hsize hup htherm hnew => requestOfNewCycle h hsize hup htherm hnew,
    fun s p a q b v t h hsize hup htherm hcycle hold => ⟨readOfReplaced h hsize hup htherm hcycle hold,
      writeOfLowerPort h hsize hup htherm hcycle hold⟩,
    fun s c h hearly => ?early, fun s c x h hup hdue hx => refreshIsServed h hup hdue hx, fun s h => ?zq,
    fun s p h hup hdue => becomes_codePageCheck h hup hdue, fun s p h hup hdue => ?lost⟩
  case early => exact becomes_same (exec_refreshDue c s) h (if_pos (by simp [hearly]))
  case zq =>
    refine becomes_of_exec (rfl : execZqLatch s = _) h ?_ (.ite (keeps_beaten (.refl _) _) (.refl _))
    simp [Mach.onBeat, Mach.beatDue, Mach.passed]
  case lost =>
    refine ⟨_, becomes_codePageCheck h hup hdue, ?_⟩
    obtain ⟨_, _, hwarned, hseq⟩ := raise_eq (s.m.beaten .pages) Ev.drmCheck .warning 1 p
    simp only [pageFailed, hwarned, List.contains_cons, BEq.rfl, Bool.true_or, if_true]
    obtain ⟨_, _, hlost, hseq'⟩ := raise_eq _ Ev.drmCheck .error 3 p
    rw [hlost]
    exact ⟨rfl, by rw [hseq', hseq, BitVec.add_assoc]; rfl, rfl⟩

end Sys2Proof.Memory
end

section
/-! SUPPORT. The statements on resets, BOOT and the lock (R425, R479, R488 to R490, R496). -/

namespace Sys2Proof.Startup

open Sys2Proof Sys2Proof.Machine Sys2Proof.Laws Sys2Proof.Scope Sys2Proof.Stations Sys2Proof.Datum Sys2Proof.Engines
open Sys2Proof.Whole Sys2Proof.Memory

/-! ### Commands that AON takes and resets -/

section

variable {c : Instr} {s : State} {f : Mach → Mach} {m : Mach}

theorem becomes_of_runReset (hx : exec c s = s.runReset f) (e : f s.m = m) (ho : m.otp = s.m.otp)
    (hs : Mach.powerSafe m) : Becomes c s m := by
  have hm : ({ f s.m with otp := s.m.otp } : Mach) = m := by rw [e, ← ho]
  refine hx.trans ?_
  simp only [State.runReset, hm, settle_of_safe m hs]

theorem becomes_of_runAon (hx : exec c s = s.runAon f) (h : Safe s) (e : f s.m = m) (k : Keeps s.m m) :
    Becomes c s m := by
  have hm : ({ f s.m with dram := s.m.dram, otp := s.m.otp } : Mach) = m := by rw [e, ← k.dram, ← k.otp]
  refine hx.trans ?_
  simp only [State.runAon, hm, settle_of_safe m (k.safe h)]

end

/-! ### A restart (R488) -/

/-- What a restart leaves of the module it finds. -/
structure Fresh (a m : Mach) : Prop where
  glb : m.glb = {}
  chn : m.chn = {}
  stn : m.stn = {}
  dtm : m.dtm = {}
  vgp : m.vgp = {}
  fgd : m.fgd = {}
  dram : m.dram = []
  opened : m.sec.opened = 0
  nonce : m.sec.nonceValid = false
  nand : m.nand = a.nand
  otp : m.otp = a.otp
  out : m.out = a.out
  hst : m.hst = { stopN := a.hst.stopN }

theorem fresh_restart (m : Mach) (c : ResetCause) (straps : Nat) : Fresh m (m.restart c straps) := by
  unfold Mach.restart
  extract_lets fails backoff finals _ fresh shown
  have hshown : Fresh m shown := ⟨rfl, rfl, rfl, rfl, rfl, rfl, rfl, rfl, rfl, rfl, rfl, rfl, rfl⟩
  clear_value shown
  split
  · exact hshown
  · obtain ⟨evt, regs, hraised, -⟩ := raise_eq shown Ev.lockClose .info m.sec.opened.toNat 0
    rw [hraised]
    obtain ⟨hglb, hchn, hstn, hdtm, hvgp, hfgd, hdram, hopened, hnonce, hnand, hotp, hout, hhst⟩ := hshown
    exact ⟨hglb, hchn, hstn, hdtm, hvgp, hfgd, hdram, hopened, hnonce, hnand, hotp, hout, hhst⟩

theorem Fresh.powerSafe {a m : Mach} (k : Fresh a m) : Mach.powerSafe m := fun h => by
  rw [k.fgd] at h
  cases h

theorem Fresh.held {a m : Mach} (k : Fresh a m) (held : Bool) :
    Mach.powerSafe { m with glb := { m.glb with clockHeld := held } } := fun h => by
  rw [k.fgd] at h
  cases h

/-- A module restarted is one reset, whatever of its clock it goes on holding. -/
theorem Fresh.restarted {s : State} {m : Mach} (k : Fresh s.m m) (held : Bool) :
    Restarted s { m with glb := { m.glb with clockHeld := held } } := by
  obtain ⟨hglb, hchn, hstn, hdtm, hvgp, hfgd, hdram, hopened, hnonce, hnand, hotp, hout, hhst⟩ := k
  refine ⟨?_, ?_, ?_, hchn, hstn, hdtm, hvgp, hfgd, hdram, hopened, hnonce, hnand, hotp, hout, hhst⟩
  · rw [hglb]
  · rw [hglb]
  · rw [hglb]

theorem Fresh.clock {a m : Mach} (k : Fresh a m) : { m with glb := { m.glb with clockHeld := false } } = m := by
  have h : ({ m.glb with clockHeld := false } : Glb) = m.glb := by rw [k.glb]
  rw [h]

theorem Fresh.restarted_alone {s : State} {m : Mach} (k : Fresh s.m m) : Restarted s m ∧ m.glb.clockHeld = false :=
  ⟨k.clock ▸ k.restarted false, by rw [k.glb]⟩

theorem clockHeld_of_runs {s : State} (h : Runs s) : s.m.glb.clockHeld = false ∧ s.m.glb.powerOff = false := by
  have ha := h.1
  simpa [Mach.alive] using ha

/-- Settles O36: each reset is a restart, and what AON goes on holding is the clock alone. -/
theorem resetsStartBoot : Obligations.ResetsStartBoot := by
  refine ⟨fun s r h => ?software, fun s r _ => ?power, fun s r h hl => ?pin, fun s h hl => ?clock,
    fun s key r h hk => ?otherKey, fun s h hl => ?shut, fun s h hl => ?stable, fun s t h hm hp hr ht hle => ?timer⟩
  case software =>
    have k := fresh_restart s.m .software r
    exact ⟨_, becomes_of_runMem (rfl : execSoftwareReset 0x5A17 r s = _) h (if_pos rfl) k.otp k.powerSafe,
      k.restarted_alone⟩
  case power =>
    have k := fresh_restart s.m .power r
    have kp : Fresh s.m { s.m.restart .power r with pwr := {} } := by
      obtain ⟨hglb, hchn, hstn, hdtm, hvgp, hfgd, hdram, hopened, hnonce, hnand, hotp, hout, hhst⟩ := k
      exact ⟨hglb, hchn, hstn, hdtm, hvgp, hfgd, hdram, hopened, hnonce, hnand, hotp, hout, hhst⟩
    exact ⟨_, becomes_of_runReset (rfl : execPowerOn r s = _) rfl kp.otp kp.powerSafe, kp.restarted_alone⟩
  case pin =>
    obtain ⟨hclock, hoff⟩ := clockHeld_of_runs h
    have k := fresh_restart s.m .pin r
    refine ⟨{ s.m.restart .pin r with glb := { (s.m.restart .pin r).glb with clockHeld := false } },
      becomes_of_runReset (rfl : execResetPin r s = _) ?_ k.otp (k.held false), k.restarted false, rfl⟩
    simp [hl, hoff, hclock]
  case clock =>
    have k := fresh_restart s.m .clock s.m.ptn.straps
    refine ⟨{ s.m.restart .clock s.m.ptn.straps with
      glb := { (s.m.restart .clock s.m.ptn.straps).glb with clockHeld := true } },
      becomes_of_runReset (rfl : execClockFailure s = _) ?_ k.otp (k.held true), k.restarted true, rfl⟩
    simp [hl, h.1]
  case otherKey =>
    exact becomes_of_runMem (rfl : execSoftwareReset key r s = _) h (if_neg hk) rfl h.2
  case shut => exact becomes_of_runAon (rfl : execClockStable s = _) h (if_pos hl) (.refl _)
  case stable =>
    exact becomes_of_runAon (rfl : execClockStable s = _) h (if_neg (by simp [hl])) ⟨rfl, rfl, id⟩
  case timer =>
    have k := fresh_restart s.m .haltReset s.m.ptn.straps
    refine ⟨_, becomes_of_runMem (rfl : execHaltResetTimer s = _) h ?_ k.otp k.powerSafe, ?_, k.dram, k.nand, k.otp⟩
    · simp [Mach.inMode, hm, hp, hr, ht, hle]
    · rw [k.glb]

end Sys2Proof.Startup
end

section
/-! SUPPORT. The statements on BOOT's stages and the lock (R489, R490, R496, R497). -/

namespace Sys2Proof.Startup

open Sys2Proof Sys2Proof.Machine Sys2Proof.Laws Sys2Proof.Scope Sys2Proof.Stations Sys2Proof.Datum Sys2Proof.Engines
open Sys2Proof.Whole Sys2Proof.Memory

/-! ### Changes that leave the modes, the clock, the chainage and the stations alone -/

/-- What BOOT's stages, a change of mode, the lock and the Traverse's upkeep leave beside what each names. -/
def aside (m : Mach) : Glb × Chn × Stn × Dtm × Hst × Ptn × Bool × Bool × Bool × Nat :=
  (m.glb, m.chn, m.stn, m.dtm, m.hst, m.ptn, m.fgd.geoOk, m.fgd.wdgRefreshed, m.fgd.wdgExpired, m.fgd.wdgTick)

def Aside (a m : Mach) : Prop := aside m = aside a

namespace Aside

variable {a m : Mach}

theorem refl (m : Mach) : Aside m m := rfl

theorem glb (k : Aside a m) : m.glb = a.glb := congrArg (fun x => x.1) k

theorem chn (k : Aside a m) : m.chn = a.chn := congrArg (fun x => x.2.1) k

theorem stn (k : Aside a m) : m.stn = a.stn := congrArg (fun x => x.2.2.1) k

theorem dtm (k : Aside a m) : m.dtm = a.dtm := congrArg (fun x => x.2.2.2.1) k

theorem hst (k : Aside a m) : m.hst = a.hst := congrArg (fun x => x.2.2.2.2.1) k

theorem ptn (k : Aside a m) : m.ptn = a.ptn := congrArg (fun x => x.2.2.2.2.2.1) k

theorem guard (k : Aside a m) : m.fgd.geoOk = a.fgd.geoOk ∧ m.fgd.wdgRefreshed = a.fgd.wdgRefreshed ∧
    m.fgd.wdgExpired = a.fgd.wdgExpired ∧ m.fgd.wdgTick = a.fgd.wdgTick :=
  ⟨congrArg (fun x => x.2.2.2.2.2.2.1) k, congrArg (fun x => x.2.2.2.2.2.2.2.1) k,
    congrArg (fun x => x.2.2.2.2.2.2.2.2.1) k, congrArg (fun x => x.2.2.2.2.2.2.2.2.2) k⟩

theorem trans {n : Mach} (k : Aside a m) (l : Aside m n) : Aside a n := Eq.trans l k

/-- Whatever else the module holds may change freely. -/
theorem same {n : Mach} (k : Aside a m) (h : aside n = aside m) : Aside a n := Eq.trans h k

theorem ite {c : Prop} [Decidable c] {n : Mach} (km : Aside a m) (kn : Aside a n) : Aside a (if c then m else n) := by
  split
  · exact km
  · exact kn

theorem foldl {α : Type} {f : Mach → α → Mach} (k : Aside a m) (l : List α)
    (h : ∀ m x, Aside a m → Aside a (f m x)) : Aside a (l.foldl f m) := List.foldlRecOn l f k fun m k x _ => h m x k

theorem forRange {f : Nat → Mach → Mach} (k : Aside a m) (n : Nat) (h : ∀ i m, Aside a m → Aside a (f i m)) :
    Aside a (Machine.forRange n f m) := k.foldl _ fun m i => h i m

theorem wr (k : Aside a m) (off v : Nat) : Aside a (m.wr off v) := k.same (by rfl)

theorem setFld (k : Aside a m) (f : Fld) (v : Nat) : Aside a (m.setFld f v) := k.wr _ _

theorem raise (k : Aside a m) (e : Ev) (sev : Sev) (a0 a1 : Nat) : Aside a (m.raise e sev a0 a1) :=
  k.same (by simp [aside])

theorem checked (k : Aside a m) (unit n bad : Nat) : Aside a (m.checked unit n bad) := (k.wr _ _).wr _ _

/-- GLB changed as it is in the machine compared with. -/
theorem withGlb (k : Aside a m) (f : Glb → Glb) : Aside { a with glb := f a.glb } { m with glb := f m.glb } := by
  obtain ⟨hgeo, href, hexp, htick⟩ := k.guard
  simp only [Aside, aside, k.glb, k.chn, k.stn, k.dtm, k.hst, k.ptn, hgeo, href, hexp, htick]

/-! #### The Traverse -/

theorem traverse (k : Aside a m) (x : Trv) : Aside a { m with trv := x } := k.same (by rfl)

theorem setEngine (k : Aside a m) (e : Nat) (g : Engine) : Aside a (m.setEngine e g) := k.same (by rfl)

theorem setSwath (k : Aside a m) (i : Nat) (x : Swath) : Aside a (m.setSwath i x) := k.same (by rfl)

theorem stallEnds (k : Aside a m) (e : Nat) : Aside a (m.stallEnds e) :=
  .ite (((k.wr _ _).wr _ _ : Aside a (m.addPair _ _)).setEngine _ _) k

theorem parkUpdate (k : Aside a m) : Aside a m.parkUpdate := by
  unfold Mach.parkUpdate
  extract_lets host steps src ordered
  refine .foldl (k.same (by rfl)) _ fun m e k => ?_
  extract_lets g unclaimed stalled
  have hunclaimed : Aside a unclaimed := by
    unfold unclaimed
    split
    · exact k.setSwath _ _
    · exact k
  exact .ite (.ite (k.setEngine _ _) (k.setEngine _ _)) (.ite k ((hunclaimed.stallEnds e).setEngine _ _))

theorem ceilingShown (k : Aside a m) : Aside a m.ceilingShown := (k.setFld _ _).setFld _ _

theorem updateCeiling (k : Aside a m) : Aside a m.updateCeiling := by
  unfold Mach.updateCeiling
  extract_lets c e lower shown _ counted
  have hshown : Aside a shown := (k.setFld _ _).setFld _ _
  clear_value shown
  have hcounted : Aside a counted := hshown.traverse _
  clear_value counted
  exact .ite k.ceilingShown (.ite (k.setFld _ _) (hcounted.raise _ _ _ _))

theorem setRunahead (k : Aside a m) : Aside a m.setRunahead := by
  unfold Mach.setRunahead
  extract_lets req ds d capped v us was _ noted shown
  have hnoted : Aside a noted := k.same (by rfl)
  clear_value noted
  have hshown : Aside a shown := (hnoted.setFld _ _).setFld _ _
  exact .ite (hshown.raise _ _ _ _) hshown

theorem keepQueue (k : Aside a m) : Aside a m.keepQueue := k.foldl _ fun _ _ k => k.setSwath _ _

theorem updateRunahead (k : Aside a m) : Aside a m.updateRunahead := .ite k.keepQueue.setRunahead k.setRunahead

/-! #### Lanes -/

theorem laneTo (k : Aside a m) (n : Nat) (x : Lane) : Aside a (m.laneTo n x) := by
  have hset : Aside a (m.setLane n { x with since := m.now }) := k.same (by rfl)
  exact .ite (hset.setFld _ _) hset

theorem dropCaps (k : Aside a m) (n : Nat) : Aside a (m.dropCaps n) := .ite k (k.same (by rfl))

theorem startTraining (k : Aside a m) (n : Nat) (full : Bool) (rate : Nat) : Aside a (m.startTraining n full rate) :=
  (k.dropCaps n).laneTo n _

theorem withPtn (k : Aside a m) (p : Ptn) : Aside { a with ptn := p } { m with ptn := p } := by
  obtain ⟨hgeo, href, hexp, htick⟩ := k.guard
  simp only [Aside, aside, k.glb, k.chn, k.stn, k.dtm, k.hst, hgeo, href, hexp, htick]

/-- A pairing attempt trains the lanes of Farsil, and PTN notes it. -/
theorem startPairing (k : Aside a m) : ∃ p, Aside { a with ptn := p } m.startPairing := by
  unfold Mach.startPairing
  dsimp only
  split
  · exact ⟨a.ptn, k⟩
  · exact ⟨_, (k.withPtn _).foldl [40, 41] fun _ _ k => .ite k (k.startTraining _ _ _)⟩

/-! #### Ceilings (R292, R293, R303) -/

theorem guardNote (k : Aside a m) (r : Nat) : Aside a (m.guardNote r) := .ite (k.same (by rfl)) k

theorem guardSync (k : Aside a m) : Aside a m.guardSync := k.foldl _ fun _ r k => k.guardNote r

theorem loadCeilings (k : Aside a m) (w : Tab Word) : Aside a (m.loadCeilings w) :=
  (k.foldl _ fun _ _ k => .ite (k.wr _ _) k).foldl _ fun _ _ k => .ite (k.setFld _ _) k

theorem tightenLimits (k : Aside a m) : Aside a m.tightenLimits := by
  unfold Mach.tightenLimits
  extract_lets top
  have htop {n : Mach} (k : Aside a n) (f c : Fld) : Aside a (top n f c) := k.setFld _ _
  clear_value top
  exact .forRange (.forRange (htop ((htop (htop k _ _) _ _).setFld _ _) _ _) 16 fun _ _ k => htop (htop k _ _) _ _) 12
    fun _ _ k => htop k _ _

theorem bootLimits (k : Aside a m) (w : Tab Word) : Aside a (m.bootLimits w) :=
  ((k.loadCeilings w).forRange 16 fun _ _ k => (k.setFld _ _).setFld _ _).tightenLimits.guardSync

theorem bootCeilings (k : Aside a m) (read : Bool) : Aside a (m.bootCeilings read).1 := by
  unfold Mach.bootCeilings
  extract_lets copyA copyB
  split
  · exact k.bootLimits _
  · split
    · exact (k.checked _ _ _).bootLimits _
    · split
      · exact (k.checked _ _ _).bootLimits _
      · exact (k.checked _ _ _).bootLimits _

theorem bootRecords (k : Aside a m) : Aside a m.bootRecords := by
  unfold Mach.bootRecords
  extract_lets result monument shown
  have hmonument : Aside a monument := (k.setFld _ _).setFld _ _
  clear_value monument
  have hshown : Aside a shown := by
    unfold shown
    split
    · exact ((hmonument.setFld _ _).setFld _ _).setFld _ _
    · exact hmonument
  exact hshown.same (by rfl)

/-! #### What follows a command -/

theorem settle (k : Aside a m) : Aside a m.settle := by
  unfold Mach.settle
  refine .ite (.raise (k.same (by rfl)) _ _ _ _) k

end Aside

/-- A command's effect, with DRAM and the fuses put back and head power judged, is set aside as before. -/
theorem reaches_of_exec {c : Instr} {s : State} {f : Mach → Mach} {a m : Mach} {p : Mach → Prop}
    (hx : exec c s = s.run f) (h : Runs s) (e : f s.m = m) (k : Aside a m) (hp : ∀ m, Aside a m → p m) :
    Reaches c s p :=
  ⟨_, hx.trans (run_alive s f h.1), hp _ (Aside.settle (Aside.same (e ▸ k) (by rfl)))⟩

/-! ### A change of mode -/

/-- GLB as a change of mode leaves it. -/
def modeGlb (g : Glb) (k : Mode) : Glb :=
  let cut := g.mode = .setup && g.lockBusy
  { g with
    mode := k, previous := g.mode, lockBusy := g.lockBusy && !cut, lockResult := if cut then 5 else g.lockResult }

theorem benchEnd_aside (m : Mach) (result : Nat) : Aside m (m.benchEnd result) := by
  unfold Mach.benchEnd
  split
  · exact .refl m
  · exact .raise (.same (.refl m) (by rfl)) _ _ _ _

/-- A mode entered changes GLB, and nothing else that `aside` holds. -/
theorem modeTo_aside {m : Mach} {k : Mode} (h : m.glb.mode ≠ k) (source : Nat) :
    Aside { m with glb := modeGlb m.glb k } (m.modeTo k source) := by
  unfold Mach.modeTo
  extract_lets old benched stripped cut glb entered raised refused
  have hbenched : Aside m benched := .ite (benchEnd_aside m 1) (.refl m)
  have hstripped : Aside m stripped := .ite (hbenched.same (by rfl)) hbenched
  clear_value stripped
  have hentered : Aside { m with glb := modeGlb m.glb k } entered := by
    obtain ⟨hgeo, href, hexp, htick⟩ := hstripped.guard
    simp only [Aside, aside, entered, modeGlb, glb, hstripped.glb, hstripped.chn, hstripped.stn, hstripped.dtm,
      hstripped.hst, hstripped.ptn, hgeo, href, hexp, htick, old, cut]
  clear_value entered
  rw [if_neg h]
  have hraised : Aside { m with glb := modeGlb m.glb k } raised := hentered.raise _ _ _ _
  exact .parkUpdate (.ite (hraised.raise _ _ _ _) hraised)

/-! ### BOOT's stages (R489, R490) -/

/-- The end of the last stage with a good ceiling record and STOP_n high: SETUP is entered, and GLB alone names it. -/
theorem bootEnds_aside {m : Mach} {read : Bool} (ms : Nat) (hm : m.glb.mode = .boot)
    (hgood : (m.bootCeilings read).2 = true) (hstop : m.hst.stopN = true) :
    Aside { m with glb := modeGlb { m.glb with stage := 0, bootFail := 0, timeMs := min 65535 ms } .setup }
      (m.bootEnds ms read) := by
  unfold Mach.bootEnds
  extract_lets g r shown _ timed entered noted res kind warned
  have hshown : Aside m shown := ((Aside.refl m).bootCeilings read).bootRecords.ceilingShown
  clear_value shown
  have htimed : Aside { m with glb := { m.glb with stage := 0, bootFail := 0, timeMs := min 65535 ms } } timed :=
    hshown.withGlb fun g => { g with stage := 0, bootFail := 0, timeMs := min 65535 ms }
  have hboot : timed.glb.mode ≠ .setup := by rw [htimed.glb, hm]; decide
  clear_value timed
  have hentered :
      Aside { m with glb := modeGlb { m.glb with stage := 0, bootFail := 0, timeMs := min 65535 ms } .setup }
        entered := by
    unfold entered
    rw [if_pos hgood]
    exact (htimed.withGlb (modeGlb · .setup)).trans (modeTo_aside hboot 0)
  clear_value entered
  have hnoted := hentered.raise Ev.boot .info (entered.fld Reg.GLB_RESET.cause + 256 * entered.sec.running) ms
  have hwarned : Aside _ warned := .ite (hnoted.raise _ _ _ _) hnoted
  rwa [if_pos ((congrArg Hst.stopN hwarned.hst).trans hstop)]

/-- Settles O37: each stage's end is one branch, and the last one's is `bootEnds_aside`. -/
theorem bootGoesStageByStage : Obligations.BootGoesStageByStage := by
  refine ⟨fun s b h hm hb hs => ?next, fun s b h hm hb hs ho => ?fuses, fun s b h hb => ?stopped,
    fun s b h hm hb hs hgood hstop => ?last⟩
  case next =>
    refine becomes_of_exec (rfl : execBootStageDone b s = _) h ?_ ⟨rfl, rfl, id⟩
    simp only [List.mem_cons, List.not_mem_nil, or_false] at hs
    obtain hs | hs | hs := hs
    all_goals simp [Mach.inMode, hm, hb, hs, Mach.nextStage, Mach.emit, Output.onLinks]
  case fuses =>
    refine becomes_of_exec (rfl : execBootStageDone b s = _) h ?_ ⟨rfl, rfl, id⟩
    simp [Mach.inMode, hm, hb, hs, ho, Mach.bootStops]
  case stopped => exact becomes_same (rfl : execBootStageDone b s = _) h (by simp [hb])
  case last =>
    refine reaches_of_exec (rfl : execBootStageDone b s = _) h ?_ (bootEnds_aside b.ms hm hgood hstop) fun m k => ?_
    · simp [Mach.inMode, hm, hb, hs]
    · rw [k.glb, k.dtm, k.chn]
      exact ⟨rfl, rfl, rfl, rfl, rfl⟩

/-! ### The lock (R496, R497) -/

/-- GLB as the lock leaves it. -/
def lockedGlb (g : Glb) : Glb := { g with locked := true, lockResult := 0 }

/-- The lock in force: what it says of GLB and of the watchdog, with all else set aside as it was. -/
def lockTaken (m : Mach) : Mach := { m with
  glb := { m.glb with locked := true, lockResult := 0 }
  fgd := { m.fgd with geoOk := true, wdgRefreshed := false, wdgTick := m.now, wdgExpired := false } }

theorem lockNow_aside (m : Mach) : ∃ p, Aside { lockTaken m with ptn := p } m.lockNow := by
  unfold Mach.lockNow
  extract_lets _ t c glb fgd drm taken mapped shown
  have htaken : Aside (lockTaken m) taken := rfl
  clear_value taken
  have hmapped : Aside (lockTaken m) mapped := ((htaken.setFld _ _).setFld _ _).setFld _ _
  clear_value mapped
  have hshown : Aside (lockTaken m) shown := (hmapped.setFld _ _).setFld _ _
  obtain ⟨p, hpaired⟩ := hshown.updateRunahead.updateCeiling.startPairing
  exact ⟨p, hpaired.raise _ _ _ _⟩

/-- Settles O34: each answer is one branch, and the lock's is `lockNow_aside`. -/
theorem theModuleLocks : Obligations.TheModuleLocks := by
  refine ⟨fun s h hl hb hm => ?asked, fun s h hl hb hm => ?outside, fun s q h hb hq hr => ?refused,
    fun s q h hb hq hr hg hgeo hlane => ?taken⟩
  case asked =>
    exact becomes_of_exec (rfl : execLock s = _) h (by simp [hl, hb, Mach.inMode, hm]) ⟨rfl, rfl, id⟩
  case outside =>
    exact becomes_of_exec (rfl : execLock s = _) h (by simp [hl, hb, Mach.inMode, hm]) ⟨rfl, rfl, id⟩
  case refused =>
    have k : Keeps s.m q := hq ▸ ⟨rfl, rfl, id⟩
    have kanswer : Keeps s.m { q with glb := { q.glb with lockResult := 1 } } := k.next ⟨rfl, rfl, id⟩
    refine becomes_of_exec (rfl : execLockChecksDone s = _) h ?_ (kanswer.raise _ _ _ _)
    subst hq
    simp only [hb, Bool.not_true, Bool.false_eq_true, if_false]
    exact if_pos hr
  case taken =>
    obtain ⟨p, kq⟩ := lockNow_aside q
    refine reaches_of_exec (rfl : execLockChecksDone s = _) h ?_ kq fun m k => ?_
    · subst hq
      simp only [hb, Bool.not_true, Bool.false_eq_true, if_false]
      refine (if_neg (not_not_intro hr)).trans ((if_neg (Nat.not_lt.mpr hg)).trans ?_)
      rw [hgeo, hlane]
    · obtain ⟨hgeoOk, href, hexp, htick⟩ := k.guard
      rw [k.glb, k.dtm, k.chn, k.stn, hgeoOk, href, hexp, htick, hq]
      exact ⟨rfl, rfl, rfl, rfl, rfl, rfl, rfl, rfl⟩

end Sys2Proof.Startup
end

section
/-! SUPPORT. The statement on enabled axes, compare units and the faults of an axis (R445 to R447, R451, R452). -/

namespace Sys2Proof.Axes

open Sys2Proof Sys2Proof.Machine Sys2Proof.Laws Sys2Proof.Scope Sys2Proof.Stations Sys2Proof.Datum

/-! ### An axis takes a state (R412, R435, R449) -/

theorem axis_of_mot {m n : Mach} (h : n.mot = m.mot) (a : Nat) : n.axis a = m.axis a := by
  rw [Mach.axis, h, Mach.axis]

theorem setCoils_mirroring (m : Mach) (a : Nat) (x : Axis) : (m.setCoils a x).mirroring = m.mirroring := by
  unfold Mach.setCoils
  split
  · rfl
  · split
    · simp [Mach.mirroring, Mach.setAxis]
    · rfl

theorem setFld_mirroring (m : Mach) (f : Fld) (v : Nat) : (m.setFld f v).mirroring = m.mirroring := rfl

theorem setCoils_of_driven {x : Axis} (m : Mach) (a : Nat) (h : x.driven = true) : m.setCoils a x = m.setAxis a x :=
  if_pos h

/-- A module that mirrors nothing takes a state of an axis with its coils, and a record where one is asked for. -/
theorem axisTo_of_alone {m : Mach} {a : Nat} {x : Axis} (hm : m.mirroring = false) (hs : (m.axis a).state ≠ x.state)
    (reported : Bool) : m.axisTo a x reported =
      if reported then (m.setCoils a x).raise Ev.motState (if x.state = .fault then .error else .info)
        (a + 16 * x.state.code + 256 * (m.axis a).state.code) x.faultCause
      else m.setCoils a x := by
  have hrecord : (m.setCoils a x).axisRecord a = m.setCoils a x :=
    decide_of_not_mirroring ((setCoils_mirroring m a x).trans hm) _ _ _ _
  unfold Mach.axisTo
  simp only [hs, if_false, hrecord]

/-! ### Enabling (R447) -/

/-- The axis as it is enabled. -/
def enabledAxis (x : Axis) : Axis := { x.rest with posValid := false, faultCause := 0, state := .hold }

theorem enableAxis_of_off {m : Mach} {a : Nat} (hmode : m.glb.mode ≠ .boot) (hrole : m.isBacksight = false)
    (hen : m.flag (Reg.MOT_A_CFG.en a) = false) (hm : m.mirroring = false) (hoff : (m.axis a).state = .off) :
    m.enableAxis a = (m.setFld (Reg.MOT_A_CFG.en a) 1).setAxis a (enabledAxis (m.axis a)) := by
  have hboot : (m.inMode .boot || m.flag (Reg.MOT_A_CFG.en a)) = false :=
    Bool.or_eq_false_iff.mpr ⟨decide_eq_false hmode, hen⟩
  have hrole' : (m.setFld (Reg.MOT_A_CFG.en a) 1).isBacksight = false := by
    rw [Mach.isBacksight, setFld_glb]
    exact hrole
  have haxis : (m.setFld (Reg.MOT_A_CFG.en a) 1).axis a = m.axis a := axis_of_mot (setFld_mot _ _ _) a
  have hs : ((m.setFld (Reg.MOT_A_CFG.en a) 1).axis a).state ≠ (enabledAxis (m.axis a)).state := by
    rw [haxis, hoff]
    exact nofun
  unfold Mach.enableAxis
  simp only [hboot, hrole', haxis, Bool.false_eq_true, if_false]
  have hdriven : (enabledAxis (m.axis a)).driven = true := rfl
  have hto := axisTo_of_alone ((setFld_mirroring _ _ _).trans hm) hs false
  rw [setCoils_of_driven _ a hdriven] at hto
  exact hto

/-! ### Faults (R445, R446) -/

/-- The axis in FAULT. -/
def faultAxis (x : Axis) (cause : Nat) : Axis :=
  { x.rest with state := .fault, faultCause := cause, posValid := false, atCeil := 0 }

/-- A stall leaves the coils driven. -/
theorem axisTo_stalled {m : Mach} {a : Nat} {x : Axis} (hm : m.mirroring = false) (hx : m.axis a = x)
    (hs : x.state = .moving) : m.axisTo a (faultAxis x 1) true = (m.setAxis a (faultAxis x 1)).raise Ev.motState .error
      (a + 16 * AxState.fault.code + 256 * AxState.moving.code) 1 := by
  have hne : (m.axis a).state ≠ (faultAxis x 1).state := by
    rw [hx, hs]
    exact nofun
  rw [axisTo_of_alone hm hne, setCoils_of_driven m a rfl, hx, hs]
  rfl

/-- An overcurrent switches them off. -/
theorem axisTo_overcurrent {m : Mach} {a : Nat} {x : Axis} (hm : m.mirroring = false) (hx : m.axis a = x)
    (hs : x.state = .hold) : m.axisTo a (faultAxis x 2) true =
      ((if x.coilA ≠ {} ∨ x.coilB ≠ {} then m.emit (.gates a 0) else m).setAxis a (faultAxis x 2).undriven).raise
        Ev.motState .error (a + 16 * AxState.fault.code + 256 * AxState.hold.code) 2 := by
  have hne : (m.axis a).state ≠ (faultAxis x 2).state := by
    rw [hx, hs]
    exact nofun
  have hgates : x.gatesOn = true ↔ x.coilA ≠ {} ∨ x.coilB ≠ {} := by simp [Axis.gatesOn]
  have hcoils : m.setCoils a (faultAxis x 2) =
      (if x.coilA ≠ {} ∨ x.coilB ≠ {} then m.emit (.gates a 0) else m).setAxis a (faultAxis x 2).undriven := by
    unfold Mach.setCoils
    rw [if_neg (by rw [Axis.driven]; exact nofun), hx]
    simp only [hgates]
  rw [axisTo_of_alone hm hne, hcoils, hx, hs]
  rfl

theorem raise_mirroring (m : Mach) (e : Ev) (sev : Sev) (a0 a1 : Nat) :
    (m.raise e sev a0 a1).mirroring = m.mirroring := by
  simp [Mach.mirroring]

/-- Settles O24: an axis takes its state by `axisTo_of_alone`, and each fault that is none by its own guard. -/
theorem axesAreEnabledAndFault : Obligations.AxesAreEnabledAndFault := by
  refine ⟨fun s a h hmode hrole hen hm hoff => ?enable, fun s a u h hmode => ?arm, fun s a u h hu => ?cancel,
    fun s a u h hu => ?kept, fun s a x h hx hs hc hstop hm => ?stalls, fun s a x h hx hs hc hwarn => ?warns,
    fun s a h hc => ?few, fun s a x i j d h hx hs ha hi hj hm hd => ?surge, fun s a i j h ha => ?under,
    fun s a h hr => ?raised, fun s a h hs hl hr => ?lags⟩
  case enable =>
    exact becomes_of_exec (rfl : execAxisEnable a s = _) h (enableAxis_of_off hmode hrole hen hm hoff)
      ((Keeps.setFld (.refl _) _ _).setAxis a _)
  case arm =>
    exact becomes_of_exec (rfl : execCmpArm a u s = _) h (if_neg (by simp [Mach.inMode, hmode]))
      (Keeps.setAxis (.refl _) a _)
  case cancel => exact becomes_of_exec (rfl : execCmpCancel a u s = _) h (if_pos hu) (Keeps.setAxis (.refl _) a _)
  case kept => exact becomes_same (rfl : execCmpCancel a u s = _) h (if_neg hu)
  case stalls =>
    refine becomes_of_exec (rfl : execStall a s = _) h ?_
      ((((Keeps.addSat (.refl _) _ _).raise _ _ _ _).setAxis a _).raise _ _ _ _)
    subst hx
    have hfew : ¬(s.m.axis a).atCeil < 8 := Nat.not_lt.mpr hc
    simp only [hs, hfew, hstop, reduceCtorEq, decide_true, decide_false, Bool.not_true, Bool.false_or, Bool.or_false,
      Bool.false_eq_true, Bool.not_false, if_true, if_false]
    exact axisTo_stalled ((raise_mirroring _ _ _ _ _).trans hm) (axis_of_mot (raise_mot _ _ _ _ _) a) hs
  case warns =>
    refine becomes_of_exec (rfl : execStall a s = _) h ?_
      (((Keeps.addSat (.refl _) _ _).raise _ _ _ _).setAxis a _)
    subst hx
    have hfew : ¬(s.m.axis a).atCeil < 8 := Nat.not_lt.mpr hc
    simp only [hs, hfew, hwarn, reduceCtorEq, decide_true, decide_false, Bool.not_true, Bool.or_false,
      Bool.false_eq_true, if_false]
    rfl
  case few => exact becomes_same (rfl : execStall a s = _) h (if_pos (by simp [hc]))
  case surge =>
    have kraised : Keeps s.m d := hd ▸ Keeps.raise (.refl _) _ _ _ _
    refine becomes_of_exec (rfl : execOvercurrent a i j s = _) h ?_
      (((Keeps.ite (kraised.emit _) kraised).setAxis a _).raise _ _ _ _)
    have hmot : d.mot = s.m.mot := by rw [hd, raise_mot]
    have hon : ¬(!(s.m.axis a).driven ∨ (s.m.axis a).above < 2 ∨ i ≠ (s.m.axis a).coilA.meas ∨
        j ≠ (s.m.axis a).coilB.meas) := by
      have hlow : ¬x.above < 2 := Nat.not_lt.mpr ha
      simp [hx, Axis.driven, hs, hi, hj, hlow]
    refine (if_neg hon).trans ?_
    rw [← hd, hx]
    exact axisTo_overcurrent (by rw [hd, raise_mirroring, hm]) ((axis_of_mot hmot a).trans hx) hs
  case under => exact becomes_same (rfl : execOvercurrent a i j s = _) h (if_pos (.inr (.inl ha)))
  case raised => exact becomes_same (rfl : execGearLag a s = _) h (if_pos (.inr (.inr hr)))
  case lags =>
    refine becomes_of_exec (rfl : execGearLag a s = _) h (if_neg ?_) ((Keeps.setAxis (.refl _) a _).raise _ _ _ _)
    simp [hs, hr, Nat.not_lt.mpr hl]

end Sys2Proof.Axes
end

section
/-! SUPPORT. The statement on triggers, camera lines, frame timeouts and table generations (R340 to R357). -/

namespace Sys2Proof.Cameras

open Sys2Proof Sys2Proof.Machine Sys2Proof.Laws Sys2Proof.Scope Sys2Proof.Stations Sys2Proof.Datum

/-! ### What a camera's line and trigger leave of the devices and contexts -/

/-- Devices, contexts and the contexts' configurations are as they were. -/
structure KeepsCameras (a m : Mach) : Prop where
  dev : m.cam.dev = a.cam.dev
  ctx : m.cam.ctx = a.cam.ctx
  cfg : ∀ c < 8, m.rd (Reg.CAM_C_CFG c) = a.rd (Reg.CAM_C_CFG c)

namespace KeepsCameras

variable {a m : Mach}

theorem refl (m : Mach) : KeepsCameras m m := ⟨rfl, rfl, fun _ _ => rfl⟩

theorem trans {b : Mach} (k : KeepsCameras a b) (l : KeepsCameras b m) : KeepsCameras a m :=
  ⟨l.dev.trans k.dev, l.ctx.trans k.ctx, fun c hc => (l.cfg c hc).trans (k.cfg c hc)⟩

/-- Whatever else the module holds may change freely. -/
theorem same {n : Mach} (k : KeepsCameras a m) (h : (n.cam.dev, n.cam.ctx, n.regs) = (m.cam.dev, m.cam.ctx, m.regs)) :
    KeepsCameras a n := by
  simp only [Prod.mk.injEq] at h
  obtain ⟨hdev, hctx, hregs⟩ := h
  exact k.trans ⟨hdev, hctx, fun _ _ => by simp only [Mach.rd, hregs]⟩

theorem ite {c : Prop} [Decidable c] {n : Mach} (km : KeepsCameras a m) (kn : KeepsCameras a n) :
    KeepsCameras a (if c then m else n) := by
  split
  · exact km
  · exact kn

theorem foldl {α : Type} {f : Mach → α → Mach} (k : KeepsCameras a m) (l : List α)
    (h : ∀ m x, KeepsCameras a m → KeepsCameras a (f m x)) : KeepsCameras a (l.foldl f m) :=
  List.foldlRecOn l f k fun m k x _ => h m x k

/-- The contexts' registers lie between those of the connections and devices and those of EVT. -/
theorem wr (k : KeepsCameras a m) {off : Nat} (v : Nat) (h : off < 0xC1000 ∨ 0xC1800 ≤ off) :
    KeepsCameras a (m.wr off v) := by
  refine k.trans ⟨rfl, rfl, fun c hc => rd_wr_ne m v ?_⟩
  simp only [Reg.CAM_C_CFG]
  omega

theorem addSat (k : KeepsCameras a m) {f : Fld} (n : Nat) (h : f.off < 0xC1000 ∨ 0xC1800 ≤ f.off) :
    KeepsCameras a (m.addSat f n) := k.wr _ h

theorem addWrap (k : KeepsCameras a m) {f : Fld} (n : Nat) (h : f.off < 0xC1000 ∨ 0xC1800 ≤ f.off) :
    KeepsCameras a (m.addWrap f n) := k.wr _ h

theorem raiseAt (k : KeepsCameras a m) (e : Ev) (c : Chainage) (sev : Sev) (a0 a1 : Nat) :
    KeepsCameras a (m.raiseAt e c sev a0 a1) := by
  have hcnt : (Reg.EVT_CNT.cnt e.code).off < 0xC1000 ∨ 0xC1800 ≤ (Reg.EVT_CNT.cnt e.code).off := by
    simp only [Reg.EVT_CNT.cnt]
    omega
  refine (k.addSat 1 hcnt).same ?_
  simp only [Mach.raiseAt, Mach.addRec]
  split <;> rfl

theorem rateFlush (k : KeepsCameras a m) (e : Ev) (source : Nat) : KeepsCameras a (m.rateFlush e source) :=
  (k.raiseAt e _ _ _ _).same (by rfl)

theorem raiseRated (k : KeepsCameras a m) (e : Ev) (source : Nat) (sev : Sev) (a0 a1 n : Nat)
    (join : Nat × Nat → Nat × Nat → Nat × Nat) : KeepsCameras a (m.raiseRated e source sev a0 a1 n join) := by
  have hrate (key : Nat) (r : RateSrc) : KeepsCameras a (m.setRate key r) := k.same (by rfl)
  exact .ite k (.ite ((hrate _ _).rateFlush e source) (hrate _ _))

theorem openOn (k : KeepsCameras a m) (d : Nat) : m.openOn d = a.openOn d := by
  unfold Mach.openOn
  refine List.filter_congr fun c hc => ?_
  have hcfg : m.ctxDev c = a.ctxDev c := congrArg (bitsOf · 17 16) (k.cfg c (List.mem_range.mp hc))
  rw [hcfg, Mach.frame, Mach.ctx, k.ctx]
  rfl

theorem device (k : KeepsCameras a m) (d : Nat) : m.dev d = a.dev d := by rw [Mach.dev, k.dev, Mach.dev]

theorem settle (k : KeepsCameras a m) : KeepsCameras a m.settle := by
  unfold Mach.settle
  exact .ite (.raiseAt (.same k (by rfl)) _ _ _ _ _) k

end KeepsCameras

/-! ### Devices -/

theorem dev_setDev {m : Mach} {d : Nat} {x : Device} (h : x ≠ {}) : (m.setDev d x).dev d = x :=
  (get_set_of_ne_default _ _ _ _ h).trans (if_pos rfl)

theorem dev_setDev_ne {m : Mach} {d k : Nat} (x : Device) (h : k ≠ d) : (m.setDev d x).dev k = m.dev k :=
  get_set_ne _ _ _ _ _ h.symm

theorem ctx_setCtx {m : Mach} {c : Nat} {x : Ctx} (h : x ≠ {}) : (m.setCtx c x).ctx c = x :=
  (get_set_of_ne_default _ _ _ _ h).trans (if_pos rfl)

theorem ctx_setCtx_ne {m : Mach} {c k : Nat} (x : Ctx) (h : k ≠ c) : (m.setCtx c x).ctx k = m.ctx k :=
  get_set_ne _ _ _ _ _ h.symm

/-- A context belongs to one of four devices. -/
theorem openOn_of_four_le (m : Mach) {d : Nat} (h : 4 ≤ d) : m.openOn d = [] := by
  refine List.filter_eq_nil_iff.mpr fun c _ => ?_
  have hlt : m.ctxDev c < 4 := Nat.mod_lt _ (Nat.two_pow_pos _)
  simp [show m.ctxDev c ≠ d by omega]

theorem sendTrig_dev (m : Mach) (d k : Nat) :
    (m.sendTrig d k).dev d = { m.dev d with lastTrig := some m.now } := by
  have hemit (o : Output) : (m.emit o).dev d = m.dev d := by rw [Mach.dev, emit_cam, Mach.dev]
  have hnow (o : Output) : (m.emit o).now = m.now := by rw [Mach.now, emit_dtm, Mach.now]
  have hne : ({ m.dev d with lastTrig := some m.now } : Device) ≠ {} := fun he => nomatch congrArg Device.lastTrig he
  unfold Mach.sendTrig
  simp only [hemit, hnow]
  exact dev_setDev hne

theorem sendTrig_dev_ne (m : Mach) {d i : Nat} (k : Nat) (h : i ≠ d) : (m.sendTrig d k).dev i = m.dev i := by
  unfold Mach.sendTrig
  rw [dev_setDev_ne _ h, Mach.dev, emit_cam, Mach.dev]

theorem sendTrig_openOn (m : Mach) (d k : Nat) : (m.sendTrig d k).openOn d = m.openOn d := by
  have hemit (o : Output) : KeepsCameras m (m.emit o) := (KeepsCameras.refl m).same (by simp)
  exact (hemit _).openOn d

theorem countTrigs_of_none {m : Mach} {d : Nat} (h : m.openOn d = []) (k n : Nat) (sent : Bool) :
    m.countTrigs d k n sent = m := by
  rw [Mach.countTrigs, h]
  rfl

theorem trigSkip_openOn {m : Mach} {d : Nat} (h : m.openOn d = []) (n : Nat) : (m.trigSkip d n).openOn d = [] := by
  by_cases hd : 4 ≤ d
  · exact openOn_of_four_le _ hd
  · have hskip : (Reg.CAM_D_TRIG_SKIP.cnt d).off < 0xC1000 := by
      simp only [Reg.CAM_D_TRIG_SKIP.cnt]
      omega
    have k : KeepsCameras m (m.trigSkip d n) := ((KeepsCameras.refl m).addSat n (.inl hskip)).raiseRated _ _ _ _ _ _ _
    rw [k.openOn, h]

theorem trigSkip_dev (m : Mach) (d n k : Nat) : (m.trigSkip d n).dev k = m.dev k := by
  simp [Mach.trigSkip, Mach.dev]

/-! ### A line (R345, R348) -/

/-- An orphan line of a device in range is only counted and reported. -/
theorem KeepsCameras.orphan {a m : Mach} (k : KeepsCameras a m) {d : Nat} (hd : d < 4) (overflow : Bool) :
    KeepsCameras a (m.orphan d overflow) := by
  have hovf : (Reg.CAM_D_OVF.cnt d).off < 0xC1000 := by simp only [Reg.CAM_D_OVF.cnt]; omega
  have horphan : (Reg.CAM_D_ORPHAN.cnt d).off < 0xC1000 := by simp only [Reg.CAM_D_ORPHAN.cnt]; omega
  exact .raiseRated (.ite (k.addSat 1 (.inl hovf)) (k.addSat 1 (.inl horphan))) _ _ _ _ _ _ _

theorem KeepsCameras.rawStore {a m : Mach} (k : KeepsCameras a m) (d : Nat) (l : CamLine) :
    KeepsCameras a (m.rawStore d l) := by
  unfold Mach.rawStore
  extract_lets bytes base size cap n
  exact .ite k (k.same (by rfl))

theorem KeepsCameras.camFlush {a m : Mach} (k : KeepsCameras a m) : KeepsCameras a m.camFlush := by
  unfold Mach.camFlush
  extract_lets written _
  have hwritten : KeepsCameras a written := k.foldl _ fun _ _ k => k.same (by rfl)
  exact hwritten.same (by rfl)

/-- With no frame open on its device, a line answers the oldest waiting trigger and is an orphan. -/
theorem lineModeRx_of_none {m : Mach} {d : Nat} {t : Trig} {r : List Trig} (ho : m.openOn d = [])
    (ht : (m.dev d).trigs = t :: r) (good : Bool) (l : CamLine) :
    m.lineModeRx d good l = (m.setDev d { m.dev d with trigs := r }).orphan d
      ((m.setDev d { m.dev d with trigs := r }).storeFull d) := by
  have hopen : (m.setDev d { m.dev d with trigs := r }).openOn d = [] := ho
  unfold Mach.lineModeRx
  simp only [ht, hopen, List.filter_nil, List.foldl_nil, List.isEmpty_nil, if_true]
  split
  · next h => rw [h]
  · next h => rw [Bool.not_eq_true] at h; rw [h]

theorem KeepsCameras.packets {a m : Mach} (k : KeepsCameras a m) (l : List Nat) :
    KeepsCameras a (l.foldl (fun m k => m.addWrap (Reg.CAM_X_PKT.cnt (k % 8)) 1) m) := by
  refine k.foldl l fun m i k => k.addWrap 1 (.inl ?_)
  simp only [Reg.CAM_X_PKT.cnt]
  omega

theorem KeepsCameras.failed {a m : Mach} (k : KeepsCameras a m) (l : List Nat) :
    KeepsCameras a (l.foldl (fun m k =>
      (m.addSat (Reg.CAM_X_CRC.cnt (k % 8)) 1).raiseRated Ev.camCrc (k % 8) .warning (k % 8) 0 1) m) := by
  refine k.foldl l fun m i k => (k.addSat 1 (.inl ?_)).raiseRated _ _ _ _ _ _ _
  simp only [Reg.CAM_X_CRC.cnt]
  omega

/-! ### Commands -/

theorem reaches_of_run {c : Instr} {s : State} {f : Mach → Mach} {n : Mach} {p : Mach → Prop}
    (hx : exec c s = s.run f) (h : Runs s) (k : KeepsCameras n (f s.m)) (hp : ∀ m, KeepsCameras n m → p m) :
    Reaches c s p :=
  ⟨_, hx.trans (run_alive s f h.1), hp _ (KeepsCameras.settle (k.same (by rfl)))⟩

theorem reaches_of_runMem {c : Instr} {s : State} {f : Mach → Mach} {n : Mach} {p : Mach → Prop}
    (hx : exec c s = s.runMem f) (h : Runs s) (k : KeepsCameras n (f s.m)) (hp : ∀ m, KeepsCameras n m → p m) :
    Reaches c s p := by
  refine ⟨({ f s.m with otp := s.m.otp } : Mach).settle, hx.trans ?_, hp _ (KeepsCameras.settle (k.same (by rfl)))⟩
  rw [State.runMem, if_pos h.1]

/-- A line received by an UP device with no frame open on it takes the oldest waiting trigger away. -/
theorem reaches_cameraLineRx {s : State} {d : Nat} {l : CamLine} {t : Trig} {r : List Trig} {p : Mach → Prop}
    (h : Runs s) (hd : d < 4) (hup : (s.m.dev d).state = .up) (ho : s.m.openOn d = []) (ht : (s.m.dev d).trigs = t :: r)
    (hp : ∀ m, KeepsCameras (s.m.setDev d { s.m.dev d with trigs := r }) m → p m) : Reaches (.cameraLineRx d l) s p := by
  refine reaches_of_runMem (rfl : execCameraLineRx d l s = _) h ?_ hp
  rw [if_neg (by simp [hup])]
  extract_lets _ flushed before packets failed good judged stored taken work
  have hbad : (Reg.CAM_D_BAD_LINES.cnt d).off < 0xC1000 := by simp only [Reg.CAM_D_BAD_LINES.cnt]; omega
  have hlines : (Reg.CAM_D_LINES.cnt d).off < 0xC1000 := by simp only [Reg.CAM_D_LINES.cnt]; omega
  have hfailed : KeepsCameras s.m failed := ((KeepsCameras.refl s.m).camFlush.packets _).failed _
  have hjudged : KeepsCameras s.m judged := .ite hfailed (hfailed.addSat 1 (.inl hbad))
  have hstored : KeepsCameras s.m stored := (hjudged.rawStore d l).addWrap 1 (.inl hlines)
  clear_value stored
  have hopen : stored.openOn d = [] := (hstored.openOn d).trans ho
  have hfirst : (stored.dev d).trigs = t :: r := by rw [hstored.device, ht]
  have hanswered : KeepsCameras (s.m.setDev d { s.m.dev d with trigs := r })
      (stored.setDev d { stored.dev d with trigs := r }) := by
    rw [hstored.device]
    exact ⟨by rw [Mach.setDev, Mach.setDev, hstored.dev], hstored.ctx, hstored.cfg⟩
  have htaken : taken = stored.lineModeRx d good l := by
    unfold taken
    rw [hopen]
    rfl
  have k : KeepsCameras (s.m.setDev d { s.m.dev d with trigs := r }) taken := by
    rw [htaken, lineModeRx_of_none hopen hfirst]
    exact hanswered.orphan hd _
  exact k.same (by rfl)

/-- The device whose next trigger is sent, before its tick is noted. -/
abbrev sentDevice (m : Mach) (x : Device) (sch : Sched) : Device :=
  { x with
    sched := some { sch with next := sch.next + 1 }
    trigs := x.trigs ++ [{ k := sch.next, chn := sch.chn sch.next, tick := m.now, time := m.time }] }

/-- The device whose crossed triggers are all skipped. -/
abbrev skippedDevice (m : Mach) (x : Device) (sch : Sched) : Device :=
  { x with sched := some { sch with next := sch.next + sch.crossed m.chainage } }

/-- Settles O59: a device's own change by `dev_setDev`, and with no frame open on it nothing else that cameras hold. -/
theorem camerasSendAndRead : Obligations.CamerasSendAndRead := by
  refine ⟨fun s d x sch h hx hsch => ⟨fun hn => ?uncrossed, fun hn hahead hsoon ho => ?sent,
      fun hn hahead hsoon ho => ?skipped⟩,
    fun s d h hsch => ?unscheduled, fun s d l h => ⟨fun hup => ?down, fun t r hd hup ho ht => ?answers⟩,
    fun s c f h hf => ⟨fun hlt => ?waits, fun hle hline => ?closes⟩,
    fun s c h hc => ⟨fun hbad => ?refused, fun hgood => ?copied, ?nothing⟩, fun s c g h hc => ⟨?busy, ?pending⟩,
    fun s v c i h hc hi => ⟨?read, fun hcopy => ?locked, fun hcopy hlt => ?staged⟩⟩
  case uncrossed =>
    refine becomes_same (rfl : execLineTrigger d s = _) h ?_
    simp only [hx, hsch, hn]
    rfl
  case sent =>
    have hcrossed : (1 = 0 || !chnAtOrAhead s.m.chainage (sch.chn sch.next)) = false := by simp [hahead]
    have hy : sentDevice s.m x sch ≠ {} := fun he => nomatch congrArg Device.sched he
    have hopen : ((s.m.setDev d (sentDevice s.m x sch)).sendTrig d sch.next).openOn d = [] :=
      (sendTrig_openOn _ d sch.next).trans ho
    refine reaches_of_run (n := (s.m.setDev d (sentDevice s.m x sch)).sendTrig d sch.next)
      (rfl : execLineTrigger d s = _) h ?_ fun m k => ⟨?_, fun i hi => ?_⟩
    · simp only [hx, hsch, hn, hcrossed, hsoon, Nat.add_sub_cancel, Nat.lt_irrefl, Bool.false_eq_true, if_false]
      rw [countTrigs_of_none hopen]
      exact .refl _
    · rw [k.device, sendTrig_dev, dev_setDev hy]
      rfl
    · rw [k.device, sendTrig_dev_ne _ _ hi, dev_setDev_ne _ hi]
  case skipped =>
    have hcrossed : (sch.crossed s.m.chainage = 0 || !chnAtOrAhead s.m.chainage (sch.chn sch.next)) = false := by
      simp [Nat.ne_of_gt hn, hahead]
    have hnext : sch.next + sch.crossed s.m.chainage - 1 + 1 = sch.next + sch.crossed s.m.chainage := by omega
    have hy : skippedDevice s.m x sch ≠ {} := fun he => nomatch congrArg Device.sched he
    have hset : (s.m.setDev d (skippedDevice s.m x sch)).openOn d = [] := ho
    have hopen := trigSkip_openOn hset (sch.crossed s.m.chainage)
    refine reaches_of_run (n := (s.m.setDev d (skippedDevice s.m x sch)).trigSkip d (sch.crossed s.m.chainage))
      (rfl : execLineTrigger d s = _) h ?_ fun m k => ⟨?_, fun i hi => ?_⟩
    · simp only [hx, hsch, hcrossed, hsoon, hnext, Bool.false_eq_true, if_false, if_true]
      rw [countTrigs_of_none hopen]
      exact .refl _
    · rw [k.device, trigSkip_dev, dev_setDev hy]
    · rw [k.device, trigSkip_dev, dev_setDev_ne _ hi]
  case unscheduled =>
    refine becomes_same (rfl : execLineTrigger d s = _) h ?_
    simp only [hsch]
  case down => exact Whole.becomes_of_runMem (rfl : execCameraLineRx d l s = _) h (if_pos hup) rfl h.2
  case answers =>
    have hne : ({ s.m.dev d with trigs := r } : Device) ≠ {} := by
      intro he
      have hoff := congrArg Device.state he
      rw [hup] at hoff
      cases hoff
    refine reaches_cameraLineRx h hd hup ho ht fun m k => ⟨?_, fun i hi => ?_, k.ctx⟩
    · rw [k.device, dev_setDev hne]
    · rw [k.device, dev_setDev_ne _ hi]
  case waits =>
    refine becomes_same (rfl : execFrameTimeout c s = _) h ?_
    simp only [hf, hlt]
    rfl
  case closes =>
    refine becomes_of_exec (rfl : execFrameTimeout c s = _) h ?_ (.closeFrame (.refl _) c .timeout)
    have hlate : ¬s.m.now < f.lastTick + 500 * f.gen.fld (Reg.CAM_C_TIMEOUT.us c) := Nat.not_lt.mpr hle
    have hall : (f.line && decide (f.crossed < f.gen.len c)) = false := by
      cases hl : f.line
      · rfl
      · simp [hline hl]
    simp only [hf, hlate, hall]
    rfl
  case refused =>
    refine becomes_of_exec (rfl : execGenCommit c s = _) h ?_ (.cam (.refl _) _)
    simp [hc, hbad]
  case copied =>
    have hne : ({ s.m.ctx c with result := 0, copying := some (s.m.staged c) } : Ctx) ≠ {} :=
      fun he => nomatch congrArg Ctx.copying he
    refine ⟨_, becomes_of_exec (rfl : execGenCommit c s = _) h ?_ (.cam (.refl _) _), ctx_setCtx hne,
      fun k hk => ctx_setCtx_ne _ hk⟩
    simp only [hc, hgood, Option.isSome_none, Bool.false_eq_true, if_false]
    rfl
  case nothing =>
    refine becomes_same (rfl : execGenCopyDone c s = _) h ?_
    simp only [hc]
  case busy =>
    refine becomes_same (rfl : execGenCommit c s = _) h (if_pos ?_)
    rw [hc]
    rfl
  case pending =>
    have hne : ({ s.m.ctx c with copying := none, pending := some g, pendingAt := s.m.chainage } : Ctx) ≠ {} :=
      fun he => nomatch congrArg Ctx.pending he
    refine ⟨_, becomes_of_exec (rfl : execGenCopyDone c s = _) h ?_ (.cam (.refl _) _),
      fun k hk => ctx_setCtx_ne _ hk, ctx_setCtx hne⟩
    simp only [hc]
    rfl
  case read =>
    refine becomes_of_exec (rfl : execCamTblDataAccess false v s = _) h rfl ?_
    exact .addWrap (.emit (.refl _) _) _ _
  case locked =>
    refine becomes_of_exec (rfl : execCamTblDataAccess true v s = _) h ?_ (.addWrap (.refl _) _ _)
    have hskip : ((s.m.ctx (s.m.fld Reg.CAM_TBL_SEL.context)).copying.isSome ||
        decide (camTableSize (s.m.fld Reg.CAM_TBL_SEL.table) ≤ s.m.fld Reg.CAM_TBL_IDX.idx)) = true := by
      rw [← hc, hcopy, Bool.true_or]
    simp only [hskip, Bool.not_true, Bool.false_eq_true, if_false, if_true]
  case staged =>
    refine becomes_of_exec (rfl : execCamTblDataAccess true v s = _) h ?_ (.addWrap (.cam (.refl _) _) _ _)
    have htake : ((s.m.ctx (s.m.fld Reg.CAM_TBL_SEL.context)).copying.isSome ||
        decide (camTableSize (s.m.fld Reg.CAM_TBL_SEL.table) ≤ s.m.fld Reg.CAM_TBL_IDX.idx)) = false := by
      rw [← hc, ← hi, hcopy, decide_eq_false (Nat.not_le.mpr hlt)]
      rfl
    simp only [htake, Bool.not_true, Bool.false_eq_true, if_false, hc, hi]
    split <;> rfl

end Sys2Proof.Cameras
end

section
/-! SUPPORT. What the safe levels of the stations, the axes, and the jobs and frames that end leave of the mode, the clock,
the chainage and the pairing. -/

namespace Sys2Proof.Course

open Sys2Proof Sys2Proof.Machine Sys2Proof.Laws Sys2Proof.Scope

/-- GLB, the Datum clock, the chainage and the pairing's state. -/
def course (m : Mach) : Glb × Chn × Dtm × PtnState := (m.glb, m.chn, m.dtm, m.ptn.state)

/-- A change leaves `course` as it was. -/
def Holds (a m : Mach) : Prop := course m = course a

namespace Holds

variable {a m : Mach}

theorem refl (m : Mach) : Holds m m := rfl

theorem glb (k : Holds a m) : m.glb = a.glb := congrArg (fun x => x.1) k

theorem chn (k : Holds a m) : m.chn = a.chn := congrArg (fun x => x.2.1) k

theorem dtm (k : Holds a m) : m.dtm = a.dtm := congrArg (fun x => x.2.2.1) k

theorem state (k : Holds a m) : m.ptn.state = a.ptn.state := congrArg (fun x => x.2.2.2) k

theorem trans {n : Mach} (k : Holds a m) (l : Holds m n) : Holds a n := Eq.trans l k

/-- Whatever else the module holds may change freely. -/
theorem same {n : Mach} (k : Holds a m) (h : course n = course m) : Holds a n := Eq.trans h k

/-- So may whatever a lemma of `Laws/Frames` leaves open beside these blocks. -/
theorem framed {n : Mach} (k : Holds a m) (h : n.glb = m.glb ∧ n.chn = m.chn ∧ n.dtm = m.dtm ∧ n.ptn = m.ptn) :
    Holds a n := by
  obtain ⟨hglb, hchn, hdtm, hptn⟩ := h
  exact k.same (by rw [course, course, hglb, hchn, hdtm, hptn])

theorem ite {c : Prop} [Decidable c] {n : Mach} (km : Holds a m) (kn : Holds a n) : Holds a (if c then m else n) := by
  split
  · exact km
  · exact kn

theorem foldl {α : Type} {f : Mach → α → Mach} (k : Holds a m) (l : List α) (h : ∀ m x, Holds a m → Holds a (f m x)) :
    Holds a (l.foldl f m) := List.foldlRecOn l f k fun m k x _ => h m x k

theorem forRange {f : Nat → Mach → Mach} (k : Holds a m) (n : Nat) (h : ∀ i m, Holds a m → Holds a (f i m)) :
    Holds a (Machine.forRange n f m) := k.foldl _ fun m i => h i m

/-! #### Registers, records and the other blocks -/

theorem wr (k : Holds a m) (off v : Nat) : Holds a (m.wr off v) := k.same (by rfl)

theorem setFld (k : Holds a m) (f : Fld) (v : Nat) : Holds a (m.setFld f v) := k.wr _ _

theorem addSat (k : Holds a m) (f : Fld) (n : Nat) : Holds a (m.addSat f n) := k.wr _ _

theorem addPair (k : Holds a m) (lo n : Nat) : Holds a (m.addPair lo n) := (k.wr _ _).wr _ _

theorem trv (k : Holds a m) (x : Trv) : Holds a { m with trv := x } := k.same (by rfl)

theorem vgp (k : Holds a m) (x : Vgp) : Holds a { m with vgp := x } := k.same (by rfl)

theorem cmp (k : Holds a m) (x : Cmp) : Holds a { m with cmp := x } := k.same (by rfl)

theorem cam (k : Holds a m) (x : Cam) : Holds a { m with cam := x } := k.same (by rfl)

theorem cls (k : Holds a m) (x : Cls) : Holds a { m with cls := x } := k.same (by rfl)

theorem fgd (k : Holds a m) (x : Fgd) : Holds a { m with fgd := x } := k.same (by rfl)

theorem hst (k : Holds a m) (x : Hst) : Holds a { m with hst := x } := k.same (by rfl)

theorem mot (k : Holds a m) (x : Mot) : Holds a { m with mot := x } := k.same (by rfl)

theorem emit (k : Holds a m) (o : Output) : Holds a (m.emit o) := k.framed (by simp)

theorem raise (k : Holds a m) (e : Ev) (sev : Sev) (a0 a1 : Nat) : Holds a (m.raise e sev a0 a1) := k.framed (by simp)

/-- What goes to the partner is staged and sent; the pairing's state stays. -/
theorem mirror (k : Holds a m) (c : Bool) (b : MirrorRec) : Holds a (m.mirror c b) := by
  have hsent (n : Mach) (k : Holds a n) (rs : List MirrorItem) : Holds a (n.sendMirror rs) := k.framed (by simp)
  exact .ite (hsent _ (k.same (by rfl)) _) k

theorem decide_ (k : Holds a m) (typ : Nat) (c : Chainage) (v w : Nat) : Holds a (m.decide_ typ c v w) := k.mirror _ _

theorem settle (k : Holds a m) : Holds a m.settle := k.framed (by simp)

/-! #### Station outputs and axes -/

theorem outputsSafe (k : Holds a m) : Holds a m.outputsSafe := k.forRange 16 fun _ _ k => k.framed (by simp)

theorem stnSafe (k : Holds a m) (why : Nat) : Holds a (m.stnSafe why) := k.outputsSafe.raise _ _ _ _

theorem setCoils (k : Holds a m) (i : Nat) (x : Axis) : Holds a (m.setCoils i x) := by
  unfold Mach.setCoils
  exact .ite (k.mot _) (.mot (.ite (k.emit _) k) _)

theorem axisTo (k : Holds a m) (i : Nat) (x : Axis) (reported : Bool) : Holds a (m.axisTo i x reported) := by
  have hdriven : Holds a (m.setCoils i x) := k.setCoils i x
  have hrecorded : Holds a ((m.setCoils i x).axisRecord i) := hdriven.decide_ _ _ _ _
  exact .ite hdriven (.ite (hrecorded.raise _ _ _ _) hrecorded)

theorem motOff (k : Holds a m) : Holds a m.motOff := k.forRange 12 fun i _ k => k.axisTo i _ true

theorem motHalt (k : Holds a m) : Holds a m.motHalt :=
  k.forRange 12 fun i _ k => .ite (k.axisTo i _ true) k

end Holds
end Sys2Proof.Course
end

section
/-! SUPPORT. The statement on the standby's step and the echoes (R415, R416, R424, R430). -/

namespace Sys2Proof.Partner

open Sys2Proof Sys2Proof.Machine Sys2Proof.Laws Sys2Proof.Scope Sys2Proof.Stations Sys2Proof.Datum
open Sys2Proof.Whole Sys2Proof.Memory Sys2Proof.Startup Sys2Proof.Course

/-- A command's effect, with DRAM and the fuses put back and head power judged. -/
theorem reaches_settled {c : Instr} {s : State} {f : Mach → Mach} {m : Mach} {p : Mach → Prop}
    (hx : exec c s = s.run f) (h : Runs s) (e : f s.m = m)
    (hp : p ({ m with dram := s.m.dram, otp := s.m.otp } : Mach).settle) : Reaches c s p := by
  subst e
  exact ⟨_, hx.trans (run_alive s f h.1), hp⟩

/-! ### States (R401, R432) -/

/-- A state without a record of R432. -/
theorem ptnTo_quiet {m : Mach} {st : PtnState} (h : st ≠ .foresight) :
    m.ptnTo st 0 = { m with ptn := { m.ptn with state := st } } := by
  simp [Mach.ptnTo, h]

/-- A state with its record. -/
theorem ptnTo_recorded {m : Mach} {st : PtnState} {cause : Nat} (h : st ≠ .foresight) (hc : cause ≠ 0) :
    ∃ evt regs, m.ptnTo st cause = { m with ptn := { m.ptn with state := st }, evt := evt, regs := regs } := by
  have hto : m.ptnTo st cause = ({ m with ptn := { m.ptn with state := st } } : Mach).raise Ev.ptnState
      (if cause = 2 ∨ cause = 3 then .info else .warning) (st.code + 16 * m.ptn.state.code) cause := by
    simp [Mach.ptnTo, h, hc]
  obtain ⟨evt, regs, hraised, -⟩ := raise_eq ({ m with ptn := { m.ptn with state := st } } : Mach) Ev.ptnState
    (if cause = 2 ∨ cause = 3 then .info else .warning) (st.code + 16 * m.ptn.state.code) cause
  exact ⟨evt, regs, hto.trans hraised⟩

/-- A standby out of step is SYNCING. -/
theorem outOfStep_eq (m : Mach) {cause : Nat} (hc : cause ≠ 0) : ∃ evt regs, m.outOfStep cause =
    { m with
      ptn := { m.ptn with state := .syncing, inStep := false, stepTick := none, badBeats := 0 }
      evt := evt, regs := regs } := by
  obtain ⟨evt, regs, hto⟩ := ptnTo_recorded (m := m) (st := .syncing) (by decide) hc
  exact ⟨evt, regs, by rw [Mach.outOfStep, hto]⟩

/-! ### The HEARTBEAT of the active module (R415) -/

/-- The registers, records and the pairing have changed alone, and the pairing's account of the partner is as it was. -/
def Heeds (a m : Mach) : Prop :=
  (∃ ptn evt regs, m = { a with ptn := ptn, evt := evt, regs := regs }) ∧ m.ptn.partner = a.ptn.partner ∧
    m.ptn.partnerStopped = a.ptn.partnerStopped ∧ m.ptn.first = a.ptn.first

namespace Heeds

variable {a m : Mach}

theorem refl (m : Mach) : Heeds m m := ⟨⟨_, _, _, rfl⟩, rfl, rfl, rfl⟩

theorem trans {n : Mach} (k : Heeds a m) (l : Heeds m n) : Heeds a n := by
  obtain ⟨⟨_, _, _, rfl⟩, hpartner, hstopped, hfirst⟩ := k
  obtain ⟨⟨_, _, _, rfl⟩, hpartner', hstopped', hfirst'⟩ := l
  exact ⟨⟨_, _, _, rfl⟩, hpartner'.trans hpartner, hstopped'.trans hstopped, hfirst'.trans hfirst⟩

theorem ite {c : Prop} [Decidable c] {n : Mach} (km : Heeds a m) (kn : Heeds a n) : Heeds a (if c then m else n) := by
  split
  · exact km
  · exact kn

theorem wr (k : Heeds a m) (off v : Nat) : Heeds a (m.wr off v) := k.trans ⟨⟨_, _, _, rfl⟩, rfl, rfl, rfl⟩

theorem setFld (k : Heeds a m) (f : Fld) (v : Nat) : Heeds a (m.setFld f v) := k.wr _ _

theorem ptn (k : Heeds a m) (p : Ptn) (hp : p.partner = m.ptn.partner) (hs : p.partnerStopped = m.ptn.partnerStopped)
    (hf : p.first = m.ptn.first) : Heeds a { m with ptn := p } := k.trans ⟨⟨_, _, _, rfl⟩, hp, hs, hf⟩

theorem ptnTo (k : Heeds a m) {st : PtnState} {cause : Nat} (h : st ≠ .foresight) (hc : cause ≠ 0) :
    Heeds a (m.ptnTo st cause) := by
  obtain ⟨evt, regs, hto⟩ := ptnTo_recorded (m := m) h hc
  rw [hto]
  exact k.trans ⟨⟨_, _, _, rfl⟩, rfl, rfl, rfl⟩

theorem outOfStep (k : Heeds a m) {cause : Nat} (hc : cause ≠ 0) : Heeds a (m.outOfStep cause) := by
  obtain ⟨evt, regs, hout⟩ := outOfStep_eq m hc
  rw [hout]
  exact k.trans ⟨⟨_, _, _, rfl⟩, rfl, rfl, rfl⟩

end Heeds

/-- What a HEARTBEAT does to the chainage of an armed standby: the deviation joins the slew, or on the first beat after
pairing the printed chainage. -/
def beatTaken (m : Mach) (d : Int) : Mach :=
  if m.ptn.first then
    { m with
      chn := { m.chn with printed := m.chn.printed + BitVec.ofInt 48 d }
      ptn := { m.ptn with first := false } }
  else { m with chn := { m.chn with slew := m.chn.slew + d } }

theorem standbyBeat_heeds {m : Mach} (b : Heartbeat) (h : m.chn.vote ≠ .disarmed) :
    Heeds (beatTaken m (m.chnDeviation b.chn)) (m.standbyBeat b) := by
  unfold Mach.standbyBeat
  extract_lets d noted armed _ _ taken synced behind _ kept shown lag ok stepped _ resting
  have htaken : Heeds (beatTaken m d) taken := by
    have harmed : ¬(!decide armed) = true := by simp [armed, noted, h]
    unfold taken beatTaken
    rw [if_neg harmed]
    cases hf : m.ptn.first
    · rw [if_neg (show ¬noted.ptn.first = true by rw [show noted.ptn = m.ptn from rfl, hf]; decide), if_neg (by decide)]
      exact ⟨⟨_, _, _, rfl⟩, rfl, rfl, rfl⟩
    · rw [if_pos (show noted.ptn.first = true from hf), if_pos rfl]
      exact ⟨⟨_, _, _, rfl⟩, rfl, rfl, rfl⟩
  have hkept : Heeds (beatTaken m d) kept := htaken.ptn _ rfl rfl rfl
  have hshown : Heeds (beatTaken m d) shown := hkept.setFld _ _
  have hstepped : Heeds (beatTaken m d) stepped := hshown.ptnTo (by decide) (by decide)
  exact .ite (.ite (hstepped.ptn _ rfl rfl rfl) hshown)
    (.ite (.ite (hshown.ptn _ rfl rfl rfl) (.ite (hshown.ptn _ rfl rfl rfl) (hshown.outOfStep (by decide)))) hshown)

/-- The standby once it has noted the HEARTBEAT's own fields. -/
def heard (m : Mach) (b : Heartbeat) : Mach :=
  { m with ptn := { m.ptn with partner := b.state, beatTick := m.now, partnerStopped := b.stopped } }

theorem heartbeat_of_follows {s : State} {b : Heartbeat} {m : Mach} {p : Mach → Prop} (h : Runs s)
    (hf : s.m.follows = true) (hc : s.m.ptn.commitHold = false) (hs : s.m.ptn.state ≠ .claiming)
    (hm : (heard s.m b).standbyBeat b = m) (k : Keeps s.m m) (hp : p m) : Reaches (.partnerHeartbeatRx b) s p := by
  have hpaired : s.m.ptn.paired = true := by
    rw [Mach.follows, Bool.and_eq_true] at hf
    exact hf.1
  refine ⟨m, becomes_of_exec (rfl : execPartnerHeartbeatRx b s = _) h ?_ k, hp⟩
  have hheard : ¬(!s.m.ptn.paired || s.m.ptn.commitHold || s.m.ptn.state = .claiming) = true := by
    simp [hpaired, hc, hs]
  exact (if_neg hheard).trans ((if_pos hf).trans hm)

/-! ### The active module hands over (R423) -/

/-- Of PTN the claim number alone, the lanes and hubs, and what has left the module. -/
def Links (a m : Mach) : Prop :=
  ∃ claim skx out, m = { a with ptn := { a.ptn with claim := claim }, skx := skx, out := out }

namespace Links

variable {a m : Mach}

theorem refl (m : Mach) : Links m m := ⟨_, _, _, rfl⟩

theorem trans {n : Mach} (k : Links a m) (l : Links m n) : Links a n := by
  obtain ⟨_, _, _, rfl⟩ := k
  obtain ⟨_, _, _, rfl⟩ := l
  exact ⟨_, _, _, rfl⟩

theorem ite {c : Prop} [Decidable c] {n : Mach} (km : Links a m) (kn : Links a n) : Links a (if c then m else n) := by
  split
  · exact km
  · exact kn

theorem foldl {α : Type} {f : Mach → α → Mach} (k : Links a m) (l : List α) (h : ∀ m x, Links a m → Links a (f m x)) :
    Links a (l.foldl f m) := List.foldlRecOn l f k fun m k x _ => h m x k

theorem setHub (k : Links a m) (n : Nat) (x : Hub) : Links a (m.setHub n x) := k.trans ⟨_, _, _, rfl⟩

theorem setLane (k : Links a m) (n : Nat) (x : Lane) : Links a (m.setLane n x) := k.trans ⟨_, _, _, rfl⟩

theorem claim (k : Links a m) (c : Nat) : Links a { m with ptn := { m.ptn with claim := c } } := k.trans ⟨_, _, _, rfl⟩

theorem sendC (k : Links a m) (lane typ : Nat) (d : List Byte) : Links a (m.sendC lane typ d) :=
  .ite k (k.trans ⟨_, _, _, rfl⟩)

theorem laneBeat (k : Links a m) (n : Nat) : Links a (m.laneBeat n) := (k.sendC _ _ _).setLane _ _

end Links

/-- Claims go out hub by hub (R403). -/
theorem claimHubs_links (m : Mach) (hubs : List Nat) : Links m (m.claimHubs hubs) := by
  unfold Mach.claimHubs
  refine (Links.refl m).foldl hubs fun m hub k => ?_
  extract_lets n lane _ numbered _ claimed
  have hclaimed : Links _ claimed := (k.claim n).setHub _ _
  exact .ite (hclaimed.sendC _ _ _) hclaimed

/-- The hubs held are released one by one, and the majority is told anew (R404). -/
theorem releaseHubs_eq (m : Mach) : ∃ ptn skx out, m.releaseHubs = { m with ptn := ptn, skx := skx, out := out } := by
  have hreleased : Links m (m.hubsHeld.foldl (fun (m : Mach) h =>
      (if m.laneDriven (m.timingLane h) then
        (m.laneBeat (m.timingLane h)).sendC (m.timingLane h) 0x21 (leBytes 4 m.ptn.claim) else m).setHub h
          { (if m.laneDriven (m.timingLane h) then
            (m.laneBeat (m.timingLane h)).sendC (m.timingLane h) 0x21 (leBytes 4 m.ptn.claim) else m).hub h with
              held := false }) m) :=
    (Links.refl m).foldl _ fun m h k => .setHub (.ite ((k.laneBeat _).sendC _ _ _) k) _ _
  obtain ⟨claim, skx, out, hm⟩ := hreleased
  exact ⟨_, skx, out, congrArg Mach.tallyHubs hm⟩

/-- A module that stands by is in BACKSIGHT, with the clock and the pairing's state as they were. -/
theorem toStandby_backsight (m : Mach) : m.toStandby.glb.mode = .backsight ∧ m.toStandby.dtm = m.dtm ∧
    m.toStandby.ptn.state = m.ptn.state := by
  unfold Mach.toStandby
  split
  · next h => exact ⟨of_decide_eq_true h, rfl, rfl⟩
  · next h =>
    have hrest : Holds m (m.stnSafe 2).motOff := ((Holds.refl m).stnSafe 2).motOff
    have hmode : (m.stnSafe 2).motOff.glb.mode ≠ .backsight := by
      rw [hrest.glb]
      exact fun he => h (decide_eq_true he)
    generalize (m.stnSafe 2).motOff = rest at hrest hmode
    have k := modeTo_aside hmode 3
    exact ⟨congrArg Glb.mode k.glb, k.dtm.trans hrest.dtm, (congrArg Ptn.state k.ptn).trans hrest.state⟩

/-- The module as it hands over, before it stands by. -/
def handsOver (m : Mach) : Mach := ((m.sendControl 4 0 0).releaseHubs.sendControl 7 0 0).ptnTo .syncing 5

theorem handsOver_syncing (m : Mach) : (handsOver m).ptn.state = .syncing ∧ (handsOver m).dtm = m.dtm := by
  have hcontrol (m : Mach) (op : Nat) : (m.sendControl op 0 0).dtm = m.dtm := by simp [Mach.sendControl]
  have hreleased : (m.sendControl 4 0 0).releaseHubs.dtm = m.dtm := by
    obtain ⟨ptn, skx, out, hm⟩ := releaseHubs_eq (m.sendControl 4 0 0)
    rw [hm]
    exact hcontrol m 4
  obtain ⟨evt, regs, hto⟩ := ptnTo_recorded (m := (m.sendControl 4 0 0).releaseHubs.sendControl 7 0 0) (st := .syncing)
    (cause := 5) (by decide) (by decide)
  rw [handsOver, hto]
  exact ⟨rfl, (hcontrol _ 7).trans hreleased⟩

theorem handOver_eq (m : Mach) : m.handOver = { (handsOver m).toStandby with ptn := { (handsOver m).toStandby.ptn with
    held := [], staging := [], stagedAt := [], inStep := false, resync := true, monument := none, first := true } } := by
  simp only [Mach.handOver, handsOver]

theorem handOver_standby (m : Mach) : m.handOver.ptn.state = .syncing ∧ m.handOver.glb.mode = .backsight ∧
    m.handOver.ptn.staging = [] ∧ m.handOver.dtm = m.dtm := by
  obtain ⟨hmode, hdtm, hstate⟩ := toStandby_backsight (handsOver m)
  obtain ⟨hsyncing, hclock⟩ := handsOver_syncing m
  rw [handOver_eq]
  exact ⟨hstate.trans hsyncing, hmode, rfl, hdtm.trans hclock⟩

/-- Settles O40: a HEARTBEAT by `standbyBeat_heeds`, an agreed alarm by `handOver_standby`, the rest by one branch each. -/
theorem theStandbyKeepsStep : Obligations.TheStandbyKeepsStep := by
  refine ⟨fun s b h hf hc hs hv hfirst => ?slews, fun s b h hf hc hs hv hfirst => ?steps, fun s h hs => ?resyncs,
    fun s h hs hw => ?differs, fun s h hlt => ?early, fun s h hl hle => ?quiet, fun s h hl hs hle => ?alarm,
    fun s h hs hl => ?disagrees, fun s h hs hl => ?agrees, fun s h hle => ?phase⟩
  case slews =>
    obtain ⟨⟨ptn, evt, regs, hm⟩, hpartner, hstopped, -⟩ := standbyBeat_heeds (m := heard s.m b) b hv
    rw [hm] at hpartner hstopped
    have htaken : beatTaken (heard s.m b) (s.m.chnDeviation b.chn) =
        { heard s.m b with chn := { s.m.chn with slew := s.m.chn.slew + s.m.chnDeviation b.chn } } :=
      if_neg (by rw [show (heard s.m b).ptn.first = s.m.ptn.first from rfl, hfirst]; decide)
    have hdev : (heard s.m b).chnDeviation b.chn = s.m.chnDeviation b.chn := rfl
    rw [hdev, htaken] at hm hpartner hstopped
    exact heartbeat_of_follows h hf hc (by rw [hs]; decide) hm ⟨rfl, rfl, id⟩ ⟨rfl, hpartner, hstopped, rfl⟩
  case steps =>
    obtain ⟨⟨ptn, evt, regs, hm⟩, hpartner, -, hzero⟩ := standbyBeat_heeds (m := heard s.m b) b hv
    rw [hm] at hpartner hzero
    have htaken : beatTaken (heard s.m b) (s.m.chnDeviation b.chn) = { heard s.m b with
        chn := { s.m.chn with printed := s.m.chn.printed + BitVec.ofInt 48 (s.m.chnDeviation b.chn) }
        ptn := { (heard s.m b).ptn with first := false } } := if_pos hfirst
    have hdev : (heard s.m b).chnDeviation b.chn = s.m.chnDeviation b.chn := rfl
    rw [hdev, htaken] at hm hpartner hzero
    exact heartbeat_of_follows h hf hc (by rw [hs]; decide) hm ⟨rfl, rfl, id⟩ ⟨rfl, hzero, hpartner⟩
  case resyncs =>
    refine becomes_of_exec (rfl : execResync s = _) h ?_ ?_
    · simp only [hs, decide_true, Bool.or_true, if_true]
      rw [ptnTo_quiet (by decide)]
    · have k : Keeps s.m (({ s.m with ptn := { s.m.ptn with
        state := .syncing, inStep := false, stepTick := none, resync := true, monument := none, monParts := none } } : Mach).setFld
          Reg.PTN_SYNC.pct 0) := (Keeps.ptn (.refl _) _).setFld _ _
      exact k.framed (by simp)
  case differs =>
    obtain ⟨evt, regs, hout⟩ := outOfStep_eq { s.m with ptn := { s.m.ptn with echoWait := false } } (cause := 6) (by decide)
    have hwaits : ¬(s.m.ptn.state ≠ .backsight || !s.m.ptn.echoWait) = true := by simp [hs, hw]
    exact ⟨_, becomes_of_exec (rfl : execAlarmReplyRx 0 s = _) h ((if_neg hwaits).trans ((if_pos rfl).trans hout))
      ⟨rfl, rfl, id⟩, rfl, rfl⟩
  case early => exact becomes_same (rfl : execEchoWindow s = _) h (onBeat_of_early hlt _)
  case quiet =>
    refine becomes_of_exec (rfl : execEchoWindow s = _) h ((onBeat_of_due hle _).trans ?_) ⟨rfl, rfl, id⟩
    have hlack : (s.m.beaten .echoes).echoesLacking = false := hl
    simp only [hlack, Bool.false_and, Bool.false_eq_true, if_false]
    rfl
  case alarm =>
    have k : Keeps s.m { s.m.beaten .echoes with
        ptn := { s.m.ptn with lackEcho := true, echoSeen := [], echoWait := true } } := ⟨rfl, rfl, id⟩
    refine becomes_of_exec (rfl : execEchoWindow s = _) h ((onBeat_of_due hle _).trans ?_)
      (k.framed (by simp [Mach.sendControl]))
    have hlack : (s.m.beaten .echoes).echoesLacking = true := hl
    have hstate : (s.m.beaten .echoes).ptn.state = .backsight := hs
    simp only [hlack, Bool.true_and]
    exact if_pos (decide_eq_true hstate)
  case disagrees =>
    refine becomes_of_exec (rfl : execEchoAlarmRx s = _) h ?_ (Keeps.framed (.refl _) (by simp [Mach.sendControl]))
    simp only [hs, hl, ne_eq, not_true, if_false, Bool.false_eq_true, ofBool]
  case agrees =>
    obtain ⟨hstate, hmode, hstaging, hdtm⟩ := handOver_standby (s.m.sendControl 6 0 1)
    refine reaches_settled (rfl : execEchoAlarmRx s = _) h ?_ ?_ (m := (s.m.sendControl 6 0 1).handOver)
    · simp only [hs, hl, ne_eq, not_true, if_false, if_true, ofBool]
    · have hclock : (s.m.sendControl 6 0 1).dtm = s.m.dtm := by simp [Mach.sendControl]
      generalize (s.m.sendControl 6 0 1).handOver = n at hstate hmode hstaging hdtm
      rw [settle_ptn, settle_glb, settle_dtm]
      exact ⟨hstate, hmode, hstaging, hdtm.trans hclock⟩
  case phase =>
    exact becomes_of_exec (rfl : execProofPhaseAdvance s = _) h (onBeat_of_due hle _) ⟨rfl, rfl, id⟩

end Sys2Proof.Partner
end

section
/-! SUPPORT. The statement on the loss of the partner (R403, R409, R418, R419, R421). -/

namespace Sys2Proof.Partner

open Sys2Proof Sys2Proof.Machine Sys2Proof.Laws Sys2Proof.Scope Sys2Proof.Stations Sys2Proof.Datum
open Sys2Proof.Whole Sys2Proof.Memory Sys2Proof.Startup Sys2Proof.Course

/-! ### The loss (R409, R418, R419) -/

/-- A paired module whose commits do not wait notes the loss, and acts by its state. -/
theorem partnerGone_eq {m : Mach} (hp : m.ptn.paired = true) (hc : m.ptn.commitHold = false)
    (hs : m.ptn.state ≠ .claiming) (hr : m.ptn.state ≠ .reverting) (lane : Bool) : ∃ evt regs,
      evt.seq = m.evt.seq + 1 ∧ m.partnerGone lane =
        let n : Mach := { m with evt := evt, regs := regs }
        match m.ptn.state with
        | .foresight =>
          if m.ptn.state = .foresight && m.ptn.partner = PtnState.backsight.code then
            { n with ptn := { m.ptn with commitHold := true, holdTick := m.now } }
          else n.goSolo
        | .backsight => n.startClaiming m.now
        | .syncing => { n.ptnTo .detached 0 with
            ptn := { (n.ptnTo .detached 0).ptn with stale := true, paired := false, inStep := false } }
        | _ => n := by
  have hguard : (!m.ptn.paired || m.ptn.commitHold || m.ptn.state = .claiming) = false := by simp [hp, hc, hs]
  obtain ⟨evt, regs, hraised, hseq⟩ := raise_eq m Ev.partnerLinkLost .warning
    (ofBool (!lane) + 2 * ofBool lane + 4 * ofBool (m.ptn.state = .foresight && m.ptn.partner = PtnState.backsight.code))
    (if m.isBacksight then m.ptn.applied else m.ptn.acked).toNat
  refine ⟨evt, regs, hseq, ?_⟩
  unfold Mach.partnerGone
  simp only [hguard, hr, Bool.false_eq_true, if_false]
  rw [hraised]
  rfl

/-- An active module of a pair that mirrors holds its commits. -/
theorem partnerGone_active {m : Mach} (hp : m.ptn.paired = true) (hc : m.ptn.commitHold = false)
    (hs : m.ptn.state = .foresight) (hb : m.ptn.partner = PtnState.backsight.code) (lane : Bool) : ∃ evt regs,
      evt.seq = m.evt.seq + 1 ∧ m.partnerGone lane =
        { m with ptn := { m.ptn with commitHold := true, holdTick := m.now }, evt := evt, regs := regs } := by
  obtain ⟨evt, regs, hseq, hgone⟩ := partnerGone_eq hp hc (by rw [hs]; decide) (by rw [hs]; decide) lane
  refine ⟨evt, regs, hseq, hgone.trans ?_⟩
  simp only [hs, hb, decide_true, Bool.and_true, if_true]

/-- A SYNCING standby is DETACHED and stale. -/
theorem partnerGone_syncing {m : Mach} (hp : m.ptn.paired = true) (hc : m.ptn.commitHold = false)
    (hs : m.ptn.state = .syncing) (lane : Bool) : ∃ evt regs, m.partnerGone lane =
      { m with
        ptn := { m.ptn with state := .detached, stale := true, paired := false, inStep := false }
        evt := evt, regs := regs } := by
  obtain ⟨evt, regs, -, hgone⟩ := partnerGone_eq hp hc (by rw [hs]; decide) (by rw [hs]; decide) lane
  refine ⟨evt, regs, hgone.trans ?_⟩
  simp only [hs]
  rw [ptnTo_quiet (by decide)]

/-- A module that has lost its partner, before its claims go out. -/
def bereft (m : Mach) (loss : Nat) : Mach := { m with ptn := { m.ptn with
  state := .claiming, lossTick := some loss, restored := false, inStep := false, stepTick := none } }

theorem startClaiming_eq (m : Mach) (loss : Nat) : m.startClaiming loss =
    (if (bereft m loss).hst.stopped || !(bereft m loss).isBacksight then bereft m loss
      else ((bereft m loss).beaten .claim).claimHubs (bereft m loss).hubsOpen).parkUpdate := by
  rw [Mach.startClaiming, ptnTo_quiet (by decide)]
  rfl

/-- A standby in step claims the hubs (R419). -/
theorem startClaiming_aside (m : Mach) (loss : Nat) : ∃ ptn beats,
    Aside { m with ptn := ptn, glb := { m.glb with beats := beats } } (m.startClaiming loss) ∧
      ptn.state = .claiming ∧ ptn.lossTick = some loss ∧ ptn.restored = false := by
  obtain ⟨claim, skx, out, hclaimed⟩ := claimHubs_links ((bereft m loss).beaten .claim) (bereft m loss).hubsOpen
  rw [startClaiming_eq]
  split
  · exact ⟨_, m.glb.beats, (Aside.refl (bereft m loss)).parkUpdate, rfl, rfl, rfl⟩
  · rw [hclaimed]
    exact ⟨{ (bereft m loss).ptn with claim := claim }, ((bereft m loss).beaten .claim).glb.beats,
      Aside.parkUpdate rfl, rfl, rfl, rfl⟩

theorem partnerGone_backsight {m : Mach} (hp : m.ptn.paired = true) (hc : m.ptn.commitHold = false)
    (hs : m.ptn.state = .backsight) (lane : Bool) : ∃ ptn beats,
      Aside { m with ptn := ptn, glb := { m.glb with beats := beats } } (m.partnerGone lane) ∧
        ptn.state = .claiming ∧ ptn.lossTick = some m.now ∧ ptn.restored = false := by
  obtain ⟨evt, regs, -, hgone⟩ := partnerGone_eq hp hc (by rw [hs]; decide) (by rw [hs]; decide) lane
  rw [hgone]
  simp only [hs]
  obtain ⟨ptn, beats, k, hclaiming⟩ := startClaiming_aside { m with evt := evt, regs := regs } m.now
  exact ⟨ptn, beats, k, hclaiming⟩

/-! ### Times -/

theorem passed_of_due {m : Mach} {t d : Nat} (h : t + d ≤ m.now) : m.passed t d = true := decide_eq_true h

theorem passed_of_early {m : Mach} {t d : Nat} (h : m.now < t + d) : m.passed t d = false :=
  decide_eq_false (Nat.not_le.mpr h)

/-- 500 µs in DTM ticks. -/
theorem beatLimit : 500 * ticksUs = 250000 := rfl

theorem partnerLost_of_due {m : Mach} (h : m.ptn.beatTick + 250000 ≤ m.now) :
    (if m.passed m.ptn.beatTick (500 * ticksUs) then m.partnerGone false else m) = m.partnerGone false := by
  rw [beatLimit]
  exact if_pos (passed_of_due h)

theorem partnerLost_of_early {m : Mach} (h : m.now < m.ptn.beatTick + 250000) :
    (if m.passed m.ptn.beatTick (500 * ticksUs) then m.partnerGone false else m) = m := by
  rw [beatLimit]
  exact if_neg (by rw [passed_of_early h]; decide)


theorem window_early {m : Mach} {t : Nat} (ht : m.ptn.lossTick = some t) (h : m.now < t + 2500000) :
    m.ptn.lossTick.any (fun t => !m.passed t 2500000) = true := by
  rw [ht, Option.any_some, passed_of_early h]
  rfl

theorem window_due {m : Mach} (h : ∀ t, m.ptn.lossTick = some t → t + 2500000 ≤ m.now) :
    m.ptn.lossTick.any (fun t => !m.passed t 2500000) = false := by
  rcases ht : m.ptn.lossTick with _ | t
  · rfl
  · rw [Option.any_some, passed_of_due (h t ht)]
    rfl

/-! ### A Farsil lane (R327, R409) -/

/-- A Farsil lane that trains awaits lock. -/
theorem startTraining_farsil (m : Mach) {n : Nat} (full : Bool) (rate : Nat) (hn : 40 ≤ n) : ∃ x regs,
    x.state = LaneState.lock ∧ m.startTraining n full rate = { m.setLane n x with regs := regs } := by
  rw [Mach.startTraining, show m.dropCaps n = m from if_pos hn]
  dsimp only
  split <;> exact ⟨_, _, rfl, if_pos hn⟩

/-- A Farsil lane that loses lock awaits it again, and PTN_L_STATUS counts it. -/
theorem loseLock_farsil {m : Mach} {n : Nat} (cause : Nat) (hn : 40 ≤ n) (hup : m.laneUp n = true) : ∃ x regs,
    x.state = LaneState.lock ∧ m.loseLock n cause = { m.setLane n x with regs := regs } := by
  have hstate : (m.lane n).state = .up := of_decide_eq_true hup
  obtain ⟨x, regs, hx, htrained⟩ := startTraining_farsil m false (m.lane n).rate hn
  have hlost : m.loseLock n cause =
      (m.startTraining n false (m.lane n).rate).addSat (Reg.PTN_L_STATUS.loss (n - 40)) 1 := by
    rw [Mach.loseLock, hstate]
    exact if_pos hn
  rw [hlost, htrained]
  exact ⟨x, _, hx, rfl⟩

theorem lane_setLane (m : Mach) (n : Nat) {x : Lane} (hx : x.state = .lock) : (m.setLane n x).lane n = x :=
  (get_set_of_ne_default _ _ _ _ fun h => LaneState.noConfusion (hx.symm.trans (congrArg Lane.state h))).trans (if_pos rfl)

/-! ### Claims (R403, R404, R419) -/

/-- A module that has released its hubs, without its partner, is DETACHED. -/
theorem detached_eq (m : Mach) : ∃ ptn skx out evt regs,
    m.releaseHubs.ptnTo .detached 7 = { m with ptn := ptn, skx := skx, out := out, evt := evt, regs := regs } ∧
      ptn.state = .detached := by
  obtain ⟨ptn, skx, out, hreleased⟩ := releaseHubs_eq m
  obtain ⟨evt, regs, hto⟩ := ptnTo_recorded (m := m.releaseHubs) (st := .detached) (cause := 7) (by decide) (by decide)
  rw [hto, hreleased]
  exact ⟨_, _, _, _, _, rfl, rfl⟩

/-- The claim round of a SOLO module is due 1 ms after the last. -/
theorem claimRound_due {m : Mach} (hs : m.ptn.state = .solo) (h : m.lastBeat .claim + 500000 ≤ m.now) :
    m.lastBeat .claim + (if m.ptn.state = .claiming then 200 * ticksUs else 1000 * ticksUs) ≤ m.now := by
  rw [hs, if_neg (by decide), show 1000 * ticksUs = 500000 from rfl]
  exact h

/-! ### GRANTs (R331, R402) -/

/-- A SOLO module that hears of a hub counts the majority again. -/
theorem judgeMajority_of_solo {m : Mach} (h : m.ptn.state = .solo) : m.judgeMajority = m.tallyHubs := by
  have hstate : m.tallyHubs.ptn.state = .solo := h
  unfold Mach.judgeMajority
  dsimp only
  split
  · rfl
  · rw [if_neg (by simp [hstate]), if_neg (by simp [hstate])]

/-- Settles O41: each case is what `partnerGone` does in one state of the pairing, or one branch of the command. -/
theorem aLostPartnerIsReplaced : Obligations.ALostPartnerIsReplaced := by
  refine ⟨fun s h hp hc hs hb hm hle => ?holds, fun s h hlt => ?beating, fun s n cause h hn hup hp hc hs hb => ?lane,
    fun s h hlt => ?waits, fun s h hc hheld hle => ?alone, fun s h hp hc hs hle => ?claims,
    fun s h hp hc hs hle => ?detached, fun s t h ht hlt => ?window, fun s h hs ht => ?ends,
    fun s hub g h hg => ?discarded, fun s hub g h hg hs => ?granted, fun s h hm hs hmay hle => ?round,
    fun s h hr hs => ?restored⟩
  case holds =>
    obtain ⟨evt, regs, hseq, hgone⟩ := partnerGone_active hp hc hs hb false
    exact ⟨_, becomes_of_exec (rfl : execPartnerLost none s = _) h ((partnerLost_of_due hle).trans hgone)
      ⟨rfl, rfl, id⟩, rfl, hseq, rfl⟩
  case beating =>
    exact becomes_same (rfl : execPartnerLost none s = _) h (partnerLost_of_early hlt)
  case lane =>
    have hfarsil : 40 ≤ n := by omega
    obtain ⟨x, regs, hx, hlost⟩ := loseLock_farsil cause hfarsil hup
    have hpartner : (s.m.loseLane n cause) = (s.m.loseLock n cause).partnerGone true := if_pos (by simp [hfarsil, hup])
    rw [hlost] at hpartner
    obtain ⟨evt, regs', hseq, hgone⟩ :=
      partnerGone_active (m := { s.m.setLane n x with regs := regs }) hp hc hs hb true
    exact ⟨_, becomes_of_exec (rfl : execLaneLockLost n cause s = _) h (hpartner.trans hgone) ⟨rfl, rfl, id⟩, rfl,
      (congrArg Lane.state (lane_setLane s.m n hx)).trans hx, hseq, rfl⟩
  case waits =>
    refine becomes_same (rfl : execCommitHoldExpiry s = _) h (if_neg ?_)
    rw [passed_of_early hlt, Bool.and_false]
    decide
  case alone =>
    refine becomes_of_exec (rfl : execCommitHoldExpiry s = _) h ((if_pos ?_).trans ?_) ⟨rfl, rfl, id⟩
    · rw [passed_of_due hle, hc, Bool.and_self]
    · rw [Mach.goSolo, ptnTo_quiet (by decide), Mach.releaseHeld]
      simp only [hheld]
      rfl
  case claims =>
    obtain ⟨ptn, beats, k, hstate, hloss, hrestored⟩ := partnerGone_backsight hp hc hs false
    refine reaches_settled (rfl : execPartnerLost none s = _) h (partnerLost_of_due hle) ?_
    rw [settle_ptn, settle_glb, settle_dtm, settle_chn]
    generalize s.m.partnerGone false = n at k
    exact ⟨(congrArg Ptn.state k.ptn).trans hstate, (congrArg Ptn.lossTick k.ptn).trans hloss,
      (congrArg Ptn.restored k.ptn).trans hrestored, k.chn, k.dtm, by rw [show n.glb = _ from k.glb]⟩
  case detached =>
    obtain ⟨evt, regs, hgone⟩ := partnerGone_syncing hp hc hs false
    exact ⟨_, becomes_of_exec (rfl : execPartnerLost none s = _) h ((partnerLost_of_due hle).trans hgone)
      ⟨rfl, rfl, id⟩, rfl, rfl⟩
  case window =>
    refine becomes_same (rfl : execClaimWindowExpiry s = _) h (if_pos ?_)
    rw [window_early ht hlt, Bool.or_true]
  case ends =>
    obtain ⟨ptn, skx, out, evt, regs, hdetached, hstate⟩ := detached_eq s.m
    refine reaches_settled (rfl : execClaimWindowExpiry s = _) h (if_neg ?_) ?_
    · rw [window_due ht, hs]
      decide
    · rw [hdetached, settle_ptn, settle_dtm, settle_chn]
      have k := Aside.parkUpdate (Aside.refl ({ s.m with
        ptn := { ptn with stale := true, paired := false, lossTick := none, restored := true, handover := false }
        skx := skx, out := out, evt := evt, regs := regs } : Mach))
      generalize Mach.parkUpdate _ = n at k
      exact ⟨(congrArg Ptn.state k.ptn).trans hstate, congrArg Ptn.stale k.ptn, congrArg Ptn.paired k.ptn, k.chn, k.dtm⟩
  case discarded =>
    refine becomes_of_exec (rfl : execGrantRx hub g s = _) h (if_pos hg) ?_
    exact .ite (.addSat (.refl _) _ _) (.refl _)
  case granted =>
    refine ⟨_, becomes_of_exec (rfl : execGrantRx hub g s = _) h ((if_neg ?_).trans (judgeMajority_of_solo hs))
      ⟨rfl, rfl, id⟩, ?_, fun k hk => get_set_ne _ _ _ _ _ hk.symm, rfl, rfl⟩
    · rw [hg]
      decide
    · refine (get_set_of_ne_default _ _ _ _ fun he => Bool.noConfusion (congrArg Hub.seen he)).trans
        ((if_pos rfl).trans ?_)
      have hunasked : (!(decide (g.result = 0) || decide (g.result = 2))) =
          decide (g.result ≠ 0 ∧ g.result ≠ 2) := by simp
      rw [hunasked]
  case round =>
    have hboot : ¬ s.m.inMode .boot = true := by simp [Mach.inMode, hm]
    have hactive : ¬ (s.m.beaten .claim).isBacksight = true := by simp [Mach.isBacksight, Mach.beaten, hm]
    obtain ⟨claim, skx, out, hclaimed⟩ :=
      claimHubs_links (s.m.beaten .claim) (s.m.hubsOpen.filter s.m.hubFree)
    refine ⟨_, becomes_of_exec (rfl : execClaimRound s = _) h ((if_neg hboot).trans
      ((onBeat_of_due (claimRound_due hs hle) _).trans ((if_neg hactive).trans ((if_pos ?_).trans hclaimed))))
      ⟨rfl, rfl, id⟩, rfl, fun hnone => ?_⟩
    · rw [show (s.m.beaten .claim).ptn.state = .solo from hs]
      exact hmay
    · rw [← hclaimed, hnone]
      rfl
  case restored =>
    refine becomes_of_exec (rfl : execStateRestored s = _) h ?_ ⟨rfl, rfl, id⟩
    simp only [hr, hs, Bool.false_eq_true, if_false, if_true]

end Sys2Proof.Partner
end

section
/-! SUPPORT. Jobs that end and frames that close leave the mode, the clock, the chainage and the pairing's state alone. -/

namespace Sys2Proof.Course.Holds

open Sys2Proof Sys2Proof.Machine Sys2Proof.Laws Sys2Proof.Scope

variable {a m : Mach}

/-! ### The Traverse -/

theorem setEngine (k : Holds a m) (e : Nat) (g : Engine) : Holds a (m.setEngine e g) := k.trv _

theorem ceilingShown (k : Holds a m) : Holds a m.ceilingShown := (k.setFld _ _).setFld _ _

theorem updateCeiling (k : Holds a m) : Holds a m.updateCeiling := by
  unfold Mach.updateCeiling
  extract_lets c e lower shown _ counted
  have hshown : Holds a shown := (k.setFld _ _).setFld _ _
  clear_value shown
  have hcounted : Holds a counted := hshown.trv _
  clear_value counted
  exact .ite k.ceilingShown (.ite (k.setFld _ _) (hcounted.raise _ _ _ _))

theorem stallEnds (k : Holds a m) (e : Nat) : Holds a (m.stallEnds e) :=
  .ite ((k.addPair _ _).setEngine _ _) k

theorem abandon (k : Holds a m) (p : Nat → Bool) : Holds a (m.abandon p) := by
  unfold Mach.abandon
  refine k.foldl _ fun m e k => ?_
  extract_lets stalled g g'
  have hstalled : Holds a stalled := .ite (k.stallEnds e) k
  clear_value stalled
  split
  · exact .ite ((hstalled.setEngine _ _).addSat _ _) (hstalled.setEngine _ _)
  · exact hstalled.setEngine _ _

theorem discardSwaths (k : Holds a m) (p : Nat → Bool) : Holds a (m.discardSwaths p) := (k.abandon p).trv _

/-! ### Jobs that end -/

theorem setJob (k : Holds a m) (j : Nat) (x : Job) : Holds a (m.setJob j x) := k.vgp _

theorem cplQueue (k : Holds a m) (t : Nat) (c : Cpl) : Holds a (m.cplQueue t c) := k.framed (by simp)

theorem complete (k : Holds a m) (h : DescRef) (c : Cpl) : Holds a (m.complete h c) := k.framed (by simp)

theorem jobState (k : Holds a m) (j : Nat) (st : JobState) : Holds a (m.jobState j st) := by
  unfold Mach.jobState
  extract_lets x raised
  have hraised : Holds a raised := (k.setJob _ _).raise _ _ _ _
  clear_value raised
  exact (hraised.mirror _ _).updateCeiling

theorem storeCheck (k : Holds a m) : Holds a m.storeCheck :=
  .ite (.ite (k.vgp _) k) (.ite ((k.vgp _).raise _ _ _ _) k)

theorem freeJob (k : Holds a m) (j : Nat) : Holds a (m.freeJob j) := ((k.jobState j .free).vgp _).storeCheck

theorem countBlank (k : Holds a m) (hub cause n : Nat) : Holds a (m.countBlank hub cause n) :=
  .ite k (((k.addSat _ _).addPair _ _).cls _)

theorem cutJob (k : Holds a m) (j cause : Nat) : Holds a (m.cutJob j cause).1 := by
  unfold Mach.cutJob
  extract_lets x c count counted r discarded
  have hcount (m : Mach) (h : Nat) (k : Holds a m) : Holds a (count m h) :=
    .countBlank (k.foldl _ fun m e k => .ite k (k.countBlank _ _ _)) _ _ _
  have hcounted : Holds a counted := .ite (k.foldl _ hcount) k
  have hdiscarded : Holds a discarded := hcounted.discardSwaths _
  clear_value discarded
  exact hdiscarded.fgd _

theorem keepPast (k : Holds a m) (j : Nat) : Holds a (m.keepPast j) := .ite k (k.same (by rfl))

theorem endJob (k : Holds a m) (j : Nat) (st : Status) (c : Chainage) (value : Nat) :
    Holds a (m.endJob j st c value) := by
  unfold Mach.endJob
  extract_lets x past cpl queued owed _ closed cleared _ freed stored _
  have hqueued : Holds a queued := (k.keepPast j).cplQueue _ _
  clear_value queued
  have howed : Holds a owed := (hqueued.vgp _).fgd _
  have hcleared : Holds a cleared := ((howed.vgp _).discardSwaths _).cmp _
  clear_value cleared
  have hfreed : Holds a freed := hcleared.fgd _
  exact .ite (hfreed.freeJob j) ((hfreed.jobState j .stored).setJob j _)

theorem endActive (k : Holds a m) (cause : Nat) (all : Bool) : Holds a (m.endActive cause all) := by
  unfold Mach.endActive
  exact k.forRange 8 fun j m k => .ite ((k.cutJob j cause).endJob j _ _ _) k

/-! ### Frames that close -/

theorem setFrame (k : Holds a m) (c : Nat) (f : Frame) : Holds a (m.setFrame c f) := k.cam _

theorem setDev (k : Holds a m) (d : Nat) (x : Device) : Holds a (m.setDev d x) := k.cam _

theorem setSpill (k : Holds a m) (n : Nat) (us : List OutUnit) : Holds a (m.setSpill n us) := k.cam _

theorem setCamBufs (k : Holds a m) (n : Nat) (bs : List CamBuffer) : Holds a (m.setCamBufs n bs) := k.hst _

theorem refuse (k : Holds a m) (h : DescRef) (st : Status) : Holds a (m.refuse h st) :=
  .ite (k.complete _ _) (k.same (by rfl))

theorem windowFail (k : Holds a m) (h : DescRef) : Holds a (m.windowFail h) := (k.raise _ _ _ _).refuse h .window

theorem cplDrain (k : Holds a m) (t n : Nat) : Holds a (m.cplDrain t n) := by
  induction n generalizing m with
  | zero => exact k
  | succ n ih =>
    unfold Mach.cplDrain
    split
    · exact k
    · exact .ite (ih (k.framed (by simp))) k

theorem drainWaiting (k : Holds a m) : Holds a m.drainWaiting := by
  have hfirst : Holds a m.drainFirst := k.framed (by simp)
  exact .ite hfirst (hfirst.foldl _ fun _ e k => k.cplDrain e.1 _)

theorem bufDone (k : Holds a m) (b : CamBuffer) (u : OutUnit) (value : Nat) (last : Bool) :
    Holds a (m.bufDone b u value last) := k.complete _ _

theorem drainSteps (k : Holds a m) (n fuel left : Nat) : Holds a (m.drainSteps n fuel left) := by
  induction fuel generalizing m left with
  | zero => exact k
  | succ fuel ih =>
    unfold Mach.drainSteps
    split
    · exact ih ((k.setCamBufs _ _).complete _ _) _
    · next b bs u us _ _ _ =>
      extract_lets cut chunk rest filled sent spilt
      have hsent : Holds a sent := .ite k (k.framed (by simp))
      clear_value sent
      have hspilt : Holds a spilt := hsent.setSpill _ _
      clear_value spilt
      exact .ite (ih ((k.setCamBufs n bs).windowFail b.desc) _)
        (.ite (ih (((hsent.setSpill n us).setCamBufs n bs).bufDone b u filled true) _)
          (.ite (ih ((hspilt.setCamBufs n bs).bufDone b u filled false) _) (hspilt.setCamBufs _ _)))
    · exact k

theorem camDrain (k : Holds a m) (n : Nat) : Holds a (m.camDrain n) :=
  .ite k (.ite (.ite k (k.same (by rfl))) (.ite k (k.drainWaiting.drainSteps n _ _)))

theorem unitAdd (k : Holds a m) (n c o : Nat) (frame : Word) (d : List Byte) (f : OutUnit → OutUnit) :
    Holds a (m.unitAdd n c o frame d f) := (k.cam _ : Holds a (m.spillPost n _ d)).setSpill n _

theorem unitPut (k : Holds a m) (n c o : Nat) (frame : Word) (records : Nat) (d : List Byte) :
    Holds a (m.unitPut n c o frame records d) := by
  unfold Mach.unitPut
  split
  · exact k
  · exact .ite k (.ite (k.unitAdd _ _ _ _ _ _) (((k.setSpill _ _).addSat _ _).raise _ _ _ _))

theorem putBoxes (k : Holds a m) (c o n : Nat) (f : Frame) (upTo : Nat) (final : Bool) (fuel b : Nat) :
    Holds a (m.putBoxes c o n f upTo final fuel b) := by
  induction fuel generalizing m b with
  | zero =>
    unfold Mach.putBoxes
    split
    · exact k.setFrame _ _
    · exact k
  | succ fuel ih =>
    unfold Mach.putBoxes
    extract_lets e
    refine .ite (ih (k.unitPut _ _ _ _ _ _) _) ?_
    split
    · exact k.setFrame _ _
    · exact k

theorem produce (k : Holds a m) (c : Nat) (f : Frame) (upTo : Nat) (final : Bool) :
    Holds a (m.produce c f upTo final) := by
  unfold Mach.produce
  refine k.foldl _ fun m o k => ?_
  extract_lets s
  split
  · exact k
  · extract_lets waits headed put
    have hheaded : Holds a headed := .ite k (k.unitAdd _ _ _ _ _ _)
    clear_value headed
    exact .camDrain (.ite (hheaded.putBoxes _ _ _ _ _ _ _ _) (.ite (hheaded.unitPut _ _ _ _ _ _) hheaded)) _

theorem toClosure (k : Holds a m) (c : Nat) (f : Frame) (w : FrameEnd) : Holds a (m.toClosure c f w) :=
  k.foldl _ fun _ _ k => .ite k (k.cls _)

theorem schedUpdate (k : Holds a m) (d : Nat) : Holds a (m.schedUpdate d) := .ite k (k.setDev d _)

theorem closeFrame (k : Holds a m) (c : Nat) (w : FrameEnd) : Holds a (m.closeFrame c w) := by
  unfold Mach.closeFrame
  split
  · exact k
  · next f _ =>
    extract_lets written upTo handed drained _ closed id short long
    have hwritten : Holds a written := .ite (k.setDev _ _) k
    have hhanded : Holds a handed := (hwritten.produce _ _ _ _).toClosure _ _ _
    have hdrained : Holds a drained := by
      refine hhanded.foldl _ fun m o k => .ite ?_ k
      extract_lets n
      split
      · exact k
      · exact .camDrain (k.unitAdd _ _ _ _ _ _) _
    have hclosed : Holds a closed := hdrained.cam _
    have hshort : Holds a short := .ite (hclosed.raise _ _ _ _) hclosed
    have hlong : Holds a long := .ite (hshort.raise _ _ _ _) hshort
    exact hlong.schedUpdate _

end Sys2Proof.Course.Holds
end

section
/-! SUPPORT. The statement on mode requests (R494). -/

namespace Sys2Proof.Course

open Sys2Proof Sys2Proof.Machine Sys2Proof.Laws Sys2Proof.Scope Sys2Proof.Stations Sys2Proof.Guard
open Sys2Proof.Whole Sys2Proof.Startup Sys2Proof.JobStore

/-! ### What a mode request reads (R494) -/

/-- What the conditions of R494 read, and the clock. -/
structure Asked (a m : Mach) : Prop where
  glb : m.glb = a.glb
  chn : m.chn = a.chn
  dtm : m.dtm = a.dtm
  skx : m.skx = a.skx
  vgp : m.vgp = a.vgp
  stopped : m.hst.stopped = a.hst.stopped
  hubs : ∀ h, m.rd (Reg.SKX_HUB_CFG h) = a.rd (Reg.SKX_HUB_CFG h)

namespace Asked

variable {a m : Mach}

theorem refl (m : Mach) : Asked m m := ⟨rfl, rfl, rfl, rfl, rfl, rfl, fun _ => rfl⟩

theorem trans {n : Mach} (k : Asked a m) (l : Asked m n) : Asked a n :=
  ⟨l.glb.trans k.glb, l.chn.trans k.chn, l.dtm.trans k.dtm, l.skx.trans k.skx, l.vgp.trans k.vgp,
    l.stopped.trans k.stopped, fun h => (l.hubs h).trans (k.hubs h)⟩

theorem foldl {α : Type} {f : Mach → α → Mach} (k : Asked a m) (l : List α)
    (h : ∀ m x, Asked a m → Asked a (f m x)) : Asked a (l.foldl f m) := List.foldlRecOn l f k fun m k x _ => h m x k

theorem wr (k : Asked a m) {off : Nat} (v : Nat) (h : ∀ n, off ≠ Reg.SKX_HUB_CFG n) : Asked a (m.wr off v) :=
  k.trans ⟨rfl, rfl, rfl, rfl, rfl, rfl, fun n => rd_wr_ne m v (h n)⟩

theorem checked22 (k : Asked a m) : Asked a (m.checked 22 1 0) := by
  have hcount (n : Nat) : (Reg.CHK_U_COUNT.cnt 22).off ≠ Reg.SKX_HUB_CFG n := by
    simp only [Reg.CHK_U_COUNT.cnt, Reg.SKX_HUB_CFG]
    omega
  have hbad (n : Nat) : (Reg.CHK_U_MISMATCH.cnt 22).off ≠ Reg.SKX_HUB_CFG n := by
    simp only [Reg.CHK_U_MISMATCH.cnt, Reg.SKX_HUB_CFG]
    omega
  exact (k.wr _ hcount).wr _ hbad

theorem sendFarsil (k : Asked a m) (typ : Nat) (mid payload : List Byte) : Asked a (m.sendFarsil typ mid payload) :=
  k.trans ⟨by simp, by simp, by simp, by simp, by simp, by simp, fun h => by simp [Mach.rd]⟩

theorem sendMirror (k : Asked a m) (rs : List MirrorItem) : Asked a (m.sendMirror rs) :=
  k.foldl _ fun _ _ k => k.foldl _ fun _ _ k => k.checked22.sendFarsil _ _ _

theorem ptn (k : Asked a m) (p : Ptn) : Asked a { m with ptn := p } := k.trans
  ⟨rfl, rfl, rfl, rfl, rfl, rfl, fun _ => rfl⟩

theorem mirrorDesc (k : Asked a m) (h : DescRef) (b : DescBody) : Asked a (m.mirrorDesc h b) := by
  unfold Mach.mirrorDesc Mach.mirror
  extract_lets q i
  split
  · exact (k.ptn _).sendMirror [i]
  · exact k

theorem takeDesc (k : Asked a m) (h : DescRef) : Asked a (m.takeDesc h) := k.trans
  ⟨by simp, by simp, by simp, by simp, by simp, rfl, fun h => by simp [Mach.rd]⟩

theorem hubsUp (k : Asked a m) : m.hubsUp = a.hubsUp := by
  have hen (h : Nat) : m.flag (Reg.SKX_HUB_CFG.en h) = a.flag (Reg.SKX_HUB_CFG.en h) := by
    simp only [Mach.flag, Mach.fld, show (Reg.SKX_HUB_CFG.en h).off = Reg.SKX_HUB_CFG h from rfl, k.hubs]
  simp only [Mach.hubsUp, hen, Mach.hub, k.skx]
  rfl

theorem modeCause (k : Asked a m) (t : Nat) : m.modeCause t = a.modeCause t := by
  simp only [Mach.modeCause, Mach.job, k.glb, k.chn, k.hubsUp, k.vgp, k.stopped]
  rfl

end Asked

/-! ### The answers -/

theorem modeAsk_ready {m : Mach} (hm : m.glb.mode = .setup) (hc : m.modeCause 2 = 0) :
    m.modeAsk 2 = (m.modeTo .ready 1, 0, 0) := by
  simp [Mach.modeAsk, hm, hc, Mode.code]

theorem modeAsk_same {m : Mach} (hm : m.glb.mode ≠ .boot) : m.modeAsk m.glb.mode.code = (m, 0, 0) := by
  have hcode : ¬(m.glb.mode.code = 0 ∨ 6 < m.glb.mode.code) := by
    cases h : m.glb.mode <;> simp_all [Mode.code]
  rw [Mach.modeAsk, if_neg hcode, if_pos rfl]

theorem modeAsk_refused {m : Mach} {t : Nat} (hlo : 1 ≤ t) (hhi : t ≤ 6) (ht : t ≠ m.glb.mode.code)
    (hc : m.modeCause t ≠ 0) : m.modeAsk t = (m, 1, m.modeCause t) := by
  rw [Mach.modeAsk, if_neg (by omega), if_neg ht]
  exact if_pos hc

theorem modeAsk_halt {m : Mach} (hm : m.glb.mode = .ready) : m.modeAsk 6 = (m.enterHalt .host [], 0, 0) := by
  have hc : m.modeCause 6 = 0 := by simp [Mach.modeCause, hm]
  simp [Mach.modeAsk, hm, hc, Mode.code, Mach.halt, Mach.inMode]

/-- A request carried out leaves of what `aside` holds only GLB changed. -/
theorem modeAsk_aside {m : Mach} (hm : m.glb.mode = .setup) (hc : m.modeCause 2 = 0) :
    Aside { m with glb := modeGlb m.glb .ready } (m.modeAsk 2).1 := by
  rw [modeAsk_ready hm hc]
  exact modeTo_aside (by rw [hm]; decide) 1

theorem modeGlb_of_setup {g : Glb} (h : g.mode = .setup) : modeGlb g .ready =
    { g with
      mode := .ready, previous := .setup, lockBusy := false
      lockResult := if g.lockBusy then 5 else g.lockResult } := by
  cases hb : g.lockBusy <;> simp [modeGlb, h, hb]

/-! ### HALT (R498) -/

/-- GLB changed as it is in the machine compared with. -/
theorem Holds.withGlb {a m : Mach} (k : Holds a m) (f : Glb → Glb) :
    Holds { a with glb := f a.glb } { m with glb := f m.glb } := by
  simp only [Holds, course, k.glb, k.chn, k.dtm, k.state]

theorem haltCause_holds {a m : Mach} (k : Holds a m) (c : HaltCause) : Holds a (m.haltCause c) :=
  .ite (.ite ((k.setFld _ _).setFld _ _) (.ite (k.setFld _ _) k)) (k.setFld _ _)

/-- The module as it enters HALT, its tick and causes noted and its work ended, before GLB_MODE takes HALT. -/
def haltWorked (m : Mach) (c : HaltCause) (others : List HaltCause) : Mach :=
  let m := m.stnSafe 1
  let m := { m with glb := { m.glb with haltTick := some m.now } }
  let m := others.foldl Mach.haltCause (m.setFld Reg.GLB_HALT.cause c.code)
  let m := if m.isBacksight then m else m.endActive 8 true
  let m : Mach := forRange 8 (fun c (m : Mach) => m.closeFrame c .halted) (m.discardSwaths fun _ => true)
  m.motHalt

theorem enterHalt_eq (m : Mach) (c : HaltCause) (others : List HaltCause) : m.enterHalt c others =
    ((haltWorked m c others).modeTo .halt 4).raise Ev.halt .fatal
      (((haltWorked m c others).modeTo .halt 4).fld Reg.GLB_HALT.cause)
      (((haltWorked m c others).modeTo .halt 4).fld alsoField) := by
  simp only [Mach.enterHalt, haltWorked]

theorem haltWorked_holds (m : Mach) (c : HaltCause) (others : List HaltCause) :
    Holds { m with glb := { m.glb with haltTick := some m.now } } (haltWorked m c others) := by
  unfold haltWorked
  extract_lets _ safe _ ticked caused ended closed
  have hsafe : Holds m safe := (Holds.refl m).stnSafe 1
  have hticked : Holds { m with glb := { m.glb with haltTick := some safe.now } } ticked :=
    hsafe.withGlb fun g => { g with haltTick := some safe.now }
  rw [show safe.now = m.now by rw [Mach.now, Mach.now, hsafe.dtm]] at hticked
  clear_value ticked
  have hcaused : Holds _ caused := (hticked.setFld _ _).foldl _ fun _ c k => haltCause_holds k c
  have hended : Holds _ ended := .ite hcaused (hcaused.endActive _ _)
  have hclosed : Holds _ closed := hended.discardSwaths _ |>.forRange 8 fun c _ k => k.closeFrame c .halted
  exact hclosed.motHalt

/-- HALT is entered with its tick; GLB is otherwise as a change of mode leaves it, and the clock stays. -/
theorem enterHalt_glb (m : Mach) (hm : m.glb.mode ≠ .halt) (c : HaltCause) (others : List HaltCause) :
    (m.enterHalt c others).glb = modeGlb { m.glb with haltTick := some m.now } .halt ∧
      (m.enterHalt c others).dtm = m.dtm := by
  have k := haltWorked_holds m c others
  rw [enterHalt_eq, raise_glb, raise_dtm]
  generalize haltWorked m c others = worked at k
  have hmode : worked.glb.mode ≠ .halt := by
    rw [k.glb]
    exact hm
  have hentered := modeTo_aside hmode 4
  exact ⟨hentered.glb.trans (congrArg (modeGlb · .halt) k.glb), hentered.dtm.trans k.dtm⟩

/-! ### The two requests -/

/-- GLB_MODE_REQ with its answer. -/
def answered (t : Nat) (m : Mach) : Mach :=
  ((m.modeAsk t).1.setFld Reg.GLB_MODE_REQ.result (m.modeAsk t).2.1).setFld Reg.GLB_MODE_REQ.cause (m.modeAsk t).2.2

theorem exec_modeRequest (t : Nat) (s : State) : exec (.modeRequest t) s = s.run (answered t) := rfl

theorem answered_eq {m n : Mach} {t r c : Nat} (h : m.modeAsk t = (n, r, c)) : answered t m =
    (n.setFld Reg.GLB_MODE_REQ.result r).setFld Reg.GLB_MODE_REQ.cause c := by rw [answered, h]

theorem answers_frame (m : Mach) (f : Fld) (v : Nat) (g : Fld) (w : Nat) :
    ((m.setFld f v).setFld g w).glb = m.glb ∧ ((m.setFld f v).setFld g w).dtm = m.dtm := ⟨rfl, rfl⟩

/-- The answer to a descriptor, with its completion. -/
def answeredTo (h : DescRef) (r : Mach × Nat × Nat) : Mach :=
  (r.1.setFld Reg.GLB_MODE_REQ.cause r.2.2).done h
    (if r.2.1 = 0 then .ok else if r.2.1 = 1 then .badState else .badParam)

theorem exec_mode (h : DescRef) (t : Nat) (s : State) : exec (.mode h t) s =
    s.run fun m => m.act h 0x24 false false fun m => answeredTo h ((m.mirrorDesc h (.mode t)).modeAsk t) := rfl

theorem done_setFld_frame (m : Mach) (f : Fld) (v : Nat) (h : DescRef) (st : Status) :
    ((m.setFld f v).done h st).glb = m.glb ∧ ((m.setFld f v).done h st).chn = m.chn ∧
      ((m.setFld f v).done h st).dtm = m.dtm := by
  simp

theorem answeredTo_frame (h : DescRef) (r : Mach × Nat × Nat) :
    (answeredTo h r).glb = r.1.glb ∧ (answeredTo h r).chn = r.1.chn ∧ (answeredTo h r).dtm = r.1.dtm :=
  done_setFld_frame r.1 _ _ h _

/-- A running module that no stop, HALT or BACKSIGHT bars acts on the descriptor that its ring holds. -/
theorem act_of_held {s : State} {h : DescRef} {op : Nat} (hh : Held s h op) (hstop : s.m.hst.stopped = false)
    (hhalt : s.m.glb.mode ≠ .halt) (hback : s.m.glb.mode ≠ .backsight) (f : Mach → Mach) :
    s.m.act h op false false f = f (s.m.takeDesc h) := by
  obtain ⟨hheld, hop⟩ := hh
  simp [Mach.act, hheld, hop, hstop, Mach.inMode, Mach.isBacksight, hhalt, hback]

/-- Settles O32: a request carried out by `modeTo_aside`, HALT by `enterHalt_glb`, the others by their answer alone. -/
theorem modesAreAskedFor : Obligations.ModesAreAskedFor := by
  refine ⟨fun s h hm hc => ?carried, fun s t h hlo hhi ht hc => ?refused, fun s h hm => ?same, fun s h hm => ?halts,
    fun s h r hh hstop hm hc => ?descriptor, fun s h t d r hh hd hstop hm hmir hlo hhi ht hc => ?badState⟩
  case carried =>
    have k : Aside _ (answered 2 s.m) := ((modeAsk_aside hm hc).setFld _ _).setFld _ _
    refine reaches_of_exec (exec_modeRequest 2 s) h rfl k fun m k => ?_
    exact ⟨k.glb.trans (modeGlb_of_setup hm), k.chn, k.dtm, k.hst, k.stn⟩
  case refused =>
    exact becomes_of_exec (exec_modeRequest t s) h (answered_eq (modeAsk_refused hlo hhi ht hc))
      (((Keeps.refl s.m).setFld _ _).setFld _ _)
  case same =>
    exact becomes_of_exec (exec_modeRequest _ s) h (answered_eq (modeAsk_same hm))
      (((Keeps.refl s.m).setFld _ _).setFld _ _)
  case halts =>
    obtain ⟨hglb, hdtm⟩ := enterHalt_glb s.m (by rw [hm]; decide) .host []
    refine Partner.reaches_settled (exec_modeRequest 6 s) h (answered_eq (modeAsk_halt hm)) ?_
    obtain ⟨hglb', hdtm'⟩ := answers_frame (s.m.enterHalt .host []) Reg.GLB_MODE_REQ.result 0 Reg.GLB_MODE_REQ.cause 0
    generalize Mach.setFld _ _ _ = n at hglb' hdtm'
    rw [hglb] at hglb'
    have hmode : n.glb.mode = .halt := congrArg Glb.mode hglb'
    rw [settle_glb, settle_dtm]
    exact ⟨hmode, (congrArg Glb.previous hglb').trans hm, congrArg Glb.haltTick hglb',
      headPwr_of_halt (settle_safe _) ((congrArg Glb.mode (settle_glb _)).trans hmode), hdtm'.trans hdtm⟩
  case descriptor =>
    have k := ((Asked.refl s.m).takeDesc h).mirrorDesc h (.mode 2)
    have hmode := (congrArg Glb.mode k.glb).trans hm
    have kready := modeAsk_aside hmode ((k.modeCause 2).trans hc)
    obtain ⟨hglb, hchn, hdtm⟩ := answeredTo_frame h (((s.m.takeDesc h).mirrorDesc h (.mode 2)).modeAsk 2)
    replace hglb := hglb.trans kready.glb
    refine Partner.reaches_settled (exec_mode h 2 s) r
      (act_of_held hh hstop (by rw [hm]; decide) (by rw [hm]; decide) _) ?_
    generalize answeredTo h _ = n at hglb hchn hdtm
    rw [settle_glb, settle_chn, settle_dtm]
    exact ⟨congrArg Glb.mode hglb, (congrArg Glb.previous hglb).trans hmode, 
      (hchn.trans kready.chn).trans k.chn, (hdtm.trans kready.dtm).trans k.dtm⟩
  case badState =>
    have k : Asked s.m d := hd ▸ (Asked.refl s.m).takeDesc h
    have halone : d.mirroring = false := by simpa [hd, Mach.mirroring] using hmir
    have hcause : d.modeCause t = s.m.modeCause t := k.modeCause t
    have hasked : d.modeAsk t = (d, 1, s.m.modeCause t) := by
      rw [← hcause]
      exact modeAsk_refused hlo hhi (by rw [k.glb, hm]; exact ht) (by rw [hcause]; exact hc)
    refine becomes_of_exec (exec_mode h t s) r
      ((act_of_held hh hstop (by rw [hm]; decide) (by rw [hm]; decide) _).trans ?_) ?_
    · rw [← hd, mirrorDesc_of_not_mirroring halone, answeredTo, hasked]
      rfl
    · have kd : Keeps s.m d := hd ▸ ((KeepsJobs.refl s.m).takeDesc h).keeps
      exact (kd.setFld _ _).complete h _

end Sys2Proof.Course
end

section
/-! SUPPORT. The statement on strips, overrides and the bench (R365, R370), which fails. -/

namespace Sys2Proof.Exceptions

open Sys2Proof Sys2Proof.Machine Sys2Proof.Laws

/-! ### A strip that waits twice (R365) -/

/-- A strip. -/
def someStrip : StripAt :=
  { job := 0, tag := 0, num := 0, rows := [], pitch := 0, guard := 0, guardCols := 0, gFirst := 0, gLast := 0, tint := 0
    cfg := 0, loop := 0, ours := true }

/-- The unit that context 0 has measured of it. -/
def itsUnit : StatUnit :=
  { ctx := 0, out := 0, frame := 0, strip := some someStrip, first := 0, base := 0, k := 0, stats := true, rows := []
    unit := { ctx := 0, out := 0, frame := 0 } }

/-- The unit has come, and the strip waits in two entries: for contexts 0 and 1, and for contexts 0 and 2. -/
def stripListedTwice : State :=
  { m := { glb := { mode := .run }
           cls := { units := [itsUnit], strips := [(someStrip, [0, 1]), (someStrip, [0, 2])] } } }

/-- Each entry of the strip takes what the first still waits for. -/
theorem statsUnit_stripListedTwice : ∃ m, exec .statsUnit stripListedTwice = .next { stripListedTwice with m := m } ∧
    m.cls.strips = [(someStrip, [1]), (someStrip, [1])] := ⟨_, rfl, by decide +kernel⟩

/-- Refutes O60: where a unit is not its strip's last, the module gives every entry of the strip the contexts that the
first of them still waits for, while the clause, whose bound `e` stands for each entry in turn, gives each its own. No
hypothesis lists a strip once, and of two entries the second comes out otherwise. -/
theorem not_closureMeasures : ¬ Obligations.ClosureMeasures := by
  rintro ⟨-, -, hunits, -⟩
  obtain ⟨-, hclosure⟩ := hunits stripListedTwice itsUnit [] (by decide) rfl
  obtain ⟨-, hstats⟩ := hclosure rfl rfl
  obtain ⟨hwaits, -⟩ := hstats someStrip (someStrip, [0, 1]) rfl rfl (by decide)
  obtain ⟨m, hm, hstrips⟩ := statsUnit_stripListedTwice
  have hbecomes := hm.symm.trans (hwaits (by decide))
  injection hbecomes with hstate
  injection hstate with hmach
  rw [hmach] at hstrips
  exact absurd hstrips (by decide)

end Sys2Proof.Exceptions
end

section
/-! SUPPORT. The statement on the planner tick (R436, R440, R447, R457). -/

namespace Sys2Proof.Axes

open Sys2Proof Sys2Proof.Machine Sys2Proof.Laws Sys2Proof.Scope Sys2Proof.Stations Sys2Proof.Datum
open Sys2Proof.Whole Sys2Proof.Memory

/-! ### A loop of which one step acts -/

/-- A loop whose steps but one leave the machine as it is, before that one and after. -/
theorem forRange_of_one {α : Type} {f : Nat → α → α} {n a : Nat} {p q : α} (ha : a < n)
    (hbefore : ∀ b < n, b ≠ a → f b p = p) (hat : f a p = q) (hafter : ∀ b < n, b ≠ a → f b q = q) :
    forRange n f p = q := by
  have hsteps : ∀ k ≤ n, forRange k f p = if a < k then q else p := by
    intro k hk
    induction k with
    | zero => simp [forRange]
    | succ k ih =>
      have hlast : forRange (k + 1) f p = f k (forRange k f p) := by
        simp [forRange, List.range_succ]
      rw [hlast, ih (by omega)]
      rcases Nat.lt_trichotomy a k with h | rfl | h
      · rw [if_pos h, if_pos (by omega), hafter k (by omega) (by omega)]
      · rw [if_neg (by omega), if_pos (by omega), hat]
      · rw [if_neg (by omega), if_neg (by omega), hbefore k (by omega) (by omega)]
  rw [hsteps n (Nat.le_refl n), if_pos ha]

/-- A loop whose steps all leave the machine as it is. -/
theorem forRange_of_none {α : Type} {f : Nat → α → α} {p : α} (n : Nat) (h : ∀ b < n, f b p = p) :
    forRange n f p = p := by
  induction n with
  | zero => rfl
  | succ n ih =>
    have hlast : forRange (n + 1) f p = f n (forRange n f p) := by simp [forRange, List.range_succ]
    rw [hlast, ih fun b hb => h b (by omega), h n (by omega)]

/-! ### One axis listed -/

/-- The module with one axis listed. -/
def lone (m : Mach) (a : Nat) (x : Axis) : Mach := { m with mot := { m.mot with axis := [(a, x)] } }

theorem lone_self {m : Mach} {a : Nat} {x : Axis} (h : m.mot.axis = [(a, x)]) : lone m a x = m := by
  rw [lone, ← h]

theorem axis_lone (m : Mach) (a : Nat) (x : Axis) : (lone m a x).axis a = x := by
  simp [Mach.axis, lone, Tab.get, Tab.getD]

theorem axis_lone_ne (m : Mach) {a b : Nat} (x : Axis) (h : b ≠ a) : (lone m a x).axis b = {} := by
  simp [Mach.axis, lone, Tab.get, Tab.getD, h.symm]

/-- An axis that holds is listed. -/
theorem ne_default_of_hold {x : Axis} (h : x.state = .hold) : x ≠ {} := by
  rintro rfl
  cases h

theorem setAxis_lone (m : Mach) (a : Nat) (x : Axis) {y : Axis} (h : y.state = .hold) :
    (lone m a x).setAxis a y = lone m a y := by
  have hset : Tab.set {} [(a, x)] a y = [(a, y)] := (if_neg (ne_default_of_hold h)).trans (if_pos rfl)
  simp only [Mach.setAxis, lone, hset]

theorem setFld_lone (m : Mach) (a : Nat) (x : Axis) (f : Fld) (v : Nat) :
    (lone m a x).setFld f v = lone (m.setFld f v) a x := rfl

theorem glb_lone (m : Mach) (a : Nat) (x : Axis) : (lone m a x).glb = m.glb := rfl

theorem fld_lone (m : Mach) (a : Nat) (x : Axis) (f : Fld) : (lone m a x).fld f = m.fld f := rfl

theorem lone_of_mot {m n : Mach} (h : n.mot = m.mot) (a : Nat) (x : Axis) :
    ({ n with mot := { m.mot with axis := [(a, x)] } } : Mach) = lone n a x := by
  rw [lone, h]

/-- An axis unlisted stays so at its reset value. -/
theorem setAxis_lone_ne (m : Mach) {a b : Nat} (x : Axis) (h : b ≠ a) : (lone m a x).setAxis b {} = lone m a x := by
  simp [Mach.setAxis, lone, Tab.set, Tab.setD, Tab.erase, h.symm]

/-! ### The registers of the axes -/

/-- The registers that hold a command's answer are none of those that say where an axis goes or its window lies. -/
theorem rd_answered (m : Mach) {off : Nat} (a v w : Nat) (h : (off - 0x100104) % 0x100 ≠ 0 ∨ off < 0x100104) :
    ((m.setFld (Reg.MOT_A_CMD.busy a) v).setFld (Reg.MOT_A_CMD.result a) w).rd off = m.rd off := by
  have hoff : 0x100104 + 0x100 * a ≠ off := by omega
  exact (rd_wr_ne _ _ hoff).trans (rd_wr_ne _ _ hoff)

theorem signed_32_range (n : Nat) : -2147483648 ≤ signed 32 n ∧ signed 32 n < 2147483648 := by
  unfold signed
  simp only [Nat.reduceSub, Nat.reducePow]
  by_cases h : n % 4294967296 < 2147483648
  · rw [if_pos h]
    omega
  · rw [if_neg h]
    omega

/-- A target of 32 bits is a position. -/
theorem wrapPos_target (m : Mach) (a : Nat) : wrapPos (m.sfld (Reg.MOT_A_STG_TARGET.target a) * ustep) =
    m.sfld (Reg.MOT_A_STG_TARGET.target a) * ustep := by
  obtain ⟨hlo, hhi⟩ : -2147483648 ≤ m.sfld (Reg.MOT_A_STG_TARGET.target a) ∧
      m.sfld (Reg.MOT_A_STG_TARGET.target a) < 2147483648 := signed_32_range _
  generalize m.sfld (Reg.MOT_A_STG_TARGET.target a) = p at hlo hhi
  unfold wrapPos signed unsigned ustep
  simp only [Nat.reduceSub, Nat.reducePow]
  split <;> omega

/-! ### The stages of the tick (R440) -/

/-- An axis that nothing is listed for takes no command. -/
theorem takes_of_unlisted (m : Mach) {a b : Nat} (x : Axis) (h : b ≠ a) :
    ((lone m a x).takeCmd b).takeMoves b = lone m a x := by
  have hcmd : (lone m a x).takeCmd b = lone m a x := by simp [Mach.takeCmd, axis_lone_ne m x h]
  rw [hcmd, Mach.takeMoves, axis_lone_ne m x h]
  exact setAxis_lone_ne m x h

/-- The axis once SET_POS has set it. -/
def setTo (x : Axis) (p : Int) : Axis :=
  { x with cmd := none, pos := p * ustep, posLow := 0, posValid := true, target := p }

/-- The answer OK to a command of an axis. -/
def answeredOk (m : Mach) (a : Nat) : Mach := (m.setFld (Reg.MOT_A_CMD.busy a) 0).setFld (Reg.MOT_A_CMD.result a) 0

/-- SET_POS of an axis that holds. -/
theorem doOp_setPos (m : Mach) (a : Nat) {x : Axis} (hs : x.state = .hold) :
    (lone m a x).doOp a .setPos = lone m a { x with
      pos := m.sfld (Reg.MOT_A_STG_TARGET.target a) * ustep, posLow := 0, posValid := true
      target := m.sfld (Reg.MOT_A_STG_TARGET.target a) } := by
  have htarget : (lone m a x).sfld (Reg.MOT_A_STG_TARGET.target a) = m.sfld (Reg.MOT_A_STG_TARGET.target a) := rfl
  have hmoving : ¬ x.state = .moving := by rw [hs]; decide
  simp only [Mach.doOp, axis_lone, htarget, Axis.put, wrapPos_target, if_neg hmoving]
  exact setAxis_lone m a x hs

/-- A command that needs no limits is taken from an enabled axis that holds. -/
theorem motResult_setPos {m : Mach} {a : Nat} {x : Axis} (hmode : m.glb.mode = .ready)
    (hen : m.flag (Reg.MOT_A_CFG.en a) = true) (hs : x.state = .hold) (lim : Limits) :
    (lone m a x).motResult a .setPos lim = 0 := by
  have hworking : (lone m a x).glb.mode.working = true := by rw [show (lone m a x).glb.mode = .ready from hmode]; rfl
  have henabled : (lone m a x).flag (Reg.MOT_A_CFG.en a) = true := hen
  simp [Mach.motResult, axis_lone, hs, hworking, henabled]

theorem answeredOk_glb (m : Mach) (a : Nat) : (answeredOk m a).glb = m.glb := by
  rw [answeredOk, setFld_glb, setFld_glb]

theorem answeredOk_mot (m : Mach) (a : Nat) : (answeredOk m a).mot = m.mot := by
  rw [answeredOk, setFld_mot, setFld_mot]

theorem sfld_answeredOk (m : Mach) (a : Nat) {f : Fld} (h : (f.off - 0x100104) % 0x100 ≠ 0 ∨ f.off < 0x100104) :
    (answeredOk m a).sfld f = m.sfld f := by
  rw [Mach.sfld, Mach.fld, answeredOk, rd_answered m a 0 0 h]
  rfl

/-- An enabled axis that holds takes SET_POS. -/
theorem takes_setPos {m : Mach} {a : Nat} {x : Axis} (hmode : m.glb.mode = .ready)
    (hen : m.flag (Reg.MOT_A_CFG.en a) = true) (hs : x.state = .hold) (hc : x.cmd = some .setPos) (hr : x.req = []) :
    ((lone m a x).takeCmd a).takeMoves a =
      lone (answeredOk m a) a (setTo x (m.sfld (Reg.MOT_A_STG_TARGET.target a))) := by
  have htarget : (answeredOk m a).sfld (Reg.MOT_A_STG_TARGET.target a) = m.sfld (Reg.MOT_A_STG_TARGET.target a) :=
    sfld_answeredOk m a (.inl (by simp only [Reg.MOT_A_STG_TARGET.target]; omega))
  have htaken : (lone m a x).takeCmd a = (lone (answeredOk m a) a { x with cmd := none }).doOp a .setPos := by
    have hcal : ¬(x.state = .cal ∧ AxOp.setPos = .stop) := by rw [hs]; decide
    simp only [Mach.takeCmd, axis_lone, hc, if_neg hcal, motResult_setPos hmode hen hs, if_true]
    rw [setAxis_lone m a x (y := { x with cmd := none }) hs, setFld_lone, setFld_lone, answeredOk]
  rw [htaken, doOp_setPos _ a (x := { x with cmd := none }) hs, htarget]
  rw [Mach.takeMoves, axis_lone]
  simp only [hr, List.foldl_nil]
  refine (setAxis_lone _ a _ ?_).trans ?_
  · exact hs
  · rw [setTo, hr]

/-- The planner of an axis at rest does nothing. -/
theorem planAxis_lone (m : Mach) {a : Nat} {x : Axis} (hs : x.state = .hold) (b : Nat) :
    (lone m a x).planAxis b = lone m a x := by
  unfold Mach.planAxis
  by_cases h : b = a
  · subst h
    simp only [axis_lone, hs]
  · simp only [axis_lone_ne m x h]

/-- Compare units at reset do nothing. -/
theorem cmpTick_lone (m : Mach) {a : Nat} {x : Axis} (h0 : x.cmp0 = {}) (h1 : x.cmp1 = {}) (b u : Nat) :
    (lone m a x).cmpTick b u = lone m a x := by
  have hunit : ((lone m a x).axis b).cmp u = {} := by
    by_cases h : b = a
    · subst h
      rw [axis_lone, Axis.cmp, h0, h1, ite_self]
    · rw [axis_lone_ne m x h, Axis.cmp, ite_self]
  simp [Mach.cmpTick, hunit]

/-- A print window that names no plane inhibits none: `within` alone is judged. -/
theorem windowTick_lone (m : Mach) {a : Nat} {x : Axis} {p : Int} (hplanes : m.fld (Reg.MOT_A_WIN_PLANES.planes a) = 0)
    (hs : x.state = .hold) (hi : x.inhibit = false) (hpos : x.pos = p * ustep) :
    (lone m a x).windowTick a = lone m a { x with
      within := decide (m.sfld (Reg.MOT_A_WIN_LO.lo a) ≤ p ∧ p ≤ m.sfld (Reg.MOT_A_WIN_HI.hi a)) } := by
  have hwithin : (lone m a x).inWindow a =
      decide (m.sfld (Reg.MOT_A_WIN_LO.lo a) ≤ p ∧ p ≤ m.sfld (Reg.MOT_A_WIN_HI.hi a)) := by
    rw [Mach.inWindow, axis_lone, hpos, Bool.decide_and]
    have hstep (i j : Int) : (i * ustep ≤ j * ustep) = (i ≤ j) := by
      unfold ustep
      exact propext (by omega)
    simp only [hstep]
    rfl
  have hnone : (lone m a x).fld (Reg.MOT_A_WIN_PLANES.planes a) = 0 := hplanes
  simp only [Mach.windowTick, hnone, hwithin, axis_lone, ne_eq, not_true, decide_false, Bool.and_false, Bool.false_and, hi,
    if_true]
  rw [setAxis_lone m a x (y := { x with inhibit := false, within := _ }) hs, ← hi]

/-- The window of an axis that is not listed lies above where it stands. -/
theorem windowTick_lone_ne (m : Mach) {a b : Nat} (x : Axis) (h : b ≠ a)
    (hplanes : m.fld (Reg.MOT_A_WIN_PLANES.planes b) = 0) (hlo : 0 < m.sfld (Reg.MOT_A_WIN_LO.lo b)) :
    (lone m a x).windowTick b = lone m a x := by
  have hnone : (lone m a x).fld (Reg.MOT_A_WIN_PLANES.planes b) = 0 := hplanes
  have houtside : (lone m a x).inWindow b = false := by
    have hbelow : ¬ (lone m a x).sfld (Reg.MOT_A_WIN_LO.lo b) * ustep ≤ 0 := by
      rw [show (lone m a x).sfld (Reg.MOT_A_WIN_LO.lo b) = m.sfld (Reg.MOT_A_WIN_LO.lo b) from rfl, ustep]
      omega
    simp [Mach.inWindow, axis_lone_ne m x h, hbelow]
  simp only [Mach.windowTick, hnone, houtside, axis_lone_ne m x h, ne_eq, not_true, decide_false, Bool.and_false,
    Bool.false_and, if_true]
  exact setAxis_lone_ne m x h

/-! ### The coils (R442) -/

/-- DRAM, the fuses, head power, the registers and every axis but one are kept. -/
structure Turns (c : Nat) (a m : Mach) : Prop where
  keeps : Keeps a m
  regs : m.regs = a.regs
  others : ∀ b ≠ c, m.axis b = a.axis b

namespace Turns

variable {c : Nat} {a m : Mach}

theorem refl (c : Nat) (m : Mach) : Turns c m m := ⟨.refl m, rfl, fun _ _ => rfl⟩

theorem ite {p : Prop} [Decidable p] {n : Mach} (km : Turns c a m) (kn : Turns c a n) : Turns c a (if p then m else n) := by
  split
  · exact km
  · exact kn

theorem setAxis (k : Turns c a m) (x : Axis) : Turns c a (m.setAxis c x) :=
  ⟨k.keeps.setAxis c x, k.regs, fun b h => (get_set_ne _ _ _ _ _ h.symm).trans (k.others b h)⟩

theorem emit (k : Turns c a m) (o : Output) : Turns c a (m.emit o) :=
  ⟨k.keeps.emit o, Eq.trans (by simp) k.regs, fun b h => (axis_of_mot (by simp) b).trans (k.others b h)⟩

theorem coilStep (k : Turns c a m) (code : Option (Int × Int)) : Turns c a (m.coilStep c code) := by
  unfold Mach.coilStep
  extract_lets x d r driven safe
  have hdriven : Turns c a driven := k.setAxis _
  clear_value driven
  have hsafe : Turns c a safe := .ite hdriven (hdriven.emit _)
  exact .ite (.ite hdriven (hdriven.emit _)) (.ite (hsafe.emit _) hsafe)

end Turns

/-- A microsecond of the coils of an axis shows the currents measured, and leaves the other axes. -/
theorem driveCoils_eq (m : Mach) (a : Nat) (codes : List (Int × Int)) : m.driveCoils a codes = m ∨ ∃ n v w,
    Turns a m n ∧
      m.driveCoils a codes = (n.setFld (Reg.MOT_A_CUR_NOW.a a) v).setFld (Reg.MOT_A_CUR_NOW.b a) w := by
  unfold Mach.driveCoils
  split
  · exact .inl rfl
  · exact .inr ⟨_, _, _, List.foldlRecOn _ _ (.refl a m) fun _ k _ _ => k.coilStep _, rfl⟩

theorem driveCoils_keeps (m : Mach) (a : Nat) (codes : List (Int × Int)) : Keeps m (m.driveCoils a codes) := by
  obtain h | ⟨n, v, w, k, h⟩ := driveCoils_eq m a codes <;> rw [h]
  · exact .refl m
  · exact (k.keeps.setFld _ _).setFld _ _

theorem driveCoils_axis_ne (m : Mach) {a b : Nat} (codes : List (Int × Int)) (hb : b ≠ a) :
    (m.driveCoils a codes).axis b = m.axis b := by
  obtain h | ⟨n, v, w, k, h⟩ := driveCoils_eq m a codes <;> rw [h]
  exact k.others b hb

theorem driveCoils_planes (m : Mach) (a b : Nat) (codes : List (Int × Int)) :
    (m.driveCoils a codes).fld (Reg.MOT_A_WIN_PLANES.planes b) = m.fld (Reg.MOT_A_WIN_PLANES.planes b) := by
  obtain h | ⟨n, v, w, k, h⟩ := driveCoils_eq m a codes <;> rw [h]
  have hoff : 0x10015C + 0x100 * a ≠ 0x10014C + 0x100 * b := by omega
  have hrd : ((n.setFld (Reg.MOT_A_CUR_NOW.a a) v).setFld (Reg.MOT_A_CUR_NOW.b a) w).rd (0x10014C + 0x100 * b) =
      m.rd (0x10014C + 0x100 * b) := by
    refine (rd_wr_ne _ _ hoff).trans ((rd_wr_ne _ _ hoff).trans ?_)
    rw [Mach.rd, k.regs, Mach.rd]
  rw [Mach.fld, Mach.fld, show (Reg.MOT_A_WIN_PLANES.planes b).off = 0x10014C + 0x100 * b from rfl, hrd]

/-- An axis at its reset value has no coils to drive. -/
theorem driveCoils_of_unlisted {m : Mach} {b : Nat} (codes : List (Int × Int)) (h : m.axis b = {}) :
    m.driveCoils b codes = m := by
  rw [Mach.driveCoils, h]
  rfl

/-- The planes that windows inhibit are none where no window names one. -/
theorem windowPlanes_of_none {m : Mach} (h : ∀ b < 12, m.fld (Reg.MOT_A_WIN_PLANES.planes b) = 0) :
    m.windowPlanes = 0 := by
  unfold Mach.windowPlanes
  refine List.foldlRecOn (motive := (· = 0)) _ _ rfl fun n hn b hb => ?_
  rw [h b (List.mem_range.mp hb), hn, Nat.or_zero, ite_self]

/-! ### The tick (R436, R461, R468) -/

/-- What a due planner tick does (R436, R440), as the command's text has it. -/
def planned (senses : List AxisSense) (m : Mach) : Mach :=
  let m : Mach := forRange 12 (fun a (m : Mach) => (m.takeCmd a).takeMoves a) m
  let m : Mach := forRange 12 (fun a (m : Mach) => m.planAxis a) m
  let m : Mach := if m.glb.mode.working then forRange 12 (fun a (m : Mach) => (m.cmpTick a 0).cmpTick a 1) m else m
  let m : Mach := forRange 12 (fun a (m : Mach) => m.windowTick a) m
  let m : Mach := forRange 12 (fun a (m : Mach) => m.driveCoils a (senses.getD a {}).codes) m
  { m with mot := { m.mot with planes := m.windowPlanes } }

/-- 1 µs is 500 DTM ticks. -/
theorem planner_due {m : Mach} (h : m.lastBeat .plan + 500 ≤ m.now) (f : Mach → Mach) :
    m.onBeat .plan ticksUs f = f (m.beaten .plan) := onBeat_of_due h f

theorem planner_early {m : Mach} (h : m.now < m.lastBeat .plan + 500) (f : Mach → Mach) :
    m.onBeat .plan ticksUs f = m := onBeat_of_early h f

theorem exec_plannerTick (senses : List AxisSense) (s : State) : exec (.plannerTick senses) s =
    s.run fun m => if m.shed then m else m.onBeat .plan ticksUs (planned senses) := rfl

/-- The planner tick of the module with one axis listed: enabled and holding, with SET_POS to take. -/
theorem planned_setPos {m : Mach} {a : Nat} {x : Axis} {p : Int} (senses : List AxisSense) (ha : a < 12)
    (hlist : m.mot.axis = [(a, x)]) (hmode : m.glb.mode = .ready) (hen : m.flag (Reg.MOT_A_CFG.en a) = true)
    (hs : x.state = .hold) (hc : x.cmd = some .setPos) (hr : x.req = []) (h0 : x.cmp0 = {}) (h1 : x.cmp1 = {})
    (hi : x.inhibit = false) (hplanes : ∀ b < 12, m.fld (Reg.MOT_A_WIN_PLANES.planes b) = 0)
    (hlo : ∀ b < 12, b ≠ a → 0 < m.sfld (Reg.MOT_A_WIN_LO.lo b)) (hp : p = m.sfld (Reg.MOT_A_STG_TARGET.target a))
    {q : Mach} (hq : q = (lone (answeredOk m a) a { setTo x p with
      within := decide (m.sfld (Reg.MOT_A_WIN_LO.lo a) ≤ p ∧ p ≤ m.sfld (Reg.MOT_A_WIN_HI.hi a)) }).driveCoils a
        (senses.getD a {}).codes) : planned senses m = { q with mot := { q.mot with planes := 0 } } := by
  have hplanes' (b : Nat) (hb : b < 12) : (answeredOk m a).fld (Reg.MOT_A_WIN_PLANES.planes b) = 0 := by
    rw [Mach.fld, answeredOk, rd_answered m a 0 0 (.inl (by simp only [Reg.MOT_A_WIN_PLANES.planes]; omega))]
    exact hplanes b hb
  have hlow (b : Nat) : (answeredOk m a).sfld (Reg.MOT_A_WIN_LO.lo b) = m.sfld (Reg.MOT_A_WIN_LO.lo b) :=
    sfld_answeredOk m a (.inl (by simp only [Reg.MOT_A_WIN_LO.lo]; omega))
  have hhigh : (answeredOk m a).sfld (Reg.MOT_A_WIN_HI.hi a) = m.sfld (Reg.MOT_A_WIN_HI.hi a) :=
    sfld_answeredOk m a (.inl (by simp only [Reg.MOT_A_WIN_HI.hi]; omega))
  have htaken : forRange 12 (fun a (m : Mach) => (m.takeCmd a).takeMoves a) m = lone (answeredOk m a) a (setTo x p) := by
    rw [← lone_self hlist, hp]
    exact forRange_of_one ha (fun b _ hb => takes_of_unlisted m x hb) (takes_setPos hmode hen hs hc hr)
      fun b _ hb => takes_of_unlisted _ _ hb
  have hplanned := forRange_of_none (f := fun a (m : Mach) => m.planAxis a) 12
    fun b _ => planAxis_lone (answeredOk m a) (a := a) (x := setTo x p) hs b
  have hworking : (lone (answeredOk m a) a (setTo x p)).glb.mode.working = true := by
    rw [glb_lone, answeredOk_glb, hmode]
    rfl
  have hcompared : forRange 12 (fun a (m : Mach) => (m.cmpTick a 0).cmpTick a 1) (lone (answeredOk m a) a (setTo x p)) =
      lone (answeredOk m a) a (setTo x p) :=
    forRange_of_none 12 fun b _ => by
      rw [cmpTick_lone _ (x := setTo x p) h0 h1, cmpTick_lone _ (x := setTo x p) h0 h1]
  have hjudged := forRange_of_one (f := fun a (m : Mach) => m.windowTick a) ha
    (fun b hlt hb => windowTick_lone_ne _ (setTo x p) hb (hplanes' b hlt) (by rw [hlow]; exact hlo b hlt hb))
    (windowTick_lone _ (x := setTo x p) (p := p) (hplanes' a ha) hs hi rfl)
    fun b hlt hb => windowTick_lone_ne _ _ hb (hplanes' b hlt) (by rw [hlow]; exact hlo b hlt hb)
  rw [hlow, hhigh] at hjudged
  have hdriven := forRange_of_one (f := fun a (m : Mach) => m.driveCoils a (senses.getD a {}).codes) ha
    (fun b _ hb => driveCoils_of_unlisted _ (axis_lone_ne _ _ hb)) hq.symm
    fun b _ hb => driveCoils_of_unlisted _ (by rw [hq, driveCoils_axis_ne _ _ hb, axis_lone_ne _ _ hb])
  have hnone : q.windowPlanes = 0 := by
    refine windowPlanes_of_none fun b hb => ?_
    rw [hq, driveCoils_planes, fld_lone]
    exact hplanes' b hb
  simp only [planned, htaken, hplanned, hworking, if_true, hcompared, hjudged, hdriven, hnone]

/-- Settles O23: each stage of the tick acts on the one axis listed, or on none. -/
theorem plannerTakesACommand : Obligations.PlannerTakesACommand := by
  refine ⟨fun s senses a x p n h ha hpower hlatch hmode hlist hs hc hr h0 h1 hi hen hplanes hlo hp hle hn => ?takes,
    fun s senses h hoff => ?rests⟩
  case takes =>
    have hshed : ¬ s.m.shed = true := by simp [Mach.shed, hpower, hlatch]
    have hfld (f : Fld) : (s.m.beaten .plan).fld f = s.m.fld f := rfl
    have hsfld (f : Fld) : (s.m.beaten .plan).sfld f = s.m.sfld f := rfl
    have hq : n = (lone (answeredOk (s.m.beaten .plan) a) a { setTo x p with
        within := decide (s.m.sfld (Reg.MOT_A_WIN_LO.lo a) ≤ p ∧ p ≤ s.m.sfld (Reg.MOT_A_WIN_HI.hi a)) }).driveCoils a
        (senses.getD a {}).codes := by
      have hmot : (answeredOk (s.m.beaten .plan) a).mot = s.m.mot := (answeredOk_mot _ a).trans rfl
      rw [hn]
      exact congrArg (fun m => Mach.driveCoils m a _) (lone_of_mot hmot a _)
    have hdone := planned_setPos (m := s.m.beaten .plan) senses ha hlist hmode hen hs hc hr h0 h1 hi
      (fun b hb => (hfld _).trans (hplanes b hb)) (fun b hb hne => (hsfld _).symm ▸ hlo b hb hne)
      (hp.trans (hsfld _).symm) (q := n) (by rw [hsfld, hsfld]; exact hq)
    refine becomes_of_exec (exec_plannerTick senses s) h ((if_neg hshed).trans ((planner_due hle _).trans hdone)) ?_
    subst hn
    have hbeaten : Keeps s.m (s.m.beaten .plan) := ⟨rfl, rfl, id⟩
    exact (Keeps.next (((hbeaten.setFld _ _).setFld _ _).mot _) (driveCoils_keeps _ _ _)).mot _
  case rests =>
    refine becomes_same (exec_plannerTick senses s) h ?_
    rcases hoff with hoff | hoff | hoff
    · exact if_pos (by simp [Mach.shed, hoff])
    · exact if_pos (by simp [Mach.shed, hoff])
    · exact ite_eq_left_iff.mpr fun _ => planner_early hoff _

end Sys2Proof.Axes
end
